-- ==== Sys2Proof/Word.lean ====
section
/-! DEFINITION. The word types of the OD4816 model and the shapes its sparse stores and table entries take. -/

namespace Sys2Proof

/-- A register, a table word or a descriptor word: 32 bits (00_scope, "Registers and access"). -/
abbrev Word := BitVec 32

/-- A byte of a packet, of DRAM or of host memory. -/
abbrev Byte := BitVec 8

/-- A sparse store: key and value pairs in one canonical form (keys strictly rising, no value equal to
what an unlisted key reads as). The operations are in Machine/Store.lean. -/
abbrev Tab (α : Type) := List (Nat × α)

/-- The eight words DATA0 to DATA7 of a table entry. -/
structure Entry where
  d0 : Word := 0
  d1 : Word := 0
  d2 : Word := 0
  d3 : Word := 0
  d4 : Word := 0
  d5 : Word := 0
  d6 : Word := 0
  d7 : Word := 0
deriving DecidableEq, Repr, Inhabited

end Sys2Proof
end

