-- ==== Sys2Proof/Syntax.lean ====
section
/-! DEFINITION. The commands the block takes: one constructor per row of spec/opcode_table.json, with the operands a
row carries (what the sender writes, and what arrives from outside: bytes, pins, measurements, and the findings of
engines whose inner work the spec leaves to published standards). -/

namespace Sys2Proof

/-- The two access paths to the registers (R11). -/
inductive Path where
  | pcie | mc
deriving DecidableEq, Repr

/-- Bytes the host has stored in its own memory before the command (address, byte). -/
abbrev HostWrites := List (Nat × Byte)

/-- What the decoder of a codec found in one access unit (R178 to R184): the picture's size, its references by slot
of the slot map, the slots it refreshes, and where syntax ended. -/
structure PicInfo where
  w : Nat := 0
  h : Nat := 0
  depth10 : Bool := false
  key : Bool := false
  seqHdr : Bool := false
  shown : Bool := true
  refs : List Nat := []
  refresh : List Nat := []
  longTerm : Bool := false
  /-- slots the codec's reference process drops beside those refreshed -/
  drops : List Nat := []
  /-- pool buffers the bumping process releases in this access unit, in output order (H.264, H.265) -/
  bump : List Nat := []
  syntaxErr : Nat := 0
  /-- place of its profile in Table 8.1's row (VP8: the version; VP9: the profile) -/
  profile : Nat := 0
  /-- chroma format: 0 monochrome, 1 4:2:0, 2 another -/
  chroma : Nat := 1
  /-- it uses a coding tool of Table 8.1's last column -/
  tool : Bool := false
deriving DecidableEq, Repr

/-- What the search of an encode cell offers for a block of a row: its place and size in luma samples, the vectors of its candidates in
quarter samples, best first, and its intra modes, best first, each by the neighbours it reads (bit 0 left, 1 above, 2 above left,
3 above right). -/
structure Window where
  x : Nat
  y : Nat
  w : Nat
  h : Nat
  vecs : List (Int × Int) := []
  modes : List Nat := []
deriving DecidableEq, Repr

/-- What a cell reports when its job completes a task: the decoded picture's facts, the bits each coded row took and
the mean quantiser, decoded or mixed samples, the packets an encoder made. -/
structure JobResult where
  pic : PicInfo := {}
  rows : List Nat := []
  /-- blocks of each coded row, as the motion search offers them -/
  windows : List (List Window) := []
  quant : Nat := 0
  left : List Int := []
  right : List Int := []
  /-- the next packet carries in-band FEC for the slice -/
  fec : Bool := false
  /-- a channel whose context failed its parity check -/
  ctxErr : Option Nat := none
  /-- packets made: layer, encoding or stream, and payload -/
  packets : List (Nat × List Byte) := []
deriving DecidableEq, Repr

/-- Training of one DRAM channel: its margins (or none: it failed). -/
structure TrainChan where
  ok : Bool := true
  rd : List Nat := []
  wr : List Nat := []
deriving DecidableEq, Repr

/-- Where a time sample comes from (the references of the servo). -/
inductive SampleSrc where
  | ptp | pps | mule | host
deriving DecidableEq, Repr

/-- What ECC found in a DRAM block. -/
inductive Ecc where
  | clean | corrected | uncorrectable
deriving DecidableEq, Repr

/-- One directory entry: its index and words. -/
structure DirEnt where
  idx : Nat
  d : Entry
deriving DecidableEq, Repr

/-- What HELLO found: links up, the other devices (id, ROOSTER_PRI, serial number, whether the path to each uses no tunnel), the
Rooster if there is one, the topology's and the size's check. -/
structure Hello where
  up : Bool := true
  devices : List (Nat × Nat × Nat × Bool) := []
  rooster : Option Nat := none
  badTopology : Bool := false
deriving DecidableEq, Repr

/-- A frame on a Mule link (Table 15.2); its TYPE is the command's. -/
structure MuleFrame where
  crcOk : Bool := true
  cls : Nat := 0
  src : Nat := 0
  dst : Nat := 0
  bcast : Bool := false
  hops : Nat := 0
  flock : Nat := 0
  brood : Nat := 0
  seqn : Nat := 0
  beat : Nat := 0
  payload : List Byte := []
deriving DecidableEq, Repr

/-- What a line module's identification found: whether it could be read, its vendor name and serial number, whether its media type
and lane count suit the port, and its CMIS state. -/
structure ModuleId where
  ok : Bool := true
  vendor : List Byte := []
  serial : List Byte := []
  suits : Bool := true
  cmis : Nat := 3
deriving DecidableEq, Repr

/-- A reading of a line module's monitors: temperature, alarm flag, CMIS state. -/
structure ModuleMon where
  temp : Int := 0
  alarm : Bool := false
  cmis : Nat := 3
deriving DecidableEq, Repr

/-- One hour of a line module: its highest temperature, whether its laser was on, each lane's mean bias, whether the temperature
stood above its own high-warning threshold, and how often it rose above it. -/
structure WearHour where
  maxTemp : Int := 0
  laser : Bool := true
  bias : List Nat := []
  hot : Bool := false
  rises : Nat := 0
deriving DecidableEq, Repr

/-- A reference clock that can stop while the device runs (R390). -/
inductive RefClk where
  | eth (port : Nat) | mule | pcie | tap | freqIn | ppsIn
deriving DecidableEq, Repr

/-- The commands: one constructor per row of the table. -/
inductive Instr where
  /-- REGISTER_WRITE. A host write to a register that has no row of its own sets or ignores its fields by their access codes and reserved-encoding rules. -/
  | registerWrite (p : Path) (off : Nat) (v : Word)
  /-- READ_LO_LATCH. A read of the _LO half of a 64-bit quantity returns it and latches the simultaneous _HI half for the access path. -/
  | readLoLatch (p : Path) (off : Nat)
  /-- WRITE_LO_HOLD. A write of the _LO half is held for the path, replacing any earlier held value. -/
  | writeLoHold (p : Path) (off : Nat) (v : Word)
  /-- WRITE_HI_COMMIT. A write of the _HI half commits both halves in one clock and clears the held low value. -/
  | writeHiCommit (p : Path) (off : Nat) (v : Word)
  /-- RC_READ. A read of an RC counter returns its value and clears it, keeping an increment that falls in the same clock. -/
  | rcRead (p : Path) (off : Nat) (inc : Nat)
  /-- BEAT_BOUNDARY. DT crosses a beat boundary: the beat number advances and the per-beat work of the device begins. -/
  | beatBoundary
  /-- CELL_YIELDED. A cell reaches its safe point, saves its context and reports yielded, so the dispatcher can issue it the new beat's job. -/
  | cellYielded (cell : Nat)
  /-- YIELD_GRACE_EXPIRY. At 3,000 FCLK after the boundary every cell that has not yielded is stopped and reset and its task ended LATE. -/
  | yieldGraceExpiry
  /-- CELL_RESET_DONE. A stopped cell becomes available for new jobs after its reset. -/
  | cellResetDone (cell : Nat)
  /-- JOB_RETIRE. A job completes its task, the task terminates and its outputs are published. -/
  | jobRetire (cell : Nat) (res : JobResult)
  /-- JOB_ISSUE. The dispatcher issues a job to an asking cell (or all cells of a gang) for the best ready or parked task. -/
  | jobIssue (cell : Nat)
  /-- DEADLINE_SETTLE. At the end of the grace after a task's deadline beat its unfinished work is settled under its kind's rule. -/
  | deadlineSettle (task : Nat)
  /-- TASK_WAIT_LIMIT. At beat release plus WAIT_LIMIT a WAITING task becomes READY with missing operands marked MISSING. -/
  | taskWaitLimit (task : Nat)
  /-- MS_SLOT_HOLD_EXPIRY. A matching-store slot whose hold has passed and whose consumers are done is freed, counting UNCLAIMED if never consumed. -/
  | msSlotHoldExpiry (slot : Nat)
  /-- CELL_PARITY_ERROR. A cell's parity or ECC error is retried, and a repeated failure escalates to the block. -/
  | cellParityError (cell : Nat) (again : Bool)
  /-- CACHE_UNCORRECTABLE_ERROR. A block's shared cache reports an uncorrectable error, starting a region scrub. -/
  | cacheUncorrectableError (region : Nat) (block : Nat)
  /-- REGION_SCRUB_DONE. A region scrub ends, escalating to a reload from the stored image if it could not correct or was the second within 10 s. -/
  | regionScrubDone (region : Nat) (corrected : Bool)
  /-- REGION_AUTO_RELOAD_DONE. An automatic region reload ends its verification, rejoining or escalating after a second failure. -/
  | regionAutoReloadDone (region : Nat) (verified : Bool) (bad : List Nat)
  /-- CHIP_FAULT_RESET_TIMER. 600 beats after CHIP_FAULT with CHIP_RESET_EN the MC resets the chip unless a RECOVERY request was accepted. -/
  | chipFaultResetTimer
  /-- TIM_BEAT_OFFSET_WRITE. A write of TIM_BEAT_OFFSET takes effect at the next boundary or is slewed, and is ignored on a non-Rooster. -/
  | timBeatOffsetWrite (p : Path) (v : Word)
  /-- DT_LOAD. In BOOT, CONFIGURE, TRAIN, TEST or RECOVERY DT is loaded from the active privileged member when their difference exceeds TIM_STEP_THRESH. -/
  | dtLoad
  /-- CONFIGURE_LOAD. CFG_CTRL command that runs checks 1 to 8 on all sections, applies the chip section and enters TRAIN. -/
  | configureLoad (p : Path) (v : Word) (hw : HostWrites)
  /-- RELOAD_REGION. CFG_CTRL command that starts an in-service reload of the named region with its CHECK step. -/
  | reloadRegion (p : Path) (v : Word) (hw : HostWrites)
  /-- CANCEL. CFG_CTRL command that ends a reload during CHECK or makes a draining region rejoin with its running image. -/
  | cancel (p : Path) (v : Word)
  /-- CHECK_ONLY. CFG_CTRL command that runs the load checks on the named region and stops. -/
  | checkOnly (p : Path) (v : Word) (hw : HostWrites)
  /-- LOAD_REGION. Mailbox command that performs a configuration command through the CFG registers. -/
  | loadRegion (seq : Nat) (v : Word) (addr : Nat) (len : Nat) (hw : HostWrites)
  /-- RELOAD_CHECK_DONE. The checks of a reload complete and the region begins to DRAIN, TOP_MODE reading RELOAD. -/
  | reloadCheckDone
  /-- RELOAD_DRAIN_DONE. The region's last task leaves it (or its plane's in-flight count reaches zero) and the RELOAD step begins. -/
  | reloadDrainDone (hw : HostWrites)
  /-- RELOAD_DRAIN_LIMIT. At the first boundary 200 ms after the drain began the remaining tasks are ended and counted in CFG_DRAIN_FORCED. -/
  | reloadDrainLimit
  /-- PORT_STEER. In a packet-region drain an ingress port switches to the other plane once its last reorder entry is released. -/
  | portSteer (port : Nat)
  /-- RELOAD_WRITE_DONE. The section has been written into configuration memory and the pending stored image, and VERIFY begins. -/
  | reloadWriteDone
  /-- RELOAD_VERIFY_DONE. The readback hash is compared with the manifest entry; on failure the region falls back to its stored image. -/
  | reloadVerifyDone (storedOk : Bool)
  /-- RELOAD_REJOIN_DONE. After the built-in check the pending image becomes stored and the region is offered to the dispatcher. -/
  | reloadRejoinDone (bad : List Nat)
  /-- TRAIN_DONE. DRAM and SerDes training ends, TRAINED is set or not, and check 9 runs before the region sections. -/
  | trainDone (chans : List TrainChan)
  /-- CONFIGURE_SECTIONS_DONE. The region sections are loaded and copied to the stored-image area and CFG_STATUS reads OK. -/
  | configureSectionsDone
  /-- TSK_TAB_READ. Table access READ of a flock, template, task or slot entry through TSK_TAB_CMD. -/
  | tskTabRead (p : Path) (v : Word)
  /-- TSK_TAB_WRITE. Table access WRITE of a flock dispatcher entry, including phase slots and clearing VALID. -/
  | tskTabWrite (p : Path) (v : Word)
  /-- TSK_ABORT. A write of a task handle to TSK_ABORT starts an abort judged by the task's state. -/
  | tskAbort (p : Path) (v : Word)
  /-- ABORT_RESOLVED. An abort reaches its outcome, TSK_ABORT_RESULT.DONE is set and ABORT_DONE raised. -/
  | abortResolved
  /-- ABORT_STOP_TIMEOUT. An aborted cell not stopped within 3,000 FCLK is reset and CELL_OVERRUN raised, the task staying ABORTED. -/
  | abortStopTimeout
  /-- TSK_POST. The commit of TSK_POST_TAG_HI posts a HOST operand with the latest committed reference. -/
  | tskPost (p : Path) (v : Word)
  /-- HWAIT_ARM. A write arming a host wait on a tag or task handle, or clearing ARM of a live wait. -/
  | hwaitArm (p : Path) (n : Nat) (v : Word)
  /-- HWAIT_CANCEL. A write of CANCEL ends a host wait CANCELLED and raises HWAIT_DONE. -/
  | hwaitCancel (p : Path) (n : Nat) (v : Word)
  /-- HWAIT_TIMEOUT. A host wait whose limit passes ends TIMEOUT and raises HWAIT_DONE. -/
  | hwaitTimeout (n : Nat)
  /-- STALL_TIMEOUT. A stalled empty-queue read reaches TSK_STALL_TIMEOUT and returns TIMEOUT. -/
  | stallTimeout
  /-- COMPLETION_RECORD_WRITE. A terminated HOST_NOTIFY task's record is written to the completion ring when it has room and the task entry is freed. -/
  | completionRecordWrite (task : Nat)
  /-- FRAME_RECEIVED. A frame arrives at a MAC: it is stamped, FCS or runt failures dropped, its payload stored and its headers parsed. -/
  | frameReceived (port : Nat) (bytes : List Byte) (fcsOk : Bool)
  /-- FLOW_BUCKET_FILL. A flow-table bucket fill from DRAM completes and waiting lookups proceed. -/
  | flowBucketFill (plane : Nat) (bucket : Nat)
  /-- PASS_DECISION. ST5 decides the pass's action index and the pass takes a reorder entry. -/
  | passDecision (plane : Nat) (pass : Nat)
  /-- RECIRC_SECOND_PASS. A RECIRC pass re-enters the parse pipeline with STRIP bytes removed under its first-pass epoch. -/
  | recircSecondPass (plane : Nat) (pass : Nat)
  /-- REORDER_RELEASE. A ready reorder entry is released in per-port arrival order and its packet handed on. -/
  | reorderRelease (plane : Nat) (port : Nat)
  /-- FLOW_AGE_SWEEP. The background sweeper removes learned unpinned entries idle for MAT_FLOW_CFG.AGE beats. -/
  | flowAgeSweep (entry : Nat)
  /-- MAT_TAB_READ. MAT_TAB_CMD READ of a match-stage or extmap entry. -/
  | matTabRead (p : Path) (v : Word)
  /-- MAT_TAB_WRITE. MAT_TAB_CMD WRITE, allowed to rule-set tables only in the reclaimed shadow bank, committing flow entries atomically. -/
  | matTabWrite (p : Path) (v : Word)
  /-- MAT_TAB_INSERT. MAT_TAB_CMD INSERT of a flow-table entry. -/
  | matTabInsert (p : Path) (v : Word)
  /-- MAT_TAB_DELETE. MAT_TAB_CMD DELETE of a flow-table entry. -/
  | matTabDelete (p : Path) (v : Word)
  /-- MAT_TAB_LOOKUP. MAT_TAB_CMD LOOKUP of ST2 by key. -/
  | matTabLookup (p : Path) (v : Word)
  /-- MAT_TAB_COPY_ACTIVE. MAT_TAB_CMD COPY_ACTIVE copies the active rule-set bank to the shadow bank. -/
  | matTabCopyActive (p : Path) (v : Word)
  /-- MAT_EPOCH_COMMIT. A write of MAT_EPOCH.COMMIT advances the epoch in both planes, or is refused when RECLAIMED is 0. -/
  | matEpochCommit (p : Path) (v : Word)
  /-- EPOCH_RECLAIMED. Both planes' in-flight counts of the previous epoch reach zero; its bank becomes the shadow and RECLAIMED is set. -/
  | epochReclaimed
  /-- MET_TAB_READ. MET_TAB_CMD READ of a meter or a coherent counter pair. -/
  | metTabRead (p : Path) (v : Word)
  /-- MET_TAB_WRITE. MET_TAB_CMD WRITE of a meter or counter, resetting tokens per TOKEN_INIT. -/
  | metTabWrite (p : Path) (v : Word)
  /-- MET_TAB_READ_CLEAR. MET_TAB_CMD READ_CLEAR returns a counter pair and clears it and its residue. -/
  | metTabReadClear (p : Path) (v : Word) (inc : Nat)
  /-- CIPHER_PLAINTEXT_RELEASE. A cipher cell releases its reorder entry with auth_state PENDING once the first plaintext cell is written. -/
  | cipherPlaintextRelease (plane : Nat) (cell : Nat)
  /-- CIPHER_PROGRAM_END. A cipher cell's mode program ends, the tag is checked and auth_state rewritten PASS or FAIL in place. -/
  | cipherProgramEnd (plane : Nat) (cell : Nat)
  /-- AUTH_TIMEOUT. A packet still PENDING 32,768 FCLK after release is set FAIL and counted. -/
  | authTimeout (pkt : Nat)
  /-- SLOT_LOAD_DONE. A vault unwrap lane finishes a slot load, checking the blob and deriving the keys. -/
  | slotLoadDone (lane : Nat)
  /-- KEY_WAIT_TIMEOUT. A packet still in the key-wait queue 4 beats after arrival is dropped. -/
  | keyWaitTimeout (plane : Nat) (pkt : Nat)
  /-- IMPORT_OPEN. IMPORT_KEYS OPEN decapsulates the ciphertext, derives the import key and returns a session. -/
  | importOpen (seq : Nat) (ct : List Byte) (sig : List Byte)
  /-- IMPORT_WRAP. IMPORT_KEYS WRAP unwraps each key record and rewraps valid ones as handle blobs. -/
  | importWrap (seq : Nat) (session : Nat) (recs : List (List Byte))
  /-- IMPORT_CLOSE. IMPORT_KEYS CLOSE erases a session's import key. -/
  | importClose (seq : Nat) (session : Nat)
  /-- BLOB_GET. IMPORT_KEYS BLOB_GET returns up to 255 handle blobs. -/
  | blobGet (seq : Nat) (first : Nat) (count : Nat)
  /-- BLOB_PUT. IMPORT_KEYS BLOB_PUT writes back up to 253 blobs, checking each. -/
  | blobPut (seq : Nat) (first : Nat) (count : Nat) (blobs : List (List Byte))
  /-- IMPORT_SESSION_EXPIRY. An import session closes itself at the end of its lifetime. -/
  | importSessionExpiry (session : Nat)
  /-- VAULT_ALARM. An alarm source trips: the vault erases keys, burns the epoch mark and TOP_MODE reads ZEROIZE. -/
  | vaultAlarm (src : Nat)
  /-- ZEROIZE_ERASURE_DONE. The keys are erased and the epoch mark burnt, setting VLT_STATUS.ZEROIZED. -/
  | zeroizeErasureDone
  /-- PROVISION. Mailbox command that takes the next zeroize epoch, derives a new storage key and key pair, or reports the current one. -/
  | provision (seq : Nat)
  /-- ATTEST. Mailbox command that returns a signed attestation report over the supplied nonce. -/
  | attest (seq : Nat) (nonce : List Byte)
  /-- VLT_TAB_READ. VLT_TAB_CMD READ of a leg binding, handle state or slot state. -/
  | vltTabRead (p : Path) (v : Word)
  /-- VLT_TAB_WRITE. VLT_TAB_CMD WRITE of a leg binding, taking effect for programs started after the commit. -/
  | vltTabWrite (p : Path) (v : Word)
  /-- QUE_READ. Queue operation READ returning the descriptor at READ, releasing it in non-retaining kinds. -/
  | queRead (p : Path) (v : Word)
  /-- QUE_MARK. Queue operation MARK setting MARK to READ. -/
  | queMark (p : Path) (v : Word)
  /-- QUE_REWIND. Queue operation REWIND setting READ to MARK. -/
  | queRewind (p : Path) (v : Word)
  /-- QUE_SKIP. Queue operation SKIP advancing READ by up to n. -/
  | queSkip (p : Path) (v : Word)
  /-- QUE_RELEASE. Queue operation RELEASE moving RELEASE to p, discarding unread items passed. -/
  | queRelease (p : Path) (v : Word)
  /-- QUE_FLUSH. Queue operation FLUSH releasing every item and clearing the mark. -/
  | queFlush (p : Path) (v : Word)
  /-- QUE_HEAD_REFILL_DONE. A READ that needed the spill chain refills the head and returns its descriptor. -/
  | queHeadRefillDone
  /-- SPILL_MOVE_DONE. The spill mover finishes copying an item's payload to DRAM cells and frees its burst-store cells. -/
  | spillMoveDone (queue : Nat)
  /-- HISTORY_AGE. At the start of each beat the ager releases history items older than AGE or beyond COUNT. -/
  | historyAge
  /-- FC_OUTPUT_CHANGE. A flow-control output follows a change of its groups' watermark flags, asserting or releasing pause, PFC, Mule credit or a pin. -/
  | fcOutputChange (out : Nat)
  /-- PAUSE_REPEAT. An asserted PAUSE or PFC output repeats its frame each time half its quanta has elapsed. -/
  | pauseRepeat (out : Nat)
  /-- QUE_TAB_READ. QUE_TAB_CMD READ of a queue, group or output entry. -/
  | queTabRead (p : Path) (v : Word)
  /-- QUE_TAB_WRITE. QUE_TAB_CMD WRITE of the fields writable in service. -/
  | queTabWrite (p : Path) (v : Word)
  /-- KEYREQ_WAIT_EXPIRY. A pending change that found no switching point within KEYREQ_WAIT raises a key-picture request. -/
  | keyreqWaitExpiry (sub : Nat)
  /-- KEYREQ_GAP_EXPIRY. At the end of a brood's KEYREQ_GAP a merged request naming a different encoding is sent. -/
  | keyreqGapExpiry (brood : Nat)
  /-- UPSTREAM_NACK. A gap in a video brood open for NACK_UP beats, or again after RTT, is NACKed to the source leg. -/
  | upstreamNack (brood : Nat) (stream : Nat) (seqn : Nat)
  /-- SR_GENERATE. A sender report is generated per subscription every SR_INTERVAL beats. -/
  | srGenerate (sub : Nat)
  /-- TWCC_FEEDBACK_GENERATE. Transport-wide feedback is sent toward TWCC legs every FB_INTERVAL beats. -/
  | twccFeedbackGenerate (leg : Nat)
  /-- LEG_FEEDBACK_TIMEOUT. A leg with no feedback for LEG_FB_TIMEOUT beats sets FEEDBACK_LOST and raises LEG_FEEDBACK_LOST. -/
  | legFeedbackTimeout (leg : Nat)
  /-- FEEDBACK_LOST_HALVE. A FEEDBACK_LOST leg's target halves every 600 beats down to FLOOR. -/
  | feedbackLostHalve (leg : Nat)
  /-- FWD_TAB_READ. FWD_TAB_CMD READ of a brood, subscription, flock, MID or change-point entry. -/
  | fwdTabRead (p : Path) (v : Word)
  /-- FWD_TAB_WRITE. FWD_TAB_CMD WRITE of a forwarding entry. -/
  | fwdTabWrite (p : Path) (v : Word)
  /-- LEG_TAB_READ. LEG_TAB_CMD READ of a leg entry. -/
  | legTabRead (p : Path) (v : Word)
  /-- LEG_TAB_WRITE. LEG_TAB_CMD WRITE of a leg entry, taking effect at the next governor update. -/
  | legTabWrite (p : Path) (v : Word)
  /-- AU_WAIT_EXPIRY. AU_WAIT beats after an AU's first packet the incomplete AU is offered. -/
  | auWaitExpiry (ent : Nat)
  /-- DEC_FENCE_HIT. A decode write outside its fence is suppressed, the task ended and settled and DEC_FENCE raised. -/
  | decFenceHit (cell : Nat)
  /-- FILL_ENGINE_DONE. A block fill engine finishes its concealment or floor-row copy and the result is published. -/
  | fillEngineDone (task : Nat)
  /-- VDC_TAB_READ. VDC_TAB_CMD READ of a decode entry, class, pool buffer or slot map. -/
  | vdcTabRead (p : Path) (v : Word)
  /-- VDC_TAB_WRITE. VDC_TAB_CMD WRITE of a decode entry, admitting or releasing it. -/
  | vdcTabWrite (p : Path) (v : Word)
  /-- CMP_TAB_READ. CMP_TAB_CMD READ of a layout, tile, overlay or filter entry. -/
  | cmpTabRead (p : Path) (v : Word)
  /-- CMP_TAB_WRITE. CMP_TAB_CMD WRITE of a compose entry, admitting layouts and checking tiles. -/
  | cmpTabWrite (p : Path) (v : Word)
  /-- ENC_FENCE_HIT. An encode write outside its fence is suppressed, the picture ended as LATE and ENC_FENCE raised. -/
  | encFenceHit (cell : Nat)
  /-- VEN_TAB_READ. VEN_TAB_CMD READ of an encode entry or model state. -/
  | venTabRead (p : Path) (v : Word)
  /-- VEN_TAB_WRITE. VEN_TAB_CMD WRITE of an encode entry, admitting it or raising a key request on a rate change. -/
  | venTabWrite (p : Path) (v : Word)
  /-- AUD_TAB_READ. AUD_TAB_CMD READ of an audio or mix entry. -/
  | audTabRead (p : Path) (v : Word)
  /-- AUD_TAB_WRITE. AUD_TAB_CMD WRITE of an audio or mix entry, admitting it against capacity. -/
  | audTabWrite (p : Path) (v : Word)
  /-- FLT_TAB_READ. FLT_TAB_CMD READ of a channel or profile. -/
  | fltTabRead (p : Path) (v : Word)
  /-- FLT_TAB_WRITE. FLT_TAB_CMD WRITE of a filter profile. -/
  | fltTabWrite (p : Path) (v : Word)
  /-- TIM_CAPTURE. TIM_CTRL.CAPTURE latches all seven clocks and sets CAPTURED. -/
  | timCapture (p : Path) (v : Word)
  /-- TIM_SWITCH. TIM_CTRL.SWITCH exchanges the active privileged member. -/
  | timSwitch (p : Path) (v : Word)
  /-- TIM_DOM_SAMPLE. An offset sample for a clock runs its servo or is handled as a correction. -/
  | timDomSample (d : Nat) (src : SampleSrc) (theta : Int)
  /-- PPS_IN_EDGE. A rising PPS_IN edge is stamped in all clocks and gives samples to PPS-referenced clocks. -/
  | ppsInEdge
  /-- PPS_OUT_EDGE. PPS_OUT rises at each whole second of the selected clock for WIDTH_US. -/
  | ppsOutEdge
  /-- SYNTON_SECOND. With SYNTON, FREQ_IN counted over a second replaces the integral term. -/
  | syntonSecond (d : Nat) (err : Int)
  /-- CLOCK_HOLDOVER_TIMEOUT. A clock with no sample for HOLD_S seconds enters HOLDOVER. -/
  | clockHoldoverTimeout (d : Nat)
  /-- TIM_ACCEPT_JUMP. ACCEPT_JUMP puts a clock in ACQUIRING so it steps at its next sample. -/
  | timAcceptJump (p : Path) (d : Nat) (v : Word)
  /-- TIM_RESTART. RESTART puts a clock in ACQUIRING. -/
  | timRestart (p : Path) (d : Nat) (v : Word)
  /-- LAUNCH_TIME_REACHED. A held launch frame is sent when DT reaches its launch time. -/
  | launchTimeReached (port : Nat) (cls : Nat)
  /-- GATE_COMMIT. GAT_CTRL.COMMIT computes the start time of the shadow list and makes it PENDING. -/
  | gateCommit (p : Path) (port : Nat) (v : Word)
  /-- GATE_CANCEL. GAT_CTRL.CANCEL withdraws a pending gate list. -/
  | gateCancel (p : Path) (port : Nat) (v : Word)
  /-- GATE_LIST_START. At its start time a pending list becomes operational and the old list goes to the shadow bank. -/
  | gateListStart (port : Nat)
  /-- GATE_ENTRY_CHANGE. A gate-list interval ends and the next entry's gate states apply. -/
  | gateEntryChange (port : Nat)
  /-- GAT_TAB_READ. GAT_TAB_CMD READ of a gate-list entry. -/
  | gatTabRead (p : Path) (v : Word)
  /-- GAT_TAB_WRITE. GAT_TAB_CMD WRITE of a shadow gate-list entry. -/
  | gatTabWrite (p : Path) (v : Word)
  /-- EGRESS_SELECT. A port's scheduler selects one frame from an eligible stream through the class, group and leg hierarchy. -/
  | egressSelect (port : Nat)
  /-- RUN_INTERVAL_START. A run interval begins and waiting legs' run requests are issued in rotated leg order. -/
  | runIntervalStart
  /-- FRAME_TX_START. A frame at the head of its transmit FIFO, clear of launch time, gate and pause, is stamped and sent. -/
  | frameTxStart (port : Nat) (cls : Nat)
  /-- PAUSE_RECEIVED. A received pause frame holds every FIFO of the port for its quanta. -/
  | pauseReceived (port : Nat) (quanta : Nat)
  /-- PFC_RECEIVED. A received PFC frame holds the classes of its priorities. -/
  | pfcReceived (port : Nat) (vec : Nat) (quanta : List Nat)
  /-- PAUSE_HOLD_EXPIRY. A pause or PFC hold ends when its quanta elapse. -/
  | pauseHoldExpiry (port : Nat) (cls : Nat)
  /-- EGRESS_PAUSE_HELD. A class held by pause or PFC for 600 consecutive beats raises EGRESS_PAUSE_HELD. -/
  | egressPauseHeld (port : Nat) (cls : Nat)
  /-- EGRESS_MOVE_DONE. A moving leg's in-flight count reaches zero, MOVING clears and runs may open on the new port. -/
  | egressMoveDone (leg : Nat)
  /-- EGS_TAB_READ. EGS_TAB_CMD READ of a stream, leg, group or shaper entry. -/
  | egsTabRead (p : Path) (v : Word)
  /-- EGS_TAB_WRITE. EGS_TAB_CMD WRITE of an egress entry, resetting shaper tokens and starting leg moves. -/
  | egsTabWrite (p : Path) (v : Word)
  /-- SCRUB_READ. The scrubber reads a block of an active channel and corrects it. -/
  | scrubRead (ch : Nat) (addr : Nat) (ecc : Ecc)
  /-- REFRESH. A channel issues a refresh command and may begin a pause. -/
  | refresh (ch : Nat)
  /-- RETRAIN_PASS. A channel's retraining pass sweeps the data-lane eyes and applies new centres. -/
  | retrainPass (ch : Nat) (rd : List Nat) (wr : List Nat)
  /-- RETRAIN_RETRY. After a pass with result NONE a retry burst sweeps the failing direction at the next pause. -/
  | retrainRetry (ch : Nat) (oks : List Nat)
  /-- MEM_FSP_WRITE. A write of MEM_FSP.TARGET starts a set-point change or is refused. -/
  | memFspWrite (p : Path) (v : Word)
  /-- FSP_CHANGE_DONE. A set-point change completes and MEM_FSP_SWITCH is raised. -/
  | fspChangeDone
  /-- MEM_MIGRATE. MEM_CTRL.MIGRATE starts copying a logical channel to the spare. -/
  | memMigrate (p : Path) (v : Word)
  /-- MIGRATION_DONE. The last block is copied, the spare takes the logical channel and the source becomes RETIRED. -/
  | migrationDone
  /-- RESTORE_DONE. The spare finishes rebuilding a failed channel's critical blocks and becomes ACTIVE. -/
  | restoreDone
  /-- MEM_RETEST. MEM_CTRL.RETEST starts retraining a RETIRED channel. -/
  | memRetest (p : Path) (v : Word)
  /-- RETEST_DONE. A retested channel becomes SPARE if its margins suffice, or RETIRED again. -/
  | retestDone (ch : Nat) (m0 : Nat) (m1 : Nat)
  /-- MEM_RETRAIN. MEM_CTRL.RETRAIN runs a pass on a channel at its next pause. -/
  | memRetrain (p : Path) (v : Word)
  /-- CASCADE_JOIN. MUL_CTRL.JOIN starts the JOIN steps from SERVICE. -/
  | cascadeJoin (p : Path) (v : Word)
  /-- CASCADE_LEAVE. MUL_CTRL.LEAVE takes the device out of the stack. -/
  | cascadeLeave (p : Path) (v : Word)
  /-- HANDOVER. MUL_CTRL.HANDOVER passes the Rooster role to a READY standby at the next boundary. -/
  | handover (p : Path) (v : Word)
  /-- JOIN_HELLO_DONE. Links are up and ids, pairs and topology exchanged, or JOIN fails with DUP_ID, TOPOLOGY or TOO_MANY. -/
  | joinHelloDone (hello : Hello)
  /-- JOIN_TIME_LOCKED. Both privileged members on MULE reach LOCKED and ALIGN follows. -/
  | joinTimeLocked
  /-- JOIN_ALIGN. At the Rooster's boundary DT and the beat are loaded, or slewed for a live device. -/
  | joinAlign
  /-- JOIN_DIRECTORY_DONE. The whole directory is received and the device enters SERVICE, raising CASCADE_JOINED. -/
  | joinDirectoryDone (ents : List DirEnt)
  /-- JOIN_STEP_TIMEOUT. A JOIN step exceeds its limit and the device returns to its mode before JOIN. -/
  | joinStepTimeout
  /-- MULE_MEDIA. A MEDIA frame on a Mule link is used locally and relayed onward. -/
  | muleMedia (link : Nat) (f : MuleFrame)
  /-- MULE_PARTIAL. A PARTIAL frame arrives as an AFRAME operand for the final mix. -/
  | mulePartial (link : Nat) (f : MuleFrame)
  /-- MULE_TALKERS. A TALKERS frame carries candidate lists to HOME or the selection to members. -/
  | muleTalkers (link : Nat) (f : MuleFrame)
  /-- MULE_DEMAND. A DEMAND frame sets the layers the source sends for a relayed brood. -/
  | muleDemand (link : Nat) (f : MuleFrame)
  /-- MULE_TIME. A TIME frame is stamped and gives a MULE sample. -/
  | muleTime (link : Nat) (f : MuleFrame)
  /-- MULE_HEARTBEAT. A HEARTBEAT frame records the last Rooster beat seen. -/
  | muleHeartbeat (link : Nat) (f : MuleFrame)
  /-- MULE_DIRECTORY. A DIRECTORY frame carries an entry commit, copy or acknowledgement. -/
  | muleDirectory (link : Nat) (f : MuleFrame)
  /-- MULE_CREDIT. A CREDIT frame grants credit cells for a class. -/
  | muleCredit (link : Nat) (f : MuleFrame)
  /-- MULE_TUN_NAK. A TUN_NAK frame asks the tunnel sender to resend missing frames from history. -/
  | muleTunNak (link : Nat) (f : MuleFrame)
  /-- TUN_NAK_RETRY. After one tunnel round trip a second TUN_NAK is sent or the frame counted TUN_LOST. -/
  | tunNakRetry (link : Nat) (seqn : Nat)
  /-- MULE_TIME_EXCHANGE. Every TIME_DIV beats a time exchange runs on each link. -/
  | muleTimeExchange
  /-- HEARTBEAT_TIMEOUT. An expected Rooster heartbeat is missing, leading to failover or isolation. -/
  | heartbeatTimeout (seen : List Nat)
  /-- MUL_TAB_READ. MUL_TAB_CMD READ of a directory or tunnel entry. -/
  | mulTabRead (p : Path) (v : Word)
  /-- MUL_TAB_WRITE. MUL_TAB_CMD WRITE of a directory entry sent to the Rooster, or of a tunnel entry. -/
  | mulTabWrite (p : Path) (v : Word)
  /-- STANDBY_ACK_TIMEOUT. A standby not acknowledging within 6 beats is taken as not READY and the write committed without it. -/
  | standbyAckTimeout (idx : Nat)
  /-- DIRECTORY_APPLY. At beat EFFECTIVE every device applies a committed directory entry. -/
  | directoryApply (idx : Nat)
  /-- MULE_LANE_LOSS. A link losing one lane continues DEGRADED and raises MULE_LINK_DEGRADED. -/
  | muleLaneLoss (link : Nat)
  /-- MULE_LINK_DOWN. A Mule link goes DOWN and MULE_LINK_DOWN is raised. -/
  | muleLinkDown (link : Nat)
  /-- TOP_MODE_REQ. A write of TOP_MODE_REQ asks for a mode, judged BUSY, ILLEGAL, NOT_READY or OK. -/
  | topModeReq (p : Path) (v : Word)
  /-- MODE_SET. Mailbox command that requests a mode through TOP_MODE_REQ. -/
  | modeSet (seq : Nat) (target : Nat) (freeRun : Bool)
  /-- MODE_TRANSITION. TOP_MODE changes along a transition of Table 16.1, raising MODE_CHANGE. -/
  | modeTransition
  /-- RESET_N_ASSERT. RESET_N held low for at least 1 µs resets the chip into RESET. -/
  | resetNAssert (lowNs : Nat)
  /-- RESET_RELEASE. Reset is released, straps are sampled and the device enters BOOT. -/
  | resetRelease (cascId : Nat) (pri : Nat)
  /-- BOOT_FW_VERIFIED. Boot ROM verifies a firmware copy, or sets BOOT_FAIL, and the MC starts. -/
  | bootFwVerified (aOk : Bool) (bOk : Bool)
  /-- SHED_STAGE_ENTER. At the first boundary after its condition a shed stage and all shallower ones are entered. -/
  | shedStageEnter (rails : List Nat)
  /-- SHED_STAGE_LIFT. A stage whose dwell of 30 beats is met lifts and its work returns. -/
  | shedStageLift (rails : List Nat) (bad : List Nat)
  /-- SAG_PIN_CHANGE. A SAG_N level held for 4 samples requests a shed stage. -/
  | sagPinChange (lvl : Nat)
  /-- BROWN_OUT. A rail below 90 % for 10 µs causes a chip reset. -/
  | brownOut (rail : Nat)
  /-- THERM_THROTTLE. Tj reaching 100 °C starts throttling of the media regions, ending below 98 °C. -/
  | thermThrottle (temps : List Int)
  /-- THERM_EMERGENCY. Tj reaching 110 °C enters S4 and raises THERM_EMERGENCY. -/
  | thermEmergency (temps : List Int)
  /-- THERM_TRIP. Tj reaching 120 °C asserts THERM_TRIP_N and enters S6. -/
  | thermTrip (temps : List Int)
  /-- SPRINT_REQUEST. PWR_SPRINT_CTRL.REQ asks for SPRINT, judged against its conditions. -/
  | sprintRequest (p : Path) (v : Word)
  /-- SPRINT_REQ. Mailbox command that requests or ends SPRINT. -/
  | sprintReq (seq : Nat) (op : Nat)
  /-- SPRINT_ENTER. At the next boundary MCLK rises to 1.38 GHz. -/
  | sprintEnter
  /-- SPRINT_END_REQUEST. PWR_SPRINT_CTRL.END ends SPRINT at the next boundary. -/
  | sprintEndRequest (p : Path) (v : Word)
  /-- SPRINT_AUTO_END. SPRINT ends on a stage, heat, the window or the lifetime limit. -/
  | sprintAutoEnd
  /-- LM_PRESENT_FALL. LM_PRESENT_N falls and a 2 s insertion wait begins. -/
  | lmPresentFall (m : Nat)
  /-- LM_INSERT_DELAY. After 2 s the module is identified, given its wear record and brought to ModuleReady. -/
  | lmInsertDelay (m : Nat) (id : ModuleId)
  /-- LM_PRESENT_RISE. LM_PRESENT_N rises, the port's link goes down and LM_REMOVED is raised. -/
  | lmPresentRise (m : Nat)
  /-- LM_INT. LM_INT_N falls and module monitors are read at once. -/
  | lmInt (mons : List ModuleMon)
  /-- LM_POLL. Module monitors are read every POLL_S seconds. -/
  | lmPoll (m : Nat) (mon : ModuleMon)
  /-- WEAR_RECORD_UPDATE. Each module's wear record is updated every hour. -/
  | wearRecordUpdate (m : Nat) (hour : WearHour)
  /-- LMD_DRAIN. LMD_MOD_CTRL.DRAIN disables the port, puts the module in low power and sets DRAINED. -/
  | lmdDrain (p : Path) (m : Nat) (v : Word)
  /-- LMD_MOD_RESET. LMD_MOD_CTRL.RESET drives the module's select and reset low for 10 µs. -/
  | lmdModReset (p : Path) (m : Nat) (v : Word)
  /-- LMD_TAB_READ. LMD_TAB_CMD READ of a wear record. -/
  | lmdTabRead (p : Path) (v : Word)
  /-- LM_READ. Mailbox command that reads CMIS bytes of a module. -/
  | lmRead (seq : Nat) (m : Nat) (bank : Nat) (page : Nat) (ofs : Nat) (len : Nat) (data : List Byte)
  /-- LM_BUS_STUCK. SDA held low for 35 ms is freed with nine clocks and the bus retried. -/
  | lmBusStuck (bus : Nat)
  /-- FUNCTION_LEVEL_RESET. A function-level reset clears ring, mailbox and MSI-X state without resetting the chip. -/
  | functionLevelReset
  /-- PCIE_LINK_DOWN. The PCIe link is lost and PCIE_LINK_DOWN raised to the MC and EVENT_N. -/
  | pcieLinkDown
  /-- BAR2_READ. A BAR2 read returns DRAM data through the window, zero for vault or beyond capacity, EP for POISONED. -/
  | bar2Read (ofs : Nat) (len : Nat)
  /-- BAR2_WRITE. A BAR2 write to DRAM, discarded for critical blocks, the vault or beyond capacity. -/
  | bar2Write (ofs : Nat) (data : List Byte)
  /-- PUNT_RING_DOORBELL. The host advances a punt ring's TAIL, posting empty buffers. -/
  | puntRingDoorbell (ring : Nat) (tail : Nat) (hw : HostWrites)
  /-- INJECT_RING_DOORBELL. The host advances an inject ring's TAIL, posting filled descriptors. -/
  | injectRingDoorbell (ring : Nat) (tail : Nat) (hw : HostWrites)
  /-- PUNT_DELIVER. A punted item is written into device-owned punt descriptors and HEAD advanced. -/
  | puntDeliver (ring : Nat)
  /-- INJECT_RAW_PORT. An injected RAW_PORT frame enters its class on its port ahead of legs. -/
  | injectRawPort (ring : Nat)
  /-- INJECT_LEG_CTRL. An injected LEG_CTRL payload is wrapped in the leg's headers and queued on its CTRL stream. -/
  | injectLegCtrl (ring : Nat)
  /-- INJECT_REPARSE. An injected REPARSE frame is stamped and parsed as if received on its port. -/
  | injectReparse (ring : Nat)
  /-- RING_COAL_TIMER. COAL_US after the first unsignalled completion a ring sends its MSI-X message. -/
  | ringCoalTimer (ring : Nat)
  /-- GET_INFO. Mailbox command that returns identity, mode, firmware, keys and policy. -/
  | getInfo (seq : Nat)
  /-- EVENT_LOG. Mailbox command that returns event log records. -/
  | eventLog (seq : Nat) (first : Nat) (count : Nat)
  /-- FW_WRITE. Mailbox command that writes a chunk of the non-running firmware copy and verifies it on LAST. -/
  | fwWrite (seq : Nat) (copy : Nat) (ofs : Nat) (data : List Byte) (last : Bool)
  /-- FW_SWITCH. Mailbox command that restarts the MC on the other firmware copy if it verifies. -/
  | fwSwitch (seq : Nat)
  /-- MC_RESTART. The MC comes up after a restart, writes the FW_SWITCH response and takes up pending events. -/
  | mcRestart
  /-- ROLLBACK_SET. Mailbox command that raises the rollback floor in OTP. -/
  | rollbackSet (seq : Nat) (floor : Nat)
  /-- PORT_READ. Mailbox command that returns a port's state and MAC counters. -/
  | portRead (seq : Nat) (port : Nat)
  /-- POLICY_SET. Mailbox command that tightens one field of the OTP vault policy. -/
  | policySet (seq : Nat) (req : List Byte)
  /-- EVT_STAT_WRITE. A W1C write of EVT_STAT clears bits and resignals vectors of bits left set. -/
  | evtStatWrite (p : Path) (w : Nat) (v : Word) (sets : Word)
  /-- MSIX_UNMASK. Unmasking a vector with its pending bit set sends its message. -/
  | msixUnmask (vec : Nat)
  /-- TAP_FRAME_TX. An output tap lane sends the next segment of its streams in round robin. -/
  | tapFrameTx (lane : Nat)
  /-- TAP_HOLD_ASSERT. TAP_HOLD_N taken low makes each lane finish its frame and idle. -/
  | tapHoldAssert
  /-- TAP_HOLD_RELEASE. TAP_HOLD_N rising lets each lane start its next frame within 1 µs. -/
  | tapHoldRelease
  /-- TAP_HOLD_LONG. A hold longer than HOLD_WARN raises TAP_HOLD_LONG once. -/
  | tapHoldLong
  /-- TAP_LANE_DOWN. A tap lane loses block lock and its streams move to the next lane up. -/
  | tapLaneDown (lane : Nat)
  /-- TAP_LANE_UP. A tap lane comes up and its streams return at their next item boundary. -/
  | tapLaneUp (lane : Nat)
  /-- TAP_INPUT_FRAME. An INJECT input frame is checked and collected into its item. -/
  | tapInputFrame (lane : Nat) (bytes : List Byte)
  /-- TAP_SEG_WAIT_EXPIRY. An item still incomplete SEG_WAIT beats after its first segment is discarded. -/
  | tapSegWaitExpiry (lane : Nat)
  /-- TAP_TAB_READ. TAP_TAB_CMD READ of an output or input entry. -/
  | tapTabRead (p : Path) (v : Word)
  /-- TAP_TAB_WRITE. TAP_TAB_CMD WRITE of an output or input entry. -/
  | tapTabWrite (p : Path) (v : Word)
  /-- SYS_REFCLK_LOST. SYS_REFCLK stops and the chip is reset with cause REFCLK_LOST. -/
  | sysRefclkLost
  /-- REFCLK_RETURN. SYS_REFCLK present for 1 ms releases the held reset. -/
  | refclkReturn
  /-- REFERENCE_CLOCK_LOST. An Ethernet, Mule, PCIe, tap, FREQ_IN or PPS_IN reference stops and its interface reacts. -/
  | referenceClockLost (ref : RefClk)
  /-- PORT_LINK_DOWN. A logical port loses its link and PORT_LINK_DOWN is raised. -/
  | portLinkDown (port : Nat)
  /-- RAILS_GOOD. Every rail has stood in tolerance for 10 ms and the self-held reset ends. -/
  | railsGood
  /-- AUX_POWER_ON. VDD_AUX rises and resets the always-on domain, setting AUX_POR. -/
  | auxPowerOn
  /-- RUN_REQUEST. A leg that is not KEYLESS requests a key run at the first moment of the interval at which it would be eligible but for its run, typically when its pacer tokens refill to 0. -/
  | runRequest (leg : Nat)
  /-- MULE_LINK_UP. A Mule link, or a lost lane of a DEGRADED link, finishes training and comes UP, restoring 200 Gb/s and its paths. -/
  | muleLinkUp (link : Nat)
  /-- PORT_LINK_UP. A logical Ethernet port regains its link, so packets waiting for that port may be selected again. -/
  | portLinkUp (port : Nat)
  /-- PCIE_LINK_UP. The PCIe link returns (including after PERST_N), so punt items deliver, inject rings resume and host-routed events signal again. -/
  | pcieLinkUp
  /-- MAILBOX_COMMAND_TIMEOUT. A mailbox command whose limit has passed ends with STATUS TIMEOUT, clears BUSY, sets DONE and raises MBX_DONE. -/
  | mailboxCommandTimeout
  /-- PCIE_UNCORRECTABLE_ERROR. An uncorrectable AER error on the PCIe link raises PCIE_ERROR. -/
  | pcieUncorrectableError
deriving DecidableEq, Repr

end Sys2Proof
end

