-- ==== Sys2Proof/Decode.lean ====
section
/-! DEFINITION. The command a table word spells. The table gives no row any bits, so no word spells a command. -/

namespace Sys2Proof

/-- Every row of spec/opcode_table.json stands without bits: its operands come from outside, not from an encoding. -/
def decodeTableWord (_nbits _w : Nat) : Option Instr := none

end Sys2Proof
end

