-- ==== Sys2Proof/Config.lean ====
section
/-! DEFINITION. What an implementation fixes and what the spec leaves open: constants with no body, so that no proof
can see a value of one. -/

namespace Sys2Proof

/-- The n-th open value drawn (assumption 4). -/
opaque Config.freeNat : Nat → Nat

/-- Whether an inexact quantity is rounded up where the spec does not say how it is rounded (assumption 5). -/
opaque Config.roundsUp : Rat → Bool

/-- Port mode of a logical port: 0 400GBASE-R, 1 200GBASE-R, else 100GBASE-R; the spec gives no register for it (assumption 6). -/
opaque Config.portMode : Nat → Nat

/-- The number of a reason the spec names without a number (assumption 8), by the model's own index. -/
opaque Config.code : Nat → Nat

/-! ### Published algorithms the spec names and does not restate (assumption 9) -/

/-- AES of one block under a key. -/
opaque Config.aes : List Byte → Nat → Nat

/-- Multiplication in the field of GHASH. -/
opaque Config.ghashMul : Nat → Nat → Nat

/-- HMAC-SHA1 of bytes under an authentication key, 20 bytes as a number. -/
opaque Config.hmacSha1 : List Byte → List Byte → Nat

/-- RFC 3711 key derivation: profile, master key, master salt and label. -/
opaque Config.srtpKdf : Nat → List Byte → List Byte → Nat → List Byte

/-- Initial counter block: kind of Table 5.3, salt, SSRC and index. -/
opaque Config.ivBlock : Nat → List Byte → Nat → Nat → Nat

/-- AES-256-GCM: key, nonce, additional data, text; sealed text with its tag, and the opened text. -/
opaque Config.gcmSeal : List Byte → List Byte → List Byte → List Byte → List Byte × List Byte
opaque Config.gcmOpen : List Byte → List Byte → List Byte → List Byte → List Byte → Option (List Byte)

/-- AES-KW (RFC 3394) unwrapping. -/
opaque Config.kwUnwrap : List Byte → List Byte → Option (List Byte)

opaque Config.sha3 : List Byte → List Byte

/-- ML-KEM-768 decapsulation under the device's key pair of a generation, and that pair's public key with its certificate. -/
opaque Config.kemDecap : Nat → List Byte → List Byte
opaque Config.kemPublic : Nat → List Byte

/-- ML-DSA-65 check of a key service's signature: digest of its public key, message, signature. -/
opaque Config.serviceSigOk : List Byte → List Byte → List Byte → Bool

/-- ML-DSA-44 signature under the identity key. -/
opaque Config.identitySign : List Byte → List Byte

/-- The identity key's public half with its certificate, and the digest of the boot ROM. -/
opaque Config.identityPublic : List Byte
opaque Config.romDigest : List Byte

/-- Of a firmware copy, by the chunks written into it, newest first (none: as shipped): whether its signature verifies, its version
with its SEC_VER, and its digest. -/
opaque Config.fwSigOk : List (Nat × List Byte) → Bool
opaque Config.fwInfo : List (Nat × List Byte) → List Byte
opaque Config.fwDigest : List (Nat × List Byte) → List Byte

/-- The storage key of a zeroize epoch. -/
opaque Config.storageKey : Nat → List Byte

/-! ### Layouts the spec leaves to the tools or to published formats (assumption 10) -/

/-- Whether a stage's entry matches a key: stage, entry, key fields; and the n-th result field of the entry. -/
opaque Config.entryMatches : Nat → Entry → List Nat → Bool
opaque Config.entryResult : Nat → Entry → Nat → Nat

/-- The ST2 key's fields (port, VNI, 5-tuple, channel) as the six words of a LOOKUP; hash and fingerprint of those words, and the meaning an extmap profile gives an extension id: 1 audio level,
2 transport-wide number, 3 MID, 4 RID, 5 repaired RID, 6 AV1 dependency descriptor, 7 frame marking. -/
opaque Config.flowWords : List Nat → List Nat
opaque Config.flowHash : List Nat → Nat
opaque Config.flowPrint : List Nat → Nat
opaque Config.extMeaning : Entry → Nat → Nat

/-- LAYER out of a dependency descriptor (6), a frame marking (7) or a VP8 payload descriptor (8). -/
opaque Config.layerOf : Nat → List Byte → Nat

/-- The time unit's PTP queue (R254). -/
opaque Config.ptpQueue : Nat

/-- Whether a frame is a PTP event message (IEEE 1588-2019). -/
opaque Config.ptpEvent : List Byte → Bool

/-- Of a frame that leaves (R258, whose messages follow IEEE 1588-2019): whether it is a Sync, its domainNumber, whether it is two-step, and
the place of its originTimestamp; the Follow_Up of a two-step Sync, from it and the seconds and nanoseconds of its stamp. -/
opaque Config.ptpSync : List Byte → Option (Nat × Bool × Nat)
opaque Config.ptpFollowUp : List Byte → Nat → Nat → List Byte

/-- Frame headers of a leg's association, reversed, ahead of the UDP payload of the given length. -/
opaque Config.legHeaders : Nat → Nat → List Byte

/-- Header extensions and payload descriptor of an outgoing packet (R150): extmap profile, the values put in, the template structure
its first packet after a switch carries, the MID, the packet. -/
opaque Config.rewriteExt : Nat → List Nat → List Byte → List Byte → List Byte → List Byte

/-- Whether a payload of a codec begins a key picture; whether a dependency descriptor marks a switch for a decode
target; and the template dependency structure it carries. -/
opaque Config.isKeyPicture : Nat → List Byte → Bool
opaque Config.ddSwitch : List Byte → Nat → Nat → Bool
opaque Config.ddStructure : List Byte → List Byte

/-- RTCP bytes of a control message, by its numbers; and a transport-wide feedback message read as numbers with arrivals. -/
opaque Config.rtcpBytes : List Nat → List Byte
opaque Config.twccRead : List Byte → List (Nat × Option Nat)

/-- A decoded picture's sample: reference, MEDIA_BEAT, plane (0 luma, 1 Cb, 2 Cr), column and line. -/
opaque Config.sample : Nat → Nat → Nat → Nat → Nat → Nat

/-- ML-DSA check of the vendor's signature, and of the operator's under an algorithm and key, over the manifest digest. -/
opaque Config.vendorSigOk : List Byte → List Byte → Bool
opaque Config.operatorSigOk : Nat → List Byte → List Byte → List Byte → Bool

/-- CLASS of the fitted DRAM devices (Table 14.1). -/
opaque Config.dramClass : Nat

/-- Records whose payload the spec lays out nowhere (assumption 10): BUFFER_SIZES as its five lists of entries (decode [width,
height, 10 bits, buffers, pools], composite likewise, encode [width, height, buffers, pools], line parts, jitter [low, high]); FABRIC
and the plane it steers each port to; MATCH_LAYOUT. -/
opaque Config.bufferSizes : List Byte → Option (List (List (List Nat)))
opaque Config.fabricOk : List Byte → Bool
opaque Config.fabricSteer : List Byte → Nat → Nat
opaque Config.matchLayoutOk : List Byte → Bool

/-- Bytes of the largest coded picture of level 5.1, by CODEC: the codecs' own documents, which R164 names, give them. -/
opaque Config.codedLimit : Nat → Nat

/-- The greatest rate of level 5.1, in b/s, by CODEC (and H.264's profile). -/
opaque Config.levelRate : Nat → Bool → Nat

/-- What an encoder puts beside its rows (R209): parameter sets or sequence header of a layer or encoding, from its entry's words, its
size, and the number of pictures to recovery where a sweep begins; the extension that marks a packet (the frame marking of H.264,
or the dependency descriptor of AV1 itself), from codec, key, layers, layer, temporal layer, first and last packet, number of the
picture; the header extension that carries it. -/
opaque Config.streamHeaders : List Nat → List Byte
opaque Config.encMarking : List Nat → List Byte
opaque Config.encExtension : Nat → List Byte → List Byte

/-- Where the copy of a section (0 chip, 1 to 6 the regions) lies within the IMAGES allocation (R38; assumption 99). -/
opaque Config.imageOfs : Nat → Nat

/-- How far ACLK runs ahead of its slowest between two FCLK counts (R106; assumption 115). -/
opaque Config.aclkSlip : Nat → Nat → Nat

/-- The program a leg's packets select where it is not the standard one of their profile: leg, and whether SRTCP; the spec gives no
way to select program 0 or a custom program (R100; assumption 112). -/
opaque Config.altProgram : Nat → Bool → Option Nat

/-- The level of a QoS port's staging buffer, in percent, at an FCLK count; the bank of a block (R297, R298; assumption 122). -/
opaque Config.stageLevel : Nat → Nat → Nat
opaque Config.bankOf : Nat → Nat

/-- Taps of the filter sets SHARP (0) and SOFT (1): set, phase, tap. -/
opaque Config.filterTap : Nat → Nat → Nat → Int

/-- Floor bits of a row (R218): codec, profile, layer width and height, row, whether key or in an accelerated refresh,
REFRESH_PERIOD and direction. -/
opaque Config.floorBits : List Nat → Nat

/-- The queue an encoded brood's packets are kept in: brood, stream (assumption 24). -/
opaque Config.broodQueue : Nat → Nat → Nat

/-- 10^(−k/40), the power of a level of k quarter decibels below 0 dBov, as the device holds it; and 10^(x/20) in Q4.12. -/
opaque Config.levelPower : Nat → Rat
opaque Config.gainQ12 : Rat → Nat

/-- State of an audio encoder after a frame, from its state before and the frame's MEDIA_BEAT (R248); the payload type of the comfort
noise of an output brood, which the spec names and no field holds (R249; assumption 120). -/
opaque Config.encoderAfter : Nat → Nat → Nat
opaque Config.cnType : Nat → Nat

/-- Payload of a Mule frame of a type, written from and read as numbers (TYPE of Table 15.2; assumption 14); the source leg that
stands for a link's association; the Ethernet, IP and UDP headers of a tunnel. -/
opaque Config.muleBytes : Nat → List Nat → List Byte
opaque Config.muleRead : Nat → List Byte → List Nat
opaque Config.linkLeg : Nat → BitVec 14
opaque Config.tunnelHeaders : Nat → Entry → List Byte

/-- The bits of (1 + MI)^(1/600) beyond the 32nd below the point, which a governor may hold or not (R157; assumption 5). -/
opaque Config.rootRest : Nat → Nat

end Sys2Proof
end

