-- ==== Sys2Proof/Machine/Bits.lean ====
section
/-! DEFINITION. Bit fields of words and of table entries, and byte order (R5: registers and descriptors are
little-endian, packet fields are in network byte order). -/

namespace Sys2Proof.Machine
open Sys2Proof

/-- Bits [hi:lo] of a word, as a number. -/
def bits (w : Word) (hi lo : Nat) : Nat := w.toNat / 2 ^ lo % 2 ^ (hi + 1 - lo)

/-- Bit i of a word. -/
def bit (w : Word) (i : Nat) : Bool := w.toNat / 2 ^ i % 2 == 1

/-- The word with v in bits [hi:lo]; bits of v beyond the field are dropped. -/
def setBits (w : Word) (hi lo v : Nat) : Word :=
  BitVec.ofNat 32 (w.toNat - bits w hi lo * 2 ^ lo + v % 2 ^ (hi + 1 - lo) * 2 ^ lo)

def setBit (w : Word) (i : Nat) (b : Bool) : Word := setBits w i i b.toNat

/-- A field of width n read as two's complement. -/
def signed (n v : Nat) : Int := if v < 2 ^ (n - 1) then (v : Int) else (v : Int) - 2 ^ n

/-- Two's complement of an integer in n bits. -/
def toField (n : Nat) (i : Int) : Nat := (i % 2 ^ n).toNat

def satAdd (limit a b : Nat) : Nat := min limit (a + b)

/-- Ceiling division. -/
def ceilDiv (a b : Nat) : Nat := (a + b - 1) / b

end Sys2Proof.Machine

namespace Sys2Proof
open Machine

def Entry.word (e : Entry) (k : Nat) : Word :=
  match k with
  | 0 => e.d0 | 1 => e.d1 | 2 => e.d2 | 3 => e.d3
  | 4 => e.d4 | 5 => e.d5 | 6 => e.d6 | 7 => e.d7
  | _ => 0

def Entry.put (e : Entry) (k : Nat) (w : Word) : Entry :=
  match k with
  | 0 => { e with d0 := w } | 1 => { e with d1 := w } | 2 => { e with d2 := w } | 3 => { e with d3 := w }
  | 4 => { e with d4 := w } | 5 => { e with d5 := w } | 6 => { e with d6 := w } | 7 => { e with d7 := w }
  | _ => e

/-- Field [hi:lo] of word DATAk. -/
def Entry.f (e : Entry) (k hi lo : Nat) : Nat := bits (Entry.word e k) hi lo

/-- Bit i of word DATAk. -/
def Entry.b (e : Entry) (k i : Nat) : Bool := bit (Entry.word e k) i

def Entry.setF (e : Entry) (k hi lo v : Nat) : Entry := Entry.put e k (setBits (Entry.word e k) hi lo v)

def Entry.setB (e : Entry) (k i : Nat) (v : Bool) : Entry := Entry.put e k (setBit (Entry.word e k) i v)

/-- A read-only part of an entry: the fields of `fs` (word, hi, lo) come from `old`, all else from `new`. -/
def Entry.keep (old new : Entry) : List (Nat × Nat × Nat) → Entry
  | [] => new
  | (k, hi, lo) :: fs => Entry.keep old (Entry.setF new k hi lo (Entry.f old k hi lo)) fs

/-- R9 on an entry: a field of `fs` (word, hi, lo, ranges of its values) that is given a reserved encoding keeps its value of `old`. -/
def Entry.legal (old new : Entry) : List (Nat × Nat × Nat × List (Nat × Nat)) → Entry
  | [] => new
  | (k, hi, lo, ok) :: fs =>
    let v := Entry.f new k hi lo
    Entry.legal old (if ok.any (fun r => decide (r.1 ≤ v) && decide (v ≤ r.2)) then new else Entry.setF new k hi lo (Entry.f old k hi lo)) fs

end Sys2Proof

namespace Sys2Proof.Machine
open Sys2Proof

/-- Little-endian number of a list of bytes (first byte least significant). -/
def leNat : List Byte → Nat
  | [] => 0
  | b :: bs => b.toNat + 256 * leNat bs

/-- Network-order number of a list of bytes (first byte most significant). -/
def beNat (bs : List Byte) : Nat := bs.foldl (fun a b => a * 256 + b.toNat) 0

/-- n bytes of a number, least significant first. -/
def toLe : Nat → Nat → List Byte
  | 0, _ => []
  | n + 1, v => BitVec.ofNat 8 v :: toLe n (v / 256)

/-- n bytes of a number, most significant first. -/
def toBe (n v : Nat) : List Byte := (toLe n v).reverse

/-- Bytes [ofs, ofs+n) of a byte list. -/
def slice (bs : List Byte) (ofs n : Nat) : List Byte := (bs.drop ofs).take n

def le16 (bs : List Byte) (ofs : Nat) : Nat := leNat (slice bs ofs 2)
def le32 (bs : List Byte) (ofs : Nat) : Nat := leNat (slice bs ofs 4)
def be16 (bs : List Byte) (ofs : Nat) : Nat := beNat (slice bs ofs 2)
def be32 (bs : List Byte) (ofs : Nat) : Nat := beNat (slice bs ofs 4)
def byteAt (bs : List Byte) (ofs : Nat) : Nat := (bs.getD ofs 0).toNat

/-- The list with its element at k replaced; unchanged where k is beyond it. -/
def listSet {α : Type} (l : List α) (k : Nat) (v : α) : List α := l.set k v

/-- The first r below n (searching upward) that passes p. -/
def firstBelow (n : Nat) (p : Nat → Bool) : Option Nat := (List.range n).find? p

end Sys2Proof.Machine
end

