-- ==== Sys2Proof/Machine/RegMap.lean ====
section
/-! DEFINITION. The register map: every register family of the register tables of spec/ (offset, repetition, reset value and
fields with their access code and, where a field has reserved encodings, its legal ranges). Bits no field names are the
fields shown as "—" (R7). -/

namespace Sys2Proof.Machine
open Sys2Proof

/-- Access codes (R6, Table 0.7). -/
inductive Acc where
  | rw | ro | w1c | w1s | wo | rc
deriving DecidableEq, Repr

/-- One field: its bits, its access code, and its legal encodings (inclusive ranges; none listed: all legal). -/
structure RegField where
  hi : Nat
  lo : Nat
  acc : Acc
  ok : List (Nat × Nat)
deriving DecidableEq, Repr

/-- One register family: its first offset, its repetition (stride and count, outermost first), the reset value the
table gives, and its fields. -/
structure RegDesc where
  base : Nat
  dims : List (Nat × Nat)
  reset : Nat
  fields : List RegField
deriving Repr

def Reg.TOP_ID : Nat := 0x00000000
def Reg.TOP_MODE : Nat := 0x00000004
def Reg.TOP_STATUS : Nat := 0x00000008
def Reg.TOP_MODE_REQ : Nat := 0x0000000C
def Reg.TOP_MODE_RESULT : Nat := 0x00000010
def Reg.TOP_RESET_CAUSE : Nat := 0x00000014
def Reg.MGT_POLICY : Nat := 0x00100040
def Reg.CFG_CTRL : Nat := 0x00200000
def Reg.CFG_STATUS : Nat := 0x00200004
def Reg.CFG_ERR_DETAIL : Nat := 0x00200008
def Reg.CFG_SRC_LO : Nat := 0x00200010
def Reg.CFG_SRC_HI : Nat := 0x00200014
def Reg.CFG_SRC_LEN : Nat := 0x00200018
def Reg.CFG_ROLLBACK : Nat := 0x00200020
def Reg.CFG_REGION_STAT : Nat := 0x00200040
def Reg.CFG_PERSONALITY : Nat := 0x00200060
def Reg.CFG_DRAIN_FORCED : Nat := 0x00200080
def Reg.TSK_STATUS : Nat := 0x00300000
def Reg.TSK_MS_FILL : Nat := 0x00300004
def Reg.TSK_MS_HIWAT : Nat := 0x00300008
def Reg.TSK_MS_HOLD : Nat := 0x0030000C
def Reg.TSK_STALL_TIMEOUT : Nat := 0x00300010
def Reg.TSK_TAB_CMD : Nat := 0x00300020
def Reg.TSK_TAB_ADDR : Nat := 0x00300024
def Reg.TSK_TAB_DATA : Nat := 0x00300040
def Reg.TSK_ABORT : Nat := 0x00300060
def Reg.TSK_ABORT_RESULT : Nat := 0x00300064
def Reg.TSK_POST_TAG_LO : Nat := 0x00300070
def Reg.TSK_POST_TAG_HI : Nat := 0x00300074
def Reg.TSK_POST_REF_LO : Nat := 0x00300078
def Reg.TSK_POST_REF_HI : Nat := 0x0030007C
def Reg.TSK_POST_STAT : Nat := 0x00300080
def Reg.TSK_CNT_LO : Nat := 0x00300200
def Reg.TSK_CNT_HI : Nat := 0x00300204
def Reg.TSK_HWAIT_TAG_LO : Nat := 0x00301000
def Reg.TSK_HWAIT_TAG_HI : Nat := 0x00301004
def Reg.TSK_HWAIT_CTRL : Nat := 0x00301008
def Reg.TSK_HWAIT_RESULT : Nat := 0x0030100C
def Reg.PRS_STATUS : Nat := 0x00400000
def Reg.PRS_MAL_CTRL : Nat := 0x00400014
def Reg.PRS_MAL_CNT_LO : Nat := 0x00400108
def Reg.PRS_MAL_CNT_HI : Nat := 0x0040010C
def Reg.PRS_LENC_CNT_LO : Nat := 0x00400148
def Reg.PRS_LENC_CNT_HI : Nat := 0x0040014C
def Reg.PRS_CNT_LO : Nat := 0x00400180
def Reg.PRS_CNT_HI : Nat := 0x00400184
def Reg.MAT_TAB_CMD : Nat := 0x00500000
def Reg.MAT_TAB_ADDR : Nat := 0x00500004
def Reg.MAT_EPOCH : Nat := 0x00500010
def Reg.MAT_EPOCH_INFLIGHT : Nat := 0x00500014
def Reg.MAT_DEFAULT : Nat := 0x00500018
def Reg.MAT_FLOW_CFG : Nat := 0x0050001C
def Reg.MAT_TAB_DATA : Nat := 0x00500040
def Reg.MAT_CNT_LO : Nat := 0x00500200
def Reg.MAT_CNT_HI : Nat := 0x00500204
def Reg.TRE_CTRL : Nat := 0x00600000
def Reg.TRE_ROOT_LO : Nat := 0x00600010
def Reg.TRE_ROOT_HI : Nat := 0x00600014
def Reg.TRE_ERR_CNT : Nat := 0x00600100
def Reg.MET_TAB_CMD : Nat := 0x00700000
def Reg.MET_TAB_ADDR : Nat := 0x00700004
def Reg.MET_TAB_DATA : Nat := 0x00700040
def Reg.MET_OVH : Nat := 0x00700100
def Reg.VLT_STATUS : Nat := 0x00800000
def Reg.VLT_PEN_FILL : Nat := 0x00800004
def Reg.VLT_RUN_CFG : Nat := 0x00800008
def Reg.VLT_ALARM_EN : Nat := 0x0080000C
def Reg.VLT_ALARM_CAUSE : Nat := 0x00800010
def Reg.VLT_KW_FILL : Nat := 0x00800014
def Reg.VLT_TAB_CMD : Nat := 0x00800020
def Reg.VLT_TAB_ADDR : Nat := 0x00800024
def Reg.VLT_TAB_DATA : Nat := 0x00800040
def Reg.VLT_CNT_LO : Nat := 0x00800100
def Reg.VLT_CNT_HI : Nat := 0x00800104
def Reg.CIP_STATUS : Nat := 0x00900000
def Reg.CIP_PROGS : Nat := 0x00900004
def Reg.CIP_CNT_LO : Nat := 0x00900100
def Reg.CIP_CNT_HI : Nat := 0x00900104
def Reg.QUE_STATUS : Nat := 0x00A00000
def Reg.QUE_BURST_FREE : Nat := 0x00A00004
def Reg.QUE_BURST_CFG : Nat := 0x00A00008
def Reg.QUE_CMD : Nat := 0x00A00010
def Reg.QUE_ARG : Nat := 0x00A00014
def Reg.QUE_RESULT : Nat := 0x00A00018
def Reg.QUE_POS : Nat := 0x00A0001C
def Reg.QUE_DESC : Nat := 0x00A00040
def Reg.QUE_GRP_HIGH_LO : Nat := 0x00A00080
def Reg.QUE_GRP_HIGH_HI : Nat := 0x00A00084
def Reg.QUE_FC_STAT : Nat := 0x00A00088
def Reg.QUE_TAB_CMD : Nat := 0x00A00100
def Reg.QUE_TAB_ADDR : Nat := 0x00A00104
def Reg.QUE_TAB_DATA : Nat := 0x00A00140
def Reg.QUE_CNT_LO : Nat := 0x00A00200
def Reg.QUE_CNT_HI : Nat := 0x00A00204
def Reg.FWD_STATUS : Nat := 0x00B00000
def Reg.FWD_CFG : Nat := 0x00B00004
def Reg.FWD_RTCP_CFG : Nat := 0x00B00008
def Reg.FWD_SPK_CFG : Nat := 0x00B0000C
def Reg.FWD_TAB_CMD : Nat := 0x00B00020
def Reg.FWD_TAB_ADDR : Nat := 0x00B00024
def Reg.FWD_TAB_DATA : Nat := 0x00B00040
def Reg.FWD_CNT_LO : Nat := 0x00B00200
def Reg.FWD_CNT_HI : Nat := 0x00B00204
def Reg.LEG_STATUS : Nat := 0x00C00000
def Reg.LEG_EST_CFG : Nat := 0x00C00004
def Reg.LEG_FB_TIMEOUT : Nat := 0x00C00008
def Reg.LEG_TAB_CMD : Nat := 0x00C00020
def Reg.LEG_TAB_ADDR : Nat := 0x00C00024
def Reg.LEG_TAB_DATA : Nat := 0x00C00040
def Reg.LEG_CNT_LO : Nat := 0x00C00200
def Reg.LEG_CNT_HI : Nat := 0x00C00204
def Reg.VDC_STATUS : Nat := 0x00D00000
def Reg.VDC_CFG : Nat := 0x00D00004
def Reg.VDC_TAB_CMD : Nat := 0x00D00020
def Reg.VDC_TAB_ADDR : Nat := 0x00D00024
def Reg.VDC_TAB_DATA : Nat := 0x00D00040
def Reg.VDC_REGION_LOAD : Nat := 0x00D00100
def Reg.VDC_CNT_LO : Nat := 0x00D00200
def Reg.VDC_CNT_HI : Nat := 0x00D00204
def Reg.VDC_CELL_STAT : Nat := 0x00D10000
def Reg.VDC_CELL_ERR : Nat := 0x00D10004
def Reg.CMP_STATUS : Nat := 0x00E00000
def Reg.CMP_CFG : Nat := 0x00E00004
def Reg.CMP_TAB_CMD : Nat := 0x00E00020
def Reg.CMP_TAB_ADDR : Nat := 0x00E00024
def Reg.CMP_TAB_DATA : Nat := 0x00E00040
def Reg.CMP_REGION_LOAD : Nat := 0x00E00100
def Reg.CMP_CNT_LO : Nat := 0x00E00200
def Reg.CMP_CNT_HI : Nat := 0x00E00204
def Reg.CMP_CELL_STAT : Nat := 0x00E20000
def Reg.VEN_STATUS : Nat := 0x00F00000
def Reg.VEN_CFG : Nat := 0x00F00004
def Reg.VEN_RC_MODE : Nat := 0x00F00008
def Reg.VEN_TAB_CMD : Nat := 0x00F00020
def Reg.VEN_TAB_ADDR : Nat := 0x00F00024
def Reg.VEN_TAB_DATA : Nat := 0x00F00040
def Reg.VEN_REGION_LOAD : Nat := 0x00F00100
def Reg.VEN_CNT_LO : Nat := 0x00F00200
def Reg.VEN_CNT_HI : Nat := 0x00F00204
def Reg.VEN_CELL_STAT : Nat := 0x00F10000
def Reg.AUD_STATUS : Nat := 0x01000000
def Reg.AUD_CFG : Nat := 0x01000004
def Reg.AUD_TAB_CMD : Nat := 0x01000020
def Reg.AUD_TAB_ADDR : Nat := 0x01000024
def Reg.AUD_TAB_DATA : Nat := 0x01000040
def Reg.AUD_REGION_LOAD : Nat := 0x01000100
def Reg.AUD_REGION_MIX : Nat := 0x01000104
def Reg.AUD_CNT_LO : Nat := 0x01000200
def Reg.AUD_CNT_HI : Nat := 0x01000204
def Reg.AUD_CELL_STAT : Nat := 0x01024000
def Reg.FLT_STATUS : Nat := 0x01100000
def Reg.FLT_CFG : Nat := 0x01100004
def Reg.FLT_TAB_CMD : Nat := 0x01100020
def Reg.FLT_TAB_ADDR : Nat := 0x01100024
def Reg.FLT_TAB_DATA : Nat := 0x01100040
def Reg.FLT_CNT_LO : Nat := 0x01100200
def Reg.FLT_CNT_HI : Nat := 0x01100204
def Reg.FLT_CELL_STAT : Nat := 0x0112C000
def Reg.TIM_STATUS : Nat := 0x01200000
def Reg.TIM_CTRL : Nat := 0x01200004
def Reg.TIM_JUMP_LIMIT : Nat := 0x01200008
def Reg.TIM_STEP_THRESH : Nat := 0x0120000C
def Reg.TIM_SLEW_MAX : Nat := 0x01200010
def Reg.TIM_PPS_CFG : Nat := 0x01200014
def Reg.TIM_LAUNCH_CFG : Nat := 0x01200020
def Reg.TIM_PORT_CORR : Nat := 0x01200030
def Reg.TIM_BEAT_OFFSET : Nat := 0x01200100
def Reg.TIM_BEAT_LO : Nat := 0x01200104
def Reg.TIM_BEAT_HI : Nat := 0x01200108
def Reg.TIM_BEAT_STAT : Nat := 0x0120010C
def Reg.TIM_CAP_FRAC : Nat := 0x01200200
def Reg.TIM_CAP_NS : Nat := 0x01200204
def Reg.TIM_CAP_SEC_LO : Nat := 0x01200208
def Reg.TIM_CAP_SEC_HI : Nat := 0x0120020C
def Reg.TIM_CNT_LO : Nat := 0x01200300
def Reg.TIM_CNT_HI : Nat := 0x01200304
def Reg.TIM_DOM_CFG : Nat := 0x01201000
def Reg.TIM_DOM_STAT : Nat := 0x01201004
def Reg.TIM_DOM_CTRL : Nat := 0x01201008
def Reg.TIM_DOM_GAIN : Nat := 0x0120100C
def Reg.TIM_DOM_ADJ : Nat := 0x01201010
def Reg.TIM_DOM_INTEG : Nat := 0x01201014
def Reg.TIM_DOM_OFS_LO : Nat := 0x01201018
def Reg.TIM_DOM_OFS_HI : Nat := 0x0120101C
def Reg.TIM_DOM_LAST_LO : Nat := 0x01201020
def Reg.TIM_DOM_LAST_HI : Nat := 0x01201024
def Reg.TIM_DOM_HOLD : Nat := 0x01201028
def Reg.TIM_DOM_MSG : Nat := 0x0120102C
def Reg.GAT_TAB_CMD : Nat := 0x01300000
def Reg.GAT_TAB_ADDR : Nat := 0x01300004
def Reg.GAT_TAB_DATA : Nat := 0x01300040
def Reg.GAT_CTRL : Nat := 0x01301000
def Reg.GAT_CYCLE : Nat := 0x01301004
def Reg.GAT_BASE_NS : Nat := 0x01301008
def Reg.GAT_BASE_SEC_LO : Nat := 0x0130100C
def Reg.GAT_BASE_SEC_HI : Nat := 0x01301010
def Reg.GAT_START_NS : Nat := 0x01301014
def Reg.GAT_START_SEC_LO : Nat := 0x01301018
def Reg.GAT_START_SEC_HI : Nat := 0x0130101C
def Reg.GAT_ADMIN : Nat := 0x01301020
def Reg.GAT_STATE : Nat := 0x01301024
def Reg.GAT_MAXOPEN : Nat := 0x01301040
def Reg.GAT_CNT_LO : Nat := 0x01301080
def Reg.GAT_CNT_HI : Nat := 0x01301084
def Reg.EGS_STATUS : Nat := 0x01400000
def Reg.EGS_CFG : Nat := 0x01400004
def Reg.EGS_TAB_CMD : Nat := 0x01400020
def Reg.EGS_TAB_ADDR : Nat := 0x01400024
def Reg.EGS_TAB_DATA : Nat := 0x01400040
def Reg.EGS_PORT_CFG : Nat := 0x01401000
def Reg.EGS_PORT_HOLD : Nat := 0x01401004
def Reg.EGS_TXQ_FILL : Nat := 0x01401008
def Reg.EGS_CLS : Nat := 0x01401020
def Reg.EGS_CNT_LO : Nat := 0x01401080
def Reg.EGS_CNT_HI : Nat := 0x01401084
def Reg.MEM_STATUS : Nat := 0x01500000
def Reg.MEM_CFG : Nat := 0x01500004
def Reg.MEM_CTRL : Nat := 0x01500008
def Reg.MEM_FSP : Nat := 0x0150000C
def Reg.MEM_RESULT : Nat := 0x01500010
def Reg.MEM_CAP : Nat := 0x01500014
def Reg.MEM_CHAN_MAP : Nat := 0x01500040
def Reg.MEM_PORT_CFG : Nat := 0x01500080
def Reg.MEM_CNT_LO : Nat := 0x01500200
def Reg.MEM_CNT_HI : Nat := 0x01500204
def Reg.MEM_CH_STAT : Nat := 0x01501000
def Reg.MEM_CH_MARGIN : Nat := 0x01501004
def Reg.MEM_CH_UE_ADDR_LO : Nat := 0x01501008
def Reg.MEM_CH_UE_ADDR_HI : Nat := 0x0150100C
def Reg.MEM_CH_CNT_LO : Nat := 0x01501010
def Reg.MEM_CH_CNT_HI : Nat := 0x01501014
def Reg.MUL_STATUS : Nat := 0x01600000
def Reg.MUL_CFG : Nat := 0x01600004
def Reg.MUL_CTRL : Nat := 0x01600008
def Reg.MUL_RESULT : Nat := 0x0160000C
def Reg.MUL_ROOSTER : Nat := 0x01600010
def Reg.MUL_SERIAL_LO : Nat := 0x01600014
def Reg.MUL_SERIAL_HI : Nat := 0x01600018
def Reg.MUL_TAB_CMD : Nat := 0x01600020
def Reg.MUL_TAB_ADDR : Nat := 0x01600024
def Reg.MUL_TAB_DATA : Nat := 0x01600040
def Reg.MUL_CNT_LO : Nat := 0x01600200
def Reg.MUL_CNT_HI : Nat := 0x01600204
def Reg.MUL_LINK_CFG : Nat := 0x01601000
def Reg.MUL_LINK_STAT : Nat := 0x01601004
def Reg.MUL_LINK_ASYM : Nat := 0x01601008
def Reg.PWR_STATUS : Nat := 0x01700000
def Reg.PWR_CFG : Nat := 0x01700004
def Reg.PWR_RAIL : Nat := 0x01700010
def Reg.PWR_THERM : Nat := 0x01700040
def Reg.PWR_SPRINT_CTRL : Nat := 0x01700050
def Reg.PWR_SPRINT_STAT : Nat := 0x01700054
def Reg.PWR_SPRINT_LIFE : Nat := 0x01700058
def Reg.PWR_SENSOR : Nat := 0x01700100
def Reg.PWR_CNT_LO : Nat := 0x01700200
def Reg.PWR_CNT_HI : Nat := 0x01700204
def Reg.LMD_STATUS : Nat := 0x01800000
def Reg.LMD_CFG : Nat := 0x01800004
def Reg.LMD_TAB_CMD : Nat := 0x01800020
def Reg.LMD_TAB_ADDR : Nat := 0x01800024
def Reg.LMD_TAB_DATA : Nat := 0x01800040
def Reg.LMD_MOD_STAT : Nat := 0x01801000
def Reg.LMD_MOD_CTRL : Nat := 0x01801004
def Reg.PCI_STATUS : Nat := 0x01900000
def Reg.PCI_ID : Nat := 0x01900004
def Reg.PCI_WIN_BASE : Nat := 0x01900010
def Reg.PCI_PUNT_SEL : Nat := 0x01900020
def Reg.PCI_CNT_LO : Nat := 0x01900200
def Reg.PCI_CNT_HI : Nat := 0x01900204
def Reg.RING_BASE_LO : Nat := 0x01901000
def Reg.RING_BASE_HI : Nat := 0x01901004
def Reg.RING_CFG : Nat := 0x01901008
def Reg.RING_HEAD : Nat := 0x0190100C
def Reg.RING_TAIL : Nat := 0x01901010
def Reg.RING_IRQ : Nat := 0x01901014
def Reg.EVT_SUMMARY : Nat := 0x01A00000
def Reg.EVT_REGION_SUM : Nat := 0x01A00010
def Reg.EVT_LOG_HEAD : Nat := 0x01A00030
def Reg.EVT_LOG_TAIL : Nat := 0x01A00034
def Reg.EVT_LOG_CFG : Nat := 0x01A00038
def Reg.EVT_VEC_PEND_LO : Nat := 0x01A00040
def Reg.EVT_VEC_PEND_HI : Nat := 0x01A00044
def Reg.EVT_STAT : Nat := 0x01A00100
def Reg.EVT_CNT_LO : Nat := 0x01A00200
def Reg.EVT_CNT_HI : Nat := 0x01A00204
def Reg.EVT_SRC_CFG : Nat := 0x01A01000
def Reg.TAP_STATUS : Nat := 0x01B00000
def Reg.TAP_CFG : Nat := 0x01B00004
def Reg.TAP_TAB_CMD : Nat := 0x01B00020
def Reg.TAP_TAB_ADDR : Nat := 0x01B00024
def Reg.TAP_TAB_DATA : Nat := 0x01B00040
def Reg.TAP_CNT_LO : Nat := 0x01B00200
def Reg.TAP_CNT_HI : Nat := 0x01B00204
def Reg.MSIX_ADDR_LO : Nat := 0x01908000
def Reg.MSIX_ADDR_HI : Nat := 0x01908004
def Reg.MSIX_DATA : Nat := 0x01908008
def Reg.MSIX_CTRL : Nat := 0x0190800C
def Reg.MSIX_PBA : Nat := 0x01909000

def rw (hi lo : Nat) (ok : List (Nat × Nat) := []) : RegField := ⟨hi, lo, .rw, ok⟩
def ro (hi lo : Nat) : RegField := ⟨hi, lo, .ro, []⟩
def w1c (hi lo : Nat) : RegField := ⟨hi, lo, .w1c, []⟩
def w1s (hi lo : Nat) : RegField := ⟨hi, lo, .w1s, []⟩
def wo (hi lo : Nat) (ok : List (Nat × Nat) := []) : RegField := ⟨hi, lo, .wo, ok⟩
def rc (hi lo : Nat) : RegField := ⟨hi, lo, .rc, []⟩

/-- Block window 0: TOP registers. -/
def regBlock0 : List RegDesc := [
  ⟨Reg.TOP_ID, [], 0x48161000, [ro 31 16, ro 15 12, ro 11 8]⟩,
  ⟨Reg.TOP_MODE, [], 0x00000000, [ro 3 0]⟩,
  ⟨Reg.TOP_STATUS, [], 0x00000000, [ro 31 31, ro 30 30]⟩,
  ⟨Reg.TOP_MODE_REQ, [], 0x00000000, [wo 31 31, wo 3 0]⟩,
  ⟨Reg.TOP_MODE_RESULT, [], 0x00000000, [ro 31 31, ro 2 0]⟩,
  ⟨Reg.TOP_RESET_CAUSE, [], 0x00000010, [w1c 4 4, w1c 3 3, w1c 2 2, w1c 1 1, w1c 0 0]⟩]

/-- Block window 1: MGT registers. -/
def regBlock1 : List RegDesc := [
  ⟨Reg.MGT_POLICY, [], 0x40000000, [rw 31 31, rw 30 30]⟩]

/-- Block window 2: CFG registers. -/
def regBlock2 : List RegDesc := [
  ⟨Reg.CFG_CTRL, [], 0x00000000, [wo 31 28 [(1, 4)], rw 10 8 [(0, 5)], rw 4 4, rw 0 0]⟩,
  ⟨Reg.CFG_STATUS, [], 0x00000000, [ro 26 24, ro 18 16, ro 8 8, ro 7 0]⟩,
  ⟨Reg.CFG_ERR_DETAIL, [], 0x00000000, [ro 31 29, ro 28 16, ro 15 0]⟩,
  ⟨Reg.CFG_SRC_LO, [], 0x00000000, [rw 31 0]⟩,
  ⟨Reg.CFG_SRC_HI, [], 0x00000000, [rw 31 0]⟩,
  ⟨Reg.CFG_SRC_LEN, [], 0x00000000, [rw 31 0]⟩,
  ⟨Reg.CFG_ROLLBACK, [], 0x00000000, [ro 31 0]⟩,
  ⟨Reg.CFG_REGION_STAT, [(4, 6)], 0x00000800, [ro 31 16, ro 11 8, ro 4 0]⟩,
  ⟨Reg.CFG_PERSONALITY, [(4, 4)], 0x00000000, [ro 15 0]⟩,
  ⟨Reg.CFG_DRAIN_FORCED, [], 0x00000000, [rc 31 0]⟩]

/-- Block window 3: TSK registers. -/
def regBlock3 : List RegDesc := [
  ⟨Reg.TSK_STATUS, [], 0x00000000, [ro 17 0]⟩,
  ⟨Reg.TSK_MS_FILL, [], 0x00000000, [ro 16 0]⟩,
  ⟨Reg.TSK_MS_HIWAT, [], 0x0000E666, [rw 15 0]⟩,
  ⟨Reg.TSK_MS_HOLD, [], 0x00000006, [rw 5 0 [(1, 60)]]⟩,
  ⟨Reg.TSK_STALL_TIMEOUT, [], 0x00000000, [rw 19 0 [(0, 1000000)]]⟩,
  ⟨Reg.TSK_TAB_CMD, [], 0x00000000, [wo 31 28 [(1, 2)], rw 27 24 [(0, 3)], ro 1 1, ro 0 0]⟩,
  ⟨Reg.TSK_TAB_ADDR, [], 0x00000000, [rw 16 0]⟩,
  ⟨Reg.TSK_TAB_DATA, [(4, 8)], 0x00000000, [rw 31 0]⟩,
  ⟨Reg.TSK_ABORT, [], 0x00000000, [wo 23 0]⟩,
  ⟨Reg.TSK_ABORT_RESULT, [], 0x00000000, [ro 31 31, ro 2 0]⟩,
  ⟨Reg.TSK_POST_TAG_LO, [], 0x00000000, [rw 31 0]⟩,
  ⟨Reg.TSK_POST_TAG_HI, [], 0x00000000, [rw 31 0]⟩,
  ⟨Reg.TSK_POST_REF_LO, [], 0x00000000, [rw 31 0]⟩,
  ⟨Reg.TSK_POST_REF_HI, [], 0x00000000, [rw 31 0]⟩,
  ⟨Reg.TSK_POST_STAT, [], 0x00000000, [w1c 0 0]⟩,
  ⟨Reg.TSK_CNT_LO, [(8, 8)], 0x00000000, [rc 31 0]⟩,
  ⟨Reg.TSK_CNT_HI, [(8, 8)], 0x00000000, [ro 31 0]⟩,
  ⟨Reg.TSK_HWAIT_TAG_LO, [(16, 64)], 0x00000000, [rw 31 0]⟩,
  ⟨Reg.TSK_HWAIT_TAG_HI, [(16, 64)], 0x00000000, [rw 31 0]⟩,
  ⟨Reg.TSK_HWAIT_CTRL, [(16, 64)], 0x00000000, [rw 31 31, w1s 30 30, rw 29 29, rw 13 6, rw 5 0]⟩,
  ⟨Reg.TSK_HWAIT_RESULT, [(16, 64)], 0x00000000, [ro 1 0]⟩]

/-- Block window 4: PRS registers. -/
def regBlock4 : List RegDesc := [
  ⟨Reg.PRS_STATUS, [(262144, 2)], 0x00000000, [ro 12 0]⟩,
  ⟨Reg.PRS_MAL_CTRL, [(262144, 2), (4, 4)], 0x04000000, [rw 31 16 [(1, 65535)], rw 15 12, rw 1 0 [(0, 2)]]⟩,
  ⟨Reg.PRS_MAL_CNT_LO, [(262144, 2), (8, 4)], 0x00000000, [rc 31 0]⟩,
  ⟨Reg.PRS_MAL_CNT_HI, [(262144, 2), (8, 4)], 0x00000000, [ro 31 0]⟩,
  ⟨Reg.PRS_LENC_CNT_LO, [(262144, 2), (8, 7)], 0x00000000, [rc 31 0]⟩,
  ⟨Reg.PRS_LENC_CNT_HI, [(262144, 2), (8, 7)], 0x00000000, [ro 31 0]⟩,
  ⟨Reg.PRS_CNT_LO, [(262144, 2), (8, 3)], 0x00000000, [rc 31 0]⟩,
  ⟨Reg.PRS_CNT_HI, [(262144, 2), (8, 3)], 0x00000000, [ro 31 0]⟩]

/-- Block window 5: MAT registers. -/
def regBlock5 : List RegDesc := [
  ⟨Reg.MAT_TAB_CMD, [], 0x00800000, [wo 31 28 [(1, 6)], rw 27 24 [(0, 6)], rw 23 23, ro 7 4, ro 1 1, ro 0 0]⟩,
  ⟨Reg.MAT_TAB_ADDR, [], 0x00000000, [rw 24 0]⟩,
  ⟨Reg.MAT_EPOCH, [], 0x400000F0, [w1s 31 31, ro 30 30, w1c 29 29, ro 7 4, ro 3 0]⟩,
  ⟨Reg.MAT_EPOCH_INFLIGHT, [], 0x00000000, [ro 15 0]⟩,
  ⟨Reg.MAT_DEFAULT, [], 0x00000000, [rw 15 0]⟩,
  ⟨Reg.MAT_FLOW_CFG, [], 0x00008CA0, [rw 23 0 [(600, 16777215)]]⟩,
  ⟨Reg.MAT_TAB_DATA, [(4, 8)], 0x00000000, [rw 31 0]⟩,
  ⟨Reg.MAT_CNT_LO, [(262144, 2), (8, 8)], 0x00000000, [rc 31 0]⟩,
  ⟨Reg.MAT_CNT_HI, [(262144, 2), (8, 8)], 0x00000000, [ro 31 0]⟩]

/-- Block window 6: TRE registers. -/
def regBlock6 : List RegDesc := [
  ⟨Reg.TRE_CTRL, [], 0x00000000, [rw 3 3, rw 2 2, rw 1 1, rw 0 0]⟩,
  ⟨Reg.TRE_ROOT_LO, [(8, 4)], 0x00000000, [rw 31 0]⟩,
  ⟨Reg.TRE_ROOT_HI, [(8, 4)], 0x00000000, [rw 31 0]⟩,
  ⟨Reg.TRE_ERR_CNT, [], 0x00000000, [rc 31 0]⟩]

/-- Block window 7: MET registers. -/
def regBlock7 : List RegDesc := [
  ⟨Reg.MET_TAB_CMD, [], 0x00000000, [wo 31 28 [(1, 2), (7, 7)], rw 27 24 [(0, 1)], ro 7 4, ro 1 1, ro 0 0]⟩,
  ⟨Reg.MET_TAB_ADDR, [], 0x00000000, [rw 20 0]⟩,
  ⟨Reg.MET_TAB_DATA, [(4, 8)], 0x00000000, [rw 31 0]⟩,
  ⟨Reg.MET_OVH, [(4, 8)], 0x00000014, [rw 6 0 [(0, 63), (96, 127)]]⟩]

/-- Block window 8: VLT registers. -/
def regBlock8 : List RegDesc := [
  ⟨Reg.VLT_STATUS, [], 0x00000200, [ro 20 16, ro 9 9, ro 8 8, ro 7 7, ro 5 0]⟩,
  ⟨Reg.VLT_PEN_FILL, [], 0x00000000, [ro 29 16, ro 13 0]⟩,
  ⟨Reg.VLT_RUN_CFG, [], 0x00004001, [rw 16 16, rw 15 3 [(0, 6144)], rw 2 0 [(1, 6)]]⟩,
  ⟨Reg.VLT_ALARM_EN, [], 0x00000000, [w1s 1 1, w1s 0 0]⟩,
  ⟨Reg.VLT_ALARM_CAUSE, [], 0x00000000, [ro 7 0]⟩,
  ⟨Reg.VLT_KW_FILL, [], 0x00000000, [ro 30 16, ro 14 0]⟩,
  ⟨Reg.VLT_TAB_CMD, [], 0x00000000, [wo 31 28 [(1, 2)], rw 27 24 [(0, 2)], ro 7 4, ro 1 1, ro 0 0]⟩,
  ⟨Reg.VLT_TAB_ADDR, [], 0x00000000, [rw 15 0]⟩,
  ⟨Reg.VLT_TAB_DATA, [(4, 8)], 0x00000000, [rw 31 0]⟩,
  ⟨Reg.VLT_CNT_LO, [(8, 8)], 0x00000000, [rc 31 0]⟩,
  ⟨Reg.VLT_CNT_HI, [(8, 8)], 0x00000000, [ro 31 0]⟩]

/-- Block window 9: CIP registers. -/
def regBlock9 : List RegDesc := [
  ⟨Reg.CIP_STATUS, [(262144, 2)], 0x00000000, [ro 22 16, ro 6 0]⟩,
  ⟨Reg.CIP_PROGS, [(262144, 2)], 0x00000000, [ro 15 0]⟩,
  ⟨Reg.CIP_CNT_LO, [(262144, 2), (8, 6)], 0x00000000, [rc 31 0]⟩,
  ⟨Reg.CIP_CNT_HI, [(262144, 2), (8, 6)], 0x00000000, [ro 31 0]⟩]

/-- Block window 10: QUE registers. -/
def regBlock10 : List RegDesc := [
  ⟨Reg.QUE_STATUS, [], 0x00000000, [ro 31 31, ro 17 0]⟩,
  ⟨Reg.QUE_BURST_FREE, [], 0x00030000, [ro 17 0]⟩,
  ⟨Reg.QUE_BURST_CFG, [], 0x00000000, [rw 17 0 [(0, 65536)]]⟩,
  ⟨Reg.QUE_CMD, [], 0x00000000, [wo 31 28 [(1, 6)], rw 17 0]⟩,
  ⟨Reg.QUE_ARG, [], 0x00000000, [rw 31 0]⟩,
  ⟨Reg.QUE_RESULT, [], 0x00000000, [ro 31 31, ro 27 24]⟩,
  ⟨Reg.QUE_POS, [], 0x00000000, [ro 31 0]⟩,
  ⟨Reg.QUE_DESC, [(4, 8)], 0x00000000, [ro 31 0]⟩,
  ⟨Reg.QUE_GRP_HIGH_LO, [], 0x00000000, [ro 31 0]⟩,
  ⟨Reg.QUE_GRP_HIGH_HI, [], 0x00000000, [ro 31 0]⟩,
  ⟨Reg.QUE_FC_STAT, [], 0x00000000, [ro 15 0]⟩,
  ⟨Reg.QUE_TAB_CMD, [], 0x00000000, [wo 31 28 [(1, 2)], rw 27 24 [(0, 2)], ro 1 1, ro 0 0]⟩,
  ⟨Reg.QUE_TAB_ADDR, [], 0x00000000, [rw 17 0]⟩,
  ⟨Reg.QUE_TAB_DATA, [(4, 8)], 0x00000000, [rw 31 0]⟩,
  ⟨Reg.QUE_CNT_LO, [(8, 8)], 0x00000000, [rc 31 0]⟩,
  ⟨Reg.QUE_CNT_HI, [(8, 8)], 0x00000000, [ro 31 0]⟩]

/-- Block window 11: FWD registers. -/
def regBlock11 : List RegDesc := [
  ⟨Reg.FWD_STATUS, [], 0x00000000, [ro 17 0]⟩,
  ⟨Reg.FWD_CFG, [], 0x0096012C, [rw 25 16 [(30, 600)], rw 9 0 [(0, 600)]]⟩,
  ⟨Reg.FWD_RTCP_CFG, [], 0x02580C1E, [rw 31 16 [(60, 6000)], rw 15 8 [(0, 120)], rw 7 0 [(6, 120)]]⟩,
  ⟨Reg.FWD_SPK_CFG, [], 0x281E0258, [rw 31 24 [(6, 6), (10, 10), (12, 12), (20, 20), (24, 24), (25, 25), (40, 40), (80, 80)], rw 23 16, rw 11 0]⟩,
  ⟨Reg.FWD_TAB_CMD, [], 0x00000000, [wo 31 28 [(1, 2)], rw 27 24 [(0, 4)], ro 1 1, ro 0 0]⟩,
  ⟨Reg.FWD_TAB_ADDR, [], 0x00000000, [rw 22 0]⟩,
  ⟨Reg.FWD_TAB_DATA, [(4, 8)], 0x00000000, [rw 31 0]⟩,
  ⟨Reg.FWD_CNT_LO, [(8, 8)], 0x00000000, [rc 31 0]⟩,
  ⟨Reg.FWD_CNT_HI, [(8, 8)], 0x00000000, [ro 31 0]⟩]

/-- Block window 12: LEG registers. -/
def regBlock12 : List RegDesc := [
  ⟨Reg.LEG_STATUS, [], 0x00000000, [ro 29 16, ro 13 0]⟩,
  ⟨Reg.LEG_EST_CFG, [], 0x00000000, [rw 31 24, rw 23 16, rw 15 8, rw 7 0]⟩,
  ⟨Reg.LEG_FB_TIMEOUT, [], 0x00000708, [rw 15 0 [(600, 65535)]]⟩,
  ⟨Reg.LEG_TAB_CMD, [], 0x00000000, [wo 31 28 [(1, 2)], rw 27 24 [(0, 0)], ro 1 1, ro 0 0]⟩,
  ⟨Reg.LEG_TAB_ADDR, [], 0x00000000, [rw 13 0]⟩,
  ⟨Reg.LEG_TAB_DATA, [(4, 8)], 0x00000000, [rw 31 0]⟩,
  ⟨Reg.LEG_CNT_LO, [(8, 8)], 0x00000000, [rc 31 0]⟩,
  ⟨Reg.LEG_CNT_HI, [(8, 8)], 0x00000000, [ro 31 0]⟩]

/-- Block window 13: VDC registers. -/
def regBlock13 : List RegDesc := [
  ⟨Reg.VDC_STATUS, [], 0x00000000, [ro 13 0]⟩,
  ⟨Reg.VDC_CFG, [], 0x0164031E, [rw 24 24, rw 22 16 [(50, 125)], rw 11 8 [(1, 8)], rw 7 0 [(1, 120)]]⟩,
  ⟨Reg.VDC_TAB_CMD, [], 0x00000000, [wo 31 28 [(1, 2)], rw 27 24 [(0, 3)], ro 7 4, ro 1 1, ro 0 0]⟩,
  ⟨Reg.VDC_TAB_ADDR, [], 0x00000000, [rw 13 0]⟩,
  ⟨Reg.VDC_TAB_DATA, [(4, 8)], 0x00000000, [rw 31 0]⟩,
  ⟨Reg.VDC_REGION_LOAD, [(262144, 4)], 0x00000000, [ro 31 16, ro 15 0]⟩,
  ⟨Reg.VDC_CNT_LO, [(262144, 4), (8, 12)], 0x00000000, [rc 31 0]⟩,
  ⟨Reg.VDC_CNT_HI, [(262144, 4), (8, 12)], 0x00000000, [ro 31 0]⟩,
  ⟨Reg.VDC_CELL_STAT, [(262144, 4), (4096, 16)], 0x00000000, [ro 31 31, ro 30 30, ro 29 28, ro 15 0]⟩,
  ⟨Reg.VDC_CELL_ERR, [(262144, 4), (4096, 16)], 0x00000000, [ro 31 16, ro 3 0]⟩]

/-- Block window 14: CMP registers. -/
def regBlock14 : List RegDesc := [
  ⟨Reg.CMP_STATUS, [], 0x00000000, [ro 12 0]⟩,
  ⟨Reg.CMP_CFG, [], 0x01640000, [rw 24 24, rw 22 16 [(50, 125)]]⟩,
  ⟨Reg.CMP_TAB_CMD, [], 0x00000000, [wo 31 28 [(1, 2)], rw 27 24 [(0, 3)], ro 7 4, ro 1 1, ro 0 0]⟩,
  ⟨Reg.CMP_TAB_ADDR, [], 0x00000000, [rw 17 0]⟩,
  ⟨Reg.CMP_TAB_DATA, [(4, 8)], 0x00000000, [rw 31 0]⟩,
  ⟨Reg.CMP_REGION_LOAD, [(262144, 4)], 0x00000000, [ro 31 16, ro 15 0]⟩,
  ⟨Reg.CMP_CNT_LO, [(262144, 4), (8, 8)], 0x00000000, [rc 31 0]⟩,
  ⟨Reg.CMP_CNT_HI, [(262144, 4), (8, 8)], 0x00000000, [ro 31 0]⟩,
  ⟨Reg.CMP_CELL_STAT, [(262144, 4), (4096, 4)], 0x00000000, [ro 30 30, ro 29 29, ro 11 0]⟩]

/-- Block window 15: VEN registers. -/
def regBlock15 : List RegDesc := [
  ⟨Reg.VEN_STATUS, [], 0x00000000, [ro 12 0]⟩,
  ⟨Reg.VEN_CFG, [], 0x006404B0, [rw 22 16 [(50, 125)], rw 10 0 [(576, 1400)]]⟩,
  ⟨Reg.VEN_RC_MODE, [], 0x00000000, [rw 0 0]⟩,
  ⟨Reg.VEN_TAB_CMD, [], 0x00000000, [wo 31 28 [(1, 2)], rw 27 24 [(0, 1)], ro 7 4, ro 1 1, ro 0 0]⟩,
  ⟨Reg.VEN_TAB_ADDR, [], 0x00000000, [rw 13 0]⟩,
  ⟨Reg.VEN_TAB_DATA, [(4, 8)], 0x00000000, [rw 31 0]⟩,
  ⟨Reg.VEN_REGION_LOAD, [(262144, 4)], 0x00000000, [ro 31 16, ro 15 0]⟩,
  ⟨Reg.VEN_CNT_LO, [(262144, 4), (8, 8)], 0x00000000, [rc 31 0]⟩,
  ⟨Reg.VEN_CNT_HI, [(262144, 4), (8, 8)], 0x00000000, [ro 31 0]⟩,
  ⟨Reg.VEN_CELL_STAT, [(262144, 4), (4096, 16)], 0x00000000, [ro 31 31, ro 30 30, ro 29 28, rc 16 16, ro 15 0]⟩]

/-- Block window 16: AUD registers. -/
def regBlock16 : List RegDesc := [
  ⟨Reg.AUD_STATUS, [], 0x00000000, [ro 28 16, ro 14 0]⟩,
  ⟨Reg.AUD_CFG, [], 0x010A141A, [rw 24 24, rw 23 16 [(0, 100)], rw 15 8 [(5, 100)], rw 7 0 [(10, 40)]]⟩,
  ⟨Reg.AUD_TAB_CMD, [], 0x00000000, [wo 31 28 [(1, 2)], rw 27 24 [(0, 1)], ro 7 4, ro 1 1, ro 0 0]⟩,
  ⟨Reg.AUD_TAB_ADDR, [], 0x00000000, [rw 13 0]⟩,
  ⟨Reg.AUD_TAB_DATA, [(4, 8)], 0x00000000, [rw 31 0]⟩,
  ⟨Reg.AUD_REGION_LOAD, [(262144, 4)], 0x00000000, [ro 31 16, ro 15 0]⟩,
  ⟨Reg.AUD_REGION_MIX, [(262144, 4)], 0x00000000, [ro 10 0]⟩,
  ⟨Reg.AUD_CNT_LO, [(262144, 4), (8, 10)], 0x00000000, [rc 31 0]⟩,
  ⟨Reg.AUD_CNT_HI, [(262144, 4), (8, 10)], 0x00000000, [ro 31 0]⟩,
  ⟨Reg.AUD_CELL_STAT, [(262144, 4), (4096, 8)], 0x00000000, [ro 30 30, ro 29 29, ro 27 24, ro 15 0]⟩]

/-- Block window 17: FLT registers. -/
def regBlock17 : List RegDesc := [
  ⟨Reg.FLT_STATUS, [], 0x00000000, [ro 14 0]⟩,
  ⟨Reg.FLT_CFG, [], 0x00010A00, [rw 16 16, rw 15 8 [(1, 255)]]⟩,
  ⟨Reg.FLT_TAB_CMD, [], 0x00000000, [wo 31 28 [(1, 2)], rw 27 24 [(0, 1)], ro 7 4, ro 1 1, ro 0 0]⟩,
  ⟨Reg.FLT_TAB_ADDR, [], 0x00000000, [rw 13 0]⟩,
  ⟨Reg.FLT_TAB_DATA, [(4, 8)], 0x00000000, [rw 31 0]⟩,
  ⟨Reg.FLT_CNT_LO, [(262144, 4), (8, 8)], 0x00000000, [rc 31 0]⟩,
  ⟨Reg.FLT_CNT_HI, [(262144, 4), (8, 8)], 0x00000000, [ro 31 0]⟩,
  ⟨Reg.FLT_CELL_STAT, [(262144, 4), (4096, 2)], 0x00000000, [ro 30 30, ro 29 29, ro 11 0]⟩]

/-- Block window 18: TIM registers. -/
def regBlock18 : List RegDesc := [
  ⟨Reg.TIM_STATUS, [], 0x00000000, [ro 31 31, ro 30 30, ro 29 29, ro 28 28, ro 17 0]⟩,
  ⟨Reg.TIM_CTRL, [], 0x20000000, [w1s 31 31, w1s 30 30, rw 29 29, rw 28 28]⟩,
  ⟨Reg.TIM_JUMP_LIMIT, [], 0x00002710, [rw 29 0 [(100, 1000000000)]]⟩,
  ⟨Reg.TIM_STEP_THRESH, [], 0x000003E8, [rw 19 0 [(100, 1000000)]]⟩,
  ⟨Reg.TIM_SLEW_MAX, [], 0x000001F4, [rw 8 0 [(1, 500)]]⟩,
  ⟨Reg.TIM_PPS_CFG, [], 0x000186A0, [rw 31 31, rw 30 28 [(0, 6)], rw 19 0 [(1, 999999)]]⟩,
  ⟨Reg.TIM_LAUNCH_CFG, [], 0x00640000, [rw 31 31, rw 25 16 [(1, 500)]]⟩,
  ⟨Reg.TIM_PORT_CORR, [(4, 8)], 0x00000000, [rw 31 16, rw 15 0]⟩,
  ⟨Reg.TIM_BEAT_OFFSET, [], 0x00000000, [rw 20 0 [(0, 1666666)]]⟩,
  ⟨Reg.TIM_BEAT_LO, [], 0x00000000, [ro 31 0]⟩,
  ⟨Reg.TIM_BEAT_HI, [], 0x00000000, [ro 31 0]⟩,
  ⟨Reg.TIM_BEAT_STAT, [], 0x00000000, [ro 3 3, ro 2 2, ro 1 1, ro 0 0]⟩,
  ⟨Reg.TIM_CAP_FRAC, [(16, 7)], 0x00000000, [ro 15 0]⟩,
  ⟨Reg.TIM_CAP_NS, [(16, 7)], 0x00000000, [ro 31 0]⟩,
  ⟨Reg.TIM_CAP_SEC_LO, [(16, 7)], 0x00000000, [ro 31 0]⟩,
  ⟨Reg.TIM_CAP_SEC_HI, [(16, 7)], 0x00000000, [ro 15 0]⟩,
  ⟨Reg.TIM_CNT_LO, [(8, 8)], 0x00000000, [rc 31 0]⟩,
  ⟨Reg.TIM_CNT_HI, [(8, 8)], 0x00000000, [ro 31 0]⟩,
  ⟨Reg.TIM_DOM_CFG, [(256, 6)], 0x00000010, [rw 31 31, rw 30 28 [(0, 4)], rw 27 20, rw 19 12, rw 11 10, rw 9 9, rw 8 8, rw 7 5 [(0, 3)], rw 4 4]⟩,
  ⟨Reg.TIM_DOM_STAT, [(256, 6)], 0x00000000, [ro 31 29, w1c 28 28, ro 27 27]⟩,
  ⟨Reg.TIM_DOM_CTRL, [(256, 6)], 0x00000000, [w1s 31 31, w1s 30 30]⟩,
  ⟨Reg.TIM_DOM_GAIN, [(256, 6)], 0x00000000, [rw 15 8 [(0, 31)], rw 7 0 [(0, 31)]]⟩,
  ⟨Reg.TIM_DOM_ADJ, [(256, 6)], 0x00000000, [ro 31 0]⟩,
  ⟨Reg.TIM_DOM_INTEG, [(256, 6)], 0x00000000, [rw 31 0]⟩,
  ⟨Reg.TIM_DOM_OFS_LO, [(256, 6)], 0x00000000, [wo 31 0]⟩,
  ⟨Reg.TIM_DOM_OFS_HI, [(256, 6)], 0x00000000, [wo 31 0]⟩,
  ⟨Reg.TIM_DOM_LAST_LO, [(256, 6)], 0x00000000, [ro 31 0]⟩,
  ⟨Reg.TIM_DOM_LAST_HI, [(256, 6)], 0x00000000, [ro 31 0]⟩,
  ⟨Reg.TIM_DOM_HOLD, [(256, 6)], 0x00030064, [rw 23 16 [(1, 60)], rw 15 0 [(10, 10000)]]⟩,
  ⟨Reg.TIM_DOM_MSG, [(256, 6)], 0x00FDFD01, [rw 23 16, rw 15 8, rw 7 0]⟩]

/-- Block window 19: GAT registers. -/
def regBlock19 : List RegDesc := [
  ⟨Reg.GAT_TAB_CMD, [], 0x00000000, [wo 31 28 [(1, 2)], rw 27 24 [(0, 7)], rw 23 23, ro 7 4, ro 1 1, ro 0 0]⟩,
  ⟨Reg.GAT_TAB_ADDR, [], 0x00000000, [rw 9 0]⟩,
  ⟨Reg.GAT_TAB_DATA, [(4, 2)], 0x00000000, [rw 31 0]⟩,
  ⟨Reg.GAT_CTRL, [(256, 8)], 0x00000001, [rw 31 31, w1s 30 30, w1s 29 29, ro 28 28, w1c 27 27, w1c 26 26, rw 10 0 [(1, 1024)]]⟩,
  ⟨Reg.GAT_CYCLE, [(256, 8)], 0x000F4240, [rw 29 0 [(1000, 1000000000)]]⟩,
  ⟨Reg.GAT_BASE_NS, [(256, 8)], 0x00000000, [rw 31 0]⟩,
  ⟨Reg.GAT_BASE_SEC_LO, [(256, 8)], 0x00000000, [rw 31 0]⟩,
  ⟨Reg.GAT_BASE_SEC_HI, [(256, 8)], 0x00000000, [rw 15 0]⟩,
  ⟨Reg.GAT_START_NS, [(256, 8)], 0x00000000, [ro 31 0]⟩,
  ⟨Reg.GAT_START_SEC_LO, [(256, 8)], 0x00000000, [ro 31 0]⟩,
  ⟨Reg.GAT_START_SEC_HI, [(256, 8)], 0x00000000, [ro 15 0]⟩,
  ⟨Reg.GAT_ADMIN, [(256, 8)], 0x000000FF, [rw 7 0]⟩,
  ⟨Reg.GAT_STATE, [(256, 8)], 0x000000FF, [ro 25 16, ro 7 0]⟩,
  ⟨Reg.GAT_MAXOPEN, [(256, 8), (4, 8)], 0x3FFFFFFF, [ro 31 0]⟩,
  ⟨Reg.GAT_CNT_LO, [(256, 8), (8, 4)], 0x00000000, [rc 31 0]⟩,
  ⟨Reg.GAT_CNT_HI, [(256, 8), (8, 4)], 0x00000000, [ro 31 0]⟩]

/-- Block window 20: EGS registers. -/
def regBlock20 : List RegDesc := [
  ⟨Reg.EGS_STATUS, [], 0x00000000, [ro 29 16, ro 7 0]⟩,
  ⟨Reg.EGS_CFG, [], 0x05DC0600, [rw 31 16 [(1500, 65535)], rw 15 0 [(256, 65535)]]⟩,
  ⟨Reg.EGS_TAB_CMD, [], 0x00000000, [wo 31 28 [(1, 2)], rw 27 24 [(0, 3)], ro 7 4, ro 1 1, ro 0 0]⟩,
  ⟨Reg.EGS_TAB_ADDR, [], 0x00000000, [rw 17 0]⟩,
  ⟨Reg.EGS_TAB_DATA, [(4, 8)], 0x00000000, [rw 31 0]⟩,
  ⟨Reg.EGS_PORT_CFG, [(256, 8)], 0xE0000000, [rw 31 31, rw 30 30, rw 29 29]⟩,
  ⟨Reg.EGS_PORT_HOLD, [(256, 8)], 0x00000000, [ro 7 0]⟩,
  ⟨Reg.EGS_TXQ_FILL, [(256, 8)], 0x00000000, [ro 23 16, ro 15 0]⟩,
  ⟨Reg.EGS_CLS, [(256, 8), (4, 8)], 0x00000001, [rw 31 31, rw 26 24, rw 7 0 [(1, 255)]]⟩,
  ⟨Reg.EGS_CNT_LO, [(256, 8), (8, 8)], 0x00000000, [rc 31 0]⟩,
  ⟨Reg.EGS_CNT_HI, [(256, 8), (8, 8)], 0x00000000, [ro 31 0]⟩]

/-- Block window 21: MEM registers. -/
def regBlock21 : List RegDesc := [
  ⟨Reg.MEM_STATUS, [], 0x00100000, [ro 31 31, ro 30 30, ro 29 29, ro 28 28, ro 27 26, ro 20 16, ro 4 0]⟩,
  ⟨Reg.MEM_CFG, [], 0x01181906, [ro 31 30, rw 24 24, rw 23 16 [(1, 168)], rw 15 8 [(5, 50)], rw 7 0 [(2, 15)]]⟩,
  ⟨Reg.MEM_CTRL, [], 0x00000000, [w1s 31 31, w1s 30 30, w1s 29 29, rw 12 8 [(0, 16)], rw 3 0]⟩,
  ⟨Reg.MEM_FSP, [], 0x00000000, [rw 0 0]⟩,
  ⟨Reg.MEM_RESULT, [], 0x00000000, [ro 31 31, ro 3 0]⟩,
  ⟨Reg.MEM_CAP, [], 0x00000000, [ro 17 0]⟩,
  ⟨Reg.MEM_CHAN_MAP, [(4, 16)], 0x00000000, [ro 4 0]⟩,
  ⟨Reg.MEM_PORT_CFG, [(4, 8)], 0x00000000, [rw 31 31, rw 23 16 [(1, 100)], rw 15 0 [(20, 65535)]]⟩,
  ⟨Reg.MEM_CNT_LO, [(8, 8)], 0x00000000, [rc 31 0]⟩,
  ⟨Reg.MEM_CNT_HI, [(8, 8)], 0x00000000, [ro 31 0]⟩,
  ⟨Reg.MEM_CH_STAT, [(256, 17)], 0xE0000000, [ro 31 29, ro 28 24, ro 23 22, ro 7 0]⟩,
  ⟨Reg.MEM_CH_MARGIN, [(256, 17)], 0x00000000, [ro 15 8, ro 7 0]⟩,
  ⟨Reg.MEM_CH_UE_ADDR_LO, [(256, 17)], 0x00000000, [ro 31 0]⟩,
  ⟨Reg.MEM_CH_UE_ADDR_HI, [(256, 17)], 0x00000000, [ro 31 0]⟩,
  ⟨Reg.MEM_CH_CNT_LO, [(256, 17), (8, 4)], 0x00000000, [rc 31 0]⟩,
  ⟨Reg.MEM_CH_CNT_HI, [(256, 17), (8, 4)], 0x00000000, [ro 31 0]⟩]

/-- Block window 22: MUL registers. -/
def regBlock22 : List RegDesc := [
  ⟨Reg.MUL_STATUS, [], 0x00000000, [ro 31 29, ro 28 26, ro 25 23, ro 22 22, ro 21 19, ro 15 8, ro 7 0]⟩,
  ⟨Reg.MUL_CFG, [], 0x000C0006, [rw 31 31, rw 30 28, rw 23 16 [(3, 60)], rw 7 0 [(1, 60)]]⟩,
  ⟨Reg.MUL_CTRL, [], 0x00000000, [w1s 31 31, w1s 30 30, w1s 29 29]⟩,
  ⟨Reg.MUL_RESULT, [], 0x00000000, [ro 31 31, ro 3 0]⟩,
  ⟨Reg.MUL_ROOSTER, [], 0x00000000, [ro 2 0]⟩,
  ⟨Reg.MUL_SERIAL_LO, [], 0x00000000, [ro 31 0]⟩,
  ⟨Reg.MUL_SERIAL_HI, [], 0x00000000, [ro 31 0]⟩,
  ⟨Reg.MUL_TAB_CMD, [], 0x00000000, [wo 31 28 [(1, 2)], rw 27 24 [(0, 1)], ro 7 4, ro 1 1, ro 0 0]⟩,
  ⟨Reg.MUL_TAB_ADDR, [], 0x00000000, [rw 14 0]⟩,
  ⟨Reg.MUL_TAB_DATA, [(4, 8)], 0x00000000, [rw 31 0]⟩,
  ⟨Reg.MUL_CNT_LO, [(8, 8)], 0x00000000, [rc 31 0]⟩,
  ⟨Reg.MUL_CNT_HI, [(8, 8)], 0x00000000, [ro 31 0]⟩,
  ⟨Reg.MUL_LINK_CFG, [(256, 4)], 0x80000000, [rw 31 31, rw 30 30, rw 26 24]⟩,
  ⟨Reg.MUL_LINK_STAT, [(256, 4)], 0x00000000, [ro 31 30, ro 29 27, ro 19 0]⟩,
  ⟨Reg.MUL_LINK_ASYM, [(256, 4)], 0x00000000, [rw 31 0]⟩]

/-- Block window 23: PWR registers. -/
def regBlock23 : List RegDesc := [
  ⟨Reg.PWR_STATUS, [], 0x00000000, [ro 31 29, ro 28 26, ro 25 23, ro 22 20, ro 19 19, ro 18 18, ro 17 14, ro 4 0]⟩,
  ⟨Reg.PWR_CFG, [], 0xC0000000, [rw 31 31, rw 30 30]⟩,
  ⟨Reg.PWR_RAIL, [(4, 8)], 0x00000000, [ro 31 16, ro 2 0]⟩,
  ⟨Reg.PWR_THERM, [], 0x00000000, [ro 31 24, ro 20 16, ro 7 0]⟩,
  ⟨Reg.PWR_SPRINT_CTRL, [], 0x00000000, [w1s 31 31, w1s 30 30]⟩,
  ⟨Reg.PWR_SPRINT_STAT, [], 0x000004B0, [ro 31 31, ro 30 28, ro 10 0]⟩,
  ⟨Reg.PWR_SPRINT_LIFE, [], 0x00000000, [ro 22 0]⟩,
  ⟨Reg.PWR_SENSOR, [(4, 24)], 0x00000000, [ro 7 0]⟩,
  ⟨Reg.PWR_CNT_LO, [(8, 6)], 0x00000000, [rc 31 0]⟩,
  ⟨Reg.PWR_CNT_HI, [(8, 6)], 0x00000000, [ro 31 0]⟩]

/-- Block window 24: LMD registers. -/
def regBlock24 : List RegDesc := [
  ⟨Reg.LMD_STATUS, [], 0x00000000, [ro 23 16, ro 15 8, ro 7 0]⟩,
  ⟨Reg.LMD_CFG, [], 0x00320001, [rw 23 16 [(10, 200)], rw 7 0 [(1, 60)]]⟩,
  ⟨Reg.LMD_TAB_CMD, [], 0x00000000, [wo 31 28 [(1, 1)], rw 27 24 [(0, 0)], ro 7 4, ro 1 1, ro 0 0]⟩,
  ⟨Reg.LMD_TAB_ADDR, [], 0x00000000, [rw 6 0]⟩,
  ⟨Reg.LMD_TAB_DATA, [(4, 8)], 0x00000000, [ro 31 0]⟩,
  ⟨Reg.LMD_MOD_STAT, [(256, 8)], 0x00000000, [ro 31 31, ro 30 30, ro 29 29, ro 28 28, ro 27 24, ro 15 8, ro 6 0]⟩,
  ⟨Reg.LMD_MOD_CTRL, [(256, 8)], 0x00000000, [rw 31 31, w1s 30 30]⟩]

/-- Block window 25: MSIX, PCI, RING registers. -/
def regBlock25 : List RegDesc := [
  ⟨Reg.PCI_STATUS, [], 0x00000000, [ro 31 31, ro 27 24, ro 19 16, ro 7 0]⟩,
  ⟨Reg.PCI_ID, [], 0x00004816, [ro 31 16, ro 15 0]⟩,
  ⟨Reg.PCI_WIN_BASE, [], 0x00000000, [rw 8 0]⟩,
  ⟨Reg.PCI_PUNT_SEL, [], 0x00000000, [rw 7 4, rw 3 0]⟩,
  ⟨Reg.PCI_CNT_LO, [(8, 4)], 0x00000000, [rc 31 0]⟩,
  ⟨Reg.PCI_CNT_HI, [(8, 4)], 0x00000000, [ro 31 0]⟩,
  ⟨Reg.RING_BASE_LO, [(64, 33)], 0x00000000, [rw 31 12]⟩,
  ⟨Reg.RING_BASE_HI, [(64, 33)], 0x00000000, [rw 31 0]⟩,
  ⟨Reg.RING_CFG, [(64, 33)], 0x00060008, [rw 31 31, rw 20 16 [(6, 16)], rw 6 0 [(1, 64)]]⟩,
  ⟨Reg.RING_HEAD, [(64, 33)], 0x00000000, [ro 15 0]⟩,
  ⟨Reg.RING_TAIL, [(64, 33)], 0x00000000, [rw 15 0]⟩,
  ⟨Reg.RING_IRQ, [(64, 33)], 0x00000000, [rw 31 31, rw 29 24, rw 23 16, rw 15 0]⟩,
  ⟨Reg.MSIX_ADDR_LO, [(16, 64)], 0x00000000, [rw 31 2]⟩,
  ⟨Reg.MSIX_ADDR_HI, [(16, 64)], 0x00000000, [rw 31 0]⟩,
  ⟨Reg.MSIX_DATA, [(16, 64)], 0x00000000, [rw 31 0]⟩,
  ⟨Reg.MSIX_CTRL, [(16, 64)], 0x00000001, [rw 0 0]⟩,
  ⟨Reg.MSIX_PBA, [(4, 2)], 0x00000000, [ro 31 0]⟩]

/-- Block window 26: EVT registers. -/
def regBlock26 : List RegDesc := [
  ⟨Reg.EVT_SUMMARY, [], 0x00000000, [ro 21 16, ro 11 0]⟩,
  ⟨Reg.EVT_REGION_SUM, [(4, 6)], 0x00000000, [ro 4 0]⟩,
  ⟨Reg.EVT_LOG_HEAD, [], 0x00000000, [ro 11 0]⟩,
  ⟨Reg.EVT_LOG_TAIL, [], 0x00000000, [rw 11 0]⟩,
  ⟨Reg.EVT_LOG_CFG, [], 0x00000001, [rw 1 0]⟩,
  ⟨Reg.EVT_VEC_PEND_LO, [], 0x00000000, [ro 31 0]⟩,
  ⟨Reg.EVT_VEC_PEND_HI, [], 0x00000000, [ro 31 0]⟩,
  ⟨Reg.EVT_STAT, [(4, 20)], 0x00000000, [w1c 31 0]⟩,
  ⟨Reg.EVT_CNT_LO, [(8, 4)], 0x00000000, [rc 31 0]⟩,
  ⟨Reg.EVT_CNT_HI, [(8, 4)], 0x00000000, [ro 31 0]⟩,
  ⟨Reg.EVT_SRC_CFG, [(4, 640)], 0x00000000, [rw 31 31, ro 30 29, rw 28 28, rw 27 27, rw 26 26, rw 5 0]⟩]

/-- Block window 27: TAP registers. -/
def regBlock27 : List RegDesc := [
  ⟨Reg.TAP_STATUS, [], 0x00000000, [ro 31 28, ro 27 26, ro 25 25, ro 24 24, ro 23 23]⟩,
  ⟨Reg.TAP_CFG, [], 0xFC003C0A, [rw 31 28, rw 27 26, rw 15 8 [(1, 255)], rw 7 0]⟩,
  ⟨Reg.TAP_TAB_CMD, [], 0x00000000, [wo 31 28 [(1, 2)], rw 27 24 [(0, 1)], ro 7 4, ro 1 1, ro 0 0]⟩,
  ⟨Reg.TAP_TAB_ADDR, [], 0x00000000, [rw 9 0]⟩,
  ⟨Reg.TAP_TAB_DATA, [(4, 8)], 0x00000000, [rw 31 0]⟩,
  ⟨Reg.TAP_CNT_LO, [(8, 8)], 0x00000000, [rc 31 0]⟩,
  ⟨Reg.TAP_CNT_HI, [(8, 8)], 0x00000000, [ro 31 0]⟩]

/-- The register families of a block window (offset / 1 MiB). -/
def regBlock (b : Nat) : List RegDesc :=
  match b with
  | 0 => regBlock0
  | 1 => regBlock1
  | 2 => regBlock2
  | 3 => regBlock3
  | 4 => regBlock4
  | 5 => regBlock5
  | 6 => regBlock6
  | 7 => regBlock7
  | 8 => regBlock8
  | 9 => regBlock9
  | 10 => regBlock10
  | 11 => regBlock11
  | 12 => regBlock12
  | 13 => regBlock13
  | 14 => regBlock14
  | 15 => regBlock15
  | 16 => regBlock16
  | 17 => regBlock17
  | 18 => regBlock18
  | 19 => regBlock19
  | 20 => regBlock20
  | 21 => regBlock21
  | 22 => regBlock22
  | 23 => regBlock23
  | 24 => regBlock24
  | 25 => regBlock25
  | 26 => regBlock26
  | 27 => regBlock27
  | _ => []

/-- Whether an offset from the family's base falls on one of its registers. -/
def inDims : List (Nat × Nat) → Nat → Bool
  | [], d => d == 0
  | (s, n) :: r, d => decide (d / s < n) && inDims r (d % s)

/-- The family an offset belongs to; none: an unassigned offset (R8). -/
def regDesc (off : Nat) : Option RegDesc :=
  (regBlock (off / 0x100000)).find? (fun r => decide (r.base ≤ off) && inDims r.dims (off - r.base))

/-- A value is one of the legal encodings of a field. -/
def RegField.legal (f : RegField) (v : Nat) : Bool :=
  f.ok.isEmpty || f.ok.any (fun r => decide (r.1 ≤ v) && decide (v ≤ r.2))

end Sys2Proof.Machine
end

