-- ==== Sys2Proof/Machine/RegReset.lean ====
section
/-! DEFINITION. Reset values of the registers, and the fixed severities of the event sources. -/

namespace Sys2Proof.Machine
open Sys2Proof

/-- Severities of the events of a group, in the order of its table (0 INFO, 1 WARN, 2 ERROR, 3 FATAL). -/
def chipSeverities (g : Nat) : List Nat :=
  match g with
  | 0 => [0, 1, 1, 0, 1, 2, 3, 0, 1, 0, 0, 1, 1]
  | 1 => [3, 3, 2, 2, 0, 1, 0, 1, 1, 0]
  | 2 => [2, 1, 2, 1, 2, 0, 0, 0]
  | 3 => [3, 1, 1, 2, 1, 1, 0]
  | 4 => [0, 1, 2, 2, 1]
  | 5 => [0, 1, 1, 0, 1, 0]
  | 6 => [1, 1, 2, 0, 1, 0, 1, 1, 0]
  | 7 => [1, 1, 0, 0]
  | 8 => [1, 0, 2, 2, 3, 1, 0]
  | 9 => [0, 1, 2, 2, 1, 0, 1]
  | 10 => [2, 2, 2, 2, 2, 2, 2, 2, 0]
  | 11 => [2, 1, 1, 0]
  | _ => []

/-- Severity of index i of a region's sources (Table 17.6); packet: whether the region is P0 or P1. -/
def regionSeverity (packet : Bool) (i : Nat) : Option Nat :=
  if i < 6 then [1, 1, 2, 2, 1, 2][i]?
  else if packet then
    if 8 ≤ i then [0, 1, 1, 2, 0, 0][i - 8]? else none
  else if 8 ≤ i ∧ i < 16 then [2, 1, 1, 1, 0, 0, 0][i - 8]?
  else if 16 ≤ i ∧ i < 24 then [0, 1, 0, 0][i - 16]?
  else if 24 ≤ i ∧ i < 32 then [2, 1, 1, 0, 0, 0][i - 24]?
  else if 32 ≤ i then [0, 1, 0, 0, 0, 0, 2][i - 32]?
  else none

/-- The fixed severity of a source; none: a number no table assigns (R373). -/
def evtSeverity (src : Nat) : Option Nat :=
  if src < 256 then (chipSeverities (src / 16))[src % 16]?
  else if src < 640 then regionSeverity (decide ((src - 256) / 64 < 2)) ((src - 256) % 64)
  else none

/-- Reset value of EVT_SRC_CFG[src]: severity fixed; FATAL sources read EN, TO_MC and TO_PIN 1; the rest 0 until the
chip section's EVENT_ROUTES gives it. -/
def evtCfgReset (src : Nat) : Word :=
  match evtSeverity src with
  | some 3 => BitVec.ofNat 32 (2 ^ 31 + 3 * 2 ^ 29 + 2 ^ 27 + 2 ^ 26)
  | some sv => BitVec.ofNat 32 (sv * 2 ^ 29)
  | none => 0

/-- The value a register holds at reset (R6 tables); offsets that no table assigns hold 0 (R8). -/
def regReset (off : Nat) : Word :=
  if Reg.EVT_SRC_CFG ≤ off ∧ off < Reg.EVT_SRC_CFG + 2560 then evtCfgReset ((off - Reg.EVT_SRC_CFG) / 4)
  else
    match regDesc off with
    | none => 0
    | some r =>
      if r.base = Reg.EGS_CLS then
        let c := (off - r.base) % 0x100 / 4
        BitVec.ofNat 32 ((if c < 6 then 0 else 2 ^ 31) + c * 2 ^ 24 + 1)
      else if r.base = Reg.MEM_CHAN_MAP then BitVec.ofNat 32 ((off - r.base) / 4)
      else if r.base = Reg.MEM_CH_STAT then
        let k := (off - r.base) / 0x100
        BitVec.ofNat 32 (0xE0000000 + (if k = 16 then 0x1F else k) * 0x1000000)
      else BitVec.ofNat 32 r.reset

end Sys2Proof.Machine
end

