-- ==== Sys2Proof/Machine/Store.lean ====
section
/-! DEFINITION. The sparse stores: reading and writing a `Tab` in its canonical form. What an unlisted key reads
as is the function `d` each store's owner gives (a register file's reset values, a table's unused entry). -/

namespace Sys2Proof.Machine
open Sys2Proof

/-- The value listed at a key, if one is listed. -/
def tabFind {α : Type} : Tab α → Nat → Option α
  | [], _ => none
  | (k', v) :: t, k => if k = k' then some v else tabFind t k

/-- The value a store holds at a key. -/
def tabGet {α : Type} (d : Nat → α) (t : Tab α) (k : Nat) : α := (tabFind t k).getD (d k)

/-- The store without the key. -/
def tabErase {α : Type} : Tab α → Nat → Tab α
  | [], _ => []
  | (k', v) :: t, k => if k = k' then tabErase t k else (k', v) :: tabErase t k

/-- The store with the key listed, in its place in the order. -/
def tabInsert {α : Type} : Tab α → Nat → α → Tab α
  | [], k, v => [(k, v)]
  | (k', v') :: t, k, v =>
    if k < k' then (k, v) :: (k', v') :: t
    else if k = k' then (k, v) :: t
    else (k', v') :: tabInsert t k v

/-- Write: a value equal to what the unlisted key reads as removes the entry. -/
def tabSet {α : Type} [DecidableEq α] (d : Nat → α) (t : Tab α) (k : Nat) (v : α) : Tab α :=
  if v = d k then tabErase t k else tabInsert t k v

/-- Keys strictly rising. -/
def tabSorted {α : Type} : Tab α → Bool
  | [] => true
  | [_] => true
  | (k, _) :: (k', v) :: t => decide (k < k') && tabSorted ((k', v) :: t)

/-- The canonical form: keys strictly rising, nothing listed that an unlisted key would read as. -/
def tabWf {α : Type} [DecidableEq α] (d : Nat → α) (t : Tab α) : Bool :=
  tabSorted t && t.all (fun p => decide (p.2 ≠ d p.1))

/-- The canonical form of a mapped store: every value f gives, defaults dropped. -/
def tabMap {α : Type} [DecidableEq α] (d : Nat → α) (f : Nat → α → α) (t : Tab α) : Tab α :=
  (t.map (fun p => (p.1, f p.1 p.2))).filter (fun p => decide (p.2 ≠ d p.1))

/-- The entries whose key and value pass p. -/
def tabFilter {α : Type} (p : Nat → α → Bool) (t : Tab α) : Tab α := t.filter (fun e => p e.1 e.2)

def tabKeys {α : Type} (t : Tab α) : List Nat := t.map (·.1)

/-- Stores of optional records: an unlisted key holds none; writes of some list it. -/
def recSet {α : Type} (t : Tab α) (k : Nat) (v : α) : Tab α := tabInsert t k v

/-- Change the record at a key, if there is one. -/
def recMod {α : Type} (t : Tab α) (k : Nat) (f : α → α) : Tab α :=
  match tabFind t k with
  | some v => tabInsert t k (f v)
  | none => t

/-- The lowest key below n that is not listed. -/
def freeKey {α : Type} (t : Tab α) (n : Nat) : Option Nat :=
  let rec go : Tab α → Nat → Nat
    | [], k => k
    | (k', _) :: r, k => if k' = k then go r (k + 1) else k
  let k := go t 0
  if k < n then some k else none

end Sys2Proof.Machine
end

