-- ==== Sys2Proof/Machine/State.lean ====
section
/-! DEFINITION. The state of the block as plain data, its faults and refusals, and State.reset. -/

namespace Sys2Proof.Machine
open Sys2Proof

/-! ### Outputs -/

/-- What leaves the device: the model's record of its outputs. -/
inductive Emission where
  /-- an MSI-X message on a vector -/
  | msix (vec : Nat)
  /-- an event taken up by the MC -/
  | mcEvent (src : Nat)
  /-- a frame started on a logical port: class, descriptor, outgoing number and timestamp, departure stamp -/
  | frame (port cls : Nat) (desc : Entry) (seqn ts ns : Nat) (bytes : List Byte)
  | pause (port quanta : Nat)
  | pfc (port pris quanta : Nat)
  | muleCredit (link cls : Nat) (withheld : Bool)
  | mule (link kind : Nat) (f : MuleFrame)
  /-- a tap frame: its header, its payload's length, and as many leading payload bytes as the model holds -/
  | tap (lane : Nat) (header : List Byte) (len : Nat) (known : List Byte)
  /-- a key request handed to the device's own encoder or to a source leg -/
  | keyReq (brood enc : Nat) (fir : Bool)
  /-- a pin: 0 EVENT_N, 1 TAP_FULL_N, 2 FC_OUT_N[0], 3 FC_OUT_N[1], 4 THERM_TRIP_N, 5 PPS_OUT, 6 BEAT_OUT; 8 + m: LM_RESET_N
  with LM_SEL_N[m]; 16 + b: nine clocks on LM_SCL[b] -/
  | pin (name level : Nat)
  | bar2 (data : List Byte) (ep : Bool)
  | mailbox (status : Nat) (data : List Byte)
  | readData (w : Word)
  | msg (name : Nat) (v : List Nat)
deriving DecidableEq, Repr

/-! ### Operating modes (Table 16.1) -/

inductive Mode where
  | reset | boot | configure | train | test | service | reload | shed | sprint | join | recovery | zeroize
deriving DecidableEq, Repr

/-! ### Time unit (chapter 12) -/

/-- A disciplined clock: D0 to D3 (0 to 3), PRIV0, PRIV1 (4, 5). Clock values are in units of 1/(768·10^9) ns, so that
an increment of (2/3 ns)(1 + adj·10^-9), adj in 1/256 ppb, is a whole number of units. -/
structure TimDom where
  clock : Nat := 0
  /-- state of Table 12.5: 0 OFF, 1 FREE, 2 ACQUIRING, 3 LOCKED, 4 HOLDOVER -/
  st : Nat := 0
  /-- integral term i and adj, in 1/256 ppb -/
  integ : Int := 0
  adj : Int := 0
  /-- host-written integral term, taken at the next sample -/
  integWr : Option Int := none
  /-- DT at the previous sample -/
  last : Option Nat := none
  /-- consecutive samples that met LOCK_NS -/
  good : Nat := 0
  /-- corrections beyond TIM_JUMP_LIMIT committed in this FCLK, which are refused at its end unless ACCEPT_JUMP comes in it -/
  refused : List Int := []
deriving DecidableEq, Repr

/-- The stamps of one frame start in every clock (R258). -/
structure Stamp where
  dt : Nat
  doms : List Nat
deriving DecidableEq, Repr

/-- One port's gate list (R269, R270). The entries lie in GAT_TAB, bank `bank` operational and the other the shadow. -/
structure Gate where
  bank : Nat := 0
  len : Nat := 0
  cycle : Nat := 1000000
  start : Option Nat := none
  cur : Nat := 0
  pendLen : Nat := 0
  pendCycle : Nat := 0
  pendStart : Option Nat := none
deriving DecidableEq, Repr

structure Tim where
  dt : Nat := 0
  doms : List TimDom := List.replicate 6 {}
  /-- active member of the privileged pair: 0 PRIV0, 1 PRIV1 -/
  source : Nat := 0
  apart : Bool := false
  /-- offset now in force, ns (R18) -/
  ofs : Nat := 0
  /-- M has stepped in this FCLK; whether that exchanges it is judged at the FCLK's end, a SWITCH in it going first -/
  stepped : Bool := false
  /-- last stamp of PPS_IN; PPS_OUT high until the FCLK given; the whole second at which it last rose -/
  ppsIn : Option Stamp := none
  ppsOut : Option Nat := none
  ppsSec : Option Nat := none
  /-- full stamps of the last 4,096 frame starts of each port, newest first -/
  rings : Tab (List Stamp) := []
  gates : Tab Gate := []
  /-- BEAT_OUT is high (R20) -/
  beatOut : Bool := false
deriving DecidableEq, Repr

/-! ### Events (chapter 17) -/

/-- One 32-byte log record (R377). -/
structure LogRec where
  beat : Nat := 0
  ns : Nat := 0
  src : Nat := 0
  sev : Nat := 0
  d0 : Nat := 0xFFFFFFFF
  d1 : Nat := 0
  blk : Nat := 0
deriving DecidableEq, Repr

structure Evt where
  /-- sources already raised in this beat under an "at most once per beat" rule -/
  once : List Nat := []
  /-- vectors on which a message was sent in this FCLK -/
  sent : List Nat := []
  log : Tab LogRec := []
  /-- the MC is restarting: sources routed to it wait, oldest first -/
  mcDown : Bool := false
  mcWait : List Nat := []
  /-- EVT_LOG_HEAD at the start of the beat: later records are not yet offered to the tap -/
  tapFrom : Nat := 0
  /-- FCLK until which EVENT_N stays low after its last cause cleared -/
  pinUntil : Nat := 0
deriving DecidableEq, Repr

/-! ### Packets and items (chapters 4 and 6) -/

/-- The metadata word of a pass (Table 4.5), by field. -/
structure Meta where
  epoch : Nat := 0
  pass : Nat := 0
  port : Nat := 0
  demux : Nat := 0
  profile : Nat := 0
  zone : Nat := 0
  assoc : Nat := 0
  leg : Nat := 0
  brood : Nat := 0
  stream : Nat := 0
  kind : Nat := 0
  ssrc : Nat := 0
  seq : Nat := 0
  ts : Nat := 0
  twseq : Nat := 0
  action : Nat := 0
  /-- LEVEL: voice flag in bit 7, level in −dBov below it -/
  level : Nat := 0
  /-- LAYER: [7:6] spatial, [5:3] temporal, [2] switching point, [1] start, [0] end of frame -/
  layer : Nat := 0
  rtpOfs : Nat := 0
  extOfs : Nat := 0
  colour : Nat := 0
  hits : Nat := 0
  flen : Nat := 0
  /-- the model's own: beat of arrival; picture number with its modulus and TL0PICIDX, where the packet carries them (R150) -/
  beat : Nat := 0
  pic : Option (Nat × Nat) := none
  tl0 : Option Nat := none
  /-- of a packet the device made: whether its picture is a key picture -/
  keyed : Option Bool := none
  /-- of an audio packet the device made: comfort noise -/
  cn : Bool := false
deriving DecidableEq, Repr

/-- A control message the device makes or terminates (R145, R151 to R154), by its content. -/
inductive Ctrl where
  | sr (ssrc ntpSec ntpFrac rtpTs pkts octets : Nat)
  | rr (blocks : List (List Nat))
  | pli (brood enc : Nat)
  | fir (brood enc seqn : Nat)
  | nack (brood stream : Nat) (seqs : List Nat)
  | twcc (leg : Nat) (arrivals : List (Nat × Nat))
  | raw
deriving DecidableEq, Repr

/-- Why an item was punted (Table 17.1). -/
structure Punt where
  reason : Nat
  partialRtcp : Bool := false
  sampled : Bool := false
  mal : Nat := 0
  pair : Nat := 0
deriving DecidableEq, Repr

/-- An item of a queue: its descriptor (Table 6.2), its payload's id, its metadata word and its side record. -/
structure Item where
  desc : Entry := {}
  uid : Nat := 0
  md : Meta := {}
  side : List Byte := []
  punt : Option Punt := none
  ctrl : Option Ctrl := none
  /-- egress items: subscription or output stream, the outgoing sequence number and timestamp, the point's marks -/
  sub : Nat := 0
  outSeq : Nat := 0
  outTs : Nat := 0
  rtx : Bool := false
  osn : Nat := 0
  protect : Bool := false
  /-- bytes of its RTP or RTCP packet, without its tag, and the numbers R150 puts into it -/
  rtpLen : Nat := 0
  rw : List Nat := []
  /-- the dependency descriptor as received, or the structure an outgoing packet carries -/
  dd : List Byte := []
deriving DecidableEq, Repr

/-- A payload: its buffer cells, its reference count (R125), where its cells lie, and its bytes. -/
structure Payload where
  cells : Nat
  /-- index of its first cell -/
  cell : Nat := 0
  refs : Nat
  dram : Bool := false
  history : Bool := false
  bytes : List Byte := []
  /-- auth_state of the packet (R113), which every descriptor of these cells shows -/
  auth : Nat := 0
deriving DecidableEq, Repr

/-- A queue: positions as counts of enqueues (modulo 2^32 when read), the items from RELEASE to TAIL. -/
structure Queue where
  tail : Nat := 0
  read : Nat := 0
  release : Nat := 0
  mark : Nat := 0
  markSet : Bool := false
  seqAtMark : Nat := 0
  items : List Item := []
  spilled : Bool := false
  /-- the read position lies outside the head: the next READ refills it (R127) -/
  cold : Bool := false
deriving DecidableEq, Repr

structure Que where
  queues : Tab Queue := []
  payloads : Tab Payload := []
  nextUid : Nat := 1
  /-- DRAM cells of the history and spill pools -/
  histPool : Nat := 0
  spillPool : Nat := 0
  /-- groups whose flag is set, outputs asserted, and the FCLK at which each asserted output repeats -/
  high : List Nat := []
  asserted : List Nat := []
  repeatAt : Tab Nat := []
  /-- a host READ that stalls (queue, since) or waits for a head refill -/
  stall : Option (Nat × Nat) := none
  /-- the READ under way: its queue, the descriptor it gives and READ after it -/
  refill : Option (Nat × Entry × Nat) := none
  /-- groups whose occupancy has changed in the present FCLK -/
  touched : List Nat := []
deriving DecidableEq, Repr

/-! ### Parsing and matching (chapter 4) -/

/-- A pass in a plane: its metadata, its frame, and how far it has come. -/
structure Pass where
  md : Meta := {}
  bytes : List Byte := []
  uid : Nat := 0
  stamp : Nat := 0
  side : List Byte := []
  dd : List Byte := []
  /-- fields of the walk: the ST0 key, the 5-tuple's fields, and what extensions gave (MID, RID) -/
  key0 : List Nat := []
  tuple : List Nat := []
  names : List Nat := []
  /-- place in the arrival order of its port -/
  seqNo : Nat := 0
  /-- slot in use -/
  slot : Option Nat := none
  /-- returned from the key-wait queue: order within its port is no longer kept -/
  returned : Bool := false
  /-- bytes of its RTP or RTCP packet, and those of them that are its tag -/
  rtpLen : Nat := 0
  tagLen : Nat := 0
  /-- ST2 bucket the lookup waits for -/
  waitFill : Option Nat := none
  decided : Bool := false
  ready : Bool := false
  /-- reorder entry taken (its order within the plane) -/
  order : Option Nat := none
  drop : Bool := false
  punt : Option Punt := none
  ring : Nat := 0
  toTap : Bool := false
  queue : Nat := 0
  queueOvr : Bool := false
  prec : Nat := 0
  /-- the cipher slot's work: cell given, authentication state of R113, FCLK of plaintext release -/
  cell : Option Nat := none
  auth : Nat := 0
  relAt : Option Nat := none
  recirc : Option (Nat × Nat) := none
  /-- Mule link whose tunnel ST1 found it to belong to -/
  mule : Option Nat := none
  released : Bool := false
deriving DecidableEq, Repr

/-- A flow-table entry (Table 4.8). -/
structure Flow where
  fp : Nat := 0
  first : Nat := 0
  last : Nat := 0
  pkts : Nat := 0
  meterEn : Bool := false
  learned : Bool := false
  pinned : Bool := false
  meter : Nat := 0
  action : Nat := 0
  countEn : Bool := false
  counter : Nat := 0
deriving DecidableEq, Repr

/-- Token state of a meter: bytes scaled by 1,500,000,000 so that a refill is exact, and the FCLK of the last refill. -/
structure Meter where
  tc : Nat := 0
  tp : Nat := 0
  last : Nat := 0
deriving DecidableEq, Repr

/-- What a cipher cell works on: a pass of its plane, or a frame on its way out of a port. -/
inductive HerdRef where
  | pass (id : Nat)
  | frame (port id : Nat)
deriving DecidableEq, Repr

/-- Work that waits for a cell or, where R97 holds it, for the boundary: its cost and that of its hash lane, in FCLK. -/
structure HerdWait where
  ref : HerdRef
  cost : Nat := 0
  lane : Nat := 0
  held : Bool := false
  /-- the cell it was given to, and whether it waits for a slot of its leg's new handle (R109) -/
  cell : Option Nat := none
  key : Bool := false
deriving DecidableEq, Repr

structure Plane where
  /-- the herd's jobs by cell, whether each holds a hash lane, and work that waits -/
  jobs : Tab (HerdRef × Bool) := []
  herdWait : List HerdWait := []
  /-- key-wait queue: passes in order of arrival, each with its beat of arrival (R110) -/
  kw : List (Nat × Nat) := []
  /-- passes back from the key wait, their slots in use, that wait for a reorder entry -/
  back : List Nat := []
  passes : Tab Pass := []
  nextPass : Nat := 0
  nextOrder : Nat := 0
  nextCell : Nat := 0
  /-- malformed packets seen since the last sampled punt, by reason -/
  sample : Tab Nat := []
  /-- frames waiting at the input while the reorder buffer is full: port and bytes and stamp, oldest first -/
  waiting : List Pass := []
  /-- cached flow buckets, most recently used first, and fills in flight (bucket, to be refetched) -/
  cache : List Nat := []
  fills : List (Nat × Bool) := []
deriving DecidableEq, Repr

structure Pkt where
  planes : List Plane := [{}, {}]
  flows : Tab Flow := []
  meters : Tab Meter := []
  /-- counter pairs: packets and bytes -/
  ctrs : Tab (Nat × Nat) := []
  /-- the FCLK of the last meter write, with the configuration and tokens, as they were, of the meters written in it (R88); the FCLK
  of the last COMMIT (R89) -/
  metOld : Nat × Tab (Entry × Meter) := (0, [])
  commitAt : Option Nat := none
deriving DecidableEq, Repr

/-! ### Dispatcher and matching store (chapter 3) -/

/-- An operand a task names: its tag, what became of it, its quality and reference. 0 awaited, 1 present, 2 missing. -/
structure Operand where
  tag : Nat
  st : Nat := 0
  quality : Nat := 0
  ref : Nat := 0
deriving DecidableEq, Repr

structure Task where
  /-- STATE of Table 3.12 -/
  st : Nat := 1
  kind : Nat := 0
  region : Nat := 0
  tmpl : Nat := 0
  prio : Nat := 0
  classes : Nat := 0
  notify : Bool := false
  chainNext : Nat := 255
  flock : Nat := 0
  entry : Nat := 0
  release : Nat := 0
  /-- FCLK of release -/
  released : Nat := 0
  deadline : Nat := 0
  waitAt : Nat := 0
  /-- MEDIA_BEAT as a beat number -/
  media : Nat := 0
  ops : List Operand := []
  /-- cells of its gang (1: no gang) and the cells it runs on or is parked on -/
  gang : Nat := 1
  cells : List Nat := []
  frozen : Bool := false
  /-- order of release, for the tie-break of R62 -/
  order : Nat := 0
  /-- earlier task it waits on (R172), which is no operand, by its order of release -/
  pred : Option Nat := none
  /-- row group and row groups of the picture (ENCODE) -/
  row : Nat := 0
  rows : Nat := 1
  /-- quality of its output, and the beat it ended -/
  quality : Nat := 0
  ended : Nat := 0
  /-- a fill engine still copies for it (R181, R200, R223) -/
  filling : Bool := false
  /-- FCLK of termination: freed in the FCLK after, unless its record is awaited -/
  endNow : Nat := 0
  /-- to be ended: 1 EXPIRED at the end of the grace, by a shed stage (R340); 2 LATE once yielded, by a drain limit (R43) -/
  ending : Nat := 0
deriving DecidableEq, Repr

/-- A slot of the matching store (Table 3.13). -/
structure Slot where
  tag : Nat := 0
  arrived : Bool := false
  quality : Nat := 0
  ref : Nat := 0
  hostWaits : List Nat := []
  frozenWithout : Bool := false
  /-- tasks that name the operand and have not yet frozen or ended -/
  tasks : List Nat := []
  everConsumed : Bool := false
  /-- some consumer froze with the held item: it may no longer be replaced (R58) -/
  frozenWith : Bool := false
  holdUntil : Nat := 0
deriving DecidableEq, Repr

/-- A media cell as the dispatcher sees it. -/
structure CellSt where
  out : Bool := false
  job : Option Nat := none
  yielding : Bool := false
  resetting : Bool := false
  /-- FCLK of its stop: it takes jobs again 64 FCLK later (Table 1.9) -/
  stopAt : Nat := 0
  /-- the gang task that has reserved it -/
  reserved : Option Nat := none
  /-- FCLK counts of watchdog expiries within the last second -/
  expiries : List Nat := []
  /-- an abort under way for its job, and the FCLK in which the cell accepts it (R69) -/
  aborting : Bool := false
  acceptAt : Nat := 0
deriving DecidableEq, Repr

/-- A live host wait (R66): the tag or the task handle it names, and the beat its limit passes. -/
structure HWait where
  onTask : Bool := false
  name : Nat := 0
  limit : Option Nat := none
deriving DecidableEq, Repr

/-- A phase the dispatcher keeps for a flock's cadence; a change of it delays the next release (R23). -/
structure PhaseRec where
  phase : Nat := 0
  notBefore : Nat := 0
  /-- cost of the flock's periodic work at this cadence, in MCLK kilocycles a release -/
  weight : Nat := 0
deriving DecidableEq, Repr

/-- Work one effect hands to another within the same step; empty between steps. -/
inductive Act where
  | arrive (tag ref quality : Nat)
  | ended (task : Nat)
  | keyReq (brood enc : Nat) (needKey : Bool)
  | cellOut (code : Nat)
  | slotReady (leg : Nat) (egress ok : Bool)
  | loadRetry
  | enqueue (queue : Nat) (it : Item)
  | packet (it : Item)
  | resolved (uid : Nat) (pass : Bool)
  | frozen (task : Nat)
  /-- a packet for its queue and, once there, for the units that take packets -/
  | deliver (queue : Nat) (it : Item)
  /-- a cell starts the program of its work -/
  | started (plane : Nat) (ref : HerdRef)
  /-- a tunnel's datagram for the Mule link it carries -/
  | mule (link : Nat) (bytes : List Byte)
deriving DecidableEq, Repr

structure Tsk where
  tasks : Tab Task := []
  gens : Tab Nat := []
  slots : Tab Slot := []
  cells : Tab CellSt := []
  waits : Tab HWait := []
  phases : Tab PhaseRec := []
  nextOrder : Nat := 0
  /-- abort under way: the handle and the FCLK of the write -/
  abort : Option (Nat × Nat) := none
  /-- its outcome, settled and not yet reported -/
  abortEnd : Option Nat := none
  hiwatHit : Bool := false
  todo : List Act := []
deriving DecidableEq, Repr

/-! ### Region sections and classes (chapters 2, 3, 8 to 11) -/

/-- A task template (Table 3.2). -/
structure Template where
  id : Nat
  kind : Nat
  rel : Nat := 0
  notify : Bool := false
  cadence : Nat := 0
  deadlineOfs : Nat := 0
  waitLimit : Nat := 0
  nOperands : Nat := 0
  chainNext : Nat := 255
  priority : Nat := 0
  cost : Nat := 0
  classes : Nat := 0
  param : Nat := 0
deriving DecidableEq, Repr

structure DecClass where
  maxW : Nat
  maxH : Nat
  depth10 : Bool := false
  poolSize : Nat
  pools : Nat
deriving DecidableEq, Repr

structure CmpClass where
  maxW : Nat
  maxH : Nat
  depth10 : Bool := false
  bufs : Nat
  pools : Nat
deriving DecidableEq, Repr

structure EncClass where
  maxW : Nat
  maxH : Nat
  refs : Nat
  pools : Nat
deriving DecidableEq, Repr

/-- A region section as loaded: its records decoded, and its bytes as the stored image keeps them. -/
structure Section where
  raw : List Byte := []
  schema : Nat := 0
  hash : List Byte := []
  /-- personality of the 16 codec cells: 1 DEC, 2 ENC -/
  pers : List Nat := []
  weights : List Nat := []
  templates : List Template := []
  decCls : List DecClass := []
  cmpCls : List CmpClass := []
  encCls : List EncClass := []
  lineParts : List Nat := []
  jitter : Nat × Nat := (20, 400)
  graph : List Byte := []
  matchLayout : List Byte := []
  programs : List Byte := []
deriving DecidableEq, Repr

/-- A region: its running section, its stored image and the one pending, and its error history. STATE is held in
CFG_REGION_STAT. -/
structure Region where
  sec : Section := {}
  stored : Section := {}
  pend : Option Section := none
  /-- FCLK at which the last scrub was needed, and whether another was needed less than 10 s before it (R15) -/
  lastScrub : Option Nat := none
  again : Bool := false
  /-- a reload from the stored image is under way, or owed once no other region reloads (R15, R41) -/
  auto : Bool := false
  due : Bool := false
  verifyFails : Nat := 0
  failed : Bool := false
  scrubbing : Bool := false
deriving DecidableEq, Repr

/-! ### Forwarding and leg governors (chapter 7) -/

/-- A change point (R148): the brood and stream, first outgoing number, the input number and the timestamp offset; of picture numbers
and TL0PICIDX the outgoing less the incoming, and whether its packet carries the template structure, for the point given (R150). -/
structure ChangePt where
  brood : Nat
  stream : Nat
  outSeq : Nat
  inSeq : Nat
  tsOfs : Nat
  picOfs : Nat := 0
  tl0Ofs : Nat := 0
  fresh : Bool := false
  pt : Nat × Nat := (0, 0)
deriving DecidableEq, Repr

/-- A picture of a stream at a subscription: its timestamp, the point in force for it, if any (R143), the beat and stamp of its first
packet, the pictures missed before it, and whether some packet of it has been sent. -/
structure Pic where
  ts : Nat
  pt : Option (Nat × Nat) := none
  beat : Nat := 0
  ns : Nat := 0
  miss : Nat := 0
  sent : Bool := false
deriving DecidableEq, Repr

/-- What a switch replaced, kept while its picture arrives: the picture (brood, stream, timestamp), and CUR, STATE, whether packets
were sent, and the brood they were of. -/
structure Undo where
  brood : Nat
  stream : Nat
  ts : Nat
  cur : Nat × Nat
  st : Nat
  sending : Bool
  was : Option Nat
deriving DecidableEq, Repr

/-- A subscription's run-time state; points are (spatial id or encoding, temporal id). -/
structure Sub where
  /-- STATE of Table 7.8 -/
  st : Nat := 0
  cur : Nat × Nat := (0, 0)
  tgt : Nat × Nat := (0, 0)
  /-- packets are sent at the current point -/
  sending : Bool := false
  /-- the latest evaluation's state and target, in force from the next beat (R147) -/
  eval : Option (Nat × (Nat × Nat)) := none
  cand : Nat × Nat := (0, 0)
  candRuns : Nat := 0
  lastTile : Nat × Nat := (0, 0)
  lastSpk : Nat := 0
  pendSince : Nat := 0
  asked : Bool := false
  reqs : Nat := 0
  starved : Bool := false
  grant : Nat := 0
  /-- the brood still sent while the switch to another waits for a key picture (R340) -/
  was : Option Nat := none
  undo : Option Undo := none
  /-- the latest pictures by brood and stream, newest first -/
  pics : Tab (List Pic) := []
  started : Bool := false
  lastOut : Nat := 0
  lastOutTs : Nat := 0
  /-- beat and stamp of the first packet of the last picture sent -/
  lastStamp : Nat × Nat := (0, 0)
  inStream : Nat := 0
  tsOfs : Nat := 0
  /-- outgoing picture number, TL0PICIDX offset and last outgoing TL0PICIDX (R150); the next packet is the first after a switch -/
  outPic : Nat := 0
  tl0Ofs : Nat := 0
  lastTl0 : Nat := 0
  fresh : Bool := false
  points : List ChangePt := []
  rtxSeq : Nat := 0
  /-- outgoing numbers retransmitted, with the beat (R152) -/
  rtxSent : List (Nat × Nat) := []
  pkts : Nat := 0
  octets : Nat := 0
deriving DecidableEq, Repr

/-- A gap of a brood's input (R153): the number, the beat it opened, NACKs sent and the last's beat. -/
structure Gap where
  stream : Nat
  seqn : Nat
  opened : Nat
  sent : Nat := 0
  lastSent : Nat := 0
deriving DecidableEq, Repr

/-- What reports say of an ingress stream (RFC 3550): its SSRC, first and highest extended number, packets received, the counts at the
last report, jitter × 16, and the last packet's beat, stamp and timestamp. -/
structure InStat where
  ssrc : Nat := 0
  base : Nat := 0
  high : Nat := 0
  recv : Nat := 0
  expPrior : Nat := 0
  recvPrior : Nat := 0
  jitter : Nat := 0
  stamp : Nat × Nat := (0, 0)
  ts : Nat := 0
deriving DecidableEq, Repr

/-- A sender report received: its SSRC, NTP seconds and fraction, RTP timestamp, packet and octet counts, and DT of its arrival in
1/65,536 s. -/
structure SrIn where
  ssrc : Nat
  sec : Nat
  frac : Nat
  rtp : Nat
  pkts : Nat
  octets : Nat
  came : Nat
deriving DecidableEq, Repr

structure Brood where
  /-- FLEN bytes received in the last 120 beats: (beat, stream or spatial id, temporal id, bytes) -/
  window : List (Nat × Nat × Nat × Nat) := []
  /-- highest input number seen, by stream -/
  high : Tab Nat := []
  /-- highest picture number, by stream; pictures with a packet that is FAIL, newest first: stream and timestamp (R144) -/
  highPic : Tab Nat := []
  bad : List (Nat × Nat) := []
  stats : Tab InStat := []
  gaps : List Gap := []
  /-- key requests (R145): beat of the last sent, the encoding it named, the merged ones for others, and whether each needs a key -/
  reqLast : Option Nat := none
  reqEnc : Nat := 0
  reqWant : List (Nat × Bool) := []
  firSeq : Nat := 0
  /-- latest sender report -/
  sr : Option SrIn := none
  /-- packets released and not yet forwarded: the first's auth_state is PENDING -/
  hold : List Item := []
  /-- latest template dependency structure of the AV1 dependency descriptor -/
  dd : List Byte := []
  authFails : Nat := 0
deriving DecidableEq, Repr

/-- A departed packet in a leg's departure ring (R156). -/
structure Depart where
  num : Nat
  beat : Nat
  ns : Nat
  bytes : Nat
  arr : Option Nat := none
  /-- some feedback has reported it, arrived or lost -/
  told : Bool := false
deriving DecidableEq, Repr

/-- The packets toward a leg that departed in one beat (R156): how many, how many of them feedback has reported, the last departure and
the last arrival. -/
structure Grp where
  beat : Nat
  sent : Nat := 0
  told : Nat := 0
  dep : Nat := 0
  arr : Option Nat := none
deriving DecidableEq, Repr

/-- A leg governor: rates in b/s. -/
structure Gov where
  rd : Rat := 0
  rl : Rat := 0
  rLast : Rat := 0
  target : Nat := 0
  pacing : Nat := 0
  nextTarget : Nat := 0
  nextPacing : Nat := 0
  /-- STATE of Table 7.12: 0 NORMAL, 1 HOLD, 2 DECREASE -/
  st : Nat := 0
  rtt : Nat := 100000
  loss : Nat := 0
  grad : Rat := 0
  lastDecrease : Nat := 0
  overSince : Option Nat := none
  lossNext : Nat := 0
  lost : Bool := false
  lastFb : Nat := 0
  lastHalve : Nat := 0
  twNext : Nat := 0
  fbSent : Nat := 0
  ring : List Depart := []
  /-- groups of departures, newest first -/
  groups : List Grp := []
  /-- beat of the last report blocks sent -/
  rrAt : Option Nat := none
  /-- (beat, acknowledged bytes), (beat, lost, reported) -/
  acks : List (Nat × Nat) := []
  losses : List (Nat × Nat × Nat) := []
  /-- (beat, bytes) sent as audio and as RTX in the last 60 beats -/
  audio : List (Nat × Nat) := []
  rtx : List (Nat × Nat) := []
  /-- (beat, transport number, ingress stamp) received and not yet reported -/
  arrivals : List (Nat × Nat) := []
deriving DecidableEq, Repr

structure Fwd where
  subs : Tab Sub := []
  broods : Tab Brood := []
  govs : Tab Gov := []
  /-- a flock's speaker brood, the beat it was chosen, and the previous one -/
  speaker : Tab (Nat × Nat × Nat) := []
  /-- RTCP packets and retransmissions released whose auth_state is PENDING -/
  rtcp : List Item := []
deriving DecidableEq, Repr

/-! ### Video decode (chapter 8) -/

/-- A pool buffer: MARK (Table 8.3), whether its picture still awaits output order, its picture's MEDIA_BEAT, decode order,
last use, size and quality. HOLD is counted from who holds it. -/
structure Buf where
  mark : Nat := 0
  wait : Bool := false
  media : Nat := 0
  order : Nat := 0
  used : Nat := 0
  w : Nat := 0
  h : Nat := 0
  depth10 : Bool := false
  quality : Nat := 0
  /-- monochrome: both chroma planes are at mid-value (R164); packets of its access unit that are PENDING (R183) -/
  mono : Bool := false
  uids : List Nat := []
deriving DecidableEq, Repr

/-- An access unit being gathered or decoded: its packets' numbers seen, first and last numbers of its frame, whether its
picture is to be published, whether some packet begins a key picture. -/
structure Au where
  /-- the reference of its operand -/
  ref : Nat := 0
  ts : Nat := 0
  media : Nat := 0
  first : Nat := 0
  items : List Item := []
  seen : List Nat := []
  startSeq : Option Nat := none
  endSeq : Option Nat := none
  offered : Bool := false
  clean : Bool := false
  publish : Bool := true
  key : Bool := false
  dropped : Bool := false
  /-- data of its decode was lost with a DRAM channel -/
  hurt : Bool := false
  /-- its encoding, and the operating point in force for it -/
  stream : Nat := 0
  pt : Nat × Nat := (0, 0)
deriving DecidableEq, Repr

/-- A picture stored whose PICTURE operand waits for packets that are PENDING (R183). -/
structure Held where
  buf : Nat
  tag : Nat
deriving DecidableEq, Repr

structure Dec where
  region : Nat := 0
  pool : Nat := 0
  cls : Nat := 0
  bufs : List Buf := []
  /-- slot map: buffer number or none (MISSING) -/
  slots : List (Option Nat) := []
  st : Nat := 0
  cur : Nat × Nat := (0, 0)
  aus : List Au := []
  order : Nat := 0
  size : Option (Nat × Nat) := none
  held : List Held := []
  load : Nat := 0
  gang : Nat := 1
  /-- MEDIA_BEAT of the latest access unit -/
  lastMedia : Option Nat := none
  /-- a pending switch (R170): its target, the beat it has been pending from, and whether its request has been raised -/
  pend : Option ((Nat × Nat) × Nat × Bool) := none
  /-- PICTURES, CONCEALED, DAMAGED, MISSING_REF, OVERSIZE, SYNTAX_ERR of the entry -/
  cnts : List Nat := [0, 0, 0, 0, 0, 0]
deriving DecidableEq, Repr

structure Vdc where
  decs : Tab Dec := []
  /-- newest published picture of a brood: MEDIA_BEAT, quality, reference -/
  newest : Tab (Nat × Nat × Nat) := []
  /-- pools given back while some of their buffers were held -/
  freeing : List Nat := []
deriving DecidableEq, Repr

/-! ### Composition (chapter 9) -/

/-- A tile as drawn: its entry, the brood drawn, the picture (reference, MEDIA_BEAT, size, 10 bits, quality), STATE, age. -/
structure TileDraw where
  idx : Nat
  ent : Entry
  brood : Option Nat := none
  src : Option (Nat × Nat × (Nat × Nat) × Bool × Nat) := none
  mono : Bool := false
  st : Nat := 0
  age : Nat := 0
deriving DecidableEq, Repr

/-- What a composite's lines show: layout words, tiles and overlay entries in drawing order, the speaker. -/
structure Drawing where
  layout : Entry := {}
  tiles : List TileDraw := []
  overlays : List Entry := []
  speaker : Option Nat := none
  depth10 : Bool := false
deriving DecidableEq, Repr

/-- A composite buffer: its composite's MEDIA_BEAT, and what it shows from each line on. -/
structure CBuf where
  media : Nat := 0
  quality : Nat := 0
  content : List (Nat × Drawing) := []
deriving DecidableEq, Repr

/-- A composite under way: the copy taken at release (R193), its buffer, and the tag of the overlay it waits for. -/
structure Shot where
  lay : Nat
  drawing : Drawing
  ref : Nat
  wait : Option Nat := none
deriving DecidableEq, Repr

structure Lay where
  region : Nat := 0
  pool : Nat := 0
  cls : Nat := 0
  load : Nat := 0
  composites : Nat := 0
  /-- bitmap last used for plane 0 under WAIT_OVERLAY -/
  lastOvl : Option Nat := none
deriving DecidableEq, Repr

structure Cmp where
  lays : Tab Lay := []
  /-- buffers by reference -/
  bufs : Tab CBuf := []
  /-- composites under way by task -/
  shots : Tab Shot := []
  freeing : List Nat := []
  /-- tiles as last drawn, by tile entry: STATE, brood shown, age -/
  shown : Tab (Nat × Nat × Nat) := []
  /-- layer asked for, by layout and brood (layout × 2^16 + brood) -/
  demand : Tab Nat := []
deriving DecidableEq, Repr

/-! ### Video encode (chapter 10) -/

/-- A rate model (R221): occupancy and legacy carry in bits, last picture's bits and mean quantiser, floor rows, rate in b/s
and BUF_MS in force, beat of the last key picture. -/
structure Model where
  occ : Rat := 0
  rate : Nat := 0
  bufMs : Nat := 0
  last : Nat := 0
  quant : Nat := 0
  floors : Nat := 0
  carry : Rat := 0
deriving DecidableEq, Repr

/-- A block as coded: its layer and row, its place and size, and the vector it predicts by, or the intra mode (by the neighbours it
reads). -/
structure Coded where
  layer : Nat
  row : Nat
  x : Nat
  y : Nat
  w : Nat
  h : Nat
  vec : Option (Int × Int) := none
  mode : Nat := 0
deriving DecidableEq, Repr

/-- The picture being coded: its task's MEDIA_BEAT, temporal layer, key layers, rows coded so far and bits spent by layer, and
the state before it. -/
structure EncPic where
  media : Nat := 0
  tid : Nat := 0
  layers : Nat := 1
  key : List Bool := []
  /-- layers in an accelerated refresh -/
  accel : List Nat := []
  legacy : Bool := false
  /-- the next row, in layer order -/
  row : Nat := 0
  spent : List Nat := []
  /-- every later row is a floor row -/
  floored : Bool := false
  floorRows : List Nat := []
  quants : List Nat := []
  before : List Model := []
  /-- sweep and position of each row before it, and in the picture it refers to (R219) -/
  sweepBefore : List (Nat × Nat) := []
  refArea : List (Nat × Nat) := []
  blocks : List Coded := []
  packets : List (Nat × List Byte) := []
  src : Option (Nat × Nat) := none
  caps : List Rat := []
  skip : Bool := false
deriving DecidableEq, Repr

structure Enc where
  region : Nat := 0
  pool : Nat := 0
  cls : Nat := 0
  gang : Nat := 1
  load : Nat := 0
  models : List Model := []
  /-- beat of the last key picture, by layer or encoding -/
  lastKey : List (Option Nat) := []
  /-- position in the temporal pattern -/
  pos : Nat := 0
  first : Bool := true
  /-- request standing: layers named, whether a key is needed, the FCLK it stands since, whether counted deferred -/
  req : Option (List Nat × Bool × Nat × Bool) := none
  /-- pictures left of an accelerated refresh, and its layers -/
  accel : Nat := 0
  accelFor : List Nat := []
  pic : Option EncPic := none
  tsBase : Nat := 0
  /-- the top layer was dropped by a stage; layers to restart with a key -/
  dropped : Bool := false
  restart : Bool := false
  /-- media beats of skip pictures that wait for the picture in progress -/
  skips : List Nat := []
  /-- the sweep each row is in and its position there; the same after the latest picture of each temporal layer, newest first -/
  sweep : List (Nat × Nat) := []
  areas : List (Nat × List (Nat × Nat)) := []
  /-- blocks of the latest picture as coded -/
  coded : List Coded := []
  /-- pictures sent -/
  sent : Nat := 0
  outSeq : Tab Nat := []
  keys : Nat := 0
  closing : Bool := false
deriving DecidableEq, Repr

structure Ven where
  encs : Tab Enc := []
deriving DecidableEq, Repr

/-! ### Audio, mixing, filters (chapter 11) -/

/-- The registers of a channel's stages (Table 11.3): four integrators, four combs, the compensator's two earlier inputs, the
compensator outputs (scaled by 64) that the output decimator has collected, and the block sum. -/
structure Chain where
  integ : List Nat := [0, 0, 0, 0]
  comb : List Nat := [0, 0, 0, 0]
  fir : List Nat := [0, 0]
  collected : List Int := []
  block : Nat := 0
deriving DecidableEq, Repr

/-- A filter channel: its entry, its registers, the first beat it filters since assignment or switch, its state and level
(0.25 dB below 0 dBov), the beats from which the start and end conditions have held, the last outputs (beat, level). -/
structure Chan where
  ent : Nat
  chain : Chain := {}
  since : Option Nat := none
  talking : Bool := false
  level : Nat := 508
  startAt : Option Nat := none
  endAt : Option Nat := none
  /-- beat at which the TALK_START condition of the present talk began -/
  talkFrom : Nat := 0
  clipAt : Option Nat := none
  silentFrom : Nat := 0
  silenceSent : Bool := false
  hist : List (Nat × Nat) := []
  /-- CLIENT_LEVEL: beat of the last packet -/
  lastPkt : Nat := 0
deriving DecidableEq, Repr

/-- A decoded frame of an audio brood: both sides' samples (empty right: mono), its quality. -/
structure AFrame where
  media : Nat
  left : List Int
  right : List Int := []
  quality : Nat := 0
deriving DecidableEq, Repr

/-- A packet of a jitter queue: its payload, the place of its first sample before later shifts, its length in samples. -/
structure APkt where
  uid : Nat
  base : Int
  dur : Nat
  dtx : Bool := false
  cn : Bool := false
  lost : Bool := false
deriving DecidableEq, Repr

/-- What the job of a slice has read: the packets that cover it whole, whether the gap in it is DTX or comfort noise, whether a following
packet stood in the queue, and when it read. -/
structure SliceRead where
  uids : List Nat := []
  quiet : Bool := false
  next : Bool := false
  at_ : Nat := 0
deriving DecidableEq, Repr

structure AudEnt where
  region : Nat := 0
  /-- region it moves to when its task ends (R250); its channel's state while no channel there is free -/
  moveTo : Option Nat := none
  parked : Option Chan := none
  /-- D, in ms -/
  depth : Nat := 20
  /-- anchor: RTP timestamp and sample position; samples inserted less removed since admission -/
  anchor : Option (Nat × Int) := none
  shift : Int := 0
  /-- last packet's timestamp, and whether it signalled DTX or was comfort noise -/
  last : Option (Nat × Bool) := none
  pkts : List APkt := []
  /-- sample position up to which the queue has been read, and had been before the reads of the FCLK given; last slice decoded -/
  readTo : Option Int := none
  readOld : Option Int := none
  readAt : Option Nat := none
  lastSlice : Option Nat := none
  /-- (beat, margin in ms) of the last packets, their P5, and since when it has been high -/
  margins : List (Nat × Rat) := []
  p5 : Rat := 0
  since : Option Nat := none
  lastStep : Option Nat := none
  /-- steps of D not yet applied (true: growth), with their beats -/
  steps : List (Bool × Nat) := []
  /-- slices inserted by a growth, by MEDIA_BEAT; packets read for a slice -/
  inserted : List Nat := []
  reading : Tab SliceRead := []
  chan : Option Nat := none
  agc : Rat := 0
  /-- gain in Q4.12: of the mix last made, and before it -/
  gain : Nat := 4096
  gainWas : Nat := 4096
  frames : List AFrame := []
  fillRun : Nat := 0
  lost : Bool := false
  /-- PLC, LATE, FEC_RECOVERED, JB_STEPS -/
  cnts : List Nat := [0, 0, 0, 0]
deriving DecidableEq, Repr

/-- A flock's mix: places, talkers present in the previous mix, timestamp bases by format, FRAME20 halves awaiting their
pair, how long each output has been quiet, next sequence numbers; the last outputs by brood. -/
structure MixSt where
  region : Nat := 0
  /-- region it moves to when its tasks end (R250) -/
  moveTo : Option Nat := none
  /-- state of each output's encoder (R248) -/
  encSt : Tab Nat := []
  places : List (Option Nat) := List.replicate 8 none
  mixed : List Nat := []
  tsBase : List Nat := [0, 0, 0, 0]
  half : Tab Nat := []
  quiet : Tab Nat := []
  outSeq : Tab Nat := []
  /-- places in force for receivers: as of the frame mix last sent -/
  served : List (Option Nat) := List.replicate 8 none
deriving DecidableEq, Repr

structure Aud where
  ents : Tab AudEnt := []
  mixes : Tab MixSt := []
  chans : Tab Chan := []
  /-- selections posted and not yet mixed: by flock × 2^32 + media, places and departing -/
  sels : Tab (List (Option Nat) × List Nat) := []
  /-- frames that came from another device for the final mix, by tag -/
  partials : Tab AFrame := []
deriving DecidableEq, Repr

/-! ### Egress (chapter 13) -/

/-- A frame past its selection: in the herd, the reorder buffer or a transmit FIFO. -/
structure EgFrame where
  id : Nat := 0
  item : Item := {}
  leg : Option Nat := none
  cls : Nat := 0
  len : Nat := 0
  bytes : List Byte := []
  launch : Option Nat := none
  /-- its program has not ended yet; the pen slot it is encrypted under -/
  inHerd : Bool := false
  slot : Option Nat := none
  /-- transport-wide number taken (R156) -/
  tw : Option Nat := none
  gateHeld : Bool := false
  /-- DT, in ns, for which it is held at the head of its class (R268), and whether it has been counted as delayed -/
  due : Option Nat := none
  delayed : Bool := false
deriving DecidableEq, Repr

structure EgLeg where
  /-- pacer and shaper tokens, bytes scaled by 12·10^9 so that a refill is exact, and the FCLK of their last refill -/
  pacer : Int := 0
  shaper : Int := 0
  last : Nat := 0
  runOpen : Bool := false
  runHad : Bool := false
  /-- the slot an open run holds in use -/
  runSlot : Option Nat := none
  /-- FCLK in which the last run closed, and its slot -/
  closedAt : Option Nat := none
  lastSlot : Option Nat := none
  /-- run request: 0 none, 1 requested, 2 deferred once, 3 waiting for its slot -/
  req : Nat := 0
  inFlight : Nat := 0
  moving : Bool := false
  /-- stream served last, by class -/
  rr : Tab Nat := []
deriving DecidableEq, Repr

structure EgPort where
  fifo : List EgFrame := []
  /-- frames selected and not yet in the FIFO, in order of selection -/
  sel : List EgFrame := []
  /-- RAW_PORT frames ahead of the legs, by class -/
  raw : List EgFrame := []
  nextId : Nat := 0
  /-- FCLK of the latest selection -/
  selAt : Option Nat := none
  /-- holds by class c: of PFC at c, of pause at 8 + c: FCLK in which each was received and at which it ends -/
  holds : Tab (Nat × Nat) := []
  /-- first whole beat of each class's hold; those already reported -/
  heldFrom : Tab Nat := []
  reported : List Nat := []
  /-- deficits and the member being served, of classes and of each class's leg groups -/
  clsDef : Tab Int := []
  clsTurn : Option Nat := none
  grpDef : Tab Int := []
  grpTurn : Tab Nat := []
  legTurn : Tab Nat := []
  heldNow : Bool := false
  /-- FCLK until which the medium carries the last frame -/
  busyUntil : Nat := 0
deriving DecidableEq, Repr

/-- A write of EGS_TAB in this FCLK: a selection in the same FCLK is made under what it replaced (R285, R288). -/
structure EgsWrite where
  tab : Nat
  idx : Nat
  old : Entry
  new : Entry
  tok : Int
  moving : Bool
deriving DecidableEq, Repr

structure Egs where
  /-- writes of the FCLK given, newest first -/
  writes : List EgsWrite := []
  writesAt : Nat := 0
  ports : Tab EgPort := []
  legs : Tab EgLeg := []
  /-- class and port shapers: tokens scaled by 12·10^9 and last refill -/
  shapers : Tab (Int × Nat) := []
  /-- frames sent by stream, saturating -/
  sent : Tab Nat := []
  /-- run intervals: first beat of the current value of I, its interval, the leg that began the last order -/
  n0 : Nat := 0
  interval : Nat := 1
  /-- beat of the latest interval start, and FCLK of the latest frame start of each 400G port group -/
  started : Option Nat := none
  txAt : Tab Nat := []
  lastFirst : Option Nat := none
deriving DecidableEq, Repr

/-! ### Vault (chapter 5) -/

/-- A pen slot: the leg direction and handle it was loaded for, and its keys (encryption key, salt and authentication
key for SRTP, then for SRTCP). -/
structure PenSlot where
  leg : Nat
  egress : Bool
  handle : Nat
  gen : Nat
  profile : Nat
  flags : Nat := 0
  lastUse : Nat := 0
  users : Nat := 0
  pinned : Bool := false
  dead : Bool := false
  keys : List (List Byte) := []
deriving DecidableEq, Repr

/-- A slot load asked for: class 1 ingress, 2 pinned or group, 3 egress run (R108); it waits for a slot (R111). -/
structure LoadReq where
  leg : Nat
  egress : Bool
  cls : Nat
  starved : Bool := false
deriving DecidableEq, Repr

/-- A leg direction's context (R102): rollover counter with the highest index received, and the replay bitmap. -/
structure KeyCtx where
  seen : Bool := false
  high : Nat := 0
  bitmap : Nat := 0
  /-- SRTCP index of the next packet out -/
  rtcp : Nat := 0
deriving DecidableEq, Repr

/-- An import session: DT at its opening and its import key. -/
structure Session where
  opened : Nat
  key : List Byte
deriving DecidableEq, Repr

structure Vlt where
  slots : Tab PenSlot := []
  loads : List LoadReq := []
  ctxs : Tab KeyCtx := []
  gens : Tab Nat := []
  blobs : Tab (List Byte) := []
  sessions : Tab Session := []
  /-- FCLK counts of failed import authentications within the window (R106) -/
  fails : List Nat := []
  /-- ingress slots pinned by AUTO_PIN, by flock -/
  autoPin : Tab (List Nat) := []
  /-- the FCLK of the last binding write, with the bindings, as they were, written in it (R109) -/
  oldBind : Nat × Tab Entry := (0, [])
  erasing : Bool := false
  /-- VAULT_POLICY as loaded: its 40 bytes -/
  policy : List Byte := []
  /-- the key-transport key pair's generation -/
  kem : Nat := 0
deriving DecidableEq, Repr

/-! ### MACs, tap port, rings and mailbox (chapter 17) -/

/-- A logical port's link and MAC counters (R372). -/
structure MacPort where
  up : Bool := false
  rxFrames : Nat := 0
  rxBytes : Nat := 0
  fcsErr : Nat := 0
  runt : Nat := 0
  oversize : Nat := 0
  txFrames : Nat := 0
  txBytes : Nat := 0
  pauseTx : Nat := 0
  pfcTx : Nat := 0
deriving DecidableEq, Repr

structure Mac where
  ports : Tab MacPort := []
  /-- plane each logical port is steered to, and the plane it is to be steered to (R47) -/
  steer : List Nat := [0, 0, 0, 0, 1, 1, 1, 1]
  want : List Nat := [0, 0, 0, 0, 1, 1, 1, 1]
  /-- frames of ports that are being switched, waiting in the burst store, oldest first -/
  parked : List Pass := []
deriving DecidableEq, Repr

/-- An item for the tap: its header fields, its length, its leading bytes as far as the model holds them, and the next
segment to send. -/
structure TapItem where
  kind : Nat
  sub : Nat
  flock : Nat
  ident : Nat
  flags : Nat := 0
  beat : Nat := 0
  len : Nat := 0
  known : List Byte := []
  seg : Nat := 0
deriving DecidableEq, Repr

/-- One stream entry's queue, its place in the decimation and the lane its item in progress runs on. -/
structure TapStream where
  items : List TapItem := []
  seen : Nat := 0
  lane : Option Nat := none
deriving DecidableEq, Repr

/-- An input item being collected: its entry, header fields, next segment, bytes and the beat of its first segment. -/
structure TapIn where
  entry : Nat
  sub : Nat
  flock : Nat
  ident : Nat
  beat : Nat
  count : Nat
  next : Nat
  bytes : List Byte := []
  first : Nat := 0
deriving DecidableEq, Repr

structure TapU where
  streams : Tab TapStream := []
  outUp : List Bool := [false, false, false, false]
  inUp : List Bool := [false, false]
  /-- stream last served, by lane and by whether it was PCM or EVENT -/
  rr : Tab Nat := []
  held : Option Nat := none
  longSent : Bool := false
  stopped : Bool := false
  ins : Tab TapIn := []
  /-- picture buffers in use: entry, buffer and the operand tag that holds it -/
  bufs : List (Nat × Nat × Nat) := []
  drops : Bool := false
deriving DecidableEq, Repr

/-- A ring's moderation (R368): completions since the last message and the FCLK of the first one unsignalled; LOST of the
next item delivered; the next inject descriptor to take, counted from HEAD. -/
structure Ring where
  since : Nat := 0
  firstAt : Option Nat := none
  lost : Bool := false
  taken : Nat := 0
  /-- FCLK of the last doorbell, and TAIL before that FCLK: a doorbell is seen from the next one on (R364) -/
  bell : Option (Nat × Nat) := none
deriving DecidableEq, Repr

/-- The mailbox (R369): the command in progress (opcode, SEQ, FCLK at GO, whether it writes no response), the flags of
MBX_CTRL and the last response (opcode, SEQ, STATUS, payload). -/
structure Mbx where
  busy : Option (Nat × Nat × Nat × Bool) := none
  done : Bool := false
  refused : Bool := false
  resp : Option (Nat × Nat × Nat × List Byte) := none
deriving DecidableEq, Repr

/-- An injected item whose descriptors have not been written back: its payload, its ring, its first descriptor, and byte 11 of
each descriptor. -/
structure InjItem where
  uid : Nat
  ring : Nat
  first : Nat
  flags : List Byte
deriving DecidableEq, Repr

structure Pci where
  rings : Tab Ring := []
  mbx : Mbx := {}
  /-- injected items in progress, oldest first -/
  inFlight : List InjItem := []
  /-- writes to host memory made in this step, carried out at its end; empty between steps -/
  writes : List (Nat × List Byte) := []
  /-- likewise, writes to DRAM -/
  dramWrites : List (Nat × List Byte) := []
deriving DecidableEq, Repr

/-! ### DRAM (chapter 14) -/

/-- A request in a channel's queue: its block (address / 128), the QoS port it came through (8: the channel's own scrubber and repair), and
the FCLK of its arrival (R297, R298). -/
structure MemReq where
  block : Nat
  port : Nat
  at_ : Nat
deriving DecidableEq, Repr

/-- A channel: its lanes' delays by set point, direction and lane (fsp × 144 + direction × 72 + lane), its consecutive passes
of low margin, the direction of a retry it owes (true: write eye), and the bank its next refresh takes. -/
structure MemCh where
  /-- read and write queue, oldest first; a drain of the write queue is on; requests for which the queue has no room (true: writes); FCLK at which
  each bank's tRC ends -/
  reads : List MemReq := []
  writes : List MemReq := []
  drain : Bool := false
  wait : List (Bool × MemReq) := []
  tRC : Tab Nat := []
  delays : Tab Int := []
  low : Nat := 0
  retry : Option Bool := none
  bank : Nat := 0
deriving DecidableEq, Repr

/-- An allocation of DRAM_CLASSES (Table 14.3); base and size in MiB. -/
structure Alloc where
  id : Nat
  critical : Bool
  use : Nat
  base : Nat
  size : Nat
deriving DecidableEq, Repr

structure Mem where
  chans : Tab MemCh := []
  allocs : List Alloc := []
  /-- logical channels whose bulk blocks are lost, each from a block of the channel on; blocks rewritten since; other
  POISONED blocks (addresses / 128) -/
  lost : List (Nat × Nat) := []
  rewritten : List Nat := []
  poison : List Nat := []
  /-- logical channels whose critical blocks have one copy, and the one that is folded -/
  single : List Nat := []
  fold : Option Nat := none
  /-- MEM_CTRL command in progress: 1 RETEST, 2 RETRAIN, and its channel -/
  cmd : Option (Nat × Nat) := none
  /-- logical channel being migrated or restored -/
  mig : Nat := 0
  /-- set point a change goes to, and whether MEM_FSP asked for it -/
  fspTo : Nat := 0
  fspCmd : Bool := false
deriving DecidableEq, Repr

/-! ### Power and modes (chapter 16) -/

structure Pwr where
  /-- beat of a CHIP_FAULT that resets the chip; RECOVERY at the next boundary -/
  fault : Option Nat := none
  toRecovery : Bool := false
  /-- flocks whose audio found no region at S3: served by loudest-talker forwarding (R340) -/
  loud : List Nat := []
  /-- a mode asked for and not yet entered, with the beat of the request -/
  want : Option (Mode × Nat) := none
  /-- beat since which Tj has been below 105 °C in an emergency -/
  cool : Option Nat := none
  /-- a sample has been taken since RESET (R346); Tj of it; throttling -/
  sampled : Bool := false
  tj : Int := 0
  throttled : Bool := false
  /-- SPRINT asked for, its end asked for, Tj reached 95 °C in it (R349, R350) -/
  sprintReq : Bool := false
  sprintEnd : Bool := false
  sprintHot : Bool := false
  /-- always-on: beats counted, sprints by first beat and end, the count until which the window reads full, sprint beats of the
  device's life, OTP bits burnt, and whether the low budget was reported -/
  beats : Nat := 0
  runs : List (Nat × Option Nat) := []
  fullUntil : Nat := 360000
  residue : Nat := 0
  burnt : Nat := 0
  lowSaid : Bool := false
  /-- RESET is held until the rails are good, and until SYS_REFCLK has returned (R390, R393) -/
  waitRails : Bool := false
  waitClk : Bool := false
  /-- firmware copies A and B in flash: chunks written, newest first, by offset; whether each verifies; FW_SWITCH under way -/
  fw : List (List (Nat × List Byte)) := [[], []]
  fwOk : List Bool := [true, true]
  fwTo : Option Nat := none
  /-- level of SAG_N taken (R337) -/
  sag : Nat := 3
  /-- since the last boundary: the deepest stage called for, and whether a rail or the pins kept the stage held from lifting -/
  deep : Nat := 0
  dip : Bool := false
deriving DecidableEq, Repr

/-! ### Cascade (chapter 15) -/

/-- A Mule link's running state: its link sequence numbers, lanes, credit left by class (of 1,024 cells), classes whose credit is
withheld from the peer and the cells owed to it, frames that wait for credit (kind and frame), frames kept for a tunnel (number,
kind, beat, frame), numbers missing from it (number, requests sent, FCLK of the last), the stamps of its last TIME frame out and
of the peer's last in, and the one-way delay in beats. -/
structure MulLink where
  outSeq : Nat := 0
  inSeq : Option Nat := none
  lanes : Nat := 2
  used : Tab Nat := []
  withheld : List Nat := []
  owed : Tab Nat := []
  wait : List (Nat × MuleFrame) := []
  hist : List (Nat × Nat × Nat × MuleFrame) := []
  missing : List (Nat × Nat × Nat) := []
  t1 : Option Stamp := none
  t2 : Option Stamp := none
  lag : Nat := 1
deriving DecidableEq, Repr

/-- A member's own part of a wide mix, kept for its final mix: the sides' accumulators and each own talker's terms. -/
structure PartMix where
  places : List (Option Nat) := []
  gone : List Nat := []
  accs : List (List Int) := []
  terms : List (Nat × List (List Int)) := []
deriving DecidableEq, Repr

/-- A directory write held by the Rooster: its index, words, the device that wrote it, and the beat it was sent to the standby
(none: not yet). -/
structure DirWrite where
  idx : Nat
  ent : Entry
  dev : Nat
  sent : Option Nat := none
deriving DecidableEq, Repr

structure Mul where
  /-- a HANDOVER accepted for the next boundary; the role is taken at the next boundary (R317, R324) -/
  handing : Bool := false
  taking : Bool := false
  /-- JOIN: its step (0 none, 1 HELLO, 2 TIME, 3 ALIGN, 4 DIRECTORY), the mode and the STATE before it, the FCLK and beat its step began -/
  step : Nat := 0
  joinFrom : Mode := .service
  joinState : Nat := 0
  stepAt : Nat := 0
  stepBeat : Nat := 0
  /-- the other devices of the stack: id, ROOSTER_PRI, serial number, whether the path to it uses no tunnel -/
  peers : List (Nat × Nat × Nat × Bool) := []
  links : Tab MulLink := []
  /-- own directory write that waits for the Rooster; writes this Rooster holds, or copies this standby does, in order of arrival -/
  ownWrite : Option (Nat × Entry) := none
  writes : List DirWrite := []
  /-- commits broadcast and not yet applied: index, entry, EFFECTIVE -/
  commits : List (Nat × Entry × Nat) := []
  /-- entries in force, by index: the table holds what has been committed -/
  applied : Tab Entry := []
  /-- latest Rooster beat seen on any path, and that each device reports -/
  roosterBeat : Nat := 0
  reports : Tab Nat := []
  /-- beat of the last time exchange -/
  timeAt : Option Nat := none
  /-- demands of members, brood × 8 + member: the point in force and a lower one that waits for the next picture (R320) -/
  demands : Tab ((Nat × Nat) × Option (Nat × Nat)) := []
  /-- key requests for relayed broods that the next DEMAND carries: encoding, by brood -/
  asks : Tab Nat := []
  /-- source device of a relayed brood, as its frames showed -/
  sources : Tab Nat := []
  /-- candidate lists: home flock × 8 + member to broods with their ranks -/
  cands : Tab (List (Nat × Nat)) := []
  /-- own parts of wide mixes (flock × 2^32 + media beat); running sums received under DEEPEN (that key × 2 + side) -/
  parts : Tab PartMix := []
  sums : Tab (List (List Int)) := []
deriving DecidableEq, Repr

/-! ### Configuration (chapters 2 and 5) -/

/-- The OTP vault policy (R31, R406). Bit p − 1 of the bitmap admits profile p. -/
structure Otp where
  opKey : Option (Nat × List Byte) := none
  svcKey : List Byte := []
  profiles : Nat := 15
  noCustom : Bool := false
deriving DecidableEq, Repr

/-- A RELOAD_REGION or CHECK_ONLY in progress: where its section lies and what the manifest says of it, what its checks found
(code and CFG_ERR_DETAIL), the section as checked, and how far it has come. -/
structure Reload where
  region : Nat
  only : Bool := false
  force : Bool := false
  host : Bool := false
  addr : Nat := 0
  len : Nat := 0
  hash : List Byte := []
  schema : Nat := 0
  code : Nat := 0
  detail : Nat := 0
  /-- FCLK at which the drain began; the drain limit has been applied; CANCEL taken -/
  began : Nat := 0
  limited : Bool := false
  cancelled : Bool := false
  /-- the limit has ended a task, and REGION_DRAIN_FORCED was raised (R43) -/
  forced : Bool := false
  /-- bytes read at RELOAD, and the code of the first VERIFY failure -/
  raw : List Byte := []
  fell : Option Nat := none
  /-- its check saw too little room: flocks are placed by priority -/
  short : Bool := false
deriving DecidableEq, Repr

structure CfgU where
  reload : Option Reload := none
  /-- hash of the running chip section, SEC_VER of the running bit-stream, region sections waiting for TRAIN, and of the chip
  section the set point to start at, the device class and the port-to-plane steering -/
  chip : List Byte := []
  /-- its stored copy (R38) -/
  chipRaw : List Byte := []
  secVer : Nat := 0
  staged : List Section := []
  fspStart : Nat := 0
  cls : Nat := 0
  fabric : List Nat := []
  /-- regions whose reload demoted a flock to forwarding, and regions flocks are pinned to while away -/
  demoted : Tab Nat := []
  pinned : Tab Nat := []
  otp : Otp := {}
deriving DecidableEq, Repr

/-! ### Line modules (chapter 16) -/

/-- A wear record (Table 16.9) with what its fields are computed from: the key, each lane's baseline sum and hours, and the hourly
means of the last 720 hours, newest first. -/
structure Wear where
  key : List Byte := []
  /-- SERIAL: the vendor's serial number -/
  serial : List Byte := []
  eol : Bool := false
  lastPort : Nat := 0
  laserHours : Nat := 0
  trend : Nat := 100
  excHours : Nat := 0
  excursions : Nat := 0
  maxTemp : Int := 0
  lastSeen : Nat := 0
  baseSum : List Nat := []
  baseHours : Nat := 0
  hours : List (List Nat) := []
deriving DecidableEq, Repr

structure Lmd where
  recs : Tab Wear := []
  /-- modules inserted and waiting for identification: FCLK of LM_PRESENT_N's fall -/
  fell : Tab Nat := []
  /-- modules whose record is named, and the FCLK of each one's last hourly update -/
  hourAt : Tab Nat := []
deriving DecidableEq, Repr


/-! ### The device -/

/-- Everything the device holds but the two byte-addressed memories. -/
structure Dev where
  /-- FCLK cycles since power-on, the beat number, and FCLK cycles since the beat boundary -/
  now : Nat := 0
  beat : Nat := 0
  fclk : Nat := 0
  mode : Mode := .reset
  /-- mode that SHED returns to -/
  before : Mode := .configure
  /-- registers: an unlisted offset holds its reset value -/
  regs : Tab Word := []
  /-- the latched _HI half and the held _LO half of each path (R11) -/
  latches : Tab Word := []
  held : Tab Word := []
  /-- bits of W1C registers (offset × 32 + bit) that hardware set in this FCLK (R10) -/
  setNow : List Nat := []
  /-- table entries: an unlisted entry holds its reset value -/
  tabs : Tab Entry := []
  /-- the model's own: how many open values have been drawn -/
  free : Nat := 0
  /-- the model's own: what has left the device, newest first -/
  out : List Emission := []
  tim : Tim := {}
  evt : Evt := {}
  pkt : Pkt := {}
  que : Que := {}
  tsk : Tsk := {}
  regions : Tab Region := []
  fwd : Fwd := {}
  vdc : Vdc := {}
  cmp : Cmp := {}
  ven : Ven := {}
  aud : Aud := {}
  egs : Egs := {}
  vlt : Vlt := {}
  mac : Mac := {}
  tap : TapU := {}
  pci : Pci := {}
  mem : Mem := {}
  pwr : Pwr := {}
  mul : Mul := {}
  cfg : CfgU := {}
  lmd : Lmd := {}
deriving DecidableEq, Repr

/-- The state: the queue of waiting commands, host memory, DRAM, and the device. -/
structure State where
  pending : List Instr
  /-- host memory as the device's DMA sees it, and DRAM: bytes listed by address, rising, none listed that is zero -/
  hostMem : List Host.Cell
  dram : List Host.Cell
  dev : Dev
deriving DecidableEq, Repr

/-- No command faults: the spec gives every command an effect. -/
inductive Fault where
deriving DecidableEq, Repr

inductive Refusal where
  /-- Raised by a command that has no meaning yet in Dispatch.lean; safe: the machine stops. -/
  | notModelled (mnemonic : String)
deriving DecidableEq, Repr

/-- The block right after reset: no command waits, both memories list nothing, and the device holds every field at its
default above: the values the spec gives for reset, and where it gives none the model's (assumption 1). -/
def State.reset : State := { pending := [], hostMem := [], dram := [], dev := {} }

end Sys2Proof.Machine
end

