-- ==== Sys2Proof/Machine/Ops.lean ====
section
/-! DEFINITION. The shared operations every meaning is written over: registers with their access codes, 64-bit
counters, table entries, free values, the output trace, and the cell numbering of R4. -/

namespace Sys2Proof.Machine
open Sys2Proof

/-- The traffic modes of Table 16.1. -/
def Mode.carries (m : Mode) : Bool :=
  match m with
  | .service | .reload | .shed | .sprint | .join => true
  | .reset | .boot | .configure | .train | .recovery | .test | .zeroize => false

/-! ### Registers as words -/

/-- What a register holds (the stored word; computed views are in RegView.lean). -/
def Dev.reg (d : Dev) (off : Nat) : Word := tabGet regReset d.regs off

def Dev.setReg (d : Dev) (off : Nat) (w : Word) : Dev := { d with regs := tabSet regReset d.regs off w }

/-- Field [hi:lo] of a register. -/
def Dev.fld (d : Dev) (off hi lo : Nat) : Nat := bits (d.reg off) hi lo

def Dev.flag (d : Dev) (off i : Nat) : Bool := bit (d.reg off) i

def Dev.setFld (d : Dev) (off hi lo v : Nat) : Dev := d.setReg off (setBits (d.reg off) hi lo v)

def Dev.setFlag (d : Dev) (off i : Nat) (b : Bool) : Dev := d.setFld off i i b.toNat

/-- A 64-bit quantity held in a _LO and a _HI register. -/
def Dev.reg64 (d : Dev) (lo hi : Nat) : Nat := (d.reg lo).toNat + 2 ^ 32 * (d.reg hi).toNat

def Dev.setReg64 (d : Dev) (lo hi v : Nat) : Dev :=
  (d.setReg lo (BitVec.ofNat 32 v)).setReg hi (BitVec.ofNat 32 (v / 2 ^ 32))

/-- Count n on the 64-bit counter whose _LO half is at lo (its _HI half follows it). -/
def Dev.count (d : Dev) (lo n : Nat) : Dev := d.setReg64 lo (lo + 4) (d.reg64 lo (lo + 4) + n)

/-- Count n on counter c of a bank of counters at base. -/
def Dev.cnt (d : Dev) (base c n : Nat) : Dev := d.count (base + 8 * c) n

/-! ### Bits that hardware sets and a write of 1 clears (R10) -/

/-- Hardware sets a bit of a W1C register: a clear that reaches it in the same FCLK loses. -/
def Dev.hwSet (d : Dev) (off i : Nat) : Dev := { d.setFlag off i true with setNow := (off * 32 + i) :: d.setNow }

/-- The bits of a register that hardware set in this FCLK. -/
def Dev.justSet (d : Dev) (off : Nat) : Word :=
  BitVec.ofNat 32 (((List.range 32).filter (fun i => d.setNow.contains (off * 32 + i))).map (2 ^ ·)).sum

/-- What is left of a written word where bits that write 1 to clear were set in the same FCLK. -/
def Dev.clearMask (d : Dev) (off : Nat) (fs : List RegField) (v : Word) : Word :=
  fs.foldl (fun w f => if f.acc = .w1c then setBits w f.hi f.lo (bits (w &&& ~~~(d.justSet off)) f.hi f.lo) else w) v

/-! ### Field writes (R6, R7, R9) -/

/-- The value a field holds after a write of v over old, by its access code and its legal encodings. -/
def fieldWrite (f : RegField) (old v : Nat) : Nat :=
  match f.acc with
  | .rw => if f.legal v then v else old
  | .w1c => old - (old &&& v)
  | .w1s => old ||| v
  | .ro | .wo | .rc => old

/-- The word a register holds after a write: each field by its own rule; bits no field names keep 0. -/
def writeFields (fs : List RegField) (old v : Word) : Word :=
  fs.foldl (fun w f => setBits w f.hi f.lo (fieldWrite f (bits old f.hi f.lo) (bits v f.hi f.lo))) old

/-- Plain write of every field of a register (no command of the register is started). -/
def Dev.writeReg (d : Dev) (off : Nat) (v : Word) : Dev :=
  match regDesc off with
  | some r => d.setReg off (writeFields r.fields (d.reg off) (d.clearMask off r.fields v))
  | none => d

/-- The value written to a command field, 0 where it is a reserved code (R9). -/
def cmdField (off hi lo : Nat) (v : Word) : Nat :=
  match regDesc off with
  | some r =>
    match r.fields.find? (fun f => f.hi == hi && f.lo == lo) with
    | some f => if f.legal (bits v hi lo) then bits v hi lo else 0
    | none => 0
  | none => 0

/-! ### The halves of a 64-bit quantity (R11): one latch and one held value for each path, whichever quantity it is of -/

def pathKey (p : Path) : Nat := match p with | .pcie => 0 | .mc => 1

def Dev.latchHi (d : Dev) (p : Path) (w : Word) : Dev := { d with latches := recSet d.latches (pathKey p) w }

def Dev.latched (d : Dev) (p : Path) : Option Word := tabFind d.latches (pathKey p)

def Dev.hold (d : Dev) (p : Path) (w : Word) : Dev := { d with held := tabSet (fun _ => 0) d.held (pathKey p) w }

def Dev.heldLo (d : Dev) (p : Path) : Word := tabGet (fun _ => 0) d.held (pathKey p)

/-! ### Table entries -/

/-- The table units whose entries the model holds as eight words. -/
inductive TabUnit where
  | tsk | mat | met | vlt | que | fwd | leg | vdc | cmp | ven | aud | flt | gat | egs | mul | tap
deriving DecidableEq, Repr

def TabUnit.code (u : TabUnit) : Nat :=
  match u with
  | .tsk => 0 | .mat => 1 | .met => 2 | .vlt => 3 | .que => 4 | .fwd => 5 | .leg => 6 | .vdc => 7
  | .cmp => 8 | .ven => 9 | .aud => 10 | .flt => 11 | .gat => 12 | .egs => 13 | .mul => 14 | .tap => 15

/-- The key of entry i of a table of a unit. -/
def tabKey (u : TabUnit) (table i : Nat) : Nat := (u.code * 64 + table) * 2 ^ 32 + i

/-- What an entry nothing has written holds: zero but for the fields with a reset value: a leg's RTX_CAP, UP_HEADROOM and
START (Table 7.12), an audio entry's JB_MIN and JB_MAX, a mix entry's N and SWAP_LVL, a filter profile (Tables 11.9, 11.10,
11.12), a leg's BURST, a group's WEIGHT and TOKEN_INIT of class and port shapers (R285, R289), and an action's
DISPOSITION (Table 4.9). -/
def entReset (key : Nat) : Entry :=
  if key / 2 ^ 32 = TabUnit.leg.code * 64 then { d2 := 0x190A007D }
  else if key / 2 ^ 32 = TabUnit.egs.code * 64 + 1 then { d4 := 16000 }
  else if key / 2 ^ 32 = TabUnit.egs.code * 64 + 2 then { d0 := 1 }
  else if key / 2 ^ 32 = TabUnit.egs.code * 64 + 3 then { d1 := 0x80000000 }
  else if key / 2 ^ 32 = TabUnit.aud.code * 64 then { d2 := 0x0A320000 }
  else if key / 2 ^ 32 = TabUnit.aud.code * 64 + 1 then { d0 := 0x10000000, d3 := 0x0C000000 }
  else if key / 2 ^ 32 = TabUnit.flt.code * 64 + 1 then { d0 := 0x42818004, d1 := 0x00320190, d2 := 0x003C00C8, d3 := 6 }
  else if key / 2 ^ 32 = TabUnit.mat.code * 64 + 5 ∨ key / 2 ^ 32 = TabUnit.mat.code * 64 + 21 then { d3 := 0x20 }
  else {}

def Dev.ent (d : Dev) (u : TabUnit) (table i : Nat) : Entry := tabGet entReset d.tabs (tabKey u table i)

def Dev.setEnt (d : Dev) (u : TabUnit) (table i : Nat) (e : Entry) : Dev :=
  { d with tabs := tabSet entReset d.tabs (tabKey u table i) e }

/-- The index and entry of every entry of a table that is not the unused one. -/
def Dev.entries (d : Dev) (u : TabUnit) (table : Nat) : List (Nat × Entry) :=
  (d.tabs.filter (fun p => p.1 / 2 ^ 32 == u.code * 64 + table)).map (fun p => (p.1 % 2 ^ 32, p.2))

/-- Drop every entry of a table. -/
def Dev.clearTab (d : Dev) (u : TabUnit) (table : Nat) : Dev :=
  { d with tabs := d.tabs.filter (fun p => p.1 / 2 ^ 32 != u.code * 64 + table) }

/-- The eight DATA words at a TAB_DATA base. -/
def Dev.dataEntry (d : Dev) (base : Nat) : Entry :=
  ⟨d.reg base, d.reg (base + 4), d.reg (base + 8), d.reg (base + 12),
   d.reg (base + 16), d.reg (base + 20), d.reg (base + 24), d.reg (base + 28)⟩

/-- Place the first n words of an entry in the DATA words at a TAB_DATA base. -/
def Dev.putData (d : Dev) (base n : Nat) (e : Entry) : Dev :=
  (List.range n).foldl (fun d k => d.setReg (base + 4 * k) (Entry.word e k)) d

/-! ### Free values -/

/-- A fresh value that the spec leaves open: nothing constrains it (Config.freeNat has no body). -/
def Dev.draw (d : Dev) : Nat × Dev := (Config.freeNat d.free, { d with free := d.free + 1 })

/-- A fresh open value below n (below 1 where n is 0). -/
def Dev.drawBelow (d : Dev) (n : Nat) : Nat × Dev := (Config.freeNat d.free % n, { d with free := d.free + 1 })

/-- n fresh open bytes. -/
def Dev.drawBytes (d : Dev) (n : Nat) : List Byte × Dev :=
  ((List.range n).map (fun i => BitVec.ofNat 8 (Config.freeNat (d.free + i))), { d with free := d.free + n })

/-! ### Output trace -/

/-- What leaves the device, newest first. -/
def Dev.emit (d : Dev) (o : Emission) : Dev := { d with out := o :: d.out }

/-! ### Cells (R4) -/

def codecIndex (region block cell : Nat) : Nat := region * 16 + block * 8 + cell
def cipherIndex (plane cell : Nat) : Nat := plane * 64 + cell

/-- The 16-bit cell code: type in [15:12], index within the type in [11:0]. -/
def cellCode (ty idx : Nat) : Nat := ty * 4096 + idx

def cellType (code : Nat) : Nat := code / 4096 % 16
def cellIdx (code : Nat) : Nat := code % 4096

/-- How many cells of a type there are (0 for the codes that are not issued). -/
def cellCount (ty : Nat) : Nat :=
  match ty with
  | 0 => 64 | 1 => 16 | 2 => 32 | 3 => 8 | 4 => 128 | 5 => 32 | 6 => 2 | 7 => 12 | _ => 0

/-- An issued cell code. -/
def cellValid (code : Nat) : Bool := decide (cellIdx code < cellCount (cellType code)) && decide (code < 65536)

/-- The region of a cell: 0 P0, 1 P1, 2 to 5 M0 to M3 (the numbering of the region sources, R373). -/
def cellRegion (code : Nat) : Nat :=
  let i := cellIdx code
  match cellType code with
  | 0 => 2 + i / 16 | 1 => 2 + i / 4 | 2 => 2 + i / 8 | 3 => 2 + i / 2
  | 4 => i / 64 | 5 => i / 16 | 6 => i | 7 => i / 6 | _ => 0

/-- The block of a cell within its region, by first member and size: codec blocks of 8, the compose block of 4,
the audio block of 10 (8 audio cells and 2 filter cells); a packet region's herd and hash lanes, stages and lane
count as blocks of their own. -/
def cellBlock (code : Nat) : List Nat :=
  let i := cellIdx code
  match cellType code with
  | 0 => (List.range 8).map (fun k => cellCode 0 (i / 8 * 8 + k))
  | 1 => (List.range 4).map (fun k => cellCode 1 (i / 4 * 4 + k))
  | 2 => (List.range 8).map (fun k => cellCode 2 (i / 8 * 8 + k)) ++
         (List.range 2).map (fun k => cellCode 3 (i / 8 * 2 + k))
  | 3 => (List.range 8).map (fun k => cellCode 2 (i / 2 * 8 + k)) ++
         (List.range 2).map (fun k => cellCode 3 (i / 2 * 2 + k))
  | 4 => (List.range 64).map (fun k => cellCode 4 (i / 64 * 64 + k)) ++
         (List.range 16).map (fun k => cellCode 5 (i / 64 * 16 + k))
  | 5 => (List.range 64).map (fun k => cellCode 4 (i / 16 * 64 + k)) ++
         (List.range 16).map (fun k => cellCode 5 (i / 16 * 16 + k))
  | _ => [code]

/-- Every cell of a region (numbered 0 to 5 for P0, P1, M0 to M3). -/
def regionCells (r : Nat) : List Nat :=
  if r < 2 then
    (List.range 64).map (fun k => cellCode 4 (r * 64 + k)) ++ (List.range 16).map (fun k => cellCode 5 (r * 16 + k)) ++
    [cellCode 6 r] ++ (List.range 6).map (fun k => cellCode 7 (r * 6 + k))
  else
    let m := r - 2
    (List.range 16).map (fun k => cellCode 0 (m * 16 + k)) ++ (List.range 4).map (fun k => cellCode 1 (m * 4 + k)) ++
    (List.range 8).map (fun k => cellCode 2 (m * 8 + k)) ++ (List.range 2).map (fun k => cellCode 3 (m * 2 + k))

/-! ### Folds used by the per-beat work -/

def insertBy {α : Type} (le : α → α → Bool) (x : α) : List α → List α
  | [] => [x]
  | y :: ys => if le x y then x :: y :: ys else y :: insertBy le x ys

/-- Insertion sort; elements that compare equal keep their order. -/
def sortBy {α : Type} (le : α → α → Bool) (l : List α) : List α := l.foldr (insertBy le) []

def foldDev {α : Type} (l : List α) (f : α → Dev → Dev) (d : Dev) : Dev := l.foldl (fun d x => f x d) d

/-- Hand work to another unit, done later in the same step. -/
def Dev.push (d : Dev) (a : Act) : Dev := { d with tsk := { d.tsk with todo := d.tsk.todo ++ [a] } }

/-- Operand tag of Table 3.4. -/
def mkTag (flock brood cls media : Nat) : Nat :=
  flock % 4096 * 2 ^ 52 + brood % 65536 * 2 ^ 36 + cls % 16 * 2 ^ 32 + media % 2 ^ 32

def tagFlock (t : Nat) : Nat := t / 2 ^ 52 % 4096
def tagBrood (t : Nat) : Nat := t / 2 ^ 36 % 65536
def tagClass (t : Nat) : Nat := t / 2 ^ 32 % 16
def tagMedia (t : Nat) : Nat := t % 2 ^ 32

/-- Shed stage held (PWR_STATUS.STAGE). -/
def Dev.stage (d : Dev) : Nat := d.fld Reg.PWR_STATUS 31 29

/-- Apply f when the condition holds. -/
def Dev.when (d : Dev) (c : Bool) (f : Dev → Dev) : Dev := if c then f d else d

end Sys2Proof.Machine
end

