-- ==== Sys2Proof/Machine/Events.lean ====
section
/-! DEFINITION. The event aggregator: raising a source, its status, routes, log record and messages (R373 to R377). -/

namespace Sys2Proof.Machine
open Sys2Proof

/-! ### Source numbers (Tables 17.5 to 17.7) -/

/-- Source of chip group g, position k. -/
def srcChip (g k : Nat) : Nat := 16 * g + k

/-- Source of region r (0 to 5 for P0, P1, M0 to M3), index i. -/
def srcRegion (r i : Nat) : Nat := 256 + 64 * r + i

def Src.MODE_CHANGE : Nat := 0
def Src.BOOT_FALLBACK : Nat := 1
def Src.SHED_ENTER : Nat := 2
def Src.SHED_LIFT : Nat := 3
def Src.THERM_THROTTLE : Nat := 4
def Src.THERM_EMERGENCY : Nat := 5
def Src.THERM_TRIP : Nat := 6
def Src.SPRINT_END : Nat := 7
def Src.SPRINT_BUDGET_LOW : Nat := 8
def Src.LM_INSERTED : Nat := 9
def Src.LM_REMOVED : Nat := 10
def Src.LM_ALARM : Nat := 11
def Src.LM_END_OF_LIFE : Nat := 12
def Src.CHIP_FAULT : Nat := 16
def Src.BROWN_OUT : Nat := 17
def Src.PCIE_LINK_DOWN : Nat := 18
def Src.PCIE_ERROR : Nat := 19
def Src.FLR_DONE : Nat := 20
def Src.HOST_RING_FULL : Nat := 21
def Src.MBX_DONE : Nat := 22
def Src.MC_RESTART : Nat := 23
def Src.EVENT_LOG_OVERRUN : Nat := 24
def Src.WIN_REFUSED : Nat := 25
def Src.CELL_OVERRUN : Nat := 32
def Src.TASK_TABLE_HIGH : Nat := 33
def Src.TASK_TABLE_FULL : Nat := 34
def Src.MATCH_STORE_HIGH : Nat := 35
def Src.MATCH_STORE_FULL : Nat := 36
def Src.TASK_EXPIRED : Nat := 37
def Src.HWAIT_DONE : Nat := 38
def Src.ABORT_DONE : Nat := 39
def Src.VAULT_ALARM : Nat := 48
def Src.EPOCH_LOW : Nat := 49
def Src.IMPORT_AUTH_FAIL : Nat := 50
def Src.KEY_LOAD_FAIL : Nat := 51
def Src.PEN_OVERLOAD : Nat := 52
def Src.KEY_WAIT_FULL : Nat := 53
def Src.AUTH_FAIL : Nat := 54
def Src.QUEUE_GROUP_HIGH : Nat := 64
def Src.QUEUE_ALLOW_DROP : Nat := 65
def Src.BURST_STORE_FULL : Nat := 66
def Src.SPILL_POOL_FULL : Nat := 67
def Src.QUEUE_TRUNCATED : Nat := 68
def Src.KEYREQ_SENT : Nat := 80
def Src.SWITCH_STARVED : Nat := 81
def Src.SUB_SUSPENDED : Nat := 82
def Src.LEG_OVERUSE : Nat := 83
def Src.LEG_FEEDBACK_LOST : Nat := 84
def Src.RTCP_PUNTED : Nat := 85
def Src.TIME_JUMP_REFUSED : Nat := 96
def Src.TIME_SOURCE_SWITCH : Nat := 97
def Src.TIME_APART : Nat := 98
def Src.TIME_LOCKED : Nat := 99
def Src.TIME_LOCK_LOST : Nat := 100
def Src.BEAT_RELOADED : Nat := 101
def Src.GATE_BASE_PAST : Nat := 102
def Src.WINDOW_OVERLONG : Nat := 103
def Src.LAUNCH_LATE : Nat := 104
def Src.EGRESS_PAUSE_HELD : Nat := 112
def Src.EGRESS_NO_LEG : Nat := 113
def Src.EGRESS_MOVE_DONE : Nat := 114
def Src.EGRESS_RUN_CUT : Nat := 115
def Src.MEM_MARGIN_LOW : Nat := 128
def Src.MEM_MIGRATE_DONE : Nat := 129
def Src.MEM_CHANNEL_FAILED : Nat := 130
def Src.MEM_CAPACITY_REDUCED : Nat := 131
def Src.MEM_CRIT_LOST : Nat := 132
def Src.MEM_UE_BULK : Nat := 133
def Src.MEM_FSP_SWITCH : Nat := 134
def Src.CASCADE_JOINED : Nat := 144
def Src.ROOSTER_CHANGED : Nat := 145
def Src.CASCADE_ISOLATED : Nat := 146
def Src.MULE_LINK_DOWN : Nat := 147
def Src.MULE_LINK_DEGRADED : Nat := 148
def Src.PARTIAL_MISSING : Nat := 149
def Src.TUNNEL_LOSS : Nat := 150
def Src.PORT_LINK_DOWN : Nat := 160
def Src.MAC_RX_ERR : Nat := 168
def Src.TAP_LANE_DOWN : Nat := 176
def Src.TAP_HOLD_LONG : Nat := 177
def Src.TAP_DROP : Nat := 178
def Src.TAP_RX_ERR : Nat := 179

/-- DETAIL0 of an event that names nothing (R377). -/
def noDetail : Nat := 0xFFFFFFFF

/-- Nanoseconds per second and the unit of a clock value: 1/(768·10^9) ns. -/
def nsUnit : Nat := 768000000000

/-- Seconds and nanoseconds of a clock value. -/
def clkSec (v : Nat) : Nat := v / (nsUnit * 1000000000)
def clkNs (v : Nat) : Nat := v / nsUnit % 1000000000

/-- The nanoseconds field of DT. -/
def Dev.dtNs (d : Dev) : Nat := clkNs d.tim.dt

/-! ### Settings and status -/

def Dev.evtCfg (d : Dev) (src : Nat) : Word := d.reg (Reg.EVT_SRC_CFG + 4 * src)

def Dev.evtStat (d : Dev) (src : Nat) : Bool := d.flag (Reg.EVT_STAT + 4 * (src / 32)) (src % 32)

def Dev.evtEnabled (d : Dev) (src : Nat) : Bool := bit (d.evtCfg src) 31

/-- Vectors that some enabled source with its status set is routed to (EVT_VEC_PEND, R375); the route of PCIE_LINK_DOWN to a vector
is suppressed (R363). -/
def Dev.vecPending (d : Dev) : List Nat :=
  ((List.range 640).filter (fun s => d.evtStat s && d.evtEnabled s && bit (d.evtCfg s) 28 && s != Src.PCIE_LINK_DOWN)).map
    (fun s => bits (d.evtCfg s) 5 0)

/-- A source with TO_PIN has status 1. -/
def Dev.pinCause (d : Dev) : Bool := (List.range 640).any (fun s => d.evtStat s && bit (d.evtCfg s) 26)

/-- EVENT_N: low (true here) while a source with TO_PIN has status 1, and released in the FCLK after the last such bit clears (R375). -/
def Dev.eventPin (d : Dev) : Bool := d.pinCause || decide (d.now < d.evt.pinUntil)

/-- The status bits of word w that are 1 in v clear; EVENT_N stays low for this FCLK where it was. -/
def Dev.clearStat (d : Dev) (w : Nat) (v : Word) : Dev :=
  let e := d.setReg (Reg.EVT_STAT + 4 * w) (d.reg (Reg.EVT_STAT + 4 * w) &&& ~~~v)
  if d.pinCause then { e with evt := { e.evt with pinUntil := e.now + 1 } } else e

/-! ### Messages -/

def msixMasked (d : Dev) (v : Nat) : Bool := d.flag (Reg.MSIX_CTRL + 16 * v) 0

/-- A cause for a message on vector v: at most one message in an FCLK; a masked vector keeps its pending bit (R375).
While the PCIe link is down nothing is sent (R363). -/
def Dev.message (d : Dev) (v : Nat) : Dev :=
  if d.evt.sent.contains v then d
  else if !d.flag Reg.PCI_STATUS 31 then d
  else if msixMasked d v then d.setFlag (Reg.MSIX_PBA + 4 * (v / 32)) (v % 32) true
  else
    let d := { d with evt := { d.evt with sent := v :: d.evt.sent } }
    (d.cnt Reg.EVT_CNT_LO 3 1).emit (.msix v)

/-! ### The log (R377) -/

/-- Write one record at EVT_LOG_HEAD; with 4,095 unread the oldest is given up. Answers whether it was an overrun. -/
def Dev.logWrite (d : Dev) (r : LogRec) : Dev × Bool :=
  let head := d.fld Reg.EVT_LOG_HEAD 11 0
  let tail := d.fld Reg.EVT_LOG_TAIL 11 0
  let full := decide ((head + 1) % 4096 = tail)
  let d := { d with evt := { d.evt with log := tabSet (fun _ => {}) d.evt.log head r } }
  let d := (d.setFld Reg.EVT_LOG_HEAD 11 0 ((head + 1) % 4096)).cnt Reg.EVT_CNT_LO 1 1
  if full then ((d.setFld Reg.EVT_LOG_TAIL 11 0 ((tail + 1) % 4096)).cnt Reg.EVT_CNT_LO 2 1, true)
  else (d, false)

/-! ### Raising -/

/-- Raise a source without the log's own overrun event: status, MC route, messages, record. `vec`: the vector its
raising rule names. -/
def Dev.raiseCore (d : Dev) (src d0 d1 blk : Nat) (vec : Option Nat) : Dev × Bool :=
  match evtSeverity src with
  | none => (d, false)
  | some sev =>
    let cfg := d.evtCfg src
    if !bit cfg 31 then (d, false)
    else
      let was := d.evtStat src
      let d := d.setFlag (Reg.EVT_STAT + 4 * (src / 32)) (src % 32) true
      let d := d.cnt Reg.EVT_CNT_LO 0 1
      let d :=
        if bit cfg 27 then
          if d.evt.mcDown then { d with evt := { d.evt with mcWait := d.evt.mcWait ++ [src] } }
          else d.emit (.mcEvent src)
        else d
      let d :=
        match vec with
        | some v => d.message v
        | none =>
          if !was && bit cfg 28 && src != Src.PCIE_LINK_DOWN then d.message (bits cfg 5 0) else d
      if d.fld Reg.EVT_LOG_CFG 1 0 ≤ sev then
        d.logWrite { beat := d.beat, ns := d.dtNs, src := src, sev := sev, d0 := d0, d1 := d1, blk := blk }
      else (d, false)

/-- Record that a source with an "at most once per beat" rule has been raised in this beat. -/
def Dev.noteOnce (d : Dev) (src : Nat) : Dev := { d with evt := { d.evt with once := src :: d.evt.once } }

/-- Raise a source; an overrun of the log raises EVENT_LOG_OVERRUN, at most once per beat (R377). -/
def Dev.raiseFull (d : Dev) (src d0 d1 blk : Nat) (vec : Option Nat) : Dev :=
  match d.raiseCore src d0 d1 blk vec with
  | (d, false) => d
  | (d, true) =>
    if d.evt.once.contains Src.EVENT_LOG_OVERRUN then d
    else ((d.noteOnce Src.EVENT_LOG_OVERRUN).raiseCore Src.EVENT_LOG_OVERRUN noDetail 0 0 none).1

def Dev.raise (d : Dev) (src : Nat) (d0 : Nat := noDetail) (d1 : Nat := 0) : Dev := d.raiseFull src d0 d1 0 none

/-- Raise a source whose raising rule names its vector (R66). -/
def Dev.raiseOn (d : Dev) (src vec d0 d1 : Nat) : Dev := d.raiseFull src d0 d1 0 (some vec)

/-- Raise a memory event, whose record holds a block address. -/
def Dev.raiseMem (d : Dev) (src d0 d1 blk : Nat) : Dev := d.raiseFull src d0 d1 blk none

/-- Raise a source at most once per beat. -/
def Dev.raiseOnce (d : Dev) (src : Nat) (d0 : Nat := noDetail) (d1 : Nat := 0) : Dev :=
  if d.evt.once.contains src then d else (d.noteOnce src).raise src d0 d1

/-! ### Summaries (R376) -/

def Dev.regionSum (d : Dev) (r : Nat) : Nat :=
  ((List.range 5).map (fun g =>
    if (List.range 8).any (fun i => d.evtStat (srcRegion r (8 * g + i))) then 2 ^ g else 0)).sum

def Dev.evtSummary (d : Dev) : Nat :=
  ((List.range 6).map (fun r => if (List.range 64).any (fun i => d.evtStat (srcRegion r i)) then 2 ^ (16 + r) else 0)).sum +
  ((List.range 12).map (fun g => if (List.range 16).any (fun k => d.evtStat (srcChip g k)) then 2 ^ g else 0)).sum

/-- The words of a log record's 32 bytes (R377). -/
def LogRec.bytes (r : LogRec) : List Byte :=
  toLe 8 r.beat ++ toLe 4 r.ns ++ toLe 2 (r.src + r.sev * 4096) ++ toLe 2 0 ++ toLe 4 r.d0 ++ toLe 4 r.d1 ++ toLe 8 r.blk

/-! ### Commands -/

/-- EVT_STAT_WRITE (R10, R375): W1C of word w; `sets` are the bits hardware sets in the same clock, which win. Then every
vector of an enabled source whose status is left at 1, in this word or another, is signalled. -/
def evtStatWrite (w : Nat) (v sets : Word) (d : Dev) : Dev :=
  if 20 ≤ w then d
  else
    let d := d.clearStat w v
    let d := foldDev ((List.range 32).filter (fun i => bit sets i)) (fun i d => d.raise (32 * w + i)) d
    foldDev d.vecPending (fun vec d => d.message vec) d

/-- MSIX_UNMASK (R375): the vector's mask bit clears, and a pending message is sent. -/
def msixUnmask (v : Nat) (d : Dev) : Dev :=
  if 64 ≤ v then d
  else
    let d := d.setFlag (Reg.MSIX_CTRL + 16 * v) 0 false
    let pba := Reg.MSIX_PBA + 4 * (v / 32)
    if d.flag pba (v % 32) && d.flag Reg.PCI_STATUS 31 then (d.setFlag pba (v % 32) false).message v else d

end Sys2Proof.Machine
end

