-- ==== Sys2Proof/Machine/Watermarks.lean ====
section
/-! DEFINITION. Occupancy of queues and groups, and a group's flag by its watermarks (R125, R133). -/

namespace Sys2Proof.Machine
open Sys2Proof

/-- A group's entry, Table 6.6 (QUE_TAB table 1). -/
def Dev.group (d : Dev) (g : Nat) : Entry := d.ent .que 1 g

/-- Cells of an item, from its descriptor. -/
def Item.cells (it : Item) : Nat := it.desc.f 0 21 14

/-- Occupancy: cells of the items from RELEASE to TAIL (R125). -/
def Queue.occ (q : Queue) : Nat := (q.items.map Item.cells).sum

def Dev.groupOcc (d : Dev) (g : Nat) : Nat :=
  let e := d.group g
  (d.que.queues.map (fun p =>
    if e.f 0 17 0 ≤ p.1 ∧ p.1 < e.f 0 17 0 + e.f 1 18 0 then p.2.occ else 0)).sum

/-- A group's flag is set at HIGH and cleared at LOW. -/
def Dev.judgeGroup (d : Dev) (g : Nat) : Dev :=
  let e := d.group g
  let occ := d.groupOcc g
  if d.que.high.contains g then
    if occ ≤ e.f 4 27 0 then { d with que := { d.que with high := d.que.high.erase g } } else d
  else if e.f 1 18 0 ≠ 0 ∧ e.f 3 27 0 ≤ occ then
    ({ d with que := { d.que with high := g :: d.que.high } }).raise Src.QUEUE_GROUP_HIGH g
  else d

/-- The groups whose occupancy has changed in the present FCLK are judged at its end, once (R133). -/
def Dev.judgeGroups (d : Dev) : Dev :=
  if d.que.touched.isEmpty then d
  else foldDev d.que.touched (fun g d => d.judgeGroup g) { d with que := { d.que with touched := [] } }

end Sys2Proof.Machine
end

