-- ==== Sys2Proof/Machine/MemQueue.lean ====
section
/-! DEFINITION. The channels of the DRAM, where an address lies (R291 to R293), and the channels' queues: urgency, the choice of a command, write
drain (R297, R298). The bytes themselves are read and written at once (assumption 122). -/

namespace Sys2Proof.Machine
open Sys2Proof

/-! ### Channels -/

def memOfs (k : Nat) : Nat := 0x100 * k

def Dev.chState (d : Dev) (k : Nat) : Nat := d.fld (Reg.MEM_CH_STAT + memOfs k) 31 29
def Dev.setChState (d : Dev) (k st : Nat) : Dev := d.setFld (Reg.MEM_CH_STAT + memOfs k) 31 29 st
def Dev.chLogical (d : Dev) (k : Nat) : Nat := d.fld (Reg.MEM_CH_STAT + memOfs k) 28 24
def Dev.setChLogical (d : Dev) (k l : Nat) : Dev := d.setFld (Reg.MEM_CH_STAT + memOfs k) 28 24 l
def Dev.chanOf (d : Dev) (l : Nat) : Nat := d.fld (Reg.MEM_CHAN_MAP + 4 * l) 4 0
def Dev.memCh (d : Dev) (k : Nat) : MemCh := tabGet (fun _ => {}) d.mem.chans k
def Dev.setMemCh (d : Dev) (k : Nat) (c : MemCh) : Dev :=
  { d with mem := { d.mem with chans := tabSet (fun _ => {}) d.mem.chans k c } }

def Dev.memCount (d : Dev) (c n : Nat) : Dev := d.cnt Reg.MEM_CNT_LO c n
def Dev.chCount (d : Dev) (k j n : Nat) : Dev := d.cnt (Reg.MEM_CH_CNT_LO + memOfs k) j n

/-- The physical spare; 0x1F: none. -/
def Dev.spare (d : Dev) : Nat := d.fld Reg.MEM_STATUS 20 16
def Dev.setSpare (d : Dev) (k : Nat) : Dev := d.setFld Reg.MEM_STATUS 20 16 k
def Dev.fsp (d : Dev) : Nat := d.fld Reg.MEM_STATUS 30 30

/-- Usable capacity in bytes, and the start of the top sixteenth (Table 14.1). -/
def Dev.capBytes (d : Dev) : Nat := d.fld Reg.MEM_CAP 17 0 * 2 ^ 20
def classMib (cls : Nat) : Nat := 16384 * 2 ^ cls
def topMib (cls : Nat) : Nat := classMib cls / 16 * 15

/-- The logical channel of an address (R292). -/
def logicalOf (a : Nat) : Nat := a / 128 % 16

/-- The allocation an address lies in. -/
def Dev.allocAt (d : Dev) (a : Nat) : Option Alloc :=
  d.mem.allocs.find? (fun x => decide (x.base * 2 ^ 20 ≤ a) && decide (a < (x.base + x.size) * 2 ^ 20))

def Dev.criticalAt (d : Dev) (a : Nat) : Bool := match d.allocAt a with | some x => x.critical | none => false

/-- An address beyond the usable capacity: there is no memory (R308). -/
def Dev.noMemory (d : Dev) (a : Nat) : Bool := decide (d.capBytes ≤ a)

/-- The logical channel that holds the block of an address: its own, or after a fold, for the n-th block of the folded channel f, that
of the n-th block of the top sixteenth on a channel other than f (R308). -/
def Dev.homeOf (d : Dev) (a : Nat) : Nat :=
  match d.mem.fold with
  | some f =>
    if logicalOf a = f then (if a / 2048 % 15 < f then a / 2048 % 15 else a / 2048 % 15 + 1) else logicalOf a
  | none => logicalOf a

/-- The address of a critical block's other copy (R293). -/
def copyOf (a : Nat) : Nat := a / 2048 * 2048 + (logicalOf a + 8) % 16 * 128 + a % 128

/-! ### Queues of a channel (R297, R298) -/

/-- A queue holds 64 requests; a bank's tRC of 8 ns, in FCLK. -/
def queueSize : Nat := 64
def tRcFclk : Nat := 12

/-- A request comes to a channel. A write replaces one of its block that is queued; a read of a block that has a write queued is answered
from the write queue; drain begins at 48 writes. -/
def MemCh.ask (c : MemCh) (write : Bool) (r : MemReq) : MemCh :=
  let same := c.writes.any (fun x => x.block == r.block)
  if write then
    if same then { c with writes := c.writes.filter (fun x => x.block != r.block) ++ [r] }
    else if c.writes.length < queueSize then
      { c with writes := c.writes ++ [r], drain := c.drain || decide (48 ≤ c.writes.length + 1) }
    else { c with wait := c.wait ++ [(true, r)] }
  else if same then c
  else if c.reads.length < queueSize then { c with reads := c.reads ++ [r] }
  else { c with wait := c.wait ++ [(false, r)] }

/-- Urgency of a request at an FCLK, by the mode of its port (R297). -/
def Dev.urgency (d : Dev) (t : Nat) (r : MemReq) : Nat :=
  let w := d.reg (Reg.MEM_PORT_CFG + 4 * r.port)
  if 8 ≤ r.port then 0
  else if bit w 31 then
    let level := Config.stageLevel r.port t % 101
    if level = 100 then 2 else if bits w 23 16 ≤ level then 1 else 0
  else
    let target := bits w 15 0
    let age := t - r.at_
    if 3 * target ≤ 2 * age then 2 else if 3 * target ≤ 4 * age then 1 else 0

/-- The command a channel issues (Table 14.5), of those whose bank is past its tRC; true: a write. -/
def Dev.choose (d : Dev) (t : Nat) (c : MemCh) : Option (Bool × MemReq) :=
  let free (r : MemReq) : Bool := decide ((tabFind c.tRC (Config.bankOf r.block % 16)).getD 0 ≤ t)
  let rs := c.reads.filter free
  let ws := c.writes.filter free
  let rd (o : Option MemReq) : Option (Bool × MemReq) := o.map (fun r => (false, r))
  let wr (o : Option MemReq) : Option (Bool × MemReq) := o.map (fun r => (true, r))
  (rd (rs.find? (fun r => d.urgency t r == 2 && r.port == 1))).or <| (rd (rs.find? (fun r => d.urgency t r == 2))).or <|
    (wr (ws.find? (fun r => d.urgency t r == 2))).or <| (if c.drain then wr ws.head? else none).or <|
    (rd (rs.find? (fun r => d.urgency t r == 1))).or <| (rd rs.head?).or <| if c.reads.isEmpty then wr ws.head? else none

/-- A command issues: its bank's tRC begins, drain ends at 16 writes, and requests that waited come in. -/
def MemCh.issue (c : MemCh) (t : Nat) (x : Bool × MemReq) : MemCh :=
  let c := { c with tRC := recSet c.tRC (Config.bankOf x.2.block % 16) (t + tRcFclk)
                    reads := if x.1 then c.reads else c.reads.erase x.2
                    writes := if x.1 then c.writes.erase x.2 else c.writes }
  c.wait.foldl (fun c w => c.ask w.1 w.2) { c with wait := [], drain := c.drain && decide (16 < c.writes.length) }

/-- DCLK counted to an FCLK count, and the FCLK of a DCLK: 800 MHz at FSP0, 600 MHz at FSP1. -/
def dclkOf (fsp t : Nat) : Nat := if fsp = 1 then t * 2 / 5 else t * 8 / 15
def fclkOf (fsp j : Nat) : Nat := if fsp = 1 then ceilDiv (j * 5) 2 else ceilDiv (j * 15) 8

/-- One command a DCLK, from DCLK j on, while something is queued. -/
def Dev.runCh (d : Dev) : Nat → Nat → MemCh → MemCh
  | 0, _, c => c
  | n + 1, j, c =>
    if c.reads.isEmpty && c.writes.isEmpty then c
    else
      let t := fclkOf d.fsp j
      Dev.runCh d n (j + 1) (match d.choose t c with | some x => c.issue t x | none => c)

/-- The channels issue the commands of n FCLK; within 8 DCLK at most the bank of some request is free. -/
def Dev.runMem (d : Dev) (n : Nat) : Dev :=
  if d.mem.chans.all (fun c => c.2.reads.isEmpty && c.2.writes.isEmpty) then d
  else
    let j := dclkOf d.fsp d.now
    let steps := dclkOf d.fsp (d.now + n) - j
    { d with mem := { d.mem with chans := tabMap (fun _ => {}) (fun _ c =>
        d.runCh (min steps (8 * (c.reads.length + c.writes.length + c.wait.length))) (j + 1) c) d.mem.chans } }

/-- A physical channel is asked for a block. -/
def Dev.askCh (d : Dev) (k : Nat) (write : Bool) (port block : Nat) : Dev :=
  d.setMemCh k ((d.memCh k).ask write { block := block, port := port, at_ := d.now })

def Dev.chLoad (d : Dev) (k : Nat) : Nat := (d.memCh k).reads.length + (d.memCh k).writes.length

/-- A block is read: one of a critical allocation from the copy whose channel can serve it and has fewer requests queued, ties to the lower
channel (R293, R307). -/
def Dev.readBlock (d : Dev) (port block : Nat) : Dev :=
  let a := block * 128
  let l := d.homeOf a
  let o := d.homeOf (copyOf a)
  let serves (c : Nat) : Bool := (d.chState (d.chanOf c) == 0 || d.chState (d.chanOf c) == 2) && !d.mem.single.contains c
  let pick := if !d.criticalAt a || !serves o then l
    else if !serves l then o
    else if d.chLoad (d.chanOf o) < d.chLoad (d.chanOf l) ∨ (d.chLoad (d.chanOf o) = d.chLoad (d.chanOf l) ∧ o < l) then o else l
  d.askCh (d.chanOf pick) false port block

/-- A block is written: both copies of one of a critical allocation (R293); on a channel that is being migrated the spare too where the block
is already copied, which is open (R306). -/
def Dev.writeBlock (d : Dev) (port block : Nat) : Dev :=
  let a := block * 128
  let l := d.homeOf a
  let d := d.askCh (d.chanOf l) true port block
  let d := if d.criticalAt a then d.askCh (d.chanOf (d.homeOf (copyOf a))) true port block else d
  if d.fld Reg.MEM_STATUS 27 26 = 1 ∧ d.mem.mig = l then
    let (n, d) := d.drawBelow 2
    if n = 1 then d.askCh d.spare true port block else d
  else d

/-- Blocks that n bytes at an address touch. -/
def touchedBlocks (a n : Nat) : List Nat := if n = 0 then [] else (List.range ((a + n - 1) / 128 + 1 - a / 128)).map (a / 128 + ·)

def Dev.readBlocks (d : Dev) (port a n : Nat) : Dev := foldDev (touchedBlocks a n) (fun b d => if d.noMemory (b * 128) then d else d.readBlock port b) d
def Dev.writeBlocks (d : Dev) (port a n : Nat) : Dev := foldDev (touchedBlocks a n) (fun b d => if d.noMemory (b * 128) then d else d.writeBlock port b) d

end Sys2Proof.Machine
end

