-- ==== Sys2Proof/Machine/Time.lean ====
section
/-! DEFINITION. The time unit (chapter 12): clocks and their advance, the beat, stamps, the servo and corrections, the
privileged pair, and gate lists. -/

namespace Sys2Proof.Machine
open Sys2Proof

/-- Clock units in 2^-16 ns, the unit of a sample. -/
def smpUnit : Nat := 11718750

/-- Clock units in a second and in a beat boundary's numerator: a beat is (5,000,000 / 3) ns. -/
def secUnit : Nat := nsUnit * 1000000000
def beat3Unit : Nat := nsUnit * 5000000

/-- Modes in which the beat is never reloaded and DT is never loaded (R19, R264). -/
def Mode.live (m : Mode) : Bool :=
  match m with
  | .service | .reload | .shed | .sprint | .join | .zeroize => true
  | .reset | .boot | .configure | .train | .test | .recovery => false

def Dev.dom (d : Dev) (k : Nat) : TimDom := d.tim.doms.getD k {}

def Dev.setDom (d : Dev) (k : Nat) (t : TimDom) : Dev :=
  { d with tim := { d.tim with doms := (List.range 6).map (fun i => if i = k then t else d.dom i) } }

/-- The active member M of the privileged pair, as a clock number. -/
def Dev.active (d : Dev) : Nat := 4 + d.tim.source

/-- Increment of a clock per FCLK: nominal 2/3 ns, adjusted by its servo in the states that adjust it (R255, R261). -/
def TimDom.inc (t : TimDom) : Nat :=
  let adj : Int := if t.st < 2 then 0 else t.adj
  (512000000000 + 2 * adj).toNat

/-- e := M − DT (R264). -/
def Dev.dtErr (d : Dev) : Int := ((d.dom d.active).clock : Int) - (d.tim.dt : Int)

def Dev.jumpLimit (d : Dev) : Nat := d.fld Reg.TIM_JUMP_LIMIT 29 0 * nsUnit
def Dev.stepThresh (d : Dev) : Nat := d.fld Reg.TIM_STEP_THRESH 19 0 * nsUnit

/-- DT slews toward M while |e| is within the limit or SLEW_APART is 1 (R264). -/
def Dev.slewOn (d : Dev) : Bool := decide (d.dtErr.natAbs ≤ d.jumpLimit) || d.flag Reg.TIM_CTRL 28

/-- Greatest slew in one FCLK (R264); a fraction of a clock unit is dropped (assumption 7). -/
def Dev.slewStep (d : Dev) : Nat :=
  if d.slewOn then (d.dom d.active).inc * d.fld Reg.TIM_SLEW_MAX 8 0 / 1000000 else 0

/-- DT after n FCLK. -/
def Dev.dtAfter (d : Dev) (n : Nat) : Nat :=
  let e := d.dtErr
  let s := min e.natAbs (n * d.slewStep)
  let base := d.tim.dt + n * (d.dom d.active).inc
  if 0 ≤ e then base + s else base - s

/-- The least n with DT after n FCLK at or past t. -/
def Dev.fclkTo (d : Dev) (t : Nat) : Nat :=
  if t ≤ d.tim.dt then 0
  else
    let gap := t - d.tim.dt
    let inc := (d.dom d.active).inc
    let e := d.dtErr
    if 0 ≤ e then max (ceilDiv gap (inc + d.slewStep)) (ceilDiv (gap - e.natAbs) inc)
    else min (ceilDiv gap (inc - d.slewStep)) (ceilDiv (gap + e.natAbs) inc)

/-- The count of beats at DT under the offset now in force: seconds × 600 + index (R266). -/
def Dev.dtBeat (d : Dev) : Nat := (d.tim.dt - d.tim.ofs * nsUnit) * 3 / beat3Unit

/-- DT of the next beat boundary. -/
def Dev.nextEdge (d : Dev) : Nat := ceilDiv ((d.beat + 1) * beat3Unit) 3 + d.tim.ofs * nsUnit

def Dev.fclkToBoundary (d : Dev) : Nat := max 1 (d.fclkTo d.nextEdge)

/-- A terminal entry without a completion record is freed in the FCLK after termination (R55). -/
def freeEnded (now : Nat) (t : Tab Task) : Tab Task :=
  t.filter (fun p => !(decide (5 ≤ p.2.st) && !p.2.notify && !p.2.filling && decide (p.2.endNow < now)))

/-- FCLK cycles for which BEAT_OUT is high at the start of a beat (R20). -/
def beatHigh : Nat := 1250000

/-- BEAT_OUT falls n FCLK from now, or before; so does PPS_OUT. -/
def Dev.beatFalls (d : Dev) (n : Nat) : Bool := d.tim.beatOut && decide (beatHigh ≤ d.fclk + n)
def Dev.ppsFalls (d : Dev) (n : Nat) : Bool := match d.tim.ppsOut with | some t => decide (t ≤ d.now + n) | none => false

/-! ### Exchanges and corrections that are settled at the end of their FCLK (R262, R265) -/

/-- APART is set, and TIME_APART raised, when |e| comes to exceed the limit with SLEW_APART = 0 in a mode in which DT
is never loaded (R264). -/
def Dev.checkApart (d : Dev) : Dev :=
  let ap := d.mode.live && decide (d.jumpLimit < d.dtErr.natAbs) && !d.flag Reg.TIM_CTRL 28
  let d' := { d with tim := { d.tim with apart := ap } }
  if ap && !d.tim.apart then d'.raise Src.TIME_APART else d'

/-- The other member of the privileged pair becomes active (R265); a step of this FCLK then concerns the member no longer active. -/
def Dev.exchange (d : Dev) : Dev :=
  let d := { d with tim := { d.tim with source := 1 - d.tim.source, stepped := false } }
  ((d.cnt Reg.TIM_CNT_LO 3 1).raise Src.TIME_SOURCE_SWITCH noDetail d.tim.source).checkApart

/-- With AUTO_SWITCH, M having left LOCKED, the other member is taken when it is LOCKED (R265). -/
def Dev.autoSwitchLost (d : Dev) (k : Nat) : Dev :=
  let other := 9 - d.active
  if d.flag Reg.TIM_CTRL 29 && decide (k = d.active) && decide ((d.dom other).st = 3) then d.exchange else d

/-- With AUTO_SWITCH, M having stepped beyond the limit, the other member is taken when it is LOCKED and near DT (R265). -/
def Dev.autoSwitchStep (d : Dev) : Dev :=
  let other := 9 - d.active
  let far := decide (d.jumpLimit < d.dtErr.natAbs)
  let near := decide ((((d.dom other).clock : Int) - d.tim.dt).natAbs ≤ d.jumpLimit)
  if d.flag Reg.TIM_CTRL 29 && far && decide ((d.dom other).st = 3) && near then d.exchange else d

/-- A clock's state changes: TIME_LOCKED on entry to LOCKED, TIME_LOCK_LOST on leaving it for any state but OFF (R261). -/
def Dev.setDomState (d : Dev) (k st : Nat) : Dev :=
  let t := d.dom k
  let d' := d.setDom k { t with st := st, adj := if st = 4 then t.integ else t.adj, good := if st = 2 then 0 else t.good }
  if st = 3 ∧ t.st ≠ 3 then d'.raise Src.TIME_LOCKED k
  else if t.st = 3 ∧ st ≠ 3 then (if st = 0 then d' else d'.raise Src.TIME_LOCK_LOST k).autoSwitchLost k
  else d'

/-- A correction is refused: HOLDOVER, JUMP_REFUSED, TIME_JUMP_REFUSED (R262). -/
def Dev.refuseJump (d : Dev) (k : Nat) : Dev :=
  let d := d.setDomState k 4
  let d := (d.hwSet (Reg.TIM_DOM_STAT + 0x100 * k) 28).cnt Reg.TIM_CNT_LO 2 1
  d.raiseOnce Src.TIME_JUMP_REFUSED k

/-- What the FCLK that ends leaves to settle: refusals, and an exchange after M's step. -/
def Dev.settleTime (d : Dev) : Dev :=
  let d := foldDev ((List.range 6).filter (fun k => !(d.dom k).refused.isEmpty)) (fun k d =>
    let n := (d.dom k).refused
    foldDev n (fun _ d => d.refuseJump k) (d.setDom k { d.dom k with refused := [] })) d
  if d.tim.stepped then (({ d with tim := { d.tim with stepped := false } } : Dev).autoSwitchStep).checkApart else d

/-- n FCLK pass: what the FCLK that ends leaves to judge is settled; the DRAM channels issue their commands; every clock advances by its own increment, DT by M's
with its slew (R255, R264); BEAT_OUT falls in the 1,250,000th FCLK of a beat (R20). -/
def Dev.advance (d : Dev) (n : Nat) : Dev :=
  if n = 0 then d
  else
    let d := d.judgeGroups.settleTime.runMem n
    let dt := d.dtAfter n
    let doms := d.tim.doms.map (fun t => { t with clock := t.clock + n * t.inc })
    let out := if d.beatFalls n then .pin 6 0 :: d.out else d.out
    { d with
      now := d.now + n
      fclk := d.fclk + n
      setNow := []
      out := if d.ppsFalls n then .pin 5 0 :: out else out
      tim := { d.tim with dt := dt, doms := doms, beatOut := d.tim.beatOut && !d.beatFalls n,
                          ppsOut := if d.ppsFalls n then none else d.tim.ppsOut }
      evt := { d.evt with sent := [] }
      tsk := { d.tsk with tasks := freeEnded (d.now + n) d.tsk.tasks } }

/-- The present FCLK ends, where it is not the last of the beat. -/
def Dev.lapse (d : Dev) : Dev := if 1 < d.fclkToBoundary then d.advance 1 else d

/-- Time passes to FCLK f of the beat, if that lies ahead within the beat. -/
def Dev.toFclk (d : Dev) (f : Nat) : Dev :=
  if d.fclk < f ∧ f - d.fclk < d.fclkToBoundary then d.advance (f - d.fclk) else d

/-- Time passes to the FCLK count t since power-on, if that lies within the beat; none: t lies beyond it. -/
def Dev.reachNow (d : Dev) (t : Nat) : Option Dev :=
  if t ≤ d.now then some d
  else if t - d.now < d.fclkToBoundary then some (d.advance (t - d.now))
  else none

/-- Time passes until DT is at or past t, if that lies within the beat; none: t lies beyond it. -/
def Dev.reachDt (d : Dev) (t : Nat) : Option Dev :=
  let n := d.fclkTo t
  if n = 0 then some d
  else if n < d.fclkToBoundary then some (d.advance n)
  else none

/-- f once time has come to the FCLK count t; nothing where that lies beyond the beat. -/
def Dev.atNow (d : Dev) (t : Nat) (f : Dev → Dev) : Dev :=
  match d.reachNow t with
  | some e => f e
  | none => d

/-- f once DT has come to t; nothing where that lies beyond the beat. -/
def Dev.atDt (d : Dev) (t : Nat) (f : Dev → Dev) : Dev :=
  match d.reachDt t with
  | some e => f e
  | none => d

/-! ### Status of the beat source -/

/-- TIM_BEAT_STAT.LOCKED: M is LOCKED and |e| within the limit (R264). -/
def Dev.locked (d : Dev) : Bool :=
  decide ((d.dom d.active).st = 3) && decide (d.dtErr.natAbs ≤ d.jumpLimit)

/-- TIM_STATUS.SLEWING: |e| above 250 ps while DT slews. -/
def Dev.slewing (d : Dev) : Bool := d.slewOn && decide (nsUnit / 4 < d.dtErr.natAbs)

/-- An offset change still being slewed (R18). -/
def Dev.ofsSlewing (d : Dev) : Bool := d.mode.live && decide (d.tim.ofs ≠ d.fld Reg.TIM_BEAT_OFFSET 20 0)

/-! ### The beat (R18, R19, R266, R267) -/

/-- The offset in force moves toward TIM_BEAT_OFFSET by at most 833 ns a beat, less what the slew of DT uses of that
limit in the beat (R18, R267). -/
def Dev.slewOffset (d : Dev) : Dev :=
  let want := d.fld Reg.TIM_BEAT_OFFSET 20 0
  let used := if d.slewing then d.fld Reg.TIM_SLEW_MAX 8 0 else 0
  let room := (500 - used) * 833 / 500
  let cur := d.tim.ofs
  let next := if cur ≤ want then min want (cur + room) else max want (cur - room)
  { d with tim := { d.tim with ofs := next } }

/-- The beat number is reloaded from DT: RELOADED is set and BEAT_RELOADED raised (R19). -/
def Dev.reloadBeat (d : Dev) : Dev :=
  let d := { d with beat := d.dtBeat }
  let d := { d with fclk := (d.tim.dt - d.tim.ofs * nsUnit - ceilDiv (d.beat * beat3Unit) 3) / 512000000000 }
  (d.setFlag Reg.TIM_BEAT_STAT 2 true).raise Src.BEAT_RELOADED noDetail 0

/-- BEAT_OUT rises at the start of a beat (R20). -/
def Dev.beatRise (d : Dev) : Dev := { d with tim := { d.tim with beatOut := true } }.emit (.pin 6 1)

/-- Time passes to the next beat boundary, and the beat number advances by one; outside the live modes a new offset takes
effect, which reloads the number where it moves it. -/
def Dev.toBoundary (d : Dev) : Dev :=
  let d := d.advance d.fclkToBoundary
  let d := { d with beat := d.beat + 1, fclk := 0, evt := { d.evt with once := [] } }.beatRise
  if d.mode.live then d.slewOffset
  else
    let d := { d with tim := { d.tim with ofs := d.fld Reg.TIM_BEAT_OFFSET 20 0 } }
    if d.dtBeat = d.beat then d else d.reloadBeat

/-- TIM_BEAT_OFFSET_WRITE (R18): ignored on a member of a stack that is not its Rooster. -/
def timBeatOffsetWrite (v : Word) (d : Dev) : Dev :=
  let st := d.fld Reg.MUL_STATUS 21 19
  if st = 2 ∨ st = 4 ∨ st = 5 then d else d.writeReg Reg.TIM_BEAT_OFFSET v

/-- DT_LOAD (R264): DT takes M's time and the beat number is reloaded. -/
def dtLoad (d : Dev) : Dev :=
  if d.mode.live || decide (d.dtErr.natAbs ≤ d.stepThresh) then d
  else ({ d with tim := { d.tim with dt := (d.dom d.active).clock } }).reloadBeat.checkApart

/-! ### The servo and corrections (R260 to R263, R265) -/

/-- A quantity kept as a whole number: exact where it is whole, else rounded one way or the other (assumption 5). -/
def roundOpen (q : Rat) : Int := if q.den = 1 then q.num else q.floor + (if Config.roundsUp q then 1 else 0)

def domOfs (k : Nat) : Nat := 0x100 * k

/-- KP and KI: the preset's, or the expert shifts (Table 12.4). -/
def Dev.gains (d : Dev) (k : Nat) : Nat × Nat :=
  let preset := d.fld (Reg.TIM_DOM_CFG + domOfs k) 8 8
  let kp := d.fld (Reg.TIM_DOM_GAIN + domOfs k) 15 8
  let ki := d.fld (Reg.TIM_DOM_GAIN + domOfs k) 7 0
  (if kp = 0 then (if preset = 0 then 1 else 3) else kp, if ki = 0 then (if preset = 0 then 3 else 7) else ki)

/-- The span of a clock: 48 bits of seconds (R255). -/
def clockSpan : Nat := 2 ^ 48 * secUnit

/-- The clock is stepped by −θ (θ in clock units); it wraps within its 48 bits of seconds (assumption 82). -/
def Dev.stepClock (d : Dev) (k : Nat) (theta : Int) : Dev :=
  let t := d.dom k
  d.setDom k { t with clock := (((t.clock : Int) - theta) % (clockSpan : Int)).toNat }

/-- The servo on a sample within TIM_STEP_THRESH (R260). theta in 2^-16 ns, tau in clock units; i and adj in 1/256 ppb. -/
def Dev.servo (d : Dev) (k : Nat) (theta : Int) (tau : Nat) : Dev :=
  let t := d.dom k
  let i := t.integWr.getD t.integ
  let (kp, ki) := d.gains k
  let y : Rat := ((theta : Rat) * 3000000000000000000) / (max tau (nsUnit * 1000000) : Nat)
  let iNew := i + roundOpen (y / (2 ^ ki : Nat))
  let adj := -(roundOpen (y / (2 ^ kp : Nat)) + iNew)
  if 128000000 < adj.natAbs then
    (d.setDom k { t with adj := if 0 ≤ adj then 128000000 else -128000000, integ := i, integWr := none }).cnt
      Reg.TIM_CNT_LO 7 1
  else d.setDom k { t with adj := adj, integ := iNew, integWr := none }

/-- LOCK_NS met by 8 consecutive samples enters LOCKED from ACQUIRING; the first accepted sample returns a clock in
HOLDOVER to LOCKED (R261). -/
def Dev.countLock (d : Dev) (k : Nat) (theta : Int) : Dev :=
  let t := d.dom k
  let near := decide (theta.natAbs ≤ d.fld (Reg.TIM_DOM_HOLD + domOfs k) 15 0 * 65536)
  let good := if near then min 8 (t.good + 1) else 0
  let d := d.setDom k { t with good := good }
  if t.st = 2 ∧ good = 8 then d.setDomState k 3
  else if t.st = 4 then d.setDomState k 3
  else d

/-- A correction: a sample beyond TIM_STEP_THRESH (R261 to R263). One beyond TIM_JUMP_LIMIT of an ordinary domain is refused at the end of the
FCLK, and whether a step of M exchanges it is judged there, since an ACCEPT_JUMP or a SWITCH in the same FCLK goes first (Table 12.6). -/
def Dev.correction (d : Dev) (k : Nat) (theta : Int) : Dev :=
  let t := d.dom k
  let u := theta * smpUnit
  if 4 ≤ k then
    let d := (d.stepClock k u).cnt Reg.TIM_CNT_LO 1 1
    let d := d.setDom k { d.dom k with good := 0 }
    if k = d.active then { d with tim := { d.tim with stepped := true } } else d
  else if t.st = 2 then
    let d := (d.stepClock k u).cnt Reg.TIM_CNT_LO 1 1
    d.setDom k { d.dom k with good := 0 }
  else if u.natAbs ≤ d.jumpLimit then
    let d := (d.stepClock k u).cnt Reg.TIM_CNT_LO 1 1
    if t.st = 4 then d.setDomState k 3 else d
  else d.setDom k { t with refused := theta :: t.refused }

/-- The reference code of TIM_DOM_CFG.REF that a sample's source answers to. -/
def sampleRef (s : SampleSrc) : Nat :=
  match s with | .ptp => 1 | .pps => 2 | .mule => 3 | .host => 4

/-- TIM_DOM_SAMPLE (R260): a sample for a clock whose EN is 0, or from a source its REF does not name, is ignored. -/
def timDomSample (k : Nat) (src : SampleSrc) (theta : Int) (d : Dev) : Dev :=
  let cfg := d.reg (Reg.TIM_DOM_CFG + domOfs k)
  if 6 ≤ k ∨ bit cfg 31 = false ∨ bits cfg 30 28 ≠ sampleRef src then d
  else
    let t := d.dom k
    let tau := match t.last with | some l => d.tim.dt - l | none => 0
    let d := d.cnt Reg.TIM_CNT_LO 0 1
    let raw := toField 64 theta
    let d := d.setReg64 (Reg.TIM_DOM_LAST_LO + domOfs k) (Reg.TIM_DOM_LAST_HI + domOfs k) raw
    let d := d.setDom k { t with last := some d.tim.dt, st := if t.st < 2 then 2 else t.st }
    if (theta * smpUnit).natAbs ≤ d.stepThresh then (d.servo k theta tau).countLock k theta
    else d.correction k theta

/-- ACCEPT_JUMP or RESTART: the clock enters ACQUIRING, and takes the corrections of this FCLK under it (R261, R262). -/
def Dev.acquire (d : Dev) (k : Nat) : Dev :=
  if 6 ≤ k ∨ (d.dom k).st = 0 then d
  else
    let late := (d.dom k).refused
    let d := d.setDomState k 2
    foldDev late (fun theta d => (d.stepClock k (theta * smpUnit)).cnt Reg.TIM_CNT_LO 1 1) (d.setDom k { d.dom k with refused := [] })

def timAcceptJump (k : Nat) (v : Word) (d : Dev) : Dev := if bit v 31 then d.acquire k else d
def timRestart (k : Nat) (v : Word) (d : Dev) : Dev := if bit v 30 then d.acquire k else d

/-- CLOCK_HOLDOVER_TIMEOUT (R261): no sample for HOLD_S seconds of DT. -/
def clockHoldoverTimeout (k : Nat) (d : Dev) : Dev :=
  let t := d.dom k
  if 6 ≤ k then d
  else
    match t.last with
    | none => d
    | some l =>
      if t.st = 2 ∨ t.st = 3 then
        d.atDt (l + d.fld (Reg.TIM_DOM_HOLD + domOfs k) 23 16 * secUnit) fun d => d.setDomState k 4
      else d

/-- SYNTON_SECOND: with SYNTON the measured frequency error (1/256 ppb) replaces the integral term. -/
def syntonSecond (k : Nat) (err : Int) (d : Dev) : Dev :=
  let cfg := d.reg (Reg.TIM_DOM_CFG + domOfs k)
  if k < 6 ∧ bit cfg 31 ∧ bit cfg 9 then d.setDom k { d.dom k with integ := err } else d

/-! ### Captures and stamps (R256 to R259) -/

/-- Latch a clock value in a TIM_CAP register group. -/
def Dev.capture (d : Dev) (i v : Nat) : Dev :=
  let o := 16 * i
  let d := d.setReg (Reg.TIM_CAP_FRAC + o) (BitVec.ofNat 32 (v % nsUnit * 65536 / nsUnit))
  let d := d.setReg (Reg.TIM_CAP_NS + o) (BitVec.ofNat 32 (clkNs v))
  let d := d.setReg (Reg.TIM_CAP_SEC_LO + o) (BitVec.ofNat 32 (clkSec v))
  d.setReg (Reg.TIM_CAP_SEC_HI + o) (BitVec.ofNat 32 (clkSec v / 2 ^ 32 % 65536))

/-- All seven clocks as they stand in the FCLK after the write are latched, and CAPTURED is set (R256). -/
def Dev.captureAll (d : Dev) : Dev :=
  let after := d.advance 1
  let d := d.capture 0 after.tim.dt
  let d := foldDev (List.range 6) (fun k d => d.capture (k + 1) (after.dom k).clock) d
  d.setFlag Reg.TIM_STATUS 31 true

/-- A write of TIM_CTRL: its plain fields, then CAPTURE and SWITCH. -/
def timCtrlWrite (v : Word) (d : Dev) : Dev :=
  let d := d.setReg Reg.TIM_CTRL (v &&& 0x30000000)
  let d := if bit v 31 then d.captureAll else d
  let d := if bit v 30 then d.exchange else d
  d.checkApart

/-- The stamp of this FCLK in every clock. -/
def Dev.stampNow (d : Dev) : Stamp := ⟨d.tim.dt, d.tim.doms.map (·.clock)⟩

/-- Port mode: 0 400GBASE-R, 1 200GBASE-R, 2 100GBASE-R; and its rate in Gb/s. -/
def portMode (p : Nat) : Nat := min 2 (Config.portMode p)
def portRate (p : Nat) : Nat := match portMode p with | 0 => 400 | 1 => 200 | _ => 100

/-- Fixed latencies by port mode, in 250 ps (Table 12.3). -/
def rxLat (p : Nat) : Int := match portMode p with | 0 => 570 | 1 => 715 | _ => 945
def txLat (p : Nat) : Int := match portMode p with | 0 => 245 | 1 => 290 | _ => 355

/-- A raw stamp in a clock corrected to the medium, resolved to 250 ps (R257). -/
def corrected (v : Nat) (quarters : Int) : Nat :=
  (((v / (nsUnit / 4) : Nat) : Int) + quarters).toNat * (nsUnit / 4)

def Dev.rxStamp (d : Dev) (p : Nat) : Stamp :=
  let q := signed 16 (d.fld (Reg.TIM_PORT_CORR + 4 * p) 15 0) - rxLat p
  ⟨corrected d.tim.dt q, d.tim.doms.map (fun t => corrected t.clock q)⟩

def Dev.txStamp (d : Dev) (p : Nat) : Stamp :=
  let q := signed 16 (d.fld (Reg.TIM_PORT_CORR + 4 * p) 31 16) + txLat p
  ⟨corrected d.tim.dt q, d.tim.doms.map (fun t => corrected t.clock q)⟩

/-- The port's ring of the full stamps of its last 4,096 frame starts (R258). -/
def Dev.pushStamp (d : Dev) (p : Nat) (s : Stamp) : Dev :=
  { d with tim := { d.tim with rings := recSet d.tim.rings p ((s :: (tabFind d.tim.rings p).getD []).take 4096) } }

/-- PPS_IN_EDGE (R259): stamped in every clock at 250 ps; each clock that takes PPS_IN gets the edge's distance from its
nearest whole second as a sample. -/
def ppsInEdge (d : Dev) : Dev :=
  let st : Stamp := ⟨corrected d.tim.dt 0, d.tim.doms.map (fun t => corrected t.clock 0)⟩
  let d := { d with tim := { d.tim with ppsIn := some st } }
  foldDev (List.range 6) (fun k d =>
    let r := st.doms.getD k 0 % secUnit
    let u : Int := if 2 * r < secUnit then (r : Int) else (r : Int) - secUnit
    timDomSample k .pps (u / smpUnit) d) d

/-- The clock a TIM_PPS_CFG.SEL index names (Table 12.2). -/
def Dev.clockOf (d : Dev) (i : Nat) : Nat := if i = 0 then d.tim.dt else (d.dom (i - 1)).clock

/-- FCLK until a clock first stands at or past a whole second: none where this is the first FCLK of one. -/
def Dev.toSecond (d : Dev) (i : Nat) : Nat :=
  let v := d.clockOf i
  let inc := if i = 0 then (d.dom d.active).inc else (d.dom (i - 1)).inc
  let t := (v / secUnit + 1) * secUnit
  if v % secUnit < inc then 0 else if i = 0 then d.fclkTo t else ceilDiv (t - v) inc

/-- PPS_OUT rises at a whole second of the clock named, once, and stays high for WIDTH_US. -/
def Dev.ppsRise (d : Dev) : Dev :=
  let sec := d.clockOf (d.fld Reg.TIM_PPS_CFG 30 28) / secUnit
  if d.tim.ppsSec = some sec then d
  else
    ({ d with tim := { d.tim with ppsOut := some (d.now + d.fld Reg.TIM_PPS_CFG 19 0 * 1500), ppsSec := some sec } }).emit (.pin 5 1)

/-- PPS_OUT_EDGE (R259): time comes to the next whole second of the clock named, where that lies within the beat. -/
def ppsOutEdge (d : Dev) : Dev :=
  if d.flag Reg.TIM_PPS_CFG 31 then
    let n := d.toSecond (d.fld Reg.TIM_PPS_CFG 30 28)
    if n = 0 then d.ppsRise else if n < d.fclkToBoundary then (d.advance n).ppsRise else d
  else d

/-! ### Gate lists (R269 to R271) -/

def Dev.gate (d : Dev) (p : Nat) : Gate := (tabFind d.tim.gates p).getD {}
def Dev.setGate (d : Dev) (p : Nat) (g : Gate) : Dev := { d with tim := { d.tim with gates := recSet d.tim.gates p g } }

def gatePort (p : Nat) : Nat := 0x100 * p

/-- Index of a gate entry: port, physical bank and entry. -/
def gateIdx (bank i : Nat) : Nat := bank * 1024 + i

/-- The segments of one cycle of a list: gate states and lengths in ns, cut at the cycle or its last extended to it. -/
def gateSegs (es : List (Nat × Nat)) (cycle : Nat) : List (Nat × Nat) :=
  match es with
  | [] => []
  | [(g, _)] => [(g, cycle)]
  | (g, iv) :: rest => if cycle ≤ iv then [(g, cycle)] else (g, iv) :: gateSegs rest (cycle - iv)

def Dev.gateList (d : Dev) (p bank len : Nat) : List (Nat × Nat) :=
  (List.range len).map (fun i =>
    let e := d.ent .gat p (gateIdx bank i)
    (e.f 0 7 0, e.f 1 29 0))

/-- Segments of the operational list, and of the pending one. -/
def Dev.operSegs (d : Dev) (p : Nat) : List (Nat × Nat) :=
  let g := d.gate p
  gateSegs (d.gateList p g.bank g.len) g.cycle

def Dev.pendSegs (d : Dev) (p : Nat) : List (Nat × Nat) :=
  let g := d.gate p
  gateSegs (d.gateList p (1 - g.bank) g.pendLen) g.pendCycle

/-- The segment at offset ns of a cycle: its index, its gates, and ns to its end. -/
def segAt (segs : List (Nat × Nat)) (ofs k : Nat) : Nat × Nat × Nat :=
  match segs with
  | [] => (k, 255, 0)
  | (g, n) :: rest => if ofs < n ∨ rest.isEmpty then (k, g, n - ofs) else segAt rest (ofs - n) (k + 1)

/-- ns from offset ofs until class c is closed, walking at most two cycles; none: it never closes. -/
def closeIn (segs : List (Nat × Nat)) (c : Nat) (ofs : Nat) : Option Nat :=
  let two := segs ++ segs
  let rec go : List (Nat × Nat) → Nat → Nat → Option Nat
    | [], _, _ => none
    | (g, n) :: rest, skip, acc =>
      if n ≤ skip then go rest (skip - n) acc
      else if g.testBit c then go rest 0 (acc + (n - skip)) else some acc
  go two ofs 0

/-- The whole window W_c (R271): the longest run of open time of c in the cycle, runs that meet at the cycle's end
joined; none: unbounded. -/
def wholeWindow (segs : List (Nat × Nat)) (c : Nat) : Option Nat :=
  if segs.all (fun s => s.1.testBit c) then none
  else
    let step := fun (a : Nat × Nat) (s : Nat × Nat) =>
      if s.1.testBit c then (a.1 + s.2, max a.2 (a.1 + s.2)) else (0, a.2)
    some ((segs ++ segs).foldl step (0, 0)).2

/-- Gate states of a port at DT: GAT_ADMIN while EN = 0; all open while no list is operational. -/
def Dev.gatesNow (d : Dev) (p : Nat) : Nat × Nat :=
  let g := d.gate p
  if !d.flag (Reg.GAT_CTRL + gatePort p) 31 then (0, d.fld (Reg.GAT_ADMIN + gatePort p) 7 0)
  else
    match g.start with
    | none => (0, 255)
    | some st =>
      let seg := segAt (d.operSegs p) ((d.tim.dt - st) / nsUnit % max 1 g.cycle) 0
      (seg.1, seg.2.1)

/-- W_c of a port's operational list. -/
def Dev.window (d : Dev) (p c : Nat) : Option Nat :=
  if !d.flag (Reg.GAT_CTRL + gatePort p) 31 then
    if (d.fld (Reg.GAT_ADMIN + gatePort p) 7 0).testBit c then none else some 0
  else if (d.gate p).start.isNone then none else wholeWindow (d.operSegs p) c

/-- Clock units until the gate of class c next closes, by the operational list and, where it starts sooner, the pending list
(R271); some 0: closed now; none: it does not close. -/
def Dev.closing (d : Dev) (p c : Nat) : Option Nat :=
  let g := d.gate p
  if !d.flag (Reg.GAT_CTRL + gatePort p) 31 then
    if (d.fld (Reg.GAT_ADMIN + gatePort p) 7 0).testBit c then none else some 0
  else
    let oper :=
      match g.start with
      | none => none
      | some st => (closeIn (d.operSegs p) c ((d.tim.dt - st) / nsUnit % max 1 g.cycle)).map (fun n => n * nsUnit - (d.tim.dt - st) % nsUnit)
    match g.pendStart with
    | none => oper
    | some ps =>
      let till := ps - d.tim.dt
      let sooner := match oper with | none => true | some o => decide (till < o)
      if sooner then (closeIn (d.pendSegs p) c 0).map (fun n => till + n * nsUnit) else oper

/-- Place a time (clock units) in the three GAT_START registers. -/
def Dev.putStart (d : Dev) (p : Nat) (v : Nat) : Dev :=
  let o := gatePort p
  let d := d.setReg (Reg.GAT_START_NS + o) (BitVec.ofNat 32 (clkNs v))
  let d := d.setReg (Reg.GAT_START_SEC_LO + o) (BitVec.ofNat 32 (clkSec v))
  d.setReg (Reg.GAT_START_SEC_HI + o) (BitVec.ofNat 32 (clkSec v / 2 ^ 32 % 65536))

/-- W_c registers of the operational list. -/
def Dev.putWindows (d : Dev) (p : Nat) : Dev :=
  foldDev (List.range 8) (fun c d =>
    let w := if (d.gate p).start.isNone then none else wholeWindow (d.operSegs p) c
    d.setReg (Reg.GAT_MAXOPEN + gatePort p + 4 * c) (BitVec.ofNat 32 (w.getD 0x3FFFFFFF))) d

/-- Fields of GAT_CTRL that a write of it changes beside COMMIT and CANCEL. -/
def gatCtrlFields : List RegField := [rw 31 31, w1c 27 27, w1c 26 26, ro 28 28, rw 10 0 [(1, 1024)]]

/-- GATE_COMMIT (R270): start := base if base ≥ DT + 1 µs, else base + N × cycle with the least such N. -/
def gateCommit (p : Nat) (v : Word) (d : Dev) : Dev :=
  if 8 ≤ p then d
  else
    let o := gatePort p
    let d := d.setReg (Reg.GAT_CTRL + o)
      (writeFields gatCtrlFields (d.reg (Reg.GAT_CTRL + o)) (d.clearMask (Reg.GAT_CTRL + o) gatCtrlFields v))
    if !bit v 30 then d
    else if d.flag (Reg.GAT_CTRL + o) 28 then d.hwSet (Reg.GAT_CTRL + o) 26
    else
      let cycle := d.fld (Reg.GAT_CYCLE + o) 29 0
      let sec := (d.reg (Reg.GAT_BASE_SEC_LO + o)).toNat + 2 ^ 32 * d.fld (Reg.GAT_BASE_SEC_HI + o) 15 0
      let base := (sec * 1000000000 + (d.reg (Reg.GAT_BASE_NS + o)).toNat) * nsUnit
      let least := d.tim.dt + 1000 * nsUnit
      let past := decide (base < least)
      let start := if past then base + ceilDiv (least - base) (cycle * nsUnit) * (cycle * nsUnit) else base
      let g := d.gate p
      let d := d.setGate p { g with pendLen := d.fld (Reg.GAT_CTRL + o) 10 0, pendCycle := cycle, pendStart := some start }
      let d := (d.setFlag (Reg.GAT_CTRL + o) 28 true).putStart p start
      if past then (d.hwSet (Reg.GAT_CTRL + o) 27).raise Src.GATE_BASE_PAST p else d

/-- GATE_CANCEL (R270): a pending list is withdrawn before its start FCLK. -/
def gateCancel (p : Nat) (v : Word) (d : Dev) : Dev :=
  if 8 ≤ p then d
  else
    let o := gatePort p
    let d := d.setReg (Reg.GAT_CTRL + o)
      (writeFields gatCtrlFields (d.reg (Reg.GAT_CTRL + o)) (d.clearMask (Reg.GAT_CTRL + o) gatCtrlFields v))
    let g := d.gate p
    match g.pendStart with
    | none => d
    | some ps =>
      if bit v 29 && decide (d.tim.dt < ps) then
        let d := (d.setGate p { g with pendStart := none }).setFlag (Reg.GAT_CTRL + o) 28 false
        d.putStart p (g.start.getD 0)
      else d

/-- GATE_LIST_START (R270): the pending list becomes operational, and the old list goes to the shadow bank. -/
def gateListStart (p : Nat) (d : Dev) : Dev :=
  match (d.gate p).pendStart with
  | none => d
  | some ps =>
    d.atDt ps fun d =>
      let g := d.gate p
      let d := d.setGate p { bank := 1 - g.bank, len := g.pendLen, cycle := g.pendCycle, start := some ps, cur := 0 }
      ((d.setFlag (Reg.GAT_CTRL + gatePort p) 28 false).putStart p ps).putWindows p

/-- GATE_ENTRY_CHANGE (R269): time reaches the end of the current interval and the next entry's states apply. -/
def gateEntryChange (p : Nat) (d : Dev) : Dev :=
  let g := d.gate p
  match g.start with
  | none => d
  | some st =>
    let ofs := (d.tim.dt - st) / nsUnit
    let left := (segAt (d.operSegs p) (ofs % max 1 g.cycle) 0).2.2
    d.atDt (st + (ofs + left) * nsUnit) fun d => d.setGate p { g with cur := (d.gatesNow p).1 }

end Sys2Proof.Machine
end

