-- ==== Sys2Proof/Machine/Mule.lean ====
section
/-! DEFINITION. Mule links: paths, frames out with credit and tunnels, and the directory entry of a spread flock (R312 to R316,
R320 to R322, Table 15.9). -/

namespace Sys2Proof.Machine
open Sys2Proof

def mulOfs (k : Nat) : Nat := 0x100 * k
def Dev.mulCount (d : Dev) (c n : Nat) : Dev := d.cnt Reg.MUL_CNT_LO c n

/-! ### The stack -/

def Dev.devId (d : Dev) : Nat := d.fld Reg.MUL_STATUS 31 29
def Dev.roosterId (d : Dev) : Nat := d.fld Reg.MUL_STATUS 28 26
def Dev.standbyId (d : Dev) : Nat := d.fld Reg.MUL_STATUS 25 23
def Dev.mulState (d : Dev) : Nat := d.fld Reg.MUL_STATUS 21 19
def Dev.setMulState (d : Dev) (st : Nat) : Dev := d.setFld Reg.MUL_STATUS 21 19 st
def Dev.reaches (d : Dev) (m : Nat) : Bool := (d.fld Reg.MUL_STATUS 7 0).testBit m
def Dev.isRooster (d : Dev) : Bool := d.mulState == 3
/-- A MEMBER, the ROOSTER or the STANDBY. -/
def Dev.inStack (d : Dev) : Bool := let s := d.mulState; s == 2 || s == 3 || s == 4

/-- The other devices, in ascending order of id. -/
def Dev.others (d : Dev) : List Nat := sortBy (fun a b => decide (a ≤ b)) (d.mul.peers.map (·.1))
/-- Ids from the next higher one on, round to the next lower (the ring's rising order). -/
def Dev.rising (d : Dev) : List Nat := d.others.filter (fun x => decide (d.devId < x)) ++ d.others.filter (fun x => decide (x < d.devId))
def Dev.mesh (d : Dev) : Bool := d.flag Reg.MUL_CFG 31

def Dev.linkSt (d : Dev) (k : Nat) : Nat := d.fld (Reg.MUL_LINK_STAT + mulOfs k) 31 30
def Dev.setLinkSt (d : Dev) (k st : Nat) : Dev := d.setFld (Reg.MUL_LINK_STAT + mulOfs k) 31 30 st
/-- A link that is enabled and UP or DEGRADED. -/
def Dev.linkOk (d : Dev) (k : Nat) : Bool := decide (k < 4) && d.flag (Reg.MUL_LINK_CFG + mulOfs k) 31 && decide (2 ≤ d.linkSt k)
def Dev.tunnel (d : Dev) (k : Nat) : Bool := d.flag (Reg.MUL_LINK_CFG + mulOfs k) 30
def Dev.mulLink (d : Dev) (k : Nat) : MulLink := tabGet (fun _ => {}) d.mul.links k
def Dev.setMulLink (d : Dev) (k : Nat) (v : MulLink) : Dev :=
  { d with mul := { d.mul with links := tabSet (fun _ => {}) d.mul.links k v } }

/-- The links that lead to a device, in order of preference (R313): in a ring the path with fewer hops, the rising one on a tie. -/
def Dev.linksTo (d : Dev) (dst : Nat) : List Nat :=
  if d.mesh then (match d.others.findIdx? (· == dst) with | some k => [k] | none => [])
  else
    match d.rising.findIdx? (· == dst) with
    | none => []
    | some k => if 2 * (k + 1) ≤ d.others.length + 1 then [0, 1, 2, 3] else [2, 3, 0, 1]

def Dev.linkTo (d : Dev) (dst : Nat) : Option Nat := (d.linksTo dst).find? (fun k => d.linkOk k)

/-- Device at the far end of a link. -/
def Dev.peerOf (d : Dev) (k : Nat) : Option Nat :=
  if d.mesh then d.others[k]? else if k < 2 then d.rising.head? else d.rising.getLast?

/-! ### Frames out -/

/-- One byte of CRC-32 of IEEE 802.3, least significant bit first. -/
def crc32Bits : Nat → Nat → Nat
  | 0, c => c
  | n + 1, c => crc32Bits n (if c % 2 = 1 then (c / 2) ^^^ 0xEDB88320 else c / 2)

def crc32 (bs : List Byte) : Nat := (bs.foldl (fun c b => crc32Bits 8 (c ^^^ b.toNat)) 0xFFFFFFFF) ^^^ 0xFFFFFFFF

/-- The header of Table 15.2, the payload and the CRC. -/
def muleWire (kind : Nat) (f : MuleFrame) : List Byte :=
  let bs : List Byte := [BitVec.ofNat 8 (0x10 + kind), BitVec.ofNat 8 (f.cls * 64 + f.src * 8 + f.dst),
    BitVec.ofNat 8 (f.bcast.toNat * 128 + f.hops * 16), 0] ++
    toBe 2 f.payload.length ++ toBe 2 f.flock ++ toBe 2 f.brood ++ toBe 2 f.seqn ++ toBe 4 f.beat ++ f.payload
  bs ++ toBe 4 (crc32 bs)

/-- 256-byte cells a frame takes, with its header and CRC. -/
def muleCells (f : MuleFrame) : Nat := ceilDiv (f.payload.length + 20) 256

def muleMedia : Nat := 1
def mulePartial : Nat := 2
def muleTalkers : Nat := 3
def muleDemand : Nat := 4
def muleTime : Nat := 5
def muleHeartbeat : Nat := 6
def muleDirectory : Nat := 7
def muleCredit : Nat := 8
def muleTunNak : Nat := 9

/-- A frame with its number leaves a tunnel's port in class CLASS of the tunnel entry, with a launch time where LAUNCH_EN is set
(the time itself is open). -/
def Dev.tunnelOut (d : Dev) (k kind : Nat) (f : MuleFrame) : Dev :=
  let e := d.ent .mul 1 k
  let p := d.fld (Reg.MUL_LINK_CFG + mulOfs k) 26 24
  let bytes := Config.tunnelHeaders k e ++ muleWire kind f
  let (t, d) := d.drawBelow 1000000000
  let port := tabGet (fun _ => {}) d.egs.ports p
  let fr : EgFrame := { cls := e.f 5 30 28, len := bytes.length, bytes := bytes, launch := if e.b 5 27 then some t else none }
  { d with egs := { d.egs with ports := tabSet (fun _ => {}) d.egs.ports p { port with raw := port.raw ++ [fr] } } }

/-- Beats that a tunnel's frames are kept: AGE of TUN_HIST_MS (R128); 100 ms where nothing was written. -/
def Dev.tunHist (d : Dev) (k : Nat) : Nat :=
  let ms := (d.ent .mul 1 k).f 5 15 0
  ceilDiv ((if ms = 0 then 100 else ms) * 6) 10

/-- A frame goes onto a link: numbered (CTL frames are outside the numbering, since they are never asked for again), kept where
the link is a tunnel, and held back on a direct link until its class has credit. -/
def Dev.muleOut (d : Dev) (k kind : Nat) (f : MuleFrame) : Dev :=
  if !d.linkOk k then d
  else
    let l := d.mulLink k
    let f := if f.cls = 0 then f else { f with seqn := l.outSeq }
    let l := if f.cls = 0 then l else { l with outSeq := (l.outSeq + 1) % 65536 }
    if d.tunnel k then
      let hist := (l.hist.filter (fun h => decide (d.beat ≤ h.2.2.1 + d.tunHist k))) ++ (if f.cls = 0 then [] else [(f.seqn, kind, d.beat, f)])
      (d.setMulLink k { l with hist := hist }).tunnelOut k kind f
    else
      let used := (tabFind l.used f.cls).getD 0
      if l.wait.any (fun w => w.2.cls == f.cls) ∨ 1024 < used + muleCells f then d.setMulLink k { l with wait := l.wait ++ [(kind, f)] }
      else (d.setMulLink k { l with used := recSet l.used f.cls (used + muleCells f) }).emit (.mule k kind f)

/-- Credit has come: frames that waited leave in order. -/
def Dev.muleDrain (d : Dev) (k : Nat) : Nat → Dev
  | 0 => d
  | n + 1 =>
    let l := d.mulLink k
    match l.wait.find? (fun w => decide ((tabFind l.used w.2.cls).getD 0 + muleCells w.2 ≤ 1024)) with
    | none => d
    | some w =>
      let d := d.setMulLink k { l with wait := l.wait.erase w, used := recSet l.used w.2.cls ((tabFind l.used w.2.cls).getD 0 + muleCells w.2) }
      Dev.muleDrain (d.emit (.mule k w.1 w.2)) k n

/-- Cells freed at this end go back to the peer, unless an output of kind MULE withholds the class. -/
def Dev.giveCredit (d : Dev) (k cls cells : Nat) : Dev :=
  let l := d.mulLink k
  if d.tunnel k then d
  else if l.withheld.contains cls then d.setMulLink k { l with owed := recSet l.owed cls ((tabFind l.owed cls).getD 0 + cells) }
  else d.emit (.mule k muleCredit { src := d.devId, dst := (d.peerOf k).getD 0, beat := d.beat % 2 ^ 32, payload := Config.muleBytes muleCredit [cls, cells] })

/-- A flow-control output of kind MULE withholds or returns credit (R133). -/
def Dev.withhold (d : Dev) (k cls : Nat) (on : Bool) : Dev :=
  let l := d.mulLink k
  let d := d.emit (.muleCredit k cls on)
  if on then d.setMulLink k { l with withheld := cls :: l.withheld.erase cls }
  else
    let n := (tabFind l.owed cls).getD 0
    let d := d.setMulLink k { l with withheld := l.withheld.erase cls, owed := tabErase l.owed cls }
    if n = 0 then d else d.giveCredit k cls n

/-- A frame of this device to one other. -/
def Dev.muleTo (d : Dev) (dst kind cls flock brood beat : Nat) (payload : List Byte) : Dev :=
  match d.linkTo dst with
  | none => d
  | some k => d.muleOut k kind { cls := cls, src := d.devId, dst := dst, flock := flock, brood := brood, beat := beat % 2 ^ 32, payload := payload }

/-- A frame of this device to every other: in a mesh on every link, in a ring both ways (the falling way only where some device lies
nearer that way, but a heartbeat over every path). Where one way of a ring is closed, each device is sent a frame of its own the
other way (assumption 70). -/
def Dev.muleAll (d : Dev) (kind cls flock brood beat : Nat) (payload : List Byte) : Dev :=
  let f : MuleFrame := { cls := cls, src := d.devId, bcast := true, flock := flock, brood := brood, beat := beat % 2 ^ 32, payload := payload }
  let ups := ([0, 1].find? (fun k => d.linkOk k)).toList
  let downs := ([2, 3].find? (fun k => d.linkOk k)).toList
  if d.mesh then foldDev (List.range d.others.length) (fun k d => d.muleOut k kind f) d
  else if kind = muleHeartbeat then foldDev (ups ++ downs) (fun k d => d.muleOut k kind f) d
  else if ups.isEmpty ∨ downs.isEmpty = true then foldDev d.others (fun m d => d.muleTo m kind cls flock brood beat payload) d
  else foldDev (ups ++ if d.others.length < 2 then [] else downs) (fun k d => d.muleOut k kind f) d

/-! ### Directory entries (Table 15.9) -/

def dirIdx (home flock : Nat) : Nat := home * 4096 + flock
def dirSpread (e : Entry) : Nat := e.f 0 30 29
def dirHome (e : Entry) : Nat := e.f 0 28 26
def dirMember (e : Entry) (m : Nat) : Bool := (e.f 0 25 18).testBit m
def dirFlock (e : Entry) (m : Nat) : Nat := e.f (1 + m / 2) (16 * (m % 2) + 11) (16 * (m % 2))
def dirBrood (e : Entry) : Nat := e.f 5 15 0

/-- The entry in force that spreads a flock of this device (WIDEN or DEEPEN). -/
def Dev.wide (d : Dev) (f : Nat) : Option Entry :=
  if !d.inStack then none
  else (d.mul.applied.find? (fun p => p.2.b 0 31 && (dirSpread p.2 == 1 || dirSpread p.2 == 2) && dirMember p.2 d.devId &&
    dirFlock p.2 d.devId == f)).map (·.2)

/-- Other members of an entry. -/
def Dev.wideOthers (d : Dev) (e : Entry) : List Nat := (List.range 8).filter (fun m => dirMember e m && m != d.devId)

/-- Neighbours of this device in the chain of a deepened flock's members: before (side 0) and after it (side 1). -/
def Dev.chain (d : Dev) (e : Entry) (side : Nat) : Option Nat :=
  if side = 0 then ((d.wideOthers e).filter (fun m => decide (m < d.devId))).getLast?
  else ((d.wideOthers e).filter (fun m => decide (d.devId < m))).head?

/-- Devices whose PARTIAL the final mix waits for (R322). -/
def Dev.partFrom (d : Dev) (e : Entry) : List Nat :=
  if dirSpread e = 2 then ((d.chain e 0).toList ++ (d.chain e 1).toList) else d.wideOthers e

/-- Link whose association is a brood's source leg: the brood is relayed (R320). -/
def Dev.relayLink (d : Dev) (leg : Nat) : Option Nat :=
  if d.inStack then (List.range 4).find? (fun k => d.linkOk k && decide ((Config.linkLeg k).toNat = leg)) else none

end Sys2Proof.Machine
end

