-- ==== Sys2Proof/Machine/Queues.lean ====
section
/-! DEFINITION. The queue manager (chapter 6): payload cells and references, enqueue with allowances and precedence, the
operations of Table 6.3, history ageing, watermarks and flow-control outputs, and QUE_CMD and QUE_TAB. -/

namespace Sys2Proof.Machine
open Sys2Proof

/-- Counters of QUE_CNT (R135). -/
def Dev.queCount (d : Dev) (c n : Nat) : Dev := d.cnt Reg.QUE_CNT_LO c n

def burstCells : Nat := 196608
/-- DRAM cells of a spill segment: 2 KiB of 256-byte cells. -/
def segCells : Nat := 8

/-! ### Groups (R123, R134) -/

/-- The group that owns a queue id. -/
def Dev.groupOf (d : Dev) (q : Nat) : Option Nat :=
  (List.range 64).find? (fun g =>
    let e := d.group g
    decide (e.f 0 17 0 ≤ q) && decide (q < e.f 0 17 0 + e.f 1 18 0))

def Dev.groupKind (d : Dev) (g : Nat) : Nat := (d.group g).f 5 31 28

/-- Kind of a queue's group (Table 6.1): 0 GENERAL, 1 HISTORY, 2 JITTER, 3 EGRESS, 4 HOST, 5 TAP_INJECT; none: no group. -/
def Dev.queueKind (d : Dev) (q : Nat) : Option Nat := (d.groupOf q).map (fun g => d.groupKind g)

def retaining (kind : Nat) : Bool := kind == 1 || kind == 2

/-! ### Queues and payloads -/

def Dev.queue (d : Dev) (q : Nat) : Queue := (tabFind d.que.queues q).getD {}

def Dev.setQueue (d : Dev) (q : Nat) (v : Queue) : Dev :=
  { d with que := { d.que with queues := tabSet (fun _ => {}) d.que.queues q v } }

def Dev.payload (d : Dev) (u : Nat) : Option Payload := tabFind d.que.payloads u

/-- Free cells of the burst store. -/
def Dev.burstFree (d : Dev) : Nat :=
  burstCells - (d.que.payloads.map (fun p => if p.2.dram then 0 else p.2.cells)).sum

/-- Spill segments a queue holds: for a retaining kind the chain holds every item; else the middle of a spilled queue. -/
def queueSegs (retain : Bool) (q : Queue) : Nat :=
  if retain then ceilDiv q.items.length 64 else if q.spilled then ceilDiv (q.items.length - 8) 64 else 0

/-- Free DRAM cells of the spill pool and of the history pool (R121). -/
def Dev.spillFree (d : Dev) : Nat :=
  d.que.spillPool -
    ((d.que.payloads.map (fun p => if p.2.dram && !p.2.history then p.2.cells else 0)).sum +
     (d.que.queues.map (fun p => segCells * queueSegs (retaining ((d.queueKind p.1).getD 0)) p.2)).sum)

def Dev.histFree (d : Dev) : Nat :=
  d.que.histPool - (d.que.payloads.map (fun p => if p.2.dram && p.2.history then p.2.cells else 0)).sum

/-- Cells for a payload of n bytes: 256 bytes each, at least one. -/
def cellsFor (n : Nat) : Nat := max 1 (ceilDiv n 256)

/-! ### Rings (R364, R368): windows 0 to 15 punt, 16 to 31 inject, 32 completion -/

def ringOfs (ring : Nat) : Nat := 0x40 * ring
def Dev.ringAddr (d : Dev) (ring : Nat) : Nat := d.reg64 (Reg.RING_BASE_LO + ringOfs ring) (Reg.RING_BASE_HI + ringOfs ring)
def Dev.ringOn (d : Dev) (ring : Nat) : Bool := d.flag (Reg.RING_CFG + ringOfs ring) 31 && d.flag Reg.PCI_STATUS 31
def Dev.ringSize (d : Dev) (ring : Nat) : Nat := 2 ^ d.fld (Reg.RING_CFG + ringOfs ring) 20 16
def Dev.ringHead (d : Dev) (ring : Nat) : Nat := d.fld (Reg.RING_HEAD + ringOfs ring) 15 0 % d.ringSize ring
def Dev.ringRec (d : Dev) (ring : Nat) : Ring := tabGet (fun _ => {}) d.pci.rings ring
def Dev.setRing (d : Dev) (ring : Nat) (r : Ring) : Dev := { d with pci := { d.pci with rings := tabSet (fun _ => {}) d.pci.rings ring r } }

/-- TAIL as it stood at the start of the FCLK (R364). -/
def Dev.ringTail (d : Dev) (ring : Nat) : Nat :=
  match (d.ringRec ring).bell with
  | some (t, old) => if t = d.now then old else d.fld (Reg.RING_TAIL + ringOfs ring) 15 0
  | none => d.fld (Reg.RING_TAIL + ringOfs ring) 15 0

/-- A doorbell. -/
def ringDoorbell (ring tail : Nat) (d : Dev) : Dev :=
  (d.setRing ring { d.ringRec ring with bell := some (d.now, d.ringTail ring) }).setFld (Reg.RING_TAIL + ringOfs ring) 15 0 tail

/-- Descriptors from HEAD to TAIL. -/
def Dev.ringPosted (d : Dev) (ring : Nat) : Nat :=
  let n := d.ringSize ring
  (d.ringTail ring % n + n - d.ringHead ring) % n

/-- Address of the descriptor k after HEAD. -/
def Dev.ringSlot (d : Dev) (ring k : Nat) : Nat := d.ringAddr ring + 32 * ((d.ringHead ring + k) % d.ringSize ring)

def Dev.hostWrite (d : Dev) (addr : Nat) (bs : List Byte) : Dev :=
  { d with pci := { d.pci with writes := d.pci.writes ++ [(addr, bs)] } }

/-- A ring's message: what has been completed is signalled. -/
def Dev.ringSignal (d : Dev) (ring : Nat) : Dev :=
  let irq := Reg.RING_IRQ + ringOfs ring
  let d := d.setRing ring { d.ringRec ring with since := 0, firstAt := none }
  if d.flag irq 31 then d.message (d.fld irq 29 24) else d

/-- n descriptors have been completed: HEAD advances, and moderation counts them one by one (R368). -/
def Dev.ringDone (d : Dev) (ring n : Nat) : Dev :=
  let irq := Reg.RING_IRQ + ringOfs ring
  let d := d.setReg (Reg.RING_HEAD + ringOfs ring) (BitVec.ofNat 32 ((d.ringHead ring + n) % d.ringSize ring))
  foldDev (List.range n) (fun _ d =>
    let r := d.ringRec ring
    if d.fld irq 15 0 ≤ r.since + 1 ∨ d.fld irq 23 16 = 0 then d.ringSignal ring
    else d.setRing ring { r with since := r.since + 1, firstAt := some (r.firstAt.getD d.now) }) d

/-- HEAD of an inject ring comes to its oldest item in progress, or to the next one to take. -/
def Dev.ringAdvance (d : Dev) (ring : Nat) : Dev :=
  let size := d.ringSize ring
  let head := d.ringHead ring
  let n := match d.pci.inFlight.find? (fun x => x.ring == ring) with
    | some x => (x.first + size - head) % size
    | none => (d.ringRec ring).taken
  if n = 0 then d else (d.setRing ring { d.ringRec ring with taken := (d.ringRec ring).taken - n }).ringDone ring n

/-- Descriptors of an inject item: OWN cleared, STATUS and STAMP written back (Table 17.2). -/
def Dev.putStatus (d : Dev) (ring first : Nat) (flags : List Byte) (status stamp : Nat) : Dev :=
  let d := d.cnt Reg.PCI_CNT_LO (if status = 0 then 2 else 3) 1
  foldDev flags.zipIdx (fun x d =>
    let a := d.ringAddr ring + 32 * ((first + x.2) % d.ringSize ring)
    ((d.hostWrite (a + 11) [x.1 &&& 0x7F]).hostWrite (a + 15) (toLe 1 status)).hostWrite (a + 20) (toLe 4 stamp)) d

/-- An injected item has left, or is dropped: it is written back. -/
def Dev.writeBack (d : Dev) (uid status stamp : Nat) : Dev :=
  match d.pci.inFlight.find? (fun x => x.uid == uid) with
  | none => d
  | some x =>
    let d := { d with pci := { d.pci with inFlight := d.pci.inFlight.filter (fun y => y.uid != uid) } }
    (d.putStatus x.ring x.first x.flags status stamp).ringAdvance x.ring

/-- The first cell from k on, in a store of n, that is none of those in use. -/
def pickFree (used : List Nat) (n : Nat) : Nat → Nat → Nat
  | k, 0 => k % n
  | k, fuel + 1 => if used.contains (k % n) then pickFree used n (k + 1) fuel else k % n

/-- DRAM cells that a first-cell index can name. -/
def dramCells : Nat := 2 ^ 31

/-- A first cell for a payload in the burst store, or in DRAM: which of the free ones is left open. -/
def Dev.takeCell (d : Dev) (dram : Bool) : Nat × Dev :=
  let n := if dram then dramCells else burstCells
  let used := (d.que.payloads.filter (fun p => p.2.dram == dram)).map (·.2.cell)
  let (k, d) := d.drawBelow n
  (pickFree used n k used.length, d)

/-- Take burst-store cells for a payload of the given length; answers its id. Its reference count is 1, for the item. -/
def Dev.newPayload (d : Dev) (bytes : List Byte) (len : Nat) : Nat × Dev :=
  let u := d.que.nextUid
  let (c, d) := d.takeCell false
  (u, { d with que := { d.que with
    payloads := recSet d.que.payloads u { cells := cellsFor len, cell := c, refs := 1, bytes := bytes }, nextUid := u + 1 } })

/-- One more reference to a payload's cells. -/
def Dev.refPayload (d : Dev) (u : Nat) : Dev :=
  { d with que := { d.que with payloads := recMod d.que.payloads u (fun p => { p with refs := p.refs + 1 }) } }

/-- One reference less; at zero the cells return to their pool (R125), and an injected item not sent is DROPPED. -/
def Dev.derefPayload (d : Dev) (u : Nat) : Dev :=
  match d.payload u with
  | none => d
  | some p =>
    if p.refs ≤ 1 then { d.writeBack u 3 0 with que := { d.que with payloads := tabErase d.que.payloads u } }
    else { d with que := { d.que with payloads := recSet d.que.payloads u { p with refs := p.refs - 1 } } }

/-- auth_state of an item: that of its packet, as it stands now. -/
def Dev.itemAuth (d : Dev) (it : Item) : Nat := ((d.payload it.uid).map (·.auth)).getD (it.desc.f 0 27 26)

/-- The descriptor as read: AUTH_STATE as it stands at the moment of the read (R113), LOC and CELL those of the payload's cells, which a
REF names too (R125). -/
def Dev.descOf (d : Dev) (it : Item) : Entry :=
  let e := it.desc.setF 0 27 26 (d.itemAuth it)
  match d.payload it.uid with
  | some p => e.put 1 (BitVec.ofNat 32 (p.dram.toNat * 2 ^ 31 + p.cell))
  | none => e

def Dev.setAuth (d : Dev) (u a : Nat) : Dev :=
  { d with que := { d.que with payloads := recMod d.que.payloads u (fun p => { p with auth := a }) } }

def Dev.setPayloadBytes (d : Dev) (u : Nat) (bs : List Byte) : Dev :=
  { d with que := { d.que with payloads := recMod d.que.payloads u (fun p => { p with bytes := bs }) } }

/-! ### Releases -/

/-- A group's occupancy has changed: its flag is judged at the end of the FCLK (R133). -/
def Dev.touchGroup (d : Dev) (g : Nat) : Dev :=
  if d.que.touched.contains g then d else { d with que := { d.que with touched := d.que.touched ++ [g] } }

def Dev.touchQueue (d : Dev) (q : Nat) : Dev := match d.groupOf q with | some g => d.touchGroup g | none => d

/-- SPILLED until the middle is empty again (R120). -/
def respill (q : Queue) : Queue :=
  { q with spilled := if q.items.length ≤ 8 then false else q.spilled }

/-- Release the k oldest items; unread ones among them are counted where asked (R126). The group's flag is judged by the caller. -/
def Dev.releaseItems (d : Dev) (qid k : Nat) (countUnread : Bool) : Dev :=
  let q := d.queue qid
  let k := min k q.items.length
  let gone := q.items.take k
  let rel := q.release + k
  let unread := rel - max q.read q.release
  let q' := respill { q with items := q.items.drop k, release := rel, mark := max q.mark rel, read := max q.read rel }
  let q' := { q' with seqAtMark := if q.mark < rel then ((q'.items.head?).map (fun i => i.md.seq)).getD q.seqAtMark
                                   else q.seqAtMark }
  let d := foldDev gone (fun it d => d.derefPayload it.uid) (d.setQueue qid q')
  if countUnread && decide (q.read < rel) then d.queCount 5 unread else d

def Dev.releaseOldest (d : Dev) (qid k : Nat) (countUnread : Bool) : Dev := (d.releaseItems qid k countUnread).touchQueue qid

/-! ### Enqueue (R120, R122, R128, R132) -/

/-- Oldest items to release before an arrival of n cells fits the limit. -/
def releasesFor (items : List Item) (limit n : Nat) : Nat :=
  match items with
  | [] => 0
  | i :: rest => if (i.cells + (rest.map Item.cells).sum) + n ≤ limit then 0 else 1 + releasesFor rest limit n

/-- An item of a brood whose number the device has asked its source for (R153). -/
def Dev.recovered (d : Dev) (it : Item) : Bool :=
  match tabFind d.fwd.broods it.md.brood with
  | some b => b.gaps.any (fun g => g.stream == it.md.stream && g.seqn == it.md.seq && decide (0 < g.sent))
  | none => false

/-- Items of a queue that stand ahead of a recovered one: those before the first of its stream with a later number. -/
def Queue.ahead (q : Queue) (it : Item) : Nat :=
  (q.items.takeWhile (fun x => x.md.stream != it.md.stream || decide (signed 16 (toField 16 ((x.md.seq : Int) - it.md.seq)) < 0))).length

/-- Place an item in its queue: ENQ_BEAT, TAIL, SPILLED. A HISTORY queue takes a recovered packet in its place (R153), and its mark stands
at RELEASE (R128). -/
def Dev.putItem (d : Dev) (qid : Nat) (it : Item) : Dev :=
  let q := d.queue qid
  let it := { it with desc := it.desc.put 5 (BitVec.ofNat 32 d.beat) }
  let hist := d.queueKind qid == some 1
  let k := if hist && d.recovered it then q.ahead it else q.items.length
  let q := { q with items := q.items.take k ++ it :: q.items.drop k, tail := q.tail + 1,
                    read := if q.release + k < q.read then q.read + 1 else q.read }
  let q := { q with spilled := q.spilled || decide (8 < q.items.length) }
  let q := if hist then { q with mark := q.release, markSet := true, seqAtMark := ((q.items.head?).map (fun i => i.md.seq)).getD 0 } else q
  (d.setQueue qid q).touchQueue qid

/-- The item is not held: its reference is dropped. -/
def Dev.dropItem (d : Dev) (it : Item) : Dev := d.derefPayload it.uid

def Dev.enqueueCore (d : Dev) (qid : Nat) (it : Item) : Dev :=
  match d.groupOf qid with
  | none => d.dropItem it
  | some g =>
    let e := d.group g
    let kind := d.groupKind g
    let own := d.ent .que 0 qid
    let allow := if own.f 6 23 0 = 0 then e.f 2 23 0 else own.f 6 23 0
    let plim := if e.f 6 23 0 = 0 then e.f 2 23 0 else e.f 6 23 0
    let n := it.cells
    let prec := it.desc.f 0 25 24
    let q := d.queue qid
    if kind = 1 then
      let limit := if prec = 0 then allow else min allow plim
      let k := releasesFor q.items limit n
      let d := if k = 0 then d else (d.releaseItems qid k true).queCount 4 k
      if d.spillFree < segCells ∧ (d.queue qid).items.length % 64 = 0 then
        (((d.dropItem it).queCount 3 1).raiseOnce Src.SPILL_POOL_FULL qid).touchQueue qid
      else d.putItem qid it
    else if allow < q.occ + n then ((d.dropItem it).queCount 0 1).raiseOnce Src.QUEUE_ALLOW_DROP qid
    else if 1 ≤ prec ∧ plim ≤ q.occ then (d.dropItem it).queCount 1 1
    else
      let needs := queueSegs (retaining kind) { q with items := q.items ++ [it], spilled := q.spilled || decide (8 ≤ q.items.length) }
      let has := queueSegs (retaining kind) q
      if has < needs ∧ d.spillFree < segCells then
        ((d.dropItem it).queCount 3 1).raiseOnce Src.SPILL_POOL_FULL qid
      else d.putItem qid it

/-! ### Operations (R126) -/

/-- The item at READ. -/
def Queue.front (q : Queue) : Option Item := q.items[q.read - q.release]?

/-- READ: the item at READ; READ advances, and a queue that does not retain releases the item. -/
def Dev.readItem (d : Dev) (qid : Nat) : Option Item × Dev :=
  let q := d.queue qid
  match q.front with
  | none => (none, d)
  | some it =>
    let q' := { q with read := q.read + 1, cold := false }
    if retaining ((d.queueKind qid).getD 0) then (some it, d.setQueue qid q')
    else (some it, (d.setQueue qid q').releaseOldest qid 1 false)

/-- MARK := READ; the sequence number there is kept with the mark (R128). -/
def Queue.setMark (q : Queue) : Queue :=
  { q with mark := q.read, markSet := true, seqAtMark := ((q.front).map (fun i => i.md.seq)).getD q.seqAtMark }

/-- READ := MARK; the head no longer holds the read position when it moves back (R127). -/
def Queue.rewind (q : Queue) : Queue := { q with read := q.mark, cold := q.cold || decide (q.mark < q.read) }

/-- READ := min(READ + n, TAIL); answers the number skipped. -/
def Queue.skip (q : Queue) (n : Nat) : Nat × Queue :=
  let k := min n (q.tail - q.read)
  (k, { q with read := q.read + k, cold := q.cold || decide (4 ≤ k) })

/-- FLUSH: every item released; all four positions := TAIL; the mark is cleared. -/
def Dev.flushQueue (d : Dev) (qid : Nat) : Dev :=
  let d := d.releaseOldest qid (d.queue qid).items.length false
  let q := d.queue qid
  (d.setQueue qid { q with read := q.tail, release := q.tail, mark := q.tail, markSet := false, cold := false }).touchQueue qid

/-- On entry to ZEROIZE every queue is flushed and nothing written before can be read (R131). -/
def Dev.flushAll (d : Dev) : Dev :=
  let d := foldDev (tabKeys d.que.queues) (fun q d => d.flushQueue q) d
  { d with que := { d.que with payloads := [] } }

/-! ### The host's operations through QUE_CMD -/

/-- QUE_RESULT: DONE with a code. -/
def Dev.queResult (d : Dev) (code : Nat) : Dev :=
  d.setReg Reg.QUE_RESULT (BitVec.ofNat 32 (2 ^ 31 + code * 2 ^ 24))

def Dev.quePos (d : Dev) (v : Nat) : Dev := d.setReg Reg.QUE_POS (BitVec.ofNat 32 v)

def Dev.putDesc (d : Dev) (e : Entry) : Dev :=
  foldDev (List.range 8) (fun k d => d.setReg (Reg.QUE_DESC + 4 * k) (e.word k)) d

/-- A READ returns its descriptor, code OK and the new READ. -/
def Dev.hostReadNow (d : Dev) (qid : Nat) : Dev :=
  let desc := (((d.queue qid).front).map d.descOf).getD {}
  match d.readItem qid with
  | (some _, d) => ((d.putDesc desc).queResult 0).quePos (d.queue qid).read
  | (none, d) => (d.putDesc {}).queResult 1

/-- A stalled host READ takes an item that arrives (R130). -/
def Dev.wakeStall (d : Dev) (qid : Nat) : Dev :=
  match d.que.stall with
  | some (q, _) =>
    if q = qid ∧ ((d.queue qid).front).isSome then
      ({ d with que := { d.que with stall := none } }).hostReadNow qid
    else d
  | none => d

/-- An arrival of an item in a queue. -/
def Dev.enqueue (d : Dev) (qid : Nat) (it : Item) : Dev := (d.enqueueCore qid it).wakeStall qid

/-- A stalled read ends with IDLE and EMPTY when the device passes into a mode that returns IDLE (R130). -/
def Dev.endStall (d : Dev) : Dev :=
  match d.que.stall with
  | some (q, _) =>
    if d.mode.live then
      ((({ d with que := { d.que with stall := none } }).putDesc {}).queResult 1).quePos (d.queue q).read
    else d
  | none => d

/-- The checks common to the host's operations; `go` acts on a queue the host may use. -/
def Dev.queCommand (d : Dev) (v : Word) (go : Nat → Dev → Dev) : Dev :=
  if d.que.stall.isSome || d.que.refill.isSome then
    d.setReg Reg.QUE_RESULT (setBits (d.reg Reg.QUE_RESULT) 27 24 7)
  else
    let d := d.setReg Reg.QUE_CMD (BitVec.ofNat 32 (bits v 17 0))
    if d.mode = .reset ∨ d.mode = .boot then d.queResult 6
    else if d.queueKind (bits v 17 0) ≠ some 4 ∧ d.mode ≠ .test then d.queResult 3
    else go (bits v 17 0) d

/-- QUE_READ (R126, R127, R130): it takes effect after the arrivals of its FCLK. -/
def queRead (v : Word) (d : Dev) : Dev :=
  d.queCommand v (fun q d =>
    let d := d.lapse
    let st := d.queue q
    if st.read = st.tail then
      if d.mode.live then ((d.putDesc {}).queResult 1).quePos st.read
      else (({ d with que := { d.que with stall := some (q, d.now) } }).setReg Reg.QUE_RESULT 0)
    else if st.cold then
      let desc := ((st.front).map d.descOf).getD {}
      let d := (d.readItem q).2
      ({ d with que := { d.que with refill := some (q, desc, (d.queue q).read) } }).setReg Reg.QUE_RESULT 0
    else d.hostReadNow q)

/-- MARK, REWIND and SKIP are refused with NO_MARK outside HISTORY and JITTER. -/
def Dev.retains (d : Dev) (q : Nat) : Bool := retaining ((d.queueKind q).getD 0)

def queMark (v : Word) (d : Dev) : Dev :=
  d.queCommand v (fun q d =>
    if d.retains q then
      let d := d.setQueue q (d.queue q).setMark
      (d.queResult 0).quePos (d.queue q).read
    else d.queResult 5)

def queRewind (v : Word) (d : Dev) : Dev :=
  d.queCommand v (fun q d =>
    if d.retains q && (d.queue q).markSet then
      let d := d.setQueue q (d.queue q).rewind
      (d.queResult 0).quePos (d.queue q).read
    else d.queResult 5)

def queSkip (v : Word) (d : Dev) : Dev :=
  d.queCommand v (fun q d =>
    if d.retains q then
      let r := (d.queue q).skip (d.reg Reg.QUE_ARG).toNat
      ((d.setQueue q r.2).queResult 0).quePos r.1
    else d.queResult 5)

/-- A position given modulo 2^32, as the count at or after `base` that it names (modulo-2^32 order). -/
def posNear (base p : Nat) : Int :=
  let dlt := toField 32 ((p : Int) - base)
  (base : Int) + signed 32 dlt

/-- QUE_RELEASE: RELEASE := min(p, TAIL); BEHIND when p is below RELEASE. -/
def queRelease (v : Word) (d : Dev) : Dev :=
  d.queCommand v (fun q d =>
    let st := d.queue q
    let p := posNear st.release (d.reg Reg.QUE_ARG).toNat
    if p < st.release then d.queResult 4
    else
      let d := d.releaseOldest q (min p.toNat st.tail - st.release) true
      (d.queResult 0).quePos (d.queue q).read)

def queFlush (v : Word) (d : Dev) : Dev :=
  d.queCommand v (fun q d => let d := d.flushQueue q; (d.queResult 0).quePos (d.queue q).read)

/-- QUE_HEAD_REFILL_DONE (R127): the head holds the descriptors from READ, and the READ returns the one it took: a release made since
does not disturb it. -/
def queHeadRefillDone (d : Dev) : Dev :=
  match d.que.refill with
  | none => d
  | some (_, desc, pos) => ((({ d with que := { d.que with refill := none } }).putDesc desc).queResult 0).quePos pos

/-- STALL_TIMEOUT (R68, R130): a read still stalled after TSK_STALL_TIMEOUT microseconds returns TIMEOUT. -/
def stallTimeout (d : Dev) : Dev :=
  match d.que.stall with
  | none => d
  | some (q, since) =>
    let us := d.fld Reg.TSK_STALL_TIMEOUT 19 0
    if us = 0 then d
    else
      d.atNow (since + us * 1500) fun d =>
        let d := ({ d with que := { d.que with stall := none } }).queCount 7 1
        ((d.putDesc {}).queResult 2).quePos (d.queue q).read

/-! ### Spill mover, ager, truncation -/

/-- SPILL_MOVE_DONE (R121, R122): the payload of the oldest middle item still in the burst store is copied to DRAM cells,
and its burst-store cells are freed; with its pool empty the item is dropped. -/
def spillMoveDone (qid : Nat) (d : Dev) : Dev :=
  let q := d.queue qid
  let hist := d.queueKind qid == some 1
  let middle := (q.items.drop 4).take (q.items.length - 8)
  if !q.spilled then d
  else
    match middle.find? (fun it => ((d.payload it.uid).map (fun p => !p.dram)).getD false) with
    | none => d
    | some it =>
      let free := if hist then d.histFree else d.spillFree
      if free < it.cells then
        let at_ := q.release + q.items.findIdx (fun x => x == it)
        let d := d.setQueue qid (respill { q with items := q.items.erase it, tail := q.tail - 1,
                                                  read := if at_ < q.read then q.read - 1 else q.read,
                                                  mark := if at_ < q.mark then q.mark - 1 else q.mark })
        (((d.dropItem it).queCount 3 1).raiseOnce Src.SPILL_POOL_FULL qid).touchQueue qid
      else
        let (c, d) := d.takeCell true
        { d with que := { d.que with payloads := recMod d.que.payloads it.uid (fun p => { p with dram := true, cell := c, history := hist }) } }

/-- AGE in beats and COUNT of a history queue: ceil(AGE_MS × 0.6), 500 ms where the entry holds its reset value (R128). -/
def Dev.histAge (d : Dev) (qid : Nat) : Nat × Nat :=
  let e := d.ent .que 0 qid
  let ms := if e.f 5 26 16 = 0 then 500 else e.f 5 26 16
  (ceilDiv (ms * 6) 10, e.f 5 15 0)

/-- Beats since a beat number given by its bits [31:0]. -/
def Dev.beatsSince (d : Dev) (w : Nat) : Nat := toField 32 ((d.beat : Int) - w)

/-- Leading items older than AGE, or beyond COUNT. -/
def Dev.agedItems (d : Dev) (qid : Nat) : Nat :=
  let (age, count) := d.histAge qid
  let items := (d.queue qid).items
  let old := (items.takeWhile (fun it => decide (age < d.beatsSince (it.desc.word 5).toNat))).length
  if count = 0 then old else max old (items.length - count)

/-- HISTORY_AGE (R128): the ager's release at the start of a beat, in every HISTORY queue, after the arrivals and reads of its FCLK
(R127). -/
def historyAge (d : Dev) : Dev :=
  let d := d.lapse
  foldDev ((tabKeys d.que.queues).filter (fun q => d.queueKind q == some 1)) (fun q d =>
    let k := d.agedItems q
    if k = 0 then d else d.releaseOldest q k true) d

/-! ### Flow-control outputs (R133) -/

def Dev.fcOut (d : Dev) (o : Nat) : Entry := d.ent .que 2 o

/-- FCLK in which half of the quanta elapse at a port: quanta × 512 bit times / 2. -/
def halfQuanta (port quanta : Nat) : Nat := ceilDiv (quanta * 256 * 15) (portRate port * 10)

def Dev.fcSend (d : Dev) (o : Nat) (on : Bool) : Dev :=
  let e := d.fcOut o
  let port := e.f 0 26 24
  let quanta := if on then e.f 0 15 0 else 0
  match e.f 0 31 28 with
  | 1 => d.emit (.pause port quanta)
  | 2 => d.emit (.pfc port (e.f 0 23 16) quanta)
  | 3 => d.withhold (e.f 0 25 24) (e.f 0 17 16) on
  | 4 => d.emit (.pin 1 (if on then 0 else 1))
  | 5 => d.emit (.pin 2 (if on then 0 else 1))
  | 6 => d.emit (.pin 3 (if on then 0 else 1))
  | _ => d

/-- An output is wanted while any group bound to it has its flag set. -/
def Dev.fcWanted (d : Dev) (o : Nat) : Bool :=
  d.que.high.any (fun g => (d.group g).b 5 23 && decide ((d.group g).f 5 27 24 = o))

/-- FC_OUTPUT_CHANGE (R133): an output follows the flags of its groups, as they stand at the end of the FCLK. -/
def fcOutputChange (o : Nat) (d : Dev) : Dev :=
  if 16 ≤ o then d
  else
    let d := d.lapse
    let want := d.fcWanted o
    if want = d.que.asserted.contains o then d
    else
      let e := d.fcOut o
      let d := { d with que := { d.que with
        asserted := (if want then o :: d.que.asserted else d.que.asserted.erase o),
        repeatAt := (if want then recSet d.que.repeatAt o (d.now + halfQuanta (e.f 0 26 24) (e.f 0 15 0))
                     else tabErase d.que.repeatAt o) } }
      (d.setFlag Reg.QUE_FC_STAT o want).fcSend o want

/-- PAUSE_REPEAT (R133): half of the quanta have elapsed with the output asserted. -/
def pauseRepeat (o : Nat) (d : Dev) : Dev :=
  let k := (d.fcOut o).f 0 31 28
  if !d.que.asserted.contains o || !(k == 1 || k == 2) then d
  else
    d.atNow ((tabFind d.que.repeatAt o).getD 0) fun d =>
      let e := d.fcOut o
      ({ d with que := { d.que with
      repeatAt := recSet d.que.repeatAt o (d.now + halfQuanta (e.f 0 26 24) (e.f 0 15 0)) } }).fcSend o true

/-! ### QUE_TAB (R135) -/

/-- ERR of a table command register (bit 1), with the error code where the register has one (bits [7:4]). -/
def Dev.tabErr (d : Dev) (cmd : Nat) (code : Nat) : Dev :=
  let w := setBit (d.reg cmd) 1 (decide (code ≠ 0))
  match regDesc cmd with
  | some r => d.setReg cmd (if r.fields.any (fun f => f.hi == 7 && f.lo == 4) then setBits w 7 4 code else w)
  | none => d

/-- The plain fields of a table command's write (TABLE, BANK); OP starts the command and holds nothing. -/
def Dev.tabCmd (d : Dev) (cmd : Nat) (v : Word) : Dev := d.writeReg cmd v

/-- A queue entry as read (Table 6.10). -/
def Dev.queEntry (d : Dev) (q : Nat) : Entry :=
  let st := d.queue q
  let own := d.ent .que 0 q
  let ms := if own.f 5 26 16 = 0 then 500 else own.f 5 26 16
  { d0 := BitVec.ofNat 32 st.tail, d1 := BitVec.ofNat 32 st.read, d2 := BitVec.ofNat 32 st.release,
    d3 := BitVec.ofNat 32 st.mark,
    d4 := BitVec.ofNat 32 (st.spilled.toNat * 2 ^ 31 + st.markSet.toNat * 2 ^ 30 + st.occ),
    d5 := BitVec.ofNat 32 (ms * 65536 + own.f 5 15 0), d6 := BitVec.ofNat 32 (own.f 6 23 0) }

def Dev.queTabRead (d : Dev) (t i : Nat) : Entry :=
  match t with
  | 0 => d.queEntry i
  | 1 => (d.group i).put 7 (BitVec.ofNat 32 (d.groupOcc i))
  | _ => (d.fcOut i).setB 0 27 (d.que.asserted.contains i)

def queTabSize (t : Nat) : Nat := match t with | 0 => 262144 | 1 => 64 | 2 => 16 | _ => 0

/-- An index above the table's last entry (R404). -/
def pastEnd (size : Nat → Nat) (t i : Nat) : Bool := decide (size t ≤ i)

/-- A table READ: TABLE and ADDR name an entry, whose words go to DATA; an index beyond the table is refused with the code given (R404). -/
def tabReadOp (cmd addr data words : Nat) (hi : Nat) (beyond : Nat → Nat → Bool) (get : Dev → Nat → Nat → Entry) (bad : Nat)
    (v : Word) (d : Dev) : Dev :=
  let d := d.tabCmd cmd v
  let t := d.fld cmd 27 24
  let i := d.fld addr hi 0
  if beyond t i then d.tabErr cmd bad
  else (d.putData data words (get d t i)).tabErr cmd 0

def queTabRead (v : Word) (d : Dev) : Dev :=
  tabReadOp Reg.QUE_TAB_CMD Reg.QUE_TAB_ADDR Reg.QUE_TAB_DATA 8 17 (pastEnd queTabSize) Dev.queTabRead 1 v d

/-- QUE_TAB_WRITE (R135): only ALLOW_OVR, AGE_MS and COUNT of a queue, HIGH, LOW and PREC_LIMIT of a group, and QUANTA of
an output may change; any other change sets ERR and is ignored. Read-only fields are ignored. -/
def queTabWrite (v : Word) (d : Dev) : Dev :=
  let d := d.tabCmd Reg.QUE_TAB_CMD v
  let t := d.fld Reg.QUE_TAB_CMD 27 24
  let i := d.fld Reg.QUE_TAB_ADDR 17 0
  let n := d.dataEntry Reg.QUE_TAB_DATA
  let err := d.tabErr Reg.QUE_TAB_CMD 1
  if queTabSize t ≤ i then err
  else
    match t with
    | 0 =>
      let own := d.ent .que 0 i
      let ms := n.f 5 26 16
      let ovr := n.f 6 23 0
      let own := if 64 ≤ ms ∧ ms ≤ 2000 then own.setF 5 26 16 ms else own
      let own := own.setF 5 15 0 (n.f 5 15 0)
      let own := if ovr = 0 ∨ 36 ≤ ovr then own.setF 6 23 0 ovr else own
      (d.setEnt .que 0 i own).tabErr Reg.QUE_TAB_CMD 0
    | 1 =>
      let g := d.group i
      if n.word 0 ≠ g.word 0 ∨ n.word 1 ≠ g.word 1 ∨ n.word 2 ≠ g.word 2 ∨ n.word 5 ≠ g.word 5 then err
      else if n.f 3 27 0 ≤ n.f 4 27 0 then err
      else
        let g := ((g.setF 3 27 0 (n.f 3 27 0)).setF 4 27 0 (n.f 4 27 0)).setF 6 23 0 (n.f 6 23 0)
        ((d.setEnt .que 1 i g).touchGroup i).tabErr Reg.QUE_TAB_CMD 0
    | _ =>
      let o := d.fcOut i
      if n.f 0 31 28 ≠ o.f 0 31 28 ∨ n.f 0 26 16 ≠ o.f 0 26 16 then err
      else
        let k := o.f 0 31 28
        let o := if (k = 1 ∨ k = 2) ∧ n.f 0 15 0 = 0 then o else o.setF 0 15 0 (n.f 0 15 0)
        (d.setEnt .que 2 i o).tabErr Reg.QUE_TAB_CMD 0

/-! ### Meanings -/

end Sys2Proof.Machine
end

