-- ==== Sys2Proof/Machine/Vault.lean ====
section
/-! DEFINITION. The Ibsiyn vault (chapter 5): handle blobs, the pen and its slots, slot loads, pins, contexts, and VLT_TAB. -/

namespace Sys2Proof.Machine
open Sys2Proof

def Dev.vltCount (d : Dev) (c n : Nat) : Dev := d.cnt Reg.VLT_CNT_LO c n

def penSlots : Nat := 8192

/-! ### Bindings and slots (R109 to R111) -/

def Dev.binding (d : Dev) (leg : Nat) : Entry := d.ent .vlt 0 leg

/-- Handle bound to a leg direction. -/
def Dev.handleOf (d : Dev) (leg : Nat) (egress : Bool) : Nat :=
  if egress then (d.binding leg).f 0 31 16 else (d.binding leg).f 0 15 0

def Dev.handleGen (d : Dev) (h : Nat) : Nat := tabGet (fun _ => 0) d.vlt.gens h

/-- The valid slot a leg direction's packets start under now: loaded for its present handle and generation. -/
def Dev.slotFor (d : Dev) (leg : Nat) (egress : Bool) : Option Nat :=
  (d.vlt.slots.find? (fun p => p.2.leg == leg && p.2.egress == egress && !p.2.dead &&
    p.2.handle == d.handleOf leg egress && p.2.gen == d.handleGen p.2.handle)).map (·.1)

/-- The handle whose key a program that starts now runs under: a write of the binding in this FCLK tells the next (R109). -/
def Dev.boundHandle (d : Dev) (leg : Nat) (egress : Bool) : Nat :=
  match (if d.vlt.oldBind.1 = d.now then tabFind d.vlt.oldBind.2 leg else none) with
  | some e => if egress then e.f 0 31 16 else e.f 0 15 0
  | none => d.handleOf leg egress

def Dev.penSlot (d : Dev) (k : Nat) : Option PenSlot := tabFind d.vlt.slots k

def Dev.setSlots (d : Dev) (t : Tab PenSlot) : Dev := { d with vlt := { d.vlt with slots := t } }

/-- PIN_IN or PIN_OUT, or a pin of AUTO_PIN. -/
def Dev.wantsPin (d : Dev) (leg : Nat) (egress : Bool) : Bool :=
  (d.binding leg).b 1 (if egress then 14 else 15) || (!egress && d.vlt.autoPin.any (fun f => f.2.contains leg))

def Dev.pinnedCount (d : Dev) : Nat := (d.vlt.slots.filter (fun p => p.2.pinned)).length

/-- Leg directions that bindings and AUTO_PIN ask to be pinned, resident or not. -/
def Dev.pinsAsked (d : Dev) : Nat :=
  ((d.entries .vlt 0).map (fun p => (p.2.b 1 15).toNat + (p.2.b 1 14).toNat)).sum +
  ((d.vlt.autoPin.flatMap (·.2)).eraseDups.filter (fun l => !(d.binding l).b 1 15)).length

def Dev.pinMax (d : Dev) : Nat := d.fld Reg.VLT_RUN_CFG 15 3

/-- Pins follow the bindings and AUTO_PIN, PIN_MAX at most. -/
def Dev.repin (d : Dev) (leg : Nat) (egress : Bool) : Dev :=
  match d.slotFor leg egress with
  | none => d
  | some k =>
    let on := d.wantsPin leg egress && (((d.penSlot k).map (·.pinned)).getD false || decide (d.pinnedCount < d.pinMax))
    d.setSlots (recMod d.vlt.slots k (fun s => { s with pinned := on }))

/-- A packet or run takes a slot in use (R111). -/
def Dev.useSlot (d : Dev) (k : Nat) : Dev :=
  d.setSlots (recMod d.vlt.slots k (fun s => { s with users := s.users + 1, lastUse := d.beat }))

/-- A use of a slot ends; a slot whose key has been replaced goes with its last use (R105), and loads that wait for a
slot are tried again. -/
def Dev.endUse (d : Dev) (k : Nat) : Dev :=
  match d.penSlot k with
  | none => d
  | some s =>
    let s := { s with users := s.users - 1, lastUse := d.beat }
    let d := if s.users = 0 ∧ s.dead then d.setSlots (tabErase d.vlt.slots k) else d.setSlots (recSet d.vlt.slots k s)
    if s.users = 0 ∧ d.vlt.loads.any (·.starved) then d.push .loadRetry else d

/-- A slot for a load: the lowest free one, else the unpinned slot not in use with the oldest last-use beat, ties to the
lowest number (R111). -/
def Dev.victim (d : Dev) : Option Nat :=
  match freeKey d.vlt.slots penSlots with
  | some k => some k
  | none =>
    (d.vlt.slots.foldl (fun (best : Option (Nat × Nat)) p =>
      if p.2.users = 0 ∧ p.2.pinned = false then
        match best with
        | none => some (p.1, p.2.lastUse)
        | some b => if p.2.lastUse < b.2 then some (p.1, p.2.lastUse) else best
      else best) none).map (·.1)

/-! ### Handle blobs (Table 5.6) -/

def Dev.epoch (d : Dev) : Nat := d.fld Reg.VLT_STATUS 5 0

/-- The key record's blob: header, NONCE from the vault's generator, sealed record and tag. -/
def blobBytes (epoch gen : Nat) (rec nonce : List Byte) : List Byte :=
  let head := toLe 2 0x5642 ++ [1, BitVec.ofNat 8 epoch] ++ slice rec 0 2 ++ [BitVec.ofNat 8 gen] ++ slice rec 2 1 ++
    slice rec 4 2 ++ slice rec 3 1 ++ [0] ++ nonce
  let sealed := Config.gcmSeal (Config.storageKey epoch) nonce head rec
  head ++ sealed.1 ++ sealed.2 ++ List.replicate 24 0

def Dev.setBlob (d : Dev) (h : Nat) (bs : List Byte) : Dev :=
  { d with vlt := { d.vlt with blobs := tabSet (fun _ => []) d.vlt.blobs h bs } }

/-- A new blob at a handle: the generation advances and a slot that holds the old key is invalid when its last use ends
(R105). -/
def Dev.replaceHandle (d : Dev) (h : Nat) (bs : List Byte) (gen : Nat) : Dev :=
  let slots := tabFilter (fun _ s => !(s.handle == h && s.users == 0)) d.vlt.slots
  let slots := slots.map (fun p => if p.2.handle == h then (p.1, { p.2 with dead := true }) else p)
  ({ d with vlt := { d.vlt with slots := slots, gens := tabSet (fun _ => 0) d.vlt.gens h gen } }).setBlob h bs

/-- Why a blob loads nothing (R107), by the model's index of the reason. -/
def reasonBadTag : Nat := 0
def reasonBadEpoch : Nat := 1
def reasonBinding : Nat := 2

/-- The six derived keys of a record: labels 0, 2, 1 for SRTP and 3, 5, 4 for SRTCP (encryption, salt, authentication). -/
def deriveKeys (rec : List Byte) : List (List Byte) :=
  let profile := byteAt rec 2
  let key := slice rec 8 (if profile = 2 then 32 else 16)
  let salt := slice rec 40 (if profile ≤ 2 then 12 else 14)
  [0, 2, 1, 3, 5, 4].map (fun l => Config.srtpKdf profile key salt l)

/-- Open the blob a leg direction's binding names and check it (R107). -/
def Dev.openFor (d : Dev) (leg : Nat) (egress : Bool) : Except Nat PenSlot :=
  let h := d.handleOf leg egress
  let bs := tabGet (fun _ => []) d.vlt.blobs h
  if byteAt bs 3 ≠ d.epoch ∨ d.flag Reg.VLT_STATUS 8 ∨ d.vlt.erasing then .error reasonBadEpoch
  else
    match Config.gcmOpen (Config.storageKey d.epoch) (slice bs 12 12) (slice bs 0 24) (slice bs 24 64) (slice bs 88 16) with
    | none => .error reasonBadTag
    | some rec =>
      let flags := byteAt rec 3
      if le16 rec 4 ≠ leg ∨ (flags % 2 == 1) ≠ egress then .error reasonBinding
      else .ok { leg := leg, egress := egress, handle := h, gen := d.handleGen h, profile := byteAt rec 2, flags := flags,
                 lastUse := d.beat, keys := deriveKeys rec }

/-! ### Loads (R107, R108, R110) -/

/-- One load is requested for a leg direction; a request standing keeps the more urgent class. -/
def Dev.askLoad (d : Dev) (leg : Nat) (egress : Bool) (cls : Nat) : Dev :=
  if (d.slotFor leg egress).isSome then d
  else if d.vlt.loads.any (fun r => r.leg == leg && r.egress == egress) then
    { d with vlt := { d.vlt with loads := d.vlt.loads.map (fun r =>
      if r.leg == leg && r.egress == egress then { r with cls := min r.cls cls } else r) } }
  else { d with vlt := { d.vlt with loads := d.vlt.loads ++ [{ leg := leg, egress := egress, cls := cls }] } }

/-- The group a leg's binding names: GROUP_SIZE more directions than one, ingress and egress of the leg and of the next (assumption
11). -/
def Dev.legGroup4 (d : Dev) (leg : Nat) : List (Nat × Bool) :=
  ([(leg, false), (leg, true), (leg + 1, false), (leg + 1, true)] : List (Nat × Bool)).take ((d.binding leg).f 1 13 12 + 1)

/-- The other members of the groups a leg direction is in. -/
def Dev.groupMembers (d : Dev) (leg : Nat) (egress : Bool) : List (Nat × Bool) :=
  let gs := ([leg, leg - 1].map d.legGroup4).filter (fun g => g.contains (leg, egress))
  (gs.flatten.filter (fun m => m != (leg, egress))).eraseDups

/-- The load of a leg direction with those of its group. -/
def Dev.askGroup (d : Dev) (leg : Nat) (egress : Bool) (cls : Nat) : Dev :=
  foldDev (d.groupMembers leg egress) (fun m d => d.askLoad m.1 m.2 2) (d.askLoad leg egress cls)

/-- The first of some requests: by class, then in order of request. -/
def firstLoad (wait : List LoadReq) : Option LoadReq :=
  match wait.find? (·.cls == 1) with
  | some r => some r
  | none => match wait.find? (·.cls == 2) with
    | some r => some r
    | none => wait.head?

/-- The request a lane serves next. -/
def Dev.nextLoad (d : Dev) : Option LoadReq := firstLoad (d.vlt.loads.filter (fun r => !r.starved))

/-- Drop a slot and, where its leg direction is in a group, the group's other slots that are neither in use nor pinned. -/
def Dev.evict (d : Dev) (k : Nat) : Dev :=
  match d.penSlot k with
  | none => d
  | some s =>
    let grp := d.groupMembers s.leg s.egress
    d.setSlots (tabFilter (fun i x => i != k && !(x.users == 0 && !x.pinned && grp.contains (x.leg, x.egress))) d.vlt.slots)

/-- Carry out one load: the slot becomes valid, or nothing is loaded. What follows for packets and runs is work of its
own, done in the same step. -/
def Dev.runLoad (d : Dev) (r : LoadReq) : Dev :=
  let rest := d.vlt.loads.filter (fun x => !(x.leg == r.leg && x.egress == r.egress))
  let done := fun (d : Dev) (ok : Bool) =>
    ({ d with vlt := { d.vlt with loads := rest } } : Dev).push (.slotReady r.leg r.egress ok)
  match d.openFor r.leg r.egress with
  | .error why => (done d false).raise Src.KEY_LOAD_FAIL r.leg (Config.code why)
  | .ok s =>
    match d.victim with
    | none =>
      let d := { d with vlt := { d.vlt with loads := d.vlt.loads.map (fun x =>
        if x.leg == r.leg && x.egress == r.egress then { x with starved := true } else x) } }
      if r.starved then d else d.vltCount 5 1
    | some k =>
      let d := d.evict k
      let d := d.setSlots (recSet d.vlt.slots k s)
      let d := (done d true).vltCount (if r.egress then 1 else 0) 1
      d.repin r.leg r.egress

/-- A lane finishes a load (R108). -/
def Dev.loadDone (d : Dev) : Dev :=
  match d.nextLoad with
  | none => d
  | some r => d.runLoad r

/-- A slot has been released: a load that waits for one goes on (R111). -/
def Dev.loadRetry (d : Dev) : Dev :=
  match firstLoad (d.vlt.loads.filter (·.starved)) with
  | none => d
  | some r => d.runLoad r

/-! ### Contexts and the replay check (R102) -/

def ctxKey (leg : Nat) (egress : Bool) : Nat := 2 * leg + egress.toNat

def Dev.ctx (d : Dev) (leg : Nat) (egress : Bool) : KeyCtx := tabGet (fun _ => {}) d.vlt.ctxs (ctxKey leg egress)

def Dev.setCtx (d : Dev) (leg : Nat) (egress : Bool) (c : KeyCtx) : Dev :=
  { d with vlt := { d.vlt with ctxs := tabSet (fun _ => {}) d.vlt.ctxs (ctxKey leg egress) c } }

/-- The index of a sequence number, estimated under RFC 3711 section 3.3.1. -/
def estIndex (c : KeyCtx) (seq : Nat) : Nat :=
  if !c.seen then seq
  else
    let roc := c.high / 65536
    let s := c.high % 65536
    let v :=
      if s < 32768 then (if 32768 < seq - s then (roc + 2 ^ 32 - 1) % 2 ^ 32 else roc)
      else if seq + 32768 < s then (roc + 1) % 2 ^ 32 else roc
    v * 65536 + seq

/-- Older than the 128-packet window, or already received. -/
def isReplay (c : KeyCtx) (idx : Nat) : Bool :=
  c.seen && (decide (idx + 128 ≤ c.high) || (decide (idx ≤ c.high) && c.bitmap.testBit (c.high - idx)))

/-- The window after a packet of this index has passed: bit k stands for index high − k. -/
def KeyCtx.accept (c : KeyCtx) (idx : Nat) : KeyCtx :=
  if !c.seen then { seen := true, high := idx, bitmap := 1 }
  else if c.high < idx then { c with high := idx, bitmap := (c.bitmap * 2 ^ min 128 (idx - c.high) + 1) % 2 ^ 128 }
  else { c with bitmap := c.bitmap ||| 2 ^ (c.high - idx) }

/-- The replay window of a leg's ingress packets: SRTP's, or SRTCP's own by the index the packet carries (assumption 59). -/
def Dev.inCtx (d : Dev) (leg : Nat) (rtcp : Bool) : KeyCtx :=
  if rtcp then tabGet (fun _ => {}) d.vlt.ctxs (2 ^ 16 + leg) else d.ctx leg false

def Dev.setInCtx (d : Dev) (leg : Nat) (rtcp : Bool) (c : KeyCtx) : Dev :=
  if rtcp then { d with vlt := { d.vlt with ctxs := tabSet (fun _ => {}) d.vlt.ctxs (2 ^ 16 + leg) c } } else d.setCtx leg false c

/-! ### Registers -/

/-- VLT_PEN_FILL and VLT_STATUS.SESSIONS as read. -/
def Dev.penFill (d : Dev) : Word := BitVec.ofNat 32 (d.pinnedCount * 65536 + d.vlt.slots.length)

/-- Drop a leg direction's pins of AUTO_PIN for a flock and set new ones (R111). -/
def Dev.autoPinFlock (d : Dev) (flock : Nat) (legs : List Nat) : Dev :=
  if d.flag Reg.VLT_RUN_CFG 16 then
    let old := (tabFind d.vlt.autoPin flock).getD []
    let others := ({ d with vlt := { d.vlt with autoPin := tabErase d.vlt.autoPin flock } } : Dev).pinsAsked
    let legs := legs.take (d.pinMax - others)
    let d := { d with vlt := { d.vlt with autoPin := recSet d.vlt.autoPin flock legs } }
    foldDev (old ++ legs) (fun l d => (d.repin l false).when (legs.contains l) (fun d => d.askGroup l false 2)) d
  else d

def vltTabSize (t : Nat) : Nat := match t with | 0 => 16384 | 1 => 65536 | 2 => 8192 | _ => 0

/-- Handle and slot states have no layout in the spec: their words are open values. -/
def Dev.vltOpen (d : Dev) : Entry × Dev :=
  let r := d.free
  (⟨BitVec.ofNat 32 (Config.freeNat r), BitVec.ofNat 32 (Config.freeNat (r + 1)), BitVec.ofNat 32 (Config.freeNat (r + 2)),
    BitVec.ofNat 32 (Config.freeNat (r + 3)), BitVec.ofNat 32 (Config.freeNat (r + 4)), BitVec.ofNat 32 (Config.freeNat (r + 5)),
    BitVec.ofNat 32 (Config.freeNat (r + 6)), BitVec.ofNat 32 (Config.freeNat (r + 7))⟩, { d with free := r + 8 })

/-- VLT_TAB_READ. -/
def vltTabRead (v : Word) (d : Dev) : Dev :=
  let d := d.tabCmd Reg.VLT_TAB_CMD v
  let t := d.fld Reg.VLT_TAB_CMD 27 24
  let i := d.fld Reg.VLT_TAB_ADDR 15 0
  if vltTabSize t ≤ i then d.tabErr Reg.VLT_TAB_CMD 5
  else if t = 0 then (d.putData Reg.VLT_TAB_DATA 8 (d.binding i)).tabErr Reg.VLT_TAB_CMD 0
  else
    let (e, d) := d.vltOpen
    (d.putData Reg.VLT_TAB_DATA 8 e).tabErr Reg.VLT_TAB_CMD 0

/-- VLT_TAB_WRITE (R109, R111): a leg binding; the handle state and slot state are read only, and a pin beyond PIN_MAX is
refused. -/
def vltTabWrite (v : Word) (d : Dev) : Dev :=
  let d := d.tabCmd Reg.VLT_TAB_CMD v
  let t := d.fld Reg.VLT_TAB_CMD 27 24
  let i := d.fld Reg.VLT_TAB_ADDR 15 0
  if vltTabSize t ≤ i then d.tabErr Reg.VLT_TAB_CMD 5
  else if t ≠ 0 then d.tabErr Reg.VLT_TAB_CMD 5
  else
    let n := d.dataEntry Reg.VLT_TAB_DATA
    let old := d.binding i
    let e : Entry := { d0 := n.d0, d1 := n.d1 &&& 0xF000 }
    let more := (e.b 1 15 && !old.b 1 15).toNat + (e.b 1 14 && !old.b 1 14).toNat
    if more ≠ 0 ∧ d.pinMax < d.pinsAsked + more then d.tabErr Reg.VLT_TAB_CMD 5
    else
      let was := if d.vlt.oldBind.1 = d.now then d.vlt.oldBind.2 else []
      let d := { d with vlt := { d.vlt with oldBind := (d.now, if (tabFind was i).isSome then was else recSet was i old) } }
      let d := d.setEnt .vlt 0 i e
      let d := if e.b 1 15 then d.askGroup i false 2 else d
      let d := if e.b 1 14 then d.askGroup i true 2 else d
      ((d.repin i false).repin i true).tabErr Reg.VLT_TAB_CMD 0

end Sys2Proof.Machine
end

