-- ==== Sys2Proof/Machine/Governor.lean ====
section
/-! DEFINITION. The leg governors (R155 to R159, R161): measures, the update of each beat, feedback, and LEG_TAB; and the
control messages sent toward a leg. -/

namespace Sys2Proof.Machine
open Sys2Proof

def Dev.legCount (d : Dev) (c n : Nat) : Dev := d.cnt Reg.LEG_CNT_LO c n

def Dev.gov (d : Dev) (leg : Nat) : Gov := (tabFind d.fwd.govs leg).getD {}

def Dev.setGov (d : Dev) (leg : Nat) (g : Gov) : Dev := { d with fwd := { d.fwd with govs := recSet d.fwd.govs leg g } }

/-- A leg's entry, Table 7.12. -/
def Dev.legEnt (d : Dev) (leg : Nat) : Entry := d.ent .leg 0 leg

def Dev.legValid (d : Dev) (leg : Nat) : Bool := (d.legEnt leg).b 0 31

/-! ### Control messages toward a leg -/

/-- A leg's egress entry, Table 13.6, and an egress stream's, Table 13.5. -/
def Dev.egsLeg (d : Dev) (leg : Nat) : Entry := d.ent .egs 1 leg
def Dev.egsStream (d : Dev) (s : Nat) : Entry := d.ent .egs 0 s

/-- The queue of an egress stream that is in use. -/
def Dev.streamQueue (d : Dev) (s : Nat) : Option Nat :=
  if (d.egsStream s).b 0 31 then some ((d.egsStream s).f 1 17 0) else none

/-- Descriptor of an item the device makes: TYPE GEN, one length, its leg. -/
def genDesc (len leg : Nat) : Entry :=
  (({ d0 := BitVec.ofNat 32 (3 * 2 ^ 28 + cellsFor len * 2 ^ 14 + len) } : Entry).setF 2 13 0 leg)

/-- Queue a message on a leg's CTRL stream (R275): as reduced-size RTCP for a leg with RSIZE, else in a compound packet that a report
begins (R154). -/
def Dev.sendCtrl (d : Dev) (leg : Nat) (c : Ctrl) (nums : List Nat) : Dev :=
  let s := (d.egsLeg leg).f 1 17 0
  match d.streamQueue s with
  | none => d
  | some q =>
    let report : Bool := match c with | .sr .. => true | .rr .. => true | _ => false
    let bytes := (if report || (d.legEnt leg).b 0 26 then [] else Config.rtcpBytes [201]) ++ Config.rtcpBytes nums
    let (u, d) := d.newPayload bytes bytes.length
    d.enqueue q { desc := genDesc bytes.length leg, uid := u, ctrl := some c, sub := s, protect := true }

/-! ### Measures -/

/-- Keep the entries of the present beat and the n before it. -/
def recent {α : Type} (beat n : Nat) (when_ : α → Nat) (l : List α) : List α :=
  l.filter (fun x => decide (beat ≤ when_ x + n))

/-- The entries of the last n whole beats. -/
def lastBeats {α : Type} (beat n : Nat) (when_ : α → Nat) (l : List α) : List α :=
  l.filter (fun x => decide (beat ≤ when_ x + n) && decide (when_ x < beat))

/-- b/s of (beat, bytes) entries over the last n whole beats: n beats are n / 600 s. -/
def rateOver (beat n : Nat) (l : List (Nat × Nat)) : Nat :=
  ((lastBeats beat n (·.1) l).map (·.2)).sum * 8 * 600 / n

/-- Audio and RTX rates of a leg over the last 60 beats (R140). -/
def Dev.audioRate (d : Dev) (leg : Nat) : Nat := rateOver d.beat 60 (d.gov leg).audio
def Dev.rtxRate (d : Dev) (leg : Nat) : Nat := rateOver d.beat 60 (d.gov leg).rtx

/-- RTX rate within a beat: of the 60 beats that the present one ends (R152). -/
def Dev.rtxNow (d : Dev) (leg : Nat) : Nat := rateOver (d.beat + 1) 60 (d.gov leg).rtx

/-- A departure joins its beat's group; the last 64 groups are kept. -/
def noteGroup (gs : List Grp) (beat ns : Nat) : List Grp :=
  match gs with
  | g :: rest => if g.beat = beat then { g with sent := g.sent + 1, dep := max g.dep ns } :: rest
                 else ({ beat := beat, sent := 1, dep := ns } :: gs).take 64
  | [] => [{ beat := beat, sent := 1, dep := ns }]

/-- Note a departure toward a leg: its bytes by kind, and with TWCC its number and stamp in the departure ring (R156). -/
def Dev.noteDeparture (d : Dev) (leg : Nat) (tw : Option Nat) (ns bytes : Nat) (audio rtx : Bool) : Dev :=
  let g := d.gov leg
  let g := if audio then { g with audio := (d.beat, bytes) :: recent d.beat 60 (·.1) g.audio } else g
  let g := if rtx then { g with rtx := (d.beat, bytes) :: recent d.beat 60 (·.1) g.rtx } else g
  let g :=
    match tw with
    | none => g
    | some n => { g with ring := ({ num := n, beat := d.beat, ns := ns, bytes := bytes } :: g.ring).take 1024,
                         groups := noteGroup g.groups d.beat ns }
  d.setGov leg g

/-! ### Feedback (R156, R158) -/

/-- Any feedback or report clears FEEDBACK_LOST; the target is rebuilt from where it stands. -/
def Dev.heardLeg (d : Dev) (leg : Nat) : Dev := d.setGov leg { d.gov leg with lost := false, lastFb := d.beat }

/-- What feedback reports of a departed packet: none not named by it, some none lost. -/
def toldOf (fb : List (Nat × Option Nat)) (num : Nat) : Option (Option Nat) :=
  (fb.find? (fun f => f.1 % 65536 == num % 65536)).map (·.2)

/-- The ring as the feedback leaves it: reported packets marked, their arrivals entered. -/
def markArrivals (ring : List Depart) (fb : List (Nat × Option Nat)) : List Depart :=
  ring.map (fun e =>
    match toldOf fb e.num with
    | some (some a) => { e with arr := some a, told := true }
    | some none => { e with told := true }
    | none => e)

/-- A group as the feedback leaves it: its packets newly reported, and its last arrival. -/
def tellGroup (ring : List Depart) (fb : List (Nat × Option Nat)) (g : Grp) : Grp :=
  let mine := ring.filter (fun e => e.beat == g.beat)
  let fresh := mine.filter (fun e => !e.told && (toldOf fb e.num).isSome)
  let arr := (mine.filterMap (fun e => (toldOf fb e.num).bind id)).foldl (fun (m : Option Nat) a => some (max (m.getD 0) a)) g.arr
  { g with told := g.told + fresh.length, arr := arr }

/-- The groups that feedback has reported whole, each with its last arrival; none for another group. -/
def Grp.whole (g : Grp) : Option (Nat × Nat) := if g.told = g.sent then g.arr.map (fun a => (g.dep, a)) else none

/-- Points (dep_last, acc) of R156, oldest group first: acc grows at each pair of consecutive groups that are both reported. -/
def accPoints : List Grp → Int → List (Nat × Int)
  | g :: h :: rest, acc =>
    match g.whole, h.whole with
    | some (dep', arr'), some (dep, arr) =>
      let acc := acc + (((arr : Int) - arr') - ((dep : Int) - dep'))
      (dep, acc) :: accPoints (h :: rest) acc
    | _, _ => accPoints (h :: rest) acc
  | _, _ => []

/-- The window of R156: the last 20 groups of (dep_last, acc); groups are given newest first. -/
def accWindow (gs : List Grp) : List (Nat × Int) := ((accPoints gs.reverse 0).reverse).take 20

/-- Least-squares slope of acc against dep_last, in parts per thousand; 0 where two different points are wanting. -/
def slope (pts : List (Nat × Int)) : Rat :=
  let n : Rat := pts.length
  let xs := pts.map (fun g => (g.1 : Rat))
  let ys := pts.map (fun g => (g.2 : Rat))
  let sx := xs.sum
  let sy := ys.sum
  let sxy := ((xs.zip ys).map (fun p => p.1 * p.2)).sum
  let sxx := (xs.map (fun x => x * x)).sum
  let den := n * sxx - sx * sx
  if den = 0 then 0 else (n * sxy - sx * sy) / den * 1000

/-- FREEZE: the estimator's state is kept (R159). -/
def Dev.frozen (d : Dev) (leg : Nat) : Bool := (d.legEnt leg).b 0 25

/-- Transport-wide feedback: numbers with their arrivals (R156). A number no longer in the ring is ignored and counted. -/
def Dev.twccFeedback (d : Dev) (leg : Nat) (fb : List (Nat × Option Nat)) : Dev :=
  let d := (d.heardLeg leg).legCount 2 1
  let g := d.gov leg
  let inRing := fun (f : Nat × Option Nat) => g.ring.any (fun e => e.num % 65536 == f.1 % 65536)
  let late := (fb.filter (fun f => !inRing f)).length
  let known := fb.filter inRing
  if d.frozen leg then d.legCount 7 late
  else
    let fresh := g.ring.filter (fun e => e.arr.isNone && known.any (fun f => f.2.isSome && f.1 % 65536 == e.num % 65536))
    let groups := g.groups.map (tellGroup g.ring known)
    let lost := (known.filter (fun f => f.2.isNone)).length
    let g := { g with
      ring := markArrivals g.ring known, groups := groups, grad := slope (accWindow groups),
      acks := (d.beat, (fresh.map (·.bytes)).sum) :: recent d.beat 30 (·.1) g.acks,
      losses := (d.beat, lost, known.length) :: recent d.beat 60 (·.1) g.losses }
    (d.setGov leg g).legCount 7 late

/-- DT in units of 1/65,536 s: seconds above bit 16. -/
def Dev.ntpMid (d : Dev) : Nat := clkSec d.tim.dt * 65536 + d.dtNs * 65536 / 1000000000

/-- A report block naming one of the leg's streams: fraction lost, LSR and DLSR (R154). -/
def Dev.reportBlock (d : Dev) (leg fraction lsr dlsr : Nat) : Dev :=
  let d := d.heardLeg leg
  if d.frozen leg then d
  else
    let g := d.gov leg
    let g := if (d.legEnt leg).b 0 27 then g else { g with losses := [(d.beat, fraction, 256)] }
    if lsr = 0 then d.setGov leg g
    else
      let rtt := toField 32 ((d.ntpMid % 2 ^ 32 : Nat) - (lsr : Int) - dlsr) * 1000000 / 65536
      (d.setGov leg { g with rtt := rtt }).legCount 6 1

/-! ### The update (R157) -/

/-- Preset parameters: θ in parts per thousand, HOLD, β, MI in parts per thousand per second (Table 7.6). -/
def preset (k : Nat) : Rat × Nat × Rat × Nat :=
  match k with
  | 1 => (20, 12, 9 / 10, 50)
  | 2 => (6, 3, 4 / 5, 150)
  | _ => (10, 6, 17 / 20, 80)

/-- The parameters in force: the preset's, or LEG_EST_CFG's (R159), and PACE. -/
def Dev.estParams (d : Dev) (leg : Nat) : Rat × Nat × Rat × Nat × Rat :=
  let (th, hold, beta, mi) := preset ((d.legEnt leg).f 0 30 28)
  let c := d.reg Reg.LEG_EST_CFG
  (if bits c 31 24 = 0 then th else (bits c 31 24 : Rat) / 2, hold,
   if bits c 23 16 = 0 then beta else (bits c 23 16 : Rat) / 256,
   if bits c 15 8 = 0 then mi else bits c 15 8,
   if bits c 7 0 = 0 then 5 / 4 else (bits c 7 0 : Rat) / 64)

/-- RTT in beats, at least 6: whether at least that many beats have passed. -/
def rttPassed (beats rtt : Nat) : Bool := decide (6 ≤ beats) && decide (3 * rtt ≤ beats * 5000)

/-- A rate clamped to [FLOOR, CAP], or to the port's rate where CAP is 0 (R155), in b/s. -/
def Dev.clampRate (d : Dev) (leg : Nat) (r : Rat) : Nat :=
  let e := d.legEnt leg
  let cap := if e.f 1 31 16 = 0 then portRate ((d.egsLeg leg).f 0 12 10) * 1000000000 else e.f 1 31 16 * 8000
  max (e.f 1 15 0 * 8000) (min cap r.floor.toNat)

/-- Start a leg's governor at START. -/
def Dev.startGov (d : Dev) (leg : Nat) : Dev :=
  let start := (d.legEnt leg).f 2 15 0 * 8000
  let t := d.clampRate leg start
  let p := ((t : Rat) * (d.estParams leg).2.2.2.2).floor.toNat
  d.setGov leg { rd := start, rl := start, rLast := start, target := t, nextTarget := t, pacing := p, nextPacing := p,
                 lastFb := d.beat, lastHalve := d.beat }

/-- Loss over the window: lost packets and packets reported. -/
def lossOf (beat : Nat) (twcc : Bool) (g : Gov) : Nat × Nat :=
  let l := if twcc then lastBeats beat 60 (·.1) g.losses else g.losses
  ((l.map (·.2.1)).sum, (l.map (·.2.2)).sum)

/-- (1 + MI)^(1/600), MI in parts per thousand (R157): its first 32 bits below the point, found from the highest, and an open rest. -/
def rootBits (mi : Nat) : Nat :=
  ((List.range 22).map (21 - ·)).foldl (fun k b =>
    if (2 ^ 32 + k + 2 ^ b) ^ 600 * 1000 ≤ (1000 + mi) * 2 ^ 19200 then k + 2 ^ b else k) 0

def rootGrowth (mi : Nat) : Rat := 1 + (rootBits mi : Nat) / (2 ^ 32 : Rat) + (Config.rootRest mi % 2 ^ 32 : Nat) / (2 ^ 64 : Rat)

/-- The rate the estimators give: the smaller of the two, or the loss-based one alone where TWCC is 0. -/
def Gov.rate (g : Gov) (twcc : Bool) : Rat := if twcc && decide (g.rd < g.rl) then g.rd else g.rl

/-- A target and pacing rate for the next beat: TARGET_OVR stands in for the rate computed, and either is clamped (R155, R159). -/
def Dev.aimLeg (d : Dev) (leg : Nat) (g : Gov) (r : Rat) : Dev :=
  let ovr := (d.legEnt leg).f 7 15 0
  let t := d.clampRate leg (if ovr = 0 then r else ((ovr * 8000 : Nat) : Rat))
  let p := ((t : Rat) * (d.estParams leg).2.2.2.2).floor.toNat
  d.setGov leg { g with nextTarget := t, nextPacing := p }

/-- One governor's update: use, delay-based and loss-based rates, target and pacing of the next beat. -/
def Dev.govUpdate (d : Dev) (leg : Nat) : Dev :=
  let e := d.legEnt leg
  let g := d.gov leg
  let g := { g with target := g.nextTarget, pacing := g.nextPacing }
  if e.b 0 25 then d.aimLeg leg g g.target
  else if g.lost then d.aimLeg leg g (g.rate (e.b 0 27))
  else
    let twcc := e.b 0 27
    let (th, hold, beta, mi, _) := d.estParams leg
    let excess := decide (th < g.grad)
    let since := if excess then some (g.overSince.getD d.beat) else none
    let useOver := match since with | some s => decide (s + hold ≤ d.beat + 1) | none => false
    let useUnder := decide (g.grad < -th)
    let rAck : Rat := ((lastBeats d.beat 30 (·.1) g.acks).map (·.2)).sum * 160
    let g := { g with overSince := since }
    let decrease := twcc && useOver && rttPassed (d.beat - g.lastDecrease) g.rtt
    let g :=
      if !twcc then g
      else if decrease then
        { g with rd := beta * rAck, rLast := beta * rAck, lastDecrease := d.beat, st := 2 }
      else if useUnder ∨ (g.st = 2 ∧ useOver = true) then { g with st := 1 }
      else
        let diff := if g.rd ≤ g.rLast then g.rLast - g.rd else g.rd - g.rLast
        let rd := if diff ≤ 3 / 20 * g.rLast then g.rd + 9600 * (1666667 / ((max 1 g.rtt * 1000 : Nat) : Rat))
                  else g.rd * rootGrowth mi
        let rd := if 3 / 2 * rAck < rd then 3 / 2 * rAck else rd
        { g with st := 0, rd := rd }
    let (lost, seen) := lossOf d.beat twcc g
    let p : Rat := if seen = 0 then 0 else (lost : Rat) / (seen : Nat)
    let g :=
      if g.lossNext ≤ d.beat then
        let rl :=
          if 1 / 10 < p then g.rl * (1 - 1 / 2 * p)
          else if p < 1 / 50 then (if twcc && decide (g.rl < g.rd) then g.rd else g.rl) * (21 / 20)
          else g.rl
        { g with rl := rl, lossNext := d.beat + max 1 (ceilDiv (3 * g.rtt) 5000) }
      else g
    let g := { g with loss := (p * 1000).floor.toNat }
    let d := d.aimLeg leg g (g.rate twcc)
    if decrease then (d.legCount 0 1).raiseOnce Src.LEG_OVERUSE leg else d

/-- Legs in use. -/
def Dev.legs (d : Dev) : List Nat := ((d.entries .leg 0).filter (fun p => p.2.b 0 31)).map (·.1)

/-! ### Commands -/

/-- LEG_FEEDBACK_TIMEOUT (R158). -/
def legFeedbackTimeout (leg : Nat) (d : Dev) : Dev :=
  let g := d.gov leg
  if d.legValid leg && !g.lost && decide (g.lastFb + d.fld Reg.LEG_FB_TIMEOUT 15 0 ≤ d.beat) then
    ((d.setGov leg { g with lost := true, lastHalve := d.beat }).legCount 1 1).raise Src.LEG_FEEDBACK_LOST leg
  else d

/-- FEEDBACK_LOST_HALVE (R158): every 600 beats the rate halves, down to FLOOR, from the next beat (R155); the target of a leg with FREEZE
holds (R159). -/
def feedbackLostHalve (leg : Nat) (d : Dev) : Dev :=
  let g := d.gov leg
  if g.lost && !(d.legEnt leg).b 0 25 && decide (g.lastHalve + 600 ≤ d.beat) then
    let t : Rat := d.clampRate leg (g.rate ((d.legEnt leg).b 0 27) / 2)
    d.aimLeg leg { g with rd := t, rl := t, rLast := t, lastHalve := d.beat } t
  else d

/-- TWCC_FEEDBACK_GENERATE (R154): arrivals received from the leg and not yet reported, every FB_INTERVAL beats. -/
def twccFeedbackGenerate (leg : Nat) (d : Dev) : Dev :=
  let g := d.gov leg
  if d.legValid leg && (d.legEnt leg).b 0 27 && decide (g.fbSent + d.fld Reg.FWD_RTCP_CFG 7 0 ≤ d.beat) then
    let arr := g.arrivals.reverse
    let d := d.setGov leg { g with arrivals := [], fbSent := d.beat }
    (d.sendCtrl leg (.twcc leg arr) (15 :: leg :: arr.flatMap (fun a => [a.1, a.2]))).legCount 3 1
  else d

/-- A leg entry as read: its read-only words from the governor. -/
def Dev.legView (d : Dev) (leg : Nat) : Entry :=
  let e := d.legEnt leg
  let g := d.gov leg
  let grad := toField 16 (g.grad * 10).floor
  { e with d4 := BitVec.ofNat 32 (g.target / 1000), d5 := BitVec.ofNat 32 (g.pacing / 1000),
           d6 := BitVec.ofNat 32 (g.st * 2 ^ 30 + g.loss % 1024 * 2 ^ 20 + g.rtt % 2 ^ 20),
           d7 := BitVec.ofNat 32 (grad * 65536 + e.f 7 15 0) }

def legTabRead (v : Word) (d : Dev) : Dev :=
  tabReadOp Reg.LEG_TAB_CMD Reg.LEG_TAB_ADDR Reg.LEG_TAB_DATA 8 13 (pastEnd fun _ => 16384) (fun d _ i => d.legView i) 1 v d

/-- The fields of a leg entry that a write keeps (Table 7.12); reserved codes keep their fields. -/
def legWrite (old n : Entry) : Entry :=
  Entry.legal old { d0 := n.d0 &&& 0xFEFF0000, d1 := n.d1, d2 := n.d2, d3 := n.d3, d7 := n.d7 &&& 0xFFFF }
    [(0, 30, 28, [(0, 2)]), (2, 31, 24, [(0, 50)]), (2, 23, 16, [(0, 50)])]

/-- LEG_TAB_WRITE (R161): reserved PRESET, RTX_CAP and UP_HEADROOM keep their fields; a leg that comes into use starts at
START. -/
def legTabWrite (v : Word) (d : Dev) : Dev :=
  let d := d.tabCmd Reg.LEG_TAB_CMD v
  let i := d.fld Reg.LEG_TAB_ADDR 13 0
  let n := d.dataEntry Reg.LEG_TAB_DATA
  let old := d.legEnt i
  let e := legWrite old n
  let d := d.setEnt .leg 0 i e
  let d := if e.b 0 31 && !old.b 0 31 then d.startGov i else d
  d.tabErr Reg.LEG_TAB_CMD 0

end Sys2Proof.Machine
end

