-- ==== Sys2Proof/Machine/Forward.lean ====
section
/-! DEFINITION. The forwarding unit (chapter 7): rates of operating points, the choice for each receiver, switching, key
requests, rewriting numbers, retransmission, RTCP, and FWD_TAB. -/

namespace Sys2Proof.Machine
open Sys2Proof

def Dev.fwdCount (d : Dev) (c n : Nat) : Dev := d.cnt Reg.FWD_CNT_LO c n

/-- Forwarding entry of a brood (Table 7.7), of a subscription (Table 7.8) and of a flock. -/
def Dev.broodEnt (d : Dev) (b : Nat) : Entry := d.ent .fwd 0 b
def Dev.subEnt (d : Dev) (s : Nat) : Entry := d.ent .fwd 1 s
def Dev.flockFwd (d : Dev) (f : Nat) : Entry := d.ent .fwd 2 f

def Dev.brood (d : Dev) (b : Nat) : Brood := (tabFind d.fwd.broods b).getD {}
def Dev.setBrood (d : Dev) (b : Nat) (v : Brood) : Dev := { d with fwd := { d.fwd with broods := recSet d.fwd.broods b v } }
def Dev.sub (d : Dev) (s : Nat) : Sub := (tabFind d.fwd.subs s).getD {}
def Dev.setSub (d : Dev) (s : Nat) (v : Sub) : Dev := { d with fwd := { d.fwd with subs := recSet d.fwd.subs s v } }

/-! ### Operating points (R138, R139) -/

def brStruct (e : Entry) : Nat := e.f 0 27 26
def brLayers (e : Entry) : Nat := if brStruct e = 0 then 1 else e.f 0 25 24 + 1
def brTemporal (e : Entry) : Nat := if brStruct e = 0 then 1 else e.f 0 23 22 + 1

def opPoints (e : Entry) : List (Nat × Nat) :=
  (List.range (brLayers e)).flatMap (fun s => (List.range (brTemporal e)).map (fun t => (s, t)))

/-- Width and height of layer or encoding s. -/
def brSize (e : Entry) (s : Nat) : Nat × Nat := (e.f (2 + s) 31 16, e.f (2 + s) 15 0)

/-- Beats per picture of a point: the cadence doubles with each temporal layer left out. -/
def opCadence (e : Entry) (t : Nat) : Nat := e.f 5 7 0 * 2 ^ (brTemporal e - 1 - t)

/-- Whether a packet's layer belongs to a point. -/
def inPoint (struct : Nat) (pt lay : Nat × Nat) : Bool :=
  match struct with
  | 0 => true
  | 1 => decide (lay.1 ≤ pt.1) && decide (lay.2 ≤ pt.2)
  | _ => decide (lay.1 = pt.1) && decide (lay.2 ≤ pt.2)

/-- Rate of a point over the last 120 beats, in b/s. -/
def Dev.opRate (d : Dev) (b : Nat) (pt : Nat × Nat) : Nat :=
  let st := brStruct (d.broodEnt b)
  (((lastBeats d.beat 120 (·.1) (d.brood b).window).filter (fun w => inPoint st pt (w.2.1, w.2.2.1))).map (·.2.2.2)).sum * 40

/-- A point is available while packets of its own top layer were received in the last 120 beats. -/
def Dev.opAvailable (d : Dev) (b : Nat) (pt : Nat × Nat) : Bool :=
  let st := brStruct (d.broodEnt b)
  (lastBeats d.beat 120 (·.1) (d.brood b).window).any (fun w => st == 0 || (w.2.1, w.2.2.1) == pt)

def Dev.broodIdle (d : Dev) (b : Nat) : Bool := !(opPoints (d.broodEnt b)).any (fun p => d.opAvailable b p)

/-- Place of a point in the rising quality order: below MIN_FPS first, then resolution, then frame rate (R140). -/
def opScore (e : Entry) (minCad : Nat) (pt : Nat × Nat) : Nat :=
  let (w, h) := brSize e pt.1
  let cad := opCadence e pt.2
  (if cad ≤ minCad then 2 ^ 60 else 0) + w * h * 2 ^ 20 + (2 ^ 20 - cad)

def Dev.minCad (d : Dev) (s : Nat) : Nat :=
  let own := (d.subEnt s).f 0 23 16
  if own = 0 then d.fld Reg.FWD_SPK_CFG 31 24 else own

/-! ### The speaker and the tile (R142) -/

/-- A flock's current speaker, if it has one: fixed by the host, or the latest chosen. -/
def Dev.speaker (d : Dev) (flock : Nat) : Option Nat :=
  let e := d.flockFwd flock
  if e.b 0 31 then some (e.f 1 15 0) else (tabFind d.fwd.speaker flock).map (·.1)

/-- SPEAKER_BROOD; 0 where there is none. -/
def Dev.speakerOf (d : Dev) (flock : Nat) : Nat := (d.speaker flock).getD 0

/-- The first audio brood of a flock's TALKERS selection names the speaker: its paired video brood; at most one change in
SPK_MIN_HOLD beats. -/
def Dev.chooseSpeaker (d : Dev) (flock audio : Nat) : Dev :=
  let v := (d.broodEnt audio).f 6 15 0
  match tabFind d.fwd.speaker flock with
  | some (cur, since, _) =>
    if cur = v ∨ d.beat < since + d.fld Reg.FWD_SPK_CFG 11 0 then d
    else { d with fwd := { d.fwd with speaker := recSet d.fwd.speaker flock (v, d.beat, cur) } }
  | none => { d with fwd := { d.fwd with speaker := recSet d.fwd.speaker flock (v, d.beat, 65536) } }

/-- The current and the previous speaker of a flock; none where none has been chosen. While the host fixes the speaker, the previous one
is the latest chosen, unless that is the one fixed. -/
def Dev.speakers (d : Dev) (flock : Nat) : Option Nat × Option Nat :=
  let e := d.flockFwd flock
  let some16 := fun (b : Nat) => if b < 65536 then some b else none
  match tabFind d.fwd.speaker flock with
  | some (c, _, p) =>
    if e.b 0 31 then (some (e.f 1 15 0), if c = e.f 1 15 0 then some16 p else some c) else (some c, some16 p)
  | none => (if e.b 0 31 then some (e.f 1 15 0) else none, none)

/-- The brood a tile draws (R191, R201). -/
def tileBrood (swap : Bool) (spk : Option Nat × Option Nat) (t : Entry) : Option Nat :=
  match t.f 2 31 30 with
  | 0 => if swap && spk.1 == some (t.f 2 15 0) then spk.2 else some (t.f 2 15 0)
  | 1 => spk.1
  | _ => none

/-- A flock that forwards in place of composing (R340). -/
def Dev.fallback (d : Dev) (f : Nat) : Bool := (d.ent .tsk 0 f).b 0 25

/-- A flock's composing is stopped: by a stage that gates its region's blocks, with its region FAILED, or by a reload. -/
def Dev.composeStopped (d : Dev) (f : Nat) : Bool :=
  let r := (d.ent .tsk 0 f).f 0 27 26
  decide (4 ≤ d.stage) || (decide (3 ≤ d.stage) && decide (2 ≤ r)) || (tabFind d.cfg.demoted f).isSome ||
  decide (d.fld (Reg.CFG_REGION_STAT + 4 * (r + 2)) 11 8 = 7)

/-- The brood served to a subscription: the speaker's in place of an ENCODED brood of a flock in FALLBACK (R340). -/
def Dev.subBrood (d : Dev) (s : Nat) : Nat :=
  let b := (d.subEnt s).f 0 15 0
  let e := d.broodEnt b
  if e.b 0 18 && (brSize e 0).1 != 0 && d.fallback (e.f 1 11 0) then (d.speaker (e.f 1 11 0)).getD b else b

/-- The brood whose packets it is sent now. -/
def Dev.sentBrood (d : Dev) (s : Nat) : Nat := ((d.sub s).was).getD (d.subBrood s)

def Dev.subFlock (d : Dev) (s : Nat) : Nat := (d.broodEnt ((d.subEnt s).f 0 15 0)).f 1 11 0

def Dev.isSpeaker (d : Dev) (s : Nat) : Bool := d.speaker (d.subFlock s) == some ((d.subEnt s).f 0 15 0)

def Dev.tileOf (d : Dev) (s : Nat) : Nat × Nat :=
  let e := d.subEnt s
  let w := if e.f 0 27 26 = 1 ∧ d.isSpeaker s then 5 else 4
  (e.f w 31 16, e.f w 15 0)

/-! ### Key requests (R145) -/

/-- A change is pending: by the state in force, or by the evaluation of this beat. -/
def Sub.pending (st : Sub) : Bool :=
  st.st == 2 || st.st == 3 || (match st.eval with | some (n, _) => n == 2 || n == 3 | none => false)

/-- Every subscription with a change pending on a brood counts a request that leaves for it. -/
def Dev.countRequest (d : Dev) (b : Nat) : Dev :=
  foldDev (tabKeys d.fwd.subs) (fun s d =>
    let st := d.sub s
    if d.subBrood s = b ∧ st.pending = true then d.setSub s { st with reqs := st.reqs + 1 } else d) d

/-- A request leaves: to the device's own encoder, with the next DEMAND of a relayed brood (R320), or to the source leg as PLI or
FIR. -/
def Dev.sendKeyReq (d : Dev) (b enc : Nat) (need : Bool) : Dev :=
  let e := d.broodEnt b
  let st := d.brood b
  let d := ((d.setBrood b { st with reqLast := some d.beat, reqEnc := enc,
                                          reqWant := st.reqWant.filter (fun w => w.1 != enc) }).fwdCount 2 1).countRequest b
  let d := d.raiseOnce Src.KEYREQ_SENT b
  if e.b 0 18 then d.push (.keyReq b enc need)
  else if (d.relayLink (e.f 0 13 0)).isSome then { d with mul := { d.mul with asks := recSet d.mul.asks b enc } }
  else if e.b 0 19 then
    let d := d.setBrood b { d.brood b with firSeq := (st.firSeq + 1) % 256 }
    d.sendCtrl (e.f 0 13 0) (.fir b enc ((st.firSeq + 1) % 256)) [4, b, enc, (st.firSeq + 1) % 256]
  else d.sendCtrl (e.f 0 13 0) (.pli b enc) [1, b, enc]

/-- The gap since the last request for a brood has ended. -/
def Dev.gapOver (d : Dev) (b : Nat) : Bool :=
  match (d.brood b).reqLast with | some l => decide (l + d.fld Reg.FWD_CFG 25 16 ≤ d.beat) | none => true

/-- KEYREQ_GAP_EXPIRY: of the merged requests that name another encoding, the oldest is sent when the gap ends. -/
def keyreqGapExpiry (b : Nat) (d : Dev) : Dev :=
  match (d.brood b).reqWant with
  | (enc, need) :: _ => if d.gapOver b then d.sendKeyReq b enc need else d
  | [] => d

/-- A request joins those merged; one for an encoding already among them adds what it needs. -/
def mergeWant (ws : List (Nat × Bool)) (enc : Nat) (need : Bool) : List (Nat × Bool) :=
  if ws.any (fun w => w.1 == enc) then ws.map (fun w => if w.1 = enc then (enc, w.2 || need) else w) else ws ++ [(enc, need)]

/-- A request for a brood: merged within KEYREQ_GAP of the last one sent. NEED_KEY (chapter 10): it comes from a pending change of
encoding or spatial layer, or from a resume. -/
def Dev.keyRequest (d : Dev) (b enc : Nat) (need : Bool) : Dev :=
  let d := keyreqGapExpiry b d
  if d.gapOver b then d.sendKeyReq b enc need
  else
    let st := d.brood b
    let d := d.fwdCount 3 1
    if enc ≠ st.reqEnc then d.setBrood b { st with reqWant := mergeWant st.reqWant enc need } else d

/-- KEYREQ_WAIT_EXPIRY: a pending change that has found no switching point in KEYREQ_WAIT beats. -/
def keyreqWaitExpiry (s : Nat) (d : Dev) : Dev :=
  let st := d.sub s
  if (st.st = 2 ∨ st.st = 3) ∧ !st.asked ∧ st.pendSince + d.fld Reg.FWD_CFG 9 0 ≤ d.beat then
    (d.setSub s { st with asked := true }).keyRequest (d.subBrood s) st.tgt.1
      (!st.sending || st.was.isSome || st.tgt.1 != st.cur.1)
  else d

/-! ### The evaluation (R140, R141, R145 to R147) -/

def Dev.subsOf (d : Dev) (leg : Nat) : List Nat :=
  ((d.entries .fwd 1).filter (fun p => p.2.b 0 31 && decide (p.2.f 1 29 16 = leg))).map (·.1)

/-- Candidates of a subscription in rising quality order. -/
def Dev.candidates (d : Dev) (s : Nat) : List (Nat × Nat) :=
  let e := d.subEnt s
  let b := d.subBrood s
  let be := d.broodEnt b
  let (tw, th) := d.tileOf s
  let le := d.legEnt (e.f 1 29 16)
  let w := min tw (le.f 3 31 16)
  let h := min th (le.f 3 15 0)
  let cap := e.f 7 7 0
  let ok := fun (p : Nat × Nat) =>
    p == (0, 0) || (d.opAvailable b p && decide ((brSize be p.1).1 ≤ w) && decide ((brSize be p.1).2 ≤ h) &&
      (cap == 0 || decide (cap ≤ opCadence be p.2)))
  sortBy (fun a b => decide (opScore be (d.minCad s) a ≤ opScore be (d.minCad s) b)) ((opPoints be).filter ok)

/-- The order of the leg's active subscriptions: speaker first, then PRIORITY, then id. -/
def Dev.evalOrder (d : Dev) (leg : Nat) : List Nat :=
  let act := (d.subsOf leg).filter (fun s => !(d.subEnt s).b 0 24 && !d.broodIdle (d.subBrood s))
  let key := fun s => (if d.isSpeaker s then 0 else 1) * 8 + (7 - (d.subEnt s).f 0 30 28)
  sortBy (fun a b => decide (key a ≤ key b)) act

/-- First pass: base layers; answers each subscription's grant of its base and what is left. -/
def Dev.grantBase (d : Dev) (subs : List Nat) (avail : Int) : List (Nat × Bool) × Int :=
  subs.foldl (fun acc s =>
    let r : Int := d.opRate (d.subBrood s) (0, 0)
    if r ≤ acc.2 then (acc.1 ++ [(s, true)], acc.2 - r) else (acc.1 ++ [(s, false)], acc.2)) ([], avail)

/-- Second pass: raise each subscription that has its base. -/
def Dev.grantRaise (d : Dev) (headroom : Nat) (base : List (Nat × Bool)) (avail : Int) :
    List (Nat × Option (Nat × Nat)) × Int :=
  base.foldl (fun acc x =>
    if !x.2 then (acc.1 ++ [(x.1, none)], acc.2)
    else
      let s := x.1
      let b := d.subBrood s
      let r0 : Int := d.opRate b (0, 0)
      let cur := (d.sub s).cur
      let best := (d.candidates s).foldl (fun best op =>
        let inc : Int := d.opRate b op - r0
        if inc * 100 ≤ acc.2 * (100 - headroom) ∨ (op = cur ∧ (d.sub s).sending ∧ (d.sub s).was.isNone ∧ inc ≤ acc.2) then op else best) (0, 0)
      (acc.1 ++ [(s, some best)], acc.2 - (d.opRate b best - r0))) ([], avail)

/-- Make a subscription's next state; a new pending change, or another in place of the one pending, starts its wait (R143, R145). -/
def Dev.setEval (d : Dev) (s n : Nat) (tgt : Nat × Nat) : Dev :=
  let st := d.sub s
  let fresh := (n == 2 || n == 3) && !((st.st == 2 || st.st == 3) && st.tgt == tgt)
  let st := { st with eval := some (n, tgt) }
  d.setSub s (if fresh then { st with pendSince := d.beat, asked := false, reqs := 0, starved := false } else st)

/-- The subscription becomes SUSPENDED: counted on each entry to that state (R146). -/
def Dev.noteSuspended (d : Dev) (s : Nat) : Dev :=
  if (d.sub s).st = 4 then d else (d.fwdCount 7 1).raiseOnce Src.SUB_SUSPENDED s

/-- The request that a pending change raises at once (R145). -/
def Dev.askNow (d : Dev) (s b enc : Nat) : Dev :=
  if (d.sub s).asked then d else (d.setSub s { d.sub s with asked := true }).keyRequest b enc true

/-- What an evaluation means for one subscription. -/
def Dev.evalSub (d : Dev) (s : Nat) (grant : Option (Nat × Nat)) (left : Int) : Dev :=
  let e := d.subEnt s
  let b := d.subBrood s
  let be := d.broodEnt b
  let st := d.sub s
  if e.b 0 24 then d.setEval s 5 st.cur
  else if b ≠ e.f 0 15 0 ∧ be.f 0 30 28 ≠ (d.broodEnt (e.f 0 15 0)).f 0 30 28 then (d.noteSuspended s).setEval s 4 st.cur
  else if d.broodIdle b then d.setEval s 0 st.cur
  else
    match grant with
    | none => (d.noteSuspended s).setEval s 4 st.cur
    | some best =>
      let tile := d.tileOf s
      let spk := d.speakerOf (d.subFlock s)
      let free := tile ≠ st.lastTile ∨ spk ≠ st.lastSpk
      let d := d.setSub s { st with lastTile := tile, lastSpk := spk, grant := d.opRate b best }
      if st.was.isSome then d.setEval s 2 best
      else if !st.sending then (d.setEval s 2 (0, 0)).askNow s b 0
      else
        let sc := opScore be (d.minCad s)
        if best = st.cur then (d.setSub s { d.sub s with candRuns := 0 }).setEval s 1 st.cur
        else if sc best < sc st.cur then
          let d := (d.setSub s { d.sub s with candRuns := 0 }).setEval s 3 best
          let thin : Int := d.opRate b (st.cur.1, 0)
          if brStruct be = 2 ∧ best.1 ≠ st.cur.1 ∧ (d.opRate b best : Int) + left < thin then d.askNow s b best.1 else d
        else
          let runs := if st.cand = best then st.candRuns + 1 else 1
          let d := d.setSub s { d.sub s with cand := best, candRuns := runs }
          if (st.st = 2 ∧ st.tgt = best) ∨ free ∨ d.fld Reg.FWD_SPK_CFG 23 16 ≤ runs then d.setEval s 2 best else d

/-- The forwarding unit's evaluation for one leg (R140). -/
def Dev.evalLeg (d : Dev) (leg : Nat) : Dev :=
  let order := d.evalOrder leg
  let avail : Int := ((d.gov leg).nextTarget : Int) - d.audioRate leg - d.rtxRate leg
  let (base, a1) := d.grantBase order avail
  let (grants, left) := d.grantRaise ((d.legEnt leg).f 2 23 16) base a1
  foldDev (d.subsOf leg) (fun s d => d.evalSub s ((grants.find? (fun g => g.1 == s)).bind (·.2)) left) d

/-- FCLK 0 of a beat: the previous beat's evaluation comes into force (R147), and a change still pending after three
requests is reported. -/
def Dev.adoptEval (d : Dev) (s : Nat) : Dev :=
  let st := d.sub s
  let st' :=
    match st.eval with
    | none => st
    | some (n, tgt) =>
      let on := decide (n ≠ 0 ∧ n ≠ 4 ∧ n ≠ 5)
      { st with st := n, tgt := tgt, eval := none, sending := st.sending && on, was := if on then st.was else none }
  let starve := (st'.st == 2 || st'.st == 3) && decide (3 ≤ st'.reqs) && !st'.starved
  let d := d.setSub s { st' with starved := st'.starved || starve }
  if starve then d.raise Src.SWITCH_STARVED s else d

/-! ### Switching and rewriting (R143, R144, R148 to R150) -/

/-- The current point becomes the target, at a picture; what it replaced is kept while the picture arrives (R144). -/
def Dev.switchSub (d : Dev) (s : Nat) (it : Item) : Dev :=
  let st := d.sub s
  let be := d.broodEnt (d.subBrood s)
  let up := !st.sending || st.was.isSome || decide (opScore be (d.minCad s) st.cur < opScore be (d.minCad s) st.tgt)
  let st' := { st with cur := st.tgt, st := 1, sending := true, was := none, fresh := true, candRuns := 0,
                       lastTile := if st.sending then st.lastTile else (0, 0),
                       undo := some { brood := it.md.brood, stream := it.md.stream, ts := it.md.ts, cur := st.cur, st := st.st,
                                      sending := st.sending, was := st.was } }
  (d.setSub s st').fwdCount (if up then 0 else 1) 1

/-- A packet of the picture that a subscription switched at is FAIL: the picture was no switching point, and the change is pending
again (R144). -/
def Dev.undoSwitch (d : Dev) (s b strm ts : Nat) : Dev :=
  let st := d.sub s
  match st.undo with
  | none => d
  | some u =>
    if u.brood ≠ b ∨ u.stream ≠ strm ∨ u.ts ≠ ts then d
    else
      let key := b * 16 + strm
      let pt := if u.sending && u.was.isNone && (brStruct (d.broodEnt b) != 2 || u.cur.1 == strm) then some u.cur else none
      let pics := ((tabFind st.pics key).getD []).map (fun p => if p.ts = ts then { p with pt := pt } else p)
      let st := { st with tgt := st.cur, cur := u.cur, st := u.st, sending := u.sending, was := u.was, undo := none,
                          pics := recSet st.pics key pics }
      d.setSub s { st with eval := none }

/-- Key picture, by the codec's own marks; an audio packet needs none. -/
def isKeyItem (be : Entry) (it : Item) (payload : List Byte) : Bool :=
  it.md.kind == 1 || it.md.keyed.getD (Config.isKeyPicture (be.f 0 30 28) (payload.drop it.md.rtpOfs))

/-- The point in force for a picture that begins with this packet, after any switch it brings; none: not sent. Of a target lower in one
dimension and higher in the other, the lower part takes effect at once (R143). -/
def Dev.decidePicture (d : Dev) (s : Nat) (it : Item) (key : Bool) : Option (Nat × Nat) × Dev :=
  let st := d.sub s
  let be := d.broodEnt it.md.brood
  let sim := brStruct be = 2
  let enc := if sim then it.md.stream else it.md.layer / 64 % 4
  let tl := it.md.layer / 8 % 8
  let sw := it.md.layer.testBit 2
  let key := key && !(d.brood it.md.brood).bad.contains (it.md.stream, it.md.ts)
  let force := fun (d : Dev) =>
    let st := d.sub s
    if sim ∧ enc ≠ st.cur.1 then (none, d) else (some st.cur, d)
  if st.st ≠ 1 ∧ st.st ≠ 2 ∧ st.st ≠ 3 then (none, d)
  else if it.md.brood ≠ d.subBrood s then force d
  else if !st.sending ∨ st.was.isSome then
    if key ∧ (!sim ∨ enc = st.tgt.1) then force (d.switchSub s it) else (none, d)
  else if st.tgt = st.cur then force d
  else if sim ∧ st.tgt.1 ≠ st.cur.1 then
    if enc = st.tgt.1 ∧ key then force (d.switchSub s it)
    else if enc ≠ st.cur.1 then (none, d)
    else if st.st = 3 then (some (st.cur.1, 0), d)
    else (some st.cur, d)
  else if sim ∧ enc ≠ st.cur.1 then (none, d)
  else
    let okT := decide (st.tgt.2 ≤ st.cur.2) || key || (sw && decide (tl ≤ st.tgt.2))
    let okS := decide (st.tgt.1 ≤ st.cur.1) || key || (be.f 0 30 28 == 3 && Config.ddSwitch it.dd st.tgt.1 st.tgt.2)
    if okT && okS then force (d.switchSub s it)
    else if okT && decide (st.tgt.2 < st.cur.2) then force (d.setSub s { st with cur := (st.cur.1, st.tgt.2) })
    else if okS && decide (st.tgt.1 < st.cur.1) then force (d.setSub s { st with cur := (st.tgt.1, st.cur.2) })
    else force d

/-- Nanoseconds between two ingress stamps, each a beat and a nanosecond field: the fields differ by it but for whole seconds, which
the beats tell. -/
def stampDiff (later earlier : Nat × Nat) : Int :=
  let r : Int := ((later.2 : Int) - earlier.2) % 1000000000
  let est : Int := (((later.1 : Int) - earlier.1) * 5000000 + 1) / 3
  r + 1000000000 * ((2 * (est - r) + 1000000000) / 2000000000)

/-- RTP ticks of a time in ns, to the nearest. -/
def ticksOf (clock : Nat) (ns : Int) : Int := (2 * ns * clock + 1000000000) / 2000000000

/-- RTP clock of a brood: its codec's, of audio by the brood's audio entry (assumption 116). -/
def Dev.rtpClock (d : Dev) (b kind : Nat) : Nat :=
  if kind ≠ 1 then 90000
  else match (d.entries .aud 0).find? (fun p => p.2.b 0 31 && decide (p.2.f 0 15 0 = b)) with
    | some p => if p.2.f 0 30 28 = 0 then 48000 else 8000
    | none => 48000

def Item.stamp (it : Item) : Nat × Nat := (it.md.beat, it.desc.f 6 31 0)

/-- Outgoing number, timestamp and picture numbers of a forwarded packet of picture p; a change point is recorded where out − in or
the input stream changes (R148 to R150). -/
def Dev.number (d : Dev) (s : Nat) (it : Item) (miss : Nat) (p : Pic) : Dev :=
  let st := d.sub s
  let (r, d) := if st.started then (0, d) else d.drawBelow 65536
  let (t, d) := if st.started then (0, d) else d.drawBelow (2 ^ 32)
  let (n, d) := if st.started then (0, d) else d.drawBelow 65536
  let out := if st.started then (st.lastOut + 1 + miss) % 65536 else r
  let turn := !st.started || decide (st.inStream ≠ it.md.brood * 65536 + it.md.stream)
  let ofs :=
    if !st.started then toField 32 ((t : Int) - it.md.ts)
    else if turn then
      toField 32 ((st.lastOutTs : Int) + max 1 (ticksOf (d.rtpClock it.md.brood it.md.kind) (stampDiff (p.beat, p.ns) st.lastStamp)) - it.md.ts)
    else st.tsOfs
  let pic := if !st.started then n else if p.sent then st.outPic else (st.outPic + 1 + p.miss) % 65536
  let tl0Ofs := if turn && st.started then toField 8 ((st.lastTl0 : Int) + 1 - it.md.tl0.getD 0) else st.tl0Ofs
  let diff := fun (o i : Nat) => toField 16 ((o : Int) - i)
  let point := turn || (match st.points.head? with
    | some p => decide (diff out it.md.seq ≠ diff p.outSeq p.inSeq) || decide (p.stream ≠ it.md.stream) || decide (p.brood ≠ it.md.brood)
    | none => true)
  let cp : ChangePt := { brood := it.md.brood, stream := it.md.stream, outSeq := out, inSeq := it.md.seq, tsOfs := ofs,
                         picOfs := diff pic ((it.md.pic.map (·.1)).getD 0), tl0Ofs := tl0Ofs, fresh := st.fresh && !p.sent,
                         pt := p.pt.getD (0, 0) }
  d.setSub s { st with
    started := true, lastOut := out, tsOfs := ofs, inStream := it.md.brood * 65536 + it.md.stream,
    points := if point then (cp :: st.points).take 32 else st.points,
    lastOutTs := (it.md.ts + ofs) % 2 ^ 32, lastStamp := if p.sent then st.lastStamp else (p.beat, p.ns),
    outPic := pic, tl0Ofs := tl0Ofs, lastTl0 := match it.md.tl0 with | some v => (v + tl0Ofs) % 256 | none => st.lastTl0,
    pkts := st.pkts + 1, octets := st.octets + it.rtpLen }

/-- What R150 puts into a packet: picture number and TL0PICIDX where it carries them, whether it brings the template structure, and the
point its active decode targets are of. -/
def rwOf (it : Item) (pic tl0Ofs : Nat) (fresh : Bool) (pt : Nat × Nat) : List Nat :=
  [match it.md.pic with | some (_, m) => pic % m | none => 65536,
   match it.md.tl0 with | some v => (v + tl0Ofs) % 256 | none => 256, fresh.toNat, pt.1, pt.2]

/-- Descriptor of a REF to an item's cells toward a leg. -/
def refDesc (desc : Entry) (leg : Nat) : Entry := ((desc.setF 0 31 28 2).setF 2 13 0 leg).setB 0 22 false

/-- Queue a subscription's packet on an egress stream. -/
def Dev.sendRef (d : Dev) (stream : Nat) (it : Item) : Dev :=
  match d.streamQueue stream with
  | none => d
  | some q => (d.refPayload it.uid).enqueue q it

/-- A packet of a subscribed brood for one subscription: filtered, or forwarded with its numbers. -/
def Dev.forwardTo (d : Dev) (s : Nat) (it : Item) (miss picMiss : Nat) (key : Bool) : Dev :=
  let be := d.broodEnt it.md.brood
  let strm := it.md.brood * 16 + it.md.stream
  let (p, d) := match ((tabFind (d.sub s).pics strm).getD []).find? (fun p => p.ts == it.md.ts) with
    | some p => (p, d)
    | none =>
      let (pt, d) := d.decidePicture s it key
      (({ ts := it.md.ts, pt := pt, beat := it.stamp.1, ns := it.stamp.2, miss := picMiss } : Pic), d)
  let keep := fun (d : Dev) (p : Pic) =>
    let rest := ((tabFind (d.sub s).pics strm).getD []).filter (fun x => x.ts != p.ts)
    d.setSub s { d.sub s with pics := recSet (d.sub s).pics strm ((p :: rest).take 16) }
  let lay := (if brStruct be = 2 then it.md.stream else it.md.layer / 64 % 4, it.md.layer / 8 % 8)
  match p.pt with
  | none => keep d p
  | some pt =>
    if !inPoint (brStruct be) pt lay then keep d p
    else
      let d := d.number s it miss p
      let st := d.sub s
      let first := st.fresh && !p.sent
      let rw := rwOf it st.outPic st.tl0Ofs first pt
      let d := keep (if first then d.setSub s { st with fresh := false } else d) { p with sent := true }
      d.sendRef s { it with desc := refDesc it.desc ((d.subEnt s).f 1 29 16), sub := s, outSeq := st.lastOut, outTs := st.lastOutTs,
                            protect := true, rw := rw, dd := if first then (d.brood it.md.brood).dd else [] }

/-- A packet counts in its stream's reception statistics (RFC 3550, appendix A). -/
def InStat.take (s : InStat) (first : Bool) (it : Item) (clock : Nat) : InStat :=
  if first then { ssrc := it.md.ssrc, base := it.md.seq, high := it.md.seq, recv := 1, stamp := it.stamp, ts := it.md.ts }
  else
    let ahead := toField 16 ((it.md.seq : Int) - s.high)
    let dev := (ticksOf clock (stampDiff it.stamp s.stamp) - signed 32 (toField 32 ((it.md.ts : Int) - s.ts))).natAbs
    { s with ssrc := it.md.ssrc, high := if ahead < 32768 then s.high + ahead else s.high, recv := s.recv + 1,
             jitter := s.jitter + dev - (s.jitter + 8) / 16, stamp := it.stamp, ts := it.md.ts }

/-- Pictures of a stream not seen before the one a packet is of (R150), and the highest number after it. -/
def picsMissed (high : Option Nat) (pic : Option (Nat × Nat)) : Nat × Option Nat :=
  match pic, high with
  | some (n, m), some h =>
    let ahead := (n + m - h % m) % m
    if ahead = 0 ∨ m / 2 ≤ ahead then (0, some h) else (ahead - 1, some n)
  | some (n, _), none => (0, some n)
  | none, h => (0, h)

/-- Sequence tracking of a brood's input (R148, R150, R153, R154): numbers and pictures missed since the previous packet of the stream;
gaps open and close. A gap is forgotten where its number has come round again. -/
def Dev.trackInput (d : Dev) (it : Item) : (Nat × Nat) × Dev :=
  let b := it.md.brood
  let st := d.brood b
  let strm := it.md.stream
  let stat := tabFind st.stats strm
  let st : Brood := { st with stats := recSet st.stats strm ((stat.getD {}).take stat.isNone it (d.rtpClock b it.md.kind)) }
  match tabFind st.high strm with
  | none =>
    let (_, hp) := picsMissed none it.md.pic
    ((0, 0), d.setBrood b { st with high := recSet st.high strm it.md.seq,
                                    highPic := match hp with | some n => recSet st.highPic strm n | none => st.highPic })
  | some h =>
    let ahead := toField 16 ((it.md.seq : Int) - h)
    if ahead = 0 ∨ 32768 ≤ ahead then
      ((0, 0), d.setBrood b { st with gaps := st.gaps.filter (fun g => !(g.stream == strm && g.seqn == it.md.seq)) })
    else
      let miss := ahead - 1
      let (pm, hp) := picsMissed (tabFind st.highPic strm) it.md.pic
      let fresh := if it.md.kind = 2 then (List.range miss).map (fun k =>
        ({ stream := strm, seqn := (h + 1 + k) % 65536, opened := d.beat } : Gap)) else []
      let old := st.gaps.filter (fun g => g.stream != strm ||
        (decide (toField 16 ((it.md.seq : Int) - g.seqn) < 32768) && !fresh.any (fun x => x.seqn == g.seqn)))
      ((miss, pm), d.setBrood b { st with
        high := recSet st.high strm it.md.seq, gaps := old ++ fresh,
        highPic := match hp with | some n => recSet st.highPic strm n | none => st.highPic })

/-- The subscriptions of a flock's ENCODED broods. -/
def Dev.composedSubs (d : Dev) (f : Nat) : List Nat :=
  ((d.entries .fwd 1).filter (fun p => p.2.b 0 31 && (d.broodEnt (p.2.f 0 15 0)).b 0 18 &&
    decide ((brSize (d.broodEnt (p.2.f 0 15 0)) 0).1 ≠ 0) && decide ((d.broodEnt (p.2.f 0 15 0)).f 1 11 0 = f))).map (·.1)

/-- A subscription turns to another brood than `old`, as at a change of encoding: until that brood's key picture the old one is still
sent (R143); where the CODECs differ it is SUSPENDED (R340). -/
def Dev.turnSub (d : Dev) (s old : Nat) : Dev :=
  let st := d.sub s
  let b := d.subBrood s
  if b = old then d
  else if (d.broodEnt b).f 0 30 28 ≠ (d.broodEnt ((d.subEnt s).f 0 15 0)).f 0 30 28 then
    let d := d.noteSuspended s
    d.setSub s { d.sub s with sending := false, was := none, st := 4, eval := none }
  else if st.st = 5 then d
  else
    d.setSub s { st with st := 2, tgt := (0, 0), was := if st.sending then some (st.was.getD old) else none, eval := none,
                         pendSince := d.beat, asked := true, reqs := 0, starved := false }

/-- After `f` the composed subscriptions of a flock turn to the brood then served, with a key request at once. -/
def Dev.turning (d : Dev) (f : Nat) (g : Dev → Dev) : Dev :=
  let subs := d.composedSubs f
  let olds := subs.map (fun s => (s, d.subBrood s))
  let e := g d
  let e' := foldDev olds (fun x d => d.turnSub x.1 x.2) e
  match (olds.filter (fun x => e.subBrood x.1 != x.2 && (e'.sub x.1).st == 2)).head? with
  | some x => e'.keyRequest (e'.subBrood x.1) 0 true
  | none => e'

/-- FALLBACK is set for a flock, and its subscriptions turn to the speaker's brood; or it clears, and they turn back (R340, R343). -/
def Dev.setFallback (d : Dev) (f : Nat) (on : Bool) : Dev :=
  if d.fallback f = on then d else d.turning f (fun d => d.setEnt .tsk 0 f ((d.ent .tsk 0 f).setB 0 25 on))

/-- A TALKERS selection names the speaker; in FALLBACK the composed subscriptions follow it. -/
def Dev.setSpeaker (d : Dev) (flock audio : Nat) : Dev := d.turning flock (fun d => d.chooseSpeaker flock audio)

/-! ### Relaying to other devices (R320) -/

/-- Whether an operating point takes a layer: simulcast by its encoding, else all spatial layers up to it. -/
def pointTakes (struct : Nat) (pt lay : Nat × Nat) : Bool :=
  (if struct = 2 then decide (pt.1 = lay.1) else decide (lay.1 ≤ pt.1)) && decide (lay.2 ≤ pt.2)

/-- A packet of a brood of a spread flock goes once toward each side on which some member demands its layers, to the farthest such
member; a demand that fell takes effect where a picture starts. -/
def Dev.relayOut (d : Dev) (it : Item) (bytes : List Byte) : Dev :=
  let b := it.md.brood
  let be := d.broodEnt b
  match d.wide (be.f 1 11 0) with
  | none => d
  | some e =>
    if (d.relayLink (be.f 0 13 0)).isSome ∨ it.md.kind = 1 then d
    else
      let lay := (if brStruct be = 2 then it.md.stream else it.md.layer / 64 % 4, it.md.layer / 8 % 8)
      let members := d.wideOthers e
      let d := if it.md.layer % 4 / 2 = 0 then d else
        foldDev members (fun m d =>
          match tabFind d.mul.demands (b * 8 + m) with
          | some (_, some low) =>
            if low.1 = 8 then { d with mul := { d.mul with demands := tabErase d.mul.demands (b * 8 + m) } }
            else { d with mul := { d.mul with demands := recSet d.mul.demands (b * 8 + m) (low, none) } }
          | _ => d) d
      let top := (members.filterMap (fun m => (tabFind d.mul.demands (b * 8 + m)).map (·.1))).foldl (fun a p => (max a.1 p.1, max a.2 p.2)) (0, 0)
      let want := members.filter (fun m => (tabFind d.mul.demands (b * 8 + m)).isSome)
      if want.isEmpty ∨ pointTakes (brStruct be) top lay = false then d
      else
        let side := fun (m : Nat) => (d.linksTo m).headD 0
        let round := d.rising.filter (fun m => want.contains m)
        let far := if d.mesh then want else
          ((round.filter (fun m => decide (side m < 2))).getLast?.toList ++ (round.filter (fun m => decide (2 ≤ side m))).head?.toList)
        foldDev far (fun m d => d.muleTo m muleMedia 2 (dirFlock e m) b d.beat (slice bytes it.md.rtpOfs it.rtpLen)) d

/-- FORWARD_PACKET (R139, R148): measured, then offered to every subscription of the brood. -/
def Dev.forwardPacket (d : Dev) (it : Item) : Dev :=
  let b := it.md.brood
  let be := d.broodEnt b
  if !be.b 0 31 then d
  else
    let st := d.brood b
    let lay := (if brStruct be = 2 then it.md.stream else it.md.layer / 64 % 4, it.md.layer / 8 % 8)
    let win := (d.beat, lay.1, lay.2, it.md.flen) :: recent d.beat 120 (·.1) st.window
    let dds := Config.ddStructure it.dd
    let d := d.setBrood b { st with window := win, dd := if dds.isEmpty then st.dd else dds.take 256 }
    let bytes := ((d.payload it.uid).map (·.bytes)).getD []
    let key := isKeyItem be it bytes
    let ((miss, picMiss), d) := d.trackInput it
    let f := be.f 1 11 0
    let d := if be.b 0 18 && key && it.md.kind == 2 && d.fallback f && !d.composeStopped f then d.setFallback f false else d
    let subs := ((d.entries .fwd 1).filter (fun p => p.2.b 0 31 && (decide (d.subBrood p.1 = b) || (d.sub p.1).was == some b))).map (·.1)
    (foldDev subs (fun s d => d.forwardTo s it miss picMiss key) d).relayOut it bytes

/-- A packet of a brood is FAIL: it is counted, and its picture is no switching point (R113, R144). -/
def Dev.failItem (d : Dev) (it : Item) : Dev :=
  let b := it.md.brood
  let st := d.brood b
  let d := d.setBrood b { st with authFails := min 0xFFFFFFFF (st.authFails + 1),
                                  bad := ((it.md.stream, it.md.ts) :: st.bad).take 16 }
  foldDev (tabKeys d.fwd.subs) (fun s d => d.undoSwitch s b it.md.stream it.md.ts) d

/-- Packets of a brood are forwarded in input order; one whose auth_state is PENDING is not taken as genuine and holds
those behind it; one that is FAIL is never sent and is counted (R113). -/
def Dev.drainBrood (d : Dev) (b : Nat) : Nat → Dev
  | 0 => d
  | n + 1 =>
    match (d.brood b).hold with
    | [] => d
    | it :: rest =>
      match d.itemAuth it with
      | 1 => d
      | 3 =>
        Dev.drainBrood (((d.setBrood b { d.brood b with hold := rest }).failItem it).derefPayload it.uid) b n
      | _ =>
        Dev.drainBrood (((d.setBrood b { d.brood b with hold := rest }).forwardPacket it).derefPayload it.uid) b n

def Dev.drainHold (d : Dev) (b : Nat) : Dev := d.drainBrood b ((d.brood b).hold.length)

/-- A released packet of a brood joins the brood's input. -/
def Dev.offerForward (d : Dev) (it : Item) : Dev :=
  let d := d.refPayload it.uid
  let st := d.brood it.md.brood
  (d.setBrood it.md.brood { st with hold := st.hold ++ [it] }).drainHold it.md.brood

/-! ### Retransmission (R128, R151 to R153) -/

/-- The search of R128 in a history queue: at most four reads, each after a rewind to the mark, which stands at RELEASE, and a skip
corrected by the difference; a skip to TAIL reads the last item held (R129). -/
def Dev.searchHistory (d : Dev) (q s : Nat) : Nat → Int → Option Item × Dev
  | 0, _ => (none, d)
  | n + 1, k =>
    let st := ({ d.queue q with mark := (d.queue q).release, markSet := true }.rewind.skip k.toNat).2
    let d := d.setQueue q (if st.front.isSome then { st with read := st.read + 1, cold := false } else st)
    match (match st.front with | some it => some it | none => st.items.getLast?) with
    | none => (none, d)
    | some it =>
      let diff := signed 16 (toField 16 ((it.md.seq : Int) - s))
      if diff = 0 then (some it, d) else d.searchHistory q s n (k - diff)

/-- The history queue that holds a brood's packets of a stream. -/
def Dev.historyQueue (d : Dev) (b strm : Nat) : Option Nat :=
  ((d.que.queues.filter (fun p => d.queueKind p.1 == some 1)).find? (fun p =>
    p.2.items.any (fun it => decide (it.md.brood = b) && decide (it.md.stream = strm)))).map (·.1)

/-- One NACKed outgoing number of a subscription. A subscription that sends nothing retransmits nothing (R146), nor does one of video
under S5 (R342). -/
def Dev.serveNack (d : Dev) (s out : Nat) : Dev :=
  let e := d.subEnt s
  let leg := e.f 1 29 16
  let st := d.sub s
  let g := d.gov leg
  let miss := fun (d : Dev) => d.queCount 6 1
  if st.st = 4 ∨ st.st = 5 ∨ 5 ≤ d.stage then d
  else
    match st.points.find? (fun p => decide (toField 16 ((out : Int) - p.outSeq) < 32768)) with
    | none => miss d
    | some p =>
      if (d.legEnt leg).f 2 31 24 * g.target ≤ d.rtxNow leg * 100 then d.fwdCount 5 1
      else if st.rtxSent.any (fun r => r.1 == out && !rttPassed (d.beat - r.2) g.rtt) then d
      else
        let gone := toField 16 ((out : Int) - p.outSeq)
        let seq := (p.inSeq + gone) % 65536
        match d.historyQueue p.brood p.stream with
        | none => miss d
        | some q =>
          match d.searchHistory q seq 4 (toField 16 ((seq : Int) - (((d.queue q).items.head?).map (fun i => i.md.seq)).getD 0)) with
          | (none, d) => miss d
          | (some it, d) =>
            if d.itemAuth it ≠ 2 then miss d
            else
              let d := d.fwdCount 4 1
              let sent := (out, d.beat) :: st.rtxSent.filter (fun r => r.1 != out && !rttPassed (d.beat - r.2) g.rtt)
              let fresh := p.fresh && decide (gone = 0)
              let rw := rwOf it (toField 16 ((((it.md.pic.map (·.1)).getD 0 : Nat) : Int) + p.picOfs)) p.tl0Ofs fresh p.pt
              let out' := if e.b 0 25 then (st.rtxSeq + 1) % 65536 else out
              let d := d.setSub s { d.sub s with rtxSent := sent, rtxSeq := if e.b 0 25 then out' else st.rtxSeq }
              d.sendRef (if e.b 0 25 then (d.egsLeg leg).f 2 17 0 else s)
                { it with desc := refDesc it.desc leg, sub := s, outSeq := out', outTs := (it.md.ts + p.tsOfs) % 2 ^ 32, rtx := true,
                          osn := out, protect := true, rw := rw, dd := if fresh then (d.brood p.brood).dd else [] }

/-- The subscription toward a leg that sends on an SSRC. -/
def Dev.subBySsrc (d : Dev) (leg ssrc : Nat) : Option Nat :=
  (d.subsOf leg).find? (fun s => decide ((d.subEnt s).f 2 31 0 = ssrc))

/-- A retransmission (RFC 4588) from a source leg, authenticated: its original number leads its payload. The packet closes its gap and
enters its brood's history in its place, and a decoder may take it (R86, R153). -/
def Dev.rtxArrived (d : Dev) (it : Item) : Item × Dev :=
  let bytes := ((d.payload it.uid).map (·.bytes)).getD []
  let h := it.md.rtpOfs + 12 + 4 * (byteAt bytes it.md.rtpOfs % 16) +
    (if (byteAt bytes it.md.rtpOfs).testBit 4 then 4 + 4 * be16 bytes (it.md.rtpOfs + 14 + 4 * (byteAt bytes it.md.rtpOfs % 16)) else 0)
  let osn := be16 bytes h
  let plain := bytes.take (it.md.rtpOfs + 2) ++ toBe 2 osn ++ slice bytes (it.md.rtpOfs + 4) (h - it.md.rtpOfs - 4) ++ bytes.drop (h + 2)
  let d := d.setPayloadBytes it.uid plain
  let it := { it with md := { it.md with kind := 2, seq := osn }, rtpLen := it.rtpLen - 2,
                      desc := (it.desc.setF 3 31 16 osn).setF 3 11 8 2 }
  let d := match d.historyQueue it.md.brood it.md.stream with
    | some q => (d.refPayload it.uid).enqueue q it
    | none => d
  let st := d.brood it.md.brood
  (it, d.setBrood it.md.brood { st with gaps := st.gaps.filter (fun g => !(g.stream == it.md.stream && g.seqn == osn)) })

/-- UPSTREAM_NACK (R153): a gap open for NACK_UP beats, or again after RTT, is NACKed to the source leg; at most twice. -/
def upstreamNack (b strm seqn : Nat) (d : Dev) : Dev :=
  let st := d.brood b
  let up := d.fld Reg.FWD_RTCP_CFG 15 8
  let leg := (d.broodEnt b).f 0 13 0
  match st.gaps.find? (fun g => g.stream == strm && g.seqn == seqn) with
  | none => d
  | some g =>
    let due := if g.sent = 0 then decide (g.opened + up ≤ d.beat)
               else decide (g.sent = 1) && decide (3 * (d.gov leg).rtt ≤ (d.beat - g.lastSent) * 5000)
    if up ≠ 0 ∧ due = true then
      let gaps := st.gaps.map (fun x => if x.stream == strm && x.seqn == seqn then
        { x with sent := x.sent + 1, lastSent := d.beat } else x)
      let d := d.setBrood b { st with gaps := gaps }
      match d.relayLink leg with
      | some k =>
        let dst := (tabFind d.mul.sources b).getD ((d.peerOf k).getD 0)
        d.muleTo dst muleDemand 3 0 b d.beat (Config.muleBytes muleDemand [1, b, strm, seqn])
      | none => d.sendCtrl leg (.nack b strm [seqn]) [2, b, strm, seqn]
    else d

/-! ### RTCP (R154) -/

/-- Broods whose source is a leg. -/
def Dev.broodsFrom (d : Dev) (leg : Nat) : List Nat :=
  ((d.entries .fwd 0).filter (fun p => p.2.b 0 31 && decide (p.2.f 0 13 0 = leg))).map (·.1)

/-- Report blocks of a sender or receiver report, 24 bytes each. -/
def Dev.reportBlocks (d : Dev) (leg : Nat) (bs : List Byte) : Nat → Dev
  | 0 => d
  | n + 1 =>
    let d := if (d.subBySsrc leg (be32 bs 0)).isSome then d.reportBlock leg (byteAt bs 4) (be32 bs 16) (be32 bs 20) else d
    Dev.reportBlocks d leg (bs.drop 24) n

/-- Numbers a generic NACK names: PID and the bits of BLP. -/
def nackNumbers (bs : List Byte) : Nat → List Nat
  | 0 => []
  | n + 1 =>
    let pid := be16 bs 0
    let blp := be16 bs 2
    pid :: ((List.range 16).filter (fun i => blp.testBit i)).map (fun i => (pid + i + 1) % 65536) ++ nackNumbers (bs.drop 4) n

/-- One part of a compound packet from a leg; answers whether its type is terminated in hardware. -/
def Dev.rtcpPart (d : Dev) (leg brood : Nat) (part : List Byte) : Bool × Dev :=
  let cnt := byteAt part 0 % 32
  let pt := byteAt part 1
  let media := be32 part 8
  match pt, cnt with
  | 200, _ =>
    let st := d.brood brood
    let sr : SrIn := { ssrc := be32 part 4, sec := be32 part 8, frac := be32 part 12, rtp := be32 part 16, pkts := be32 part 20,
                       octets := be32 part 24, came := d.ntpMid }
    let d := d.setBrood brood { st with sr := some sr }
    (true, d.reportBlocks leg (part.drop 28) cnt)
  | 201, _ => (true, d.reportBlocks leg (part.drop 8) cnt)
  | 205, 1 =>
    match d.subBySsrc leg media with
    | some s => (true, foldDev (nackNumbers (part.drop 12) ((part.length - 12) / 4)) (fun n d => d.serveNack s n) d)
    | none => (true, d.queCount 6 ((nackNumbers (part.drop 12) ((part.length - 12) / 4)).length))
  | 205, 15 => (true, d.twccFeedback leg (Config.twccRead part))
  | 206, 1 =>
    match d.subBySsrc leg media with
    | some s => (true, d.keyRequest (d.sentBrood s) (d.sub s).cur.1 false)
    | none => (true, d)
  | 206, 4 =>
    (true, foldDev (List.range ((part.length - 12) / 8)) (fun k d =>
      match d.subBySsrc leg (be32 part (12 + 8 * k)) with
      | some s => d.keyRequest (d.sentBrood s) (d.sub s).cur.1 false
      | none => d) d)
  | _, _ => (false, d)

/-- A compound packet, part by part; answers whether any part is of a punted type and whether any was acted on. -/
def Dev.rtcpParts (d : Dev) (leg brood : Nat) : List Byte → Nat → (Bool × Bool) × Dev
  | _, 0 => ((false, false), d)
  | bs, n + 1 =>
    if bs.length < 4 then ((false, false), d)
    else
      let len := 4 * (be16 bs 2 + 1)
      let (hw, d) := d.rtcpPart leg brood (bs.take len)
      let r := Dev.rtcpParts d leg brood (bs.drop len) n
      ((r.1.1 || !hw, r.1.2 || hw), r.2)

/-- A report block of an ingress stream (RFC 3550, section 6.4.1): SSRC, fraction lost, packets lost, extended highest number, jitter,
LSR and DLSR; and the statistics after it. -/
def InStat.block (st : InStat) (sr : Option SrIn) (now : Nat) : List Nat × InStat :=
  let expected := st.high - st.base + 1
  let lost : Int := max (-8388608) (min 8388607 ((expected : Int) - st.recv))
  let expNow := expected - st.expPrior
  let lostNow : Int := (expNow : Int) - ((st.recv : Int) - st.recvPrior)
  let fraction := if expNow = 0 ∨ lostNow ≤ 0 then 0 else (lostNow.toNat * 256 / expNow) % 256
  let (lsr, dlsr) := match sr with
    | some x => if x.ssrc = st.ssrc then (x.sec % 65536 * 65536 + x.frac / 65536, now - x.came) else (0, 0)
    | none => (0, 0)
  ([st.ssrc, fraction, toField 24 lost, st.high % 2 ^ 32, st.jitter / 16, lsr, dlsr % 2 ^ 32],
   { st with expPrior := expected, recvPrior := st.recv })

/-- The report blocks of a leg: one for each of its ingress streams. -/
def Dev.blocksFor (d : Dev) (leg : Nat) : List (List Nat) × Dev :=
  (d.broodsFrom leg).foldl (fun acc b =>
    let st := acc.2.brood b
    let rs := st.stats.map (fun x => (x.1, x.2.block st.sr acc.2.ntpMid))
    (acc.1 ++ rs.map (·.2.1), acc.2.setBrood b { st with stats := rs.map (fun x => (x.1, x.2.2)) })) ([], d)

/-- The beat of a leg's reports: every SR_INTERVAL beats, phased by leg id. -/
def Dev.reportBeat (d : Dev) (leg : Nat) : Bool :=
  let iv := max 1 (d.fld Reg.FWD_RTCP_CFG 31 16)
  decide (d.beat % iv = leg % iv)

/-- A subscription that sends reports: in use, and neither SUSPENDED, PAUSED nor IDLE (R146). -/
def Dev.reports (d : Dev) (s : Nat) : Bool :=
  let st := (d.sub s).st
  (d.subEnt s).b 0 31 && st != 0 && st != 4 && st != 5

/-- SR_GENERATE (R154): a report per subscription; the leg's report blocks go with the first of the interval. -/
def srGenerate (s : Nat) (d : Dev) : Dev :=
  let e := d.subEnt s
  let leg := e.f 1 29 16
  let st := d.sub s
  if d.reports s && d.reportBeat leg then
    let sec := clkSec d.tim.dt
    let frac := d.dtNs * 2 ^ 32 / 1000000000
    let b := d.sentBrood s
    let clock := d.rtpClock b (if (brSize (d.broodEnt b) 0).1 = 0 then 1 else 2)
    let rtp :=
      match (d.brood b).sr with
      | some x =>
        let gone : Int := ((sec * 2 ^ 32 + frac : Nat) : Int) - ((x.sec * 2 ^ 32 + x.frac : Nat) : Int)
        toField 32 (x.rtp + gone * clock / 2 ^ 32 + st.tsOfs)
      | none => toField 32 ((st.lastOutTs : Int) + ticksOf clock (stampDiff (d.beat, d.dtNs) st.lastStamp))
    let (blocks, d) := if (d.gov leg).rrAt = some d.beat then ([], d) else d.blocksFor leg
    let d := d.setGov leg { d.gov leg with rrAt := some d.beat }
    (d.sendCtrl leg (.sr (e.f 2 31 0) sec frac rtp st.pkts st.octets)
      ([200, e.f 2 31 0, sec, frac, rtp, st.pkts, st.octets] ++ blocks.flatten)).legCount 4 1
  else d

/-- A leg whose subscriptions send no report reports what it sends us in an RR (R154). -/
def Dev.rrBeat (d : Dev) (leg : Nat) : Dev :=
  if d.reportBeat leg && !(d.subsOf leg).any (fun s => d.reports s) then
    let (blocks, d) := d.blocksFor leg
    if blocks.isEmpty then d
    else
      let d := d.setGov leg { d.gov leg with rrAt := some d.beat }
      (d.sendCtrl leg (.rr blocks) (201 :: blocks.flatten)).legCount 5 1
  else d

/-! ### FWD_TAB (R160) -/

def fwdTabSize (t : Nat) : Nat :=
  match t with | 0 => 65536 | 1 => 262144 | 2 => 4096 | 3 => 65536 | 4 => 8388608 | _ => 0

def Dev.fwdView (d : Dev) (t i : Nat) : Entry :=
  match t with
  | 0 => { d.broodEnt i with d7 := BitVec.ofNat 32 (d.brood i).authFails }
  | 1 =>
    let st := d.sub i
    { d.subEnt i with d6 := BitVec.ofNat 32 (st.st * 2 ^ 28 + st.cur.1 * 2 ^ 26 + st.cur.2 * 2 ^ 24 + st.tgt.1 * 2 ^ 22 + st.tgt.2 * 2 ^ 20) }
  | 2 => { d.flockFwd i with d0 := BitVec.ofNat 32 (((d.flockFwd i).b 0 31).toNat * 2 ^ 31 + d.speakerOf i) }
  | 3 => d.ent .fwd 3 i
  | _ =>
    match (d.sub (i / 32)).points[i % 32]? with
    | none => {}
    | some p => { d0 := BitVec.ofNat 32 (2 ^ 31 + p.stream * 65536 + p.outSeq), d1 := BitVec.ofNat 32 p.inSeq,
                  d2 := BitVec.ofNat 32 p.tsOfs }

def fwdTabRead (v : Word) (d : Dev) : Dev :=
  tabReadOp Reg.FWD_TAB_CMD Reg.FWD_TAB_ADDR Reg.FWD_TAB_DATA 8 22 (pastEnd fwdTabSize) Dev.fwdView 1 v d

/-- The fields of a brood entry that a write keeps (Table 7.7); reserved codes keep their fields, and VP9 and H.265 broods are never
SVC (R138). -/
def broodWrite (old n : Entry) : Entry :=
  let e : Entry := { n with d0 := n.d0 &&& 0xFFFC3FFF, d1 := n.d1 &&& 0xFFF, d5 := n.d5 &&& 0xFF, d6 := n.d6 &&& 0xFFFF, d7 := 0 }
  let e := Entry.legal old e [(0, 30, 28, [(0, 4)]), (0, 27, 26, [(0, 2)]), (0, 25, 24, [(0, 2)])]
  if (e.f 0 30 28 = 2 ∨ e.f 0 30 28 = 4) ∧ e.f 0 27 26 = 1 then e.setF 0 27 26 (if old.f 0 27 26 = 2 then 2 else 0) else e

/-- The fields of a subscription entry that a write keeps (Table 7.8). -/
def subWrite (old n : Entry) : Entry :=
  Entry.legal old { n with d1 := n.d1 &&& 0x3FFF7F7F, d6 := 0, d7 := n.d7 &&& 0xFFFF00FF } [(0, 27, 26, [(0, 1)])]

/-- FWD_TAB_WRITE: reserved codes keep their fields, reserved bits read 0; a subscription taken out of use or given another
brood starts afresh. -/
def fwdTabWrite (v : Word) (d : Dev) : Dev :=
  let d := d.tabCmd Reg.FWD_TAB_CMD v
  let t := d.fld Reg.FWD_TAB_CMD 27 24
  let i := d.fld Reg.FWD_TAB_ADDR 22 0
  let n := d.dataEntry Reg.FWD_TAB_DATA
  if fwdTabSize t ≤ i ∨ t = 4 then d.tabErr Reg.FWD_TAB_CMD 1
  else
    let d :=
      match t with
      | 0 =>
        d.setEnt .fwd 0 i (broodWrite (d.broodEnt i) n)
      | 1 =>
        let old := d.subEnt i
        let e := subWrite old n
        let d := d.setEnt .fwd 1 i e
        if e.b 0 31 && old.b 0 31 && decide (e.f 0 15 0 = old.f 0 15 0) && decide (e.f 1 29 16 = old.f 1 29 16) then d
        else { d with fwd := { d.fwd with subs := tabErase d.fwd.subs i } }
      | 2 => d.turning i fun d => d.setEnt .fwd 2 i { d0 := n.d0 &&& 0x80000000, d1 := n.d1 &&& 0xFFFF }
      | _ => d.setEnt .fwd 3 i { d0 := n.d0, d1 := n.d1, d2 := n.d2, d3 := n.d3 }
    d.tabErr Reg.FWD_TAB_CMD 0

/-- FWD_STATUS: subscriptions with a change pending; LEG_STATUS: legs in DECREASE and legs with FEEDBACK_LOST. -/
def Dev.fwdStatus (d : Dev) : Nat := (d.fwd.subs.filter (fun p => p.2.st == 2 || p.2.st == 3)).length
def Dev.legStatus (d : Dev) : Nat :=
  (d.fwd.govs.filter (fun p => d.legValid p.1 && p.2.st == 2)).length % 16384 * 65536 +
  (d.fwd.govs.filter (fun p => d.legValid p.1 && p.2.lost)).length % 16384

end Sys2Proof.Machine
end

