-- ==== Sys2Proof/Machine/Herd.lean ====
section
/-! DEFINITION. The herds of cipher cells (R92, R95 to R97): costs, assignment in round robin, holds at the boundary. -/

namespace Sys2Proof.Machine
open Sys2Proof

def Dev.plane (d : Dev) (n : Nat) : Plane := d.pkt.planes.getD n {}
def Dev.setPlane (d : Dev) (n : Nat) (p : Plane) : Dev := { d with pkt := { d.pkt with planes := d.pkt.planes.set n p } }

/-- Counters of a plane: CIP_CNT, PRS_CNT, MAT_CNT. -/
def planeOfs (n : Nat) : Nat := 0x40000 * n
def Dev.cipCount (d : Dev) (n c k : Nat) : Dev := d.cnt (Reg.CIP_CNT_LO + planeOfs n) c k
def Dev.prsCount (d : Dev) (n c k : Nat) : Dev := d.cnt (Reg.PRS_CNT_LO + planeOfs n) c k
def Dev.matCount (d : Dev) (n c k : Nat) : Dev := d.cnt (Reg.MAT_CNT_LO + planeOfs n) c k

/-- Plane a logical port is steered to. -/
def Dev.planeOf (d : Dev) (port : Nat) : Nat := d.mac.steer.getD port 0

def Dev.cell (d : Dev) (code : Nat) : CellSt := tabGet (fun _ => {}) d.tsk.cells code
def Dev.setCell (d : Dev) (code : Nat) (c : CellSt) : Dev :=
  { d with tsk := { d.tsk with cells := tabSet (fun _ => {}) d.tsk.cells code c } }

/-- FCLK per AES block of a profile (Table 5.1). -/
def aesRounds (profile : Nat) : Nat := if profile = 2 then 14 else 10

/-- Cost of a packet in a cell: (blocks + 1) × rounds + 20 FCLK (R97). -/
def herdCost (profile payload : Nat) : Nat := (ceilDiv payload 16 + 1) * aesRounds profile + 20

/-- Cost of its hash lane: ceil((A + 9) / 64) + 1 compressions of 80 FCLK (R96); 0 where the profile uses none. -/
def laneCost (profile authBytes : Nat) : Nat :=
  if profile = 3 ∨ profile = 4 then (ceilDiv (authBytes + 9) 64 + 1) * 80 else 0

/-- The next cell of the herd in round robin, cells marked OUT skipped (R92). -/
def Dev.nextHerdCell (d : Dev) (n : Nat) : Option Nat :=
  let p := d.plane n
  ((List.range 64).map (fun k => (p.nextCell + k) % 64)).find? (fun k => !(d.cell (cellCode 4 (cipherIndex n k))).out)

/-- A hash lane not yet claimed. -/
def Dev.freeLane (d : Dev) (n : Nat) : Bool :=
  decide (((d.plane n).jobs.filter (fun j => j.2.2)).length <
    16 - ((List.range 16).filter (fun k => (d.cell (cellCode 5 (n * 16 + k))).out)).length)

/-- FCLK by which a packet must finish: the next boundary and 2,900 more (R97). -/
def Dev.herdBound (d : Dev) : Nat := d.fclkToBoundary + 2900

/-- Work takes the next cell of the round robin, unless it has one that is not OUT. -/
def Dev.herdAssign (d : Dev) (n : Nat) (w : HerdWait) : HerdWait × Dev :=
  match w.cell with
  | some k =>
    if (d.cell (cellCode 4 (cipherIndex n k))).out then
      ({ w with cell := d.nextHerdCell n }, d.setPlane n { d.plane n with nextCell := ((d.nextHerdCell n).getD k + 1) % 64 })
    else (w, d)
  | none =>
    match d.nextHerdCell n with
    | some k => ({ w with cell := some k }, d.setPlane n { d.plane n with nextCell := (k + 1) % 64 })
    | none => (w, d)

/-- Work may start: its cell is free, no earlier work waits for that cell, and a hash lane is there where it needs one. -/
def Dev.herdReady (d : Dev) (n : Nat) (w : HerdWait) : Option Nat :=
  match w.cell with
  | none => none
  | some k =>
    let p := d.plane n
    if (tabFind p.jobs k).isSome || p.herdWait.any (fun x => x.cell == some k && !x.held && !x.key) then none
    else if w.lane = 0 ∨ d.freeLane n = true then some k else none

/-- Give work to a cell, which it waits for; it is held for the boundary where it could not end within the grace. -/
def Dev.herdTry (d : Dev) (n : Nat) (w : HerdWait) : Dev :=
  if d.herdBound < w.cost ∨ d.herdBound < w.lane then
    (d.setPlane n { d.plane n with herdWait := (d.plane n).herdWait ++ [{ w with held := true }] }).cipCount n 5 1
  else
    let (w, d) := d.herdAssign n w
    match d.herdReady n w with
    | some k =>
      (d.setPlane n { d.plane n with jobs := recSet (d.plane n).jobs k (w.ref, decide (w.lane ≠ 0)) }).push (.started n w.ref)
    | none => d.setPlane n { d.plane n with herdWait := (d.plane n).herdWait ++ [w] }

def Dev.herdGive (d : Dev) (n : Nat) (ref : HerdRef) (cost lane : Nat) : Dev := d.herdTry n { ref := ref, cost := cost, lane := lane }

/-- Work that waits is tried again, in order. -/
def Dev.herdRefill (d : Dev) (n : Nat) : Dev :=
  let p := d.plane n
  let go := p.herdWait.filter (fun w => !w.held && !w.key)
  foldDev go (fun w d => d.herdTry n w) (d.setPlane n { p with herdWait := p.herdWait.filter (fun w => w.held || w.key) })

/-- A cell's program has ended: work that waits goes on. -/
def Dev.herdFree (d : Dev) (n cell : Nat) : Dev :=
  let p := d.plane n
  (d.setPlane n { p with jobs := tabErase p.jobs cell }).herdRefill n

/-- After the boundary held packets go to the first cells (R97). -/
def Dev.herdBoundary (d : Dev) (n : Nat) : Dev :=
  let p := d.plane n
  let held := p.herdWait.filter (·.held)
  let d := d.setPlane n { p with herdWait := p.herdWait.filter (fun w => !w.held) }
  foldDev held (fun w d => d.herdTry n { w with held := false, cell := none }) d

/-- The cell that works for a reference. -/
def Dev.cellOf (d : Dev) (n : Nat) (ref : HerdRef) : Option Nat :=
  ((d.plane n).jobs.find? (fun j => j.2.1 == ref)).map (·.1)

/-- CIP_STATUS: hash lanes busy and cells OUT. -/
def Dev.cipStatus (d : Dev) (n : Nat) : Nat :=
  ((d.plane n).jobs.filter (fun j => j.2.2)).length * 65536 +
  ((List.range 64).filter (fun k => (d.cell (cellCode 4 (cipherIndex n k))).out)).length

end Sys2Proof.Machine
end

