-- ==== Sys2Proof/Machine/Egress.lean ====
section
/-! DEFINITION. Egress scheduling (chapter 13) with timed launch and gates at the medium (R268, R271): shapers, key runs,
the hierarchy, frames on their way, pauses, moves, EGS_TAB and GAT_TAB. -/

namespace Sys2Proof.Machine
open Sys2Proof

def portOfs (p : Nat) : Nat := 0x100 * p
/-- Port counters of R289 and gate counters of R273. -/
def Dev.egsCount (d : Dev) (p c n : Nat) : Dev := d.cnt (Reg.EGS_CNT_LO + portOfs p) c n
def Dev.gatCount (d : Dev) (p c n : Nat) : Dev := d.cnt (Reg.GAT_CNT_LO + portOfs p) c n

def Dev.egLeg (d : Dev) (l : Nat) : EgLeg := tabGet (fun _ => {}) d.egs.legs l
def Dev.setEgLeg (d : Dev) (l : Nat) (v : EgLeg) : Dev := { d with egs := { d.egs with legs := tabSet (fun _ => {}) d.egs.legs l v } }
def Dev.egPort (d : Dev) (p : Nat) : EgPort := tabGet (fun _ => {}) d.egs.ports p
def Dev.setEgPort (d : Dev) (p : Nat) (v : EgPort) : Dev := { d with egs := { d.egs with ports := tabSet (fun _ => {}) d.egs.ports p v } }

def Dev.macPort (d : Dev) (p : Nat) : MacPort := tabGet (fun _ => {}) d.mac.ports p
def Dev.setMacPort (d : Dev) (p : Nat) (v : MacPort) : Dev := { d with mac := { d.mac with ports := tabSet (fun _ => {}) d.mac.ports p v } }

/-! ### Shapers and pacers (R280, R283 to R285) -/

/-- Tokens are held in bytes × 12·10^9: a RATE unit is then 256 a FCLK and a b/s of pacing 1. -/
def tokScale : Int := 12000000000

def refill (tok : Int) (perFclk depth dt : Nat) : Int := min (depth * tokScale) (tok + perFclk * dt)

def wholeBytes (tok : Int) : Int := tok / tokScale

def legPort (e : Entry) : Nat := e.f 0 12 10
def legGroup (e : Entry) : Nat := e.f 0 9 0

/-- Pacer depth: PACE_MIN + PACING × I / 4.8 bytes, scaled. -/
def Dev.paceDepth (d : Dev) (leg : Nat) : Int :=
  d.fld Reg.EGS_CFG 31 16 * tokScale + ((d.gov leg).pacing * d.egs.interval * 2500000 : Nat)

/-- Refill a leg's pacer and shaper to now. -/
def Dev.refillLeg (d : Dev) (l : Nat) : Dev :=
  let g := d.egLeg l
  let e := d.egsLeg l
  let dt := d.now - g.last
  let rate := e.f 3 31 0
  d.setEgLeg l { g with
    last := d.now
    pacer := min (d.paceDepth l) (g.pacer + ((d.gov l).pacing * dt : Nat))
    shaper := if rate = 0 then 0 else refill g.shaper (256 * rate) (e.f 4 23 0) dt }

/-- A class or port shaper (k = 8 is the port's): its entry and its tokens refilled to now. -/
def shaperIdx (p k : Nat) : Nat := p * 9 + k

def Dev.shaperTok (d : Dev) (p k : Nat) : Int :=
  let e := d.ent .egs 3 (shaperIdx p k)
  let rate := e.f 0 31 0
  match tabFind d.egs.shapers (shaperIdx p k) with
  | some (t, last) => if rate = 0 then 0 else refill t (256 * rate) (e.f 1 23 0) (d.now - last)
  | none => 0

def Dev.debitShaper (d : Dev) (p k len : Nat) : Dev :=
  let e := d.ent .egs 3 (shaperIdx p k)
  if e.f 0 31 0 = 0 then d
  else { d with egs := { d.egs with shapers := recSet d.egs.shapers (shaperIdx p k) (d.shaperTok p k - len * tokScale, d.now) } }

/-- The length debited: L = FLEN + MET_OVH[p] (R283). -/
def Dev.debitLen (d : Dev) (p flen : Nat) : Nat := ((flen : Int) + signed 7 (d.fld (Reg.MET_OVH + 4 * p) 6 0)).toNat

/-! ### Streams of a leg (R277, R278) -/

/-- The item a stream offers: its queue's next, unless that is PENDING (R113). -/
def Dev.headOf (d : Dev) (s : Nat) : Option Item :=
  match d.streamQueue s with
  | none => none
  | some q => match (d.queue q).front with
    | some it => if d.itemAuth it = 1 ∨ d.itemAuth it = 3 then none else some it
    | none => none

def Dev.streamsOf (d : Dev) (leg : Nat) : List (Nat × Entry) :=
  (d.entries .egs 0).filter (fun p => p.2.b 0 31 && decide (p.2.f 0 13 0 = leg))

/-- Rank of a stream within its leg and class: CTRL, RTX, then SPRI from 3 down. -/
def streamRank (e : Entry) : Nat :=
  match e.f 0 25 24 with | 1 => 0 | 2 => 1 | _ => 5 - e.f 0 27 26

/-- Round robin from the id after `last`: the order in which equal streams are tried. -/
def afterLast (last : Option Nat) (ids : List Nat) : List Nat :=
  match last with
  | none => ids
  | some l => ids.filter (fun i => decide (l < i)) ++ ids.filter (fun i => decide (i ≤ l))

def Dev.pickStream (d : Dev) (leg cls : Nat) : Option Nat :=
  let ready := (d.streamsOf leg).filter (fun p => decide (p.2.f 0 30 28 = cls) && (d.headOf p.1).isSome)
  let best := (ready.map (fun p => streamRank p.2)).foldl min 9
  (afterLast (tabFind (d.egLeg leg).rr cls) ((ready.filter (fun p => decide (streamRank p.2 = best))).map (·.1))).head?

/-- Some stream of the leg holds a packet. -/
def Dev.legQueued (d : Dev) (leg : Nat) : Bool :=
  (d.streamsOf leg).any (fun p => match d.streamQueue p.1 with
    | some q => ((d.queue q).front).isSome
    | none => false)

/-- Pacer and leg shaper allow a frame. -/
def Dev.tokensOk (d : Dev) (leg : Nat) : Bool :=
  let e := d.egsLeg leg
  let g := (d.refillLeg leg).egLeg leg
  (e.b 0 29 || decide (0 ≤ g.pacer)) && (decide (e.f 3 31 0 = 0) || decide (0 ≤ g.shaper))

/-- A leg may send in a class (R278). A run still serves a selection in the FCLK in which it closes (R279). -/
def Dev.legEligible (d : Dev) (leg cls : Nat) : Bool :=
  let e := d.egsLeg leg
  e.b 0 31 && !(d.egLeg leg).moving && ((d.egLeg leg).runOpen || (d.egLeg leg).closedAt == some d.now || e.b 0 30) && d.tokensOk leg && (d.pickStream leg cls).isSome

/-! ### Key runs (R112, R279) -/

/-- A run closes: its hold on the slot ends. -/
def Dev.closeRun (d : Dev) (leg : Nat) : Dev :=
  let g := d.egLeg leg
  if !g.runOpen then d
  else
    let d := d.setEgLeg leg { g with runOpen := false, runSlot := none, closedAt := some d.now, lastSlot := g.runSlot }
    match g.runSlot with | some k => d.endUse k | none => d

/-- A run closes when the leg has no packet queued or its tokens fall below 0. -/
def Dev.checkRun (d : Dev) (leg : Nat) : Dev :=
  if (d.egLeg leg).runOpen && (!d.legQueued leg || !d.tokensOk leg) then d.closeRun leg else d

/-- The run opens under a resident slot. -/
def Dev.openRun (d : Dev) (leg k : Nat) : Dev :=
  let g := d.egLeg leg
  let d := (d.setEgLeg leg { g with runOpen := true, runHad := true, runSlot := some k, req := 0 }).useSlot k
  (d.egsCount (legPort (d.egsLeg leg)) 4 1).checkRun leg

/-- Loads the two lanes can still perform in this beat: one each 360 FCLK (R108). -/
def Dev.loadRoom (d : Dev) : Nat := 2 * (d.fclkToBoundary / 360)

/-- A run is requested: opened at once where its slot is resident, else loaded, or deferred to the next beat where the
lanes cannot perform the load in this one; a second deferral leaves it to the leg's next run. -/
def Dev.requestRun (d : Dev) (leg : Nat) : Dev :=
  let g := d.egLeg leg
  match d.slotFor leg true with
  | some k => d.openRun leg k
  | none =>
    if d.loadRoom ≤ d.vlt.loads.length then
      let d := (d.vltCount 4 1).raiseOnce Src.PEN_OVERLOAD leg
      if g.req = 2 then d.setEgLeg leg { g with req := 0, runHad := true } else d.setEgLeg leg { g with req := 2 }
    else (d.setEgLeg leg { g with req := 3, runHad := true }).askGroup leg true 3

/-- Eligible but for its run, with no run yet in this interval. -/
def Dev.wantsRun (d : Dev) (leg : Nat) : Bool :=
  let e := d.egsLeg leg
  let g := d.egLeg leg
  e.b 0 31 && !e.b 0 30 && !g.runOpen && !g.runHad && !g.moving && decide (g.req = 0) && d.tokensOk leg &&
    (List.range 8).any (fun c => (d.pickStream leg c).isSome)

def runRequest (leg : Nat) (d : Dev) : Dev := if d.wantsRun leg then d.requestRun leg else d

def Dev.egsLegs (d : Dev) : List Nat := ((d.entries .egs 1).filter (fun p => p.2.b 0 31)).map (·.1)

/-- Deferred requests, in leg order (R112). -/
def Dev.retryDeferred (d : Dev) : Dev :=
  foldDev (d.egsLegs.filter (fun l => decide ((d.egLeg l).req = 2))) (fun l d => d.requestRun l) d

/-- Runs end with their interval; one with packets still queued and tokens at or above 0 is cut (R279). -/
def Dev.endInterval (d : Dev) : Dev :=
  foldDev d.egsLegs (fun l d =>
    let g := d.egLeg l
    let cut := g.runOpen && d.legQueued l && d.tokensOk l
    let d := d.closeRun l
    let d := d.setEgLeg l { d.egLeg l with runHad := false }
    if cut then (d.egsCount (legPort (d.egsLeg l)) 5 1).raiseOnce Src.EGRESS_RUN_CUT l else d) d

/-- RUN_INTERVAL_START: at the first beat of an interval; deferred requests first, then waiting legs in ascending order
from the leg after the one that began the previous order. -/
def runIntervalStart (d : Dev) : Dev :=
  if (d.beat - d.egs.n0) % max 1 d.egs.interval ≠ 0 ∨ d.egs.started = some d.beat then d
  else
    let d := { d with egs := { d.egs with started := some d.beat } }
    let d := d.endInterval.retryDeferred
    let order := afterLast d.egs.lastFirst (d.egsLegs.filter (fun l => d.wantsRun l))
    let d := match order.head? with
      | some l => { d with egs := { d.egs with lastFirst := some l } }
      | none => d
    foldDev order (fun l d => d.requestRun l) d

/-- A run's slot is ready, or its load failed: then the leg's packets are dropped as KEY_BAD (R107). -/
def Dev.runSlotReady (d : Dev) (leg : Nat) (ok : Bool) : Dev :=
  let g := d.egLeg leg
  if g.req ≠ 3 then d
  else if ok then
    match d.slotFor leg true with
    | some k => d.openRun leg k
    | none => d.setEgLeg leg { g with req := 0 }
  else
    let qs := (d.streamsOf leg).filterMap (fun p => d.streamQueue p.1)
    let d := d.setEgLeg leg { g with req := 0 }
    foldDev qs (fun q d =>
      let n := (d.queue q).items.length
      (d.releaseOldest q n false).vltCount 6 n) d

/-! ### Frames -/

/-- Tag bytes a program adds: RTP by profile, SRTCP with its E flag and index (R100). -/
def tagBytes (profile : Nat) (rtcp : Bool) : Nat :=
  if rtcp then (if profile ≤ 2 then 16 else 10) + 4
  else match profile with | 1 => 16 | 2 => 16 | 3 => 10 | _ => 4

/-- A MID string of table 3: up to 16 bytes, zeros after its end (R160). -/
def Dev.midOf (d : Dev) (k : Nat) : List Byte :=
  let e := d.ent .fwd 3 k
  (((List.range 4).flatMap (fun i => toLe 4 (e.word i).toNat)).reverse.dropWhile (· == 0)).reverse

/-- The RTP, RTCP or other UDP payload of an item toward a leg, rewritten for its subscription (R148 to R151). -/
def Dev.outPayload (d : Dev) (leg : Nat) (it : Item) (tw : Option Nat) : List Byte :=
  let bytes := ((d.payload it.uid).map (·.bytes)).getD []
  if it.desc.f 0 31 28 = 2 then
    let e := d.subEnt it.sub
    let rtp := slice bytes it.md.rtpOfs it.rtpLen
    let pt := if it.rtx ∧ e.b 0 25 then e.f 1 6 0 else if it.md.cn then Config.cnType it.md.brood % 128 else e.f 1 14 8
    let ssrc := if it.rtx ∧ e.b 0 25 then e.word 3 else e.word 2
    let head := rtp.take 1 ++ [BitVec.ofNat 8 (byteAt rtp 1 / 128 * 128 + pt)] ++ toBe 2 it.outSeq ++ toBe 4 it.outTs ++
      toBe 4 ssrc.toNat
    let osn := if it.rtx ∧ e.b 0 25 then [1, it.osn] else [0]
    Config.rewriteExt ((d.legEnt leg).f 0 23 16) (osn ++ [tw.getD 65536] ++ it.rw) it.dd (d.midOf (e.f 7 31 16)) (head ++ rtp.drop 12)
  else bytes

/-- Bytes of an RTP packet's header with its extensions, and of the part of an RTCP packet that stays clear. -/
def rtpHead (rtcp : Bool) (pkt : List Byte) : Nat :=
  if rtcp then 8 else 12 + 4 * (byteAt pkt 0 % 16) +
    (if (byteAt pkt 0).testBit 4 then 4 + 4 * be16 pkt (14 + 4 * (byteAt pkt 0 % 16)) else 0)

def EgFrame.isRtcp (f : EgFrame) : Bool := f.item.md.demux == 1 || f.item.ctrl.isSome

/-- A frame is to be protected under a slot whose program adds `tag` bytes: its headers count them. -/
def EgFrame.under (f : EgFrame) (k tag : Nat) : EgFrame :=
  let pay := f.bytes.drop (f.bytes.length - f.item.rtpLen)
  let heads := Config.legHeaders (f.leg.getD 0) (pay.length + tag)
  { f with slot := some k, bytes := heads ++ pay, len := heads.length + pay.length + tag + 4 }

/-- Take an item as a frame toward a leg: its number (R156), its bytes, its program. -/
def Dev.makeFrame (d : Dev) (p leg cls : Nat) (it : Item) : EgFrame × Dev :=
  let g := d.gov leg
  let twcc := (d.legEnt leg).b 0 27
  let tw := if twcc then some (g.twNext % 65536) else none
  let d := if twcc then d.setGov leg { g with twNext := g.twNext + 1 } else d
  let pay := d.outPayload leg it tw
  let slot := if (d.egsLeg leg).b 0 30 ∨ !it.protect then none
    else if (d.egLeg leg).runOpen then (d.egLeg leg).runSlot else (d.egLeg leg).lastSlot
  let profile := ((slot.bind d.penSlot).map (·.profile)).getD 0
  let rtcp := it.md.demux == 1 || it.ctrl.isSome
  let tag := if slot.isSome then tagBytes profile rtcp else 0
  let heads := Config.legHeaders leg (pay.length + tag)
  let port := d.egPort p
  let f : EgFrame := { id := port.nextId, item := { it with rtpLen := pay.length }, leg := some leg, cls := cls,
                       len := heads.length + pay.length + tag + 4, bytes := heads ++ pay, tw := tw, slot := slot,
                       inHerd := slot.isSome, launch := if it.desc.b 0 22 then some (it.desc.f 6 31 0) else none }
  let d := d.setEgPort p { port with nextId := port.nextId + 1, sel := port.sel ++ [f] }
  match slot with
  | none => (f, d)
  | some k =>
    (f, (d.useSlot k).herdGive (d.planeOf p) (.frame p f.id) (herdCost profile (pay.length - rtpHead rtcp pay))
      (laneCost profile (pay.length + 4)))

/-- Frames past the herd enter their class's transmit FIFO in the port's order of selection (R276). -/
def moveReady : List EgFrame → List EgFrame → List EgFrame × List EgFrame
  | [], fifo => ([], fifo)
  | f :: fs, fifo => if f.inHerd then (f :: fs, fifo) else moveReady fs (fifo ++ [f])

/-- A frame leaves the FIFO unsent. -/
def Dev.dropFrame (d : Dev) (p : Nat) (f : EgFrame) : Dev :=
  let port := d.egPort p
  let d := d.setEgPort p { port with fifo := port.fifo.filter (fun x => x.id != f.id) }
  let d := d.derefPayload f.item.uid
  match f.leg with
  | some l => d.setEgLeg l { d.egLeg l with inFlight := (d.egLeg l).inFlight - 1 }
  | none => d

def Dev.setFrame (d : Dev) (p : Nat) (f : EgFrame) : Dev :=
  d.setEgPort p { d.egPort p with fifo := (d.egPort p).fifo.map (fun x => if x.id = f.id then f else x) }

/-- A frame with a launch time comes to the head of its class: it is held for it, or it is late, and sent at once or dropped (R268). -/
def Dev.settleHead (d : Dev) (p c : Nat) : Nat → Dev
  | 0 => d
  | n + 1 =>
    match (d.egPort p).fifo.find? (fun f => decide (f.cls = c)) with
    | none => d
    | some f =>
      match f.launch with
      | none => d
      | some l =>
        let delta := (((l : Int) - d.dtNs) % 1000000000).toNat
        if 1000000000 ≤ l then d.setFrame p { f with launch := none }
        else if delta ≤ d.fld Reg.TIM_LAUNCH_CFG 25 16 * 1000000 then
          d.setFrame p { f with launch := none, due := some (d.tim.dt / nsUnit + delta) }
        else
          let d := (d.gatCount p 2 1).raiseOnce Src.LAUNCH_LATE p
          if d.flag Reg.TIM_LAUNCH_CFG 31 then (d.dropFrame p f).settleHead p c n else d.setFrame p { f with launch := none }

/-- A frame leaves the FIFO, and the next of its class comes to the head. -/
def Dev.frameGone (d : Dev) (p : Nat) (f : EgFrame) : Dev :=
  let d := d.dropFrame p f
  d.settleHead p f.cls (d.egPort p).fifo.length

def Dev.advancePort (d : Dev) (p : Nat) : Dev :=
  let port := d.egPort p
  let (sel, fifo) := moveReady port.sel port.fifo
  let d := d.setEgPort p { port with sel := sel, fifo := fifo }
  foldDev (List.range 8) (fun c d => d.settleHead p c fifo.length) d

/-- Bytes of a class on a port that wait past selection. -/
def EgPort.fill (port : EgPort) (c : Nat) : Nat :=
  (((port.fifo ++ port.sel).filter (fun f => decide (f.cls = c))).map (·.len)).sum

def fifoBytes : Nat := 32768

/-! ### Selection (R276, R281, R282) -/

/-- One DWRR level: deficits and the member being visited. -/
structure Drr where
  defs : Tab Int
  turn : Option Nat

/-- Visit members in round order until one may be served; a member left with nothing queued loses its deficit. -/
def dwrr (ms : List Nat) (eligible queued : Nat → Bool) (quantum : Nat → Nat) : Nat → Drr → Option Nat × Drr
  | 0, s => (none, s)
  | n + 1, s =>
    let deficit := fun (s : Drr) m => (tabFind s.defs m).getD 0
    match s.turn with
    | some m =>
      if 0 < deficit s m ∧ eligible m = true then (some m, s)
      else
        let s := if queued m then s else { s with defs := recSet s.defs m 0 }
        match (afterLast (some m) ms).head? with
        | none => (none, { s with turn := none })
        | some m' => dwrr ms eligible queued quantum n { defs := recSet s.defs m' (deficit s m' + quantum m'), turn := some m' }
    | none =>
      match ms.head? with
      | none => (none, s)
      | some m' => dwrr ms eligible queued quantum n { defs := recSet s.defs m' (deficit s m' + quantum m'), turn := some m' }

def Dev.clsCfg (d : Dev) (p c : Nat) : Word := d.reg (Reg.EGS_CLS + portOfs p + 4 * c)

/-- Legs of a port that are eligible in a class, and groups that hold one. -/
def Dev.eligibleLegs (d : Dev) (p c : Nat) : List Nat :=
  d.egsLegs.filter (fun l => decide (legPort (d.egsLeg l) = p) && d.legEligible l c)

def Dev.rawHead (d : Dev) (p c : Nat) : Option EgFrame := (d.egPort p).raw.find? (fun f => decide (f.cls = c))

def Dev.classEligible (d : Dev) (p c : Nat) : Bool :=
  (decide ((d.ent .egs 3 (shaperIdx p c)).f 0 31 0 = 0) || decide (0 ≤ d.shaperTok p c)) &&
  decide ((d.egPort p).fill c + 9216 ≤ fifoBytes) && ((d.rawHead p c).isSome || !(d.eligibleLegs p c).isEmpty)

/-- A stream of the leg in a class holds a packet. -/
def Dev.classWaits (d : Dev) (leg c : Nat) : Bool :=
  (d.streamsOf leg).any (fun s => decide (s.2.f 0 30 28 = c) && (match d.streamQueue s.1 with
    | some q => ((d.queue q).front).isSome
    | none => false))

def Dev.classQueued (d : Dev) (p c : Nat) : Bool :=
  (d.rawHead p c).isSome || d.egsLegs.any (fun l => decide (legPort (d.egsLeg l) = p) && d.classWaits l c)

/-- Visits of one DWRR choice: enough for every group to fill its deficit from the deepest at the least quantum. -/
def drrFuel : Nat := 65536

/-- The class to serve: strict classes from 7 down, then the others by DWRR. -/
def Dev.pickClass (d : Dev) (p : Nat) : Option Nat × Dev :=
  let strict := ((List.range 8).map (7 - ·)).filter (fun c => bit (d.clsCfg p c) 31 && d.classEligible p c)
  match strict.head? with
  | some c => (some c, d)
  | none =>
    let ms := (List.range 8).filter (fun c => !bit (d.clsCfg p c) 31)
    if ms.any (d.classEligible p) then
      let port := d.egPort p
      let r := dwrr ms (d.classEligible p) (d.classQueued p)
        (fun c => bits (d.clsCfg p c) 7 0 * d.fld Reg.EGS_CFG 15 0) drrFuel ⟨port.clsDef, port.clsTurn⟩
      (r.1, d.setEgPort p { port with clsDef := r.2.defs, clsTurn := r.2.turn })
    else (none, d)

/-- The leg to serve in a class: its group by DWRR, legs of a group in round robin. -/
def Dev.pickLeg (d : Dev) (p c : Nat) : Option Nat × Dev :=
  let legs := d.eligibleLegs p c
  let grp := fun l => legGroup (d.egsLeg l)
  let groups := sortBy (fun a b => decide (a ≤ b)) (legs.map grp).eraseDups
  let port := d.egPort p
  let key := fun g => c * 1024 + g
  let queued := fun k => d.egsLegs.any (fun l => decide (legPort (d.egsLeg l) = p) && decide (key (grp l) = k) && d.classWaits l c)
  let r := dwrr (groups.map key) (fun k => (groups.map key).contains k) queued
    (fun k => (d.ent .egs 2 (k % 1024)).f 0 7 0 * d.fld Reg.EGS_CFG 15 0) drrFuel ⟨port.grpDef, tabFind port.grpTurn c⟩
  match r.1 with
  | none => (none, d)
  | some k =>
    let pick := (afterLast (tabFind port.legTurn k) (legs.filter (fun l => decide (key (grp l) = k)))).head?
    let turn := match pick with | some l => recSet port.legTurn k l | none => port.legTurn
    (pick, d.setEgPort p { port with grpDef := r.2.defs, grpTurn := recSet port.grpTurn c k, legTurn := turn })

/-- Debit the deficits of the class and group just served. -/
def Dev.debitDrr (d : Dev) (p c : Nat) (leg : Option Nat) (len : Nat) : Dev :=
  let port := d.egPort p
  let sub := fun (t : Tab Int) k => match tabFind t k with | some v => recSet t k (v - len) | none => t
  let port := if bit (d.clsCfg p c) 31 then port else { port with clsDef := sub port.clsDef c }
  let port := match leg with
    | some l => { port with grpDef := sub port.grpDef (c * 1024 + legGroup (d.egsLeg l)) }
    | none => port
  d.setEgPort p port

/-- A packet whose stream or leg entry is not VALID: dropped at its selection and counted as NO_LEG (R286). -/
def Dev.dropNoLeg (d : Dev) (p : Nat) : Option Dev :=
  let bad := (d.entries .egs 0).find? (fun s =>
    decide (legPort (d.egsLeg (s.2.f 0 13 0)) = p) && (!s.2.b 0 31 || !(d.egsLeg (s.2.f 0 13 0)).b 0 31) &&
    d.queueKind (s.2.f 1 17 0) == some 3 && ((d.queue (s.2.f 1 17 0)).front).isSome)
  match bad with
  | none => none
  | some s => some (((d.releaseOldest (s.2.f 1 17 0) 1 false).egsCount p 6 1).raiseOnce Src.EGRESS_NO_LEG (s.2.f 0 13 0))

/-- FAIL packets at the head of a leg's streams are not sent (R113). -/
def Dev.dropFailed (d : Dev) (leg : Nat) : Dev :=
  foldDev ((d.streamsOf leg).filterMap (fun p => d.streamQueue p.1)) (fun q d =>
    match (d.queue q).front with
    | some it => if d.itemAuth it = 3 then d.releaseOldest q 1 false else d
    | none => d) d

/-- Select one frame of a leg in a class. -/
def Dev.selectLeg (d : Dev) (p c leg : Nat) : Dev :=
  match d.pickStream leg c with
  | none => d
  | some s =>
    match d.headOf s, d.streamQueue s with
    | some it, some q =>
      let d := d.refPayload it.uid
      let d := (d.readItem q).2
      let (f, d) := d.makeFrame p leg c it
      let len := d.debitLen p f.len
      let d := d.refillLeg leg
      let g := d.egLeg leg
      let rate := (d.egsLeg leg).f 3 31 0
      let d := d.setEgLeg leg { g with
        pacer := if (d.egsLeg leg).b 0 29 then g.pacer else g.pacer - len * tokScale
        shaper := if rate = 0 then 0 else g.shaper - len * tokScale
        inFlight := g.inFlight + 1, rr := recSet g.rr c s }
      let d := { d with egs := { d.egs with sent := recSet d.egs.sent s (min 0xFFFFFFFF ((tabFind d.egs.sent s).getD 0 + 1)) } }
      let d := ((d.debitShaper p c len).debitShaper p 8 len).debitDrr p c (some leg) len
      (d.checkRun leg).advancePort p
    | _, _ => d

/-- Select the RAW_PORT frame ahead of a class's legs (R366). -/
def Dev.selectRaw (d : Dev) (p c : Nat) (f : EgFrame) : Dev :=
  let port := d.egPort p
  let f' := { f with id := port.nextId }
  let d := d.setEgPort p { port with raw := port.raw.erase f, nextId := port.nextId + 1, sel := port.sel ++ [f'] }
  let len := d.debitLen p f.len
  (((d.debitShaper p c len).debitShaper p 8 len).debitDrr p c none len).advancePort p

/-- Tokens after a write of RATE or BURST: BURST where TOKEN_INIT is FULL, else 0 (R285). -/
def initTokens (zero : Bool) (burst : Nat) : Int := if zero then 0 else burst * tokScale

/-- An entry of EGS_TAB takes a value: a new RATE or BURST sets a shaper's tokens (R285), a new PORT sets MOVING (R286). -/
def Dev.applyEgs (d : Dev) (t i : Nat) (e : Entry) : Dev :=
  if t = 1 then
    let old := d.egsLeg i
    let g := d.egLeg i
    let reset := e.d3 ≠ old.d3 ∨ e.f 4 23 0 ≠ old.f 4 23 0
    let g := if reset then { g with shaper := if e.f 3 31 0 = 0 then 0 else initTokens (e.b 4 31) (e.f 4 23 0) } else g
    let move := old.b 0 31 && decide (legPort e ≠ legPort old)
    let d := (d.setEgLeg i { g with moving := g.moving || move }).setEnt .egs 1 i e
    if move then d.closeRun i else d
  else if t = 3 then
    let old := d.ent .egs 3 i
    let reset := e.d0 ≠ old.d0 ∨ e.f 1 23 0 ≠ old.f 1 23 0
    let tok := if reset then (if e.f 0 31 0 = 0 then 0 else initTokens (e.b 1 31) (e.f 1 23 0)) else d.shaperTok (i / 9) (i % 9)
    { d with egs := { d.egs with shapers := recSet d.egs.shapers i (tok, d.now) } }.setEnt .egs 3 i e
  else d.setEnt .egs t i e

/-- What a write of EGS_TAB replaced stands again. -/
def Dev.undoEgs (d : Dev) (w : EgsWrite) : Dev :=
  let d := d.setEnt .egs w.tab w.idx w.old
  if w.tab = 1 then d.setEgLeg w.idx { d.egLeg w.idx with shaper := w.tok, moving := w.moving }
  else if w.tab = 3 then { d with egs := { d.egs with shapers := recSet d.egs.shapers w.idx (w.tok, d.now) } }
  else d

/-- f under the entries that stood before the writes of this FCLK, which take effect after it (R285, R288). -/
def Dev.underOld (d : Dev) (f : Dev → Dev) : Dev :=
  if d.egs.writesAt = d.now ∧ d.egs.writes ≠ [] then
    let ws := d.egs.writes
    foldDev ws.reverse (fun w d => d.applyEgs w.tab w.idx w.new) (f (foldDev ws (fun w d => d.undoEgs w) d))
  else f d

/-- Frames between selection and the FIFOs on the ports of a plane: the plane's egress reorder buffer has 4,096 entries (R276). -/
def Dev.reorderFill (d : Dev) (plane : Nat) : Nat :=
  (((List.range 8).filter (fun q => d.planeOf q == plane)).map (fun q => (d.egPort q).sel.length)).sum

/-- One selection of a port. -/
def Dev.selectPort (d : Dev) (p : Nat) : Dev :=
  match d.dropNoLeg p with
  | some d => d
  | none =>
    let mine := d.egsLegs.filter (fun l => decide (legPort (d.egsLeg l) = p))
    let d := foldDev mine (fun l d => (d.dropFailed l).checkRun l) d
    if 4096 ≤ d.reorderFill (d.planeOf p) ∨ ((d.ent .egs 3 (shaperIdx p 8)).f 0 31 0 ≠ 0 ∧ d.shaperTok p 8 < 0) then d
    else
      let (c, d) := d.pickClass p
      match c with
      | none => d
      | some c =>
        match d.rawHead p c with
        | some f => d.selectRaw p c f
        | none =>
          let (l, d) := d.pickLeg p c
          match l with
          | some l => d.selectLeg p c l
          | none => d

/-- EGRESS_SELECT: at most one selection per FCLK and port (R276). -/
def egressSelect (p : Nat) (d : Dev) : Dev :=
  if 8 ≤ p ∨ !d.flag (Reg.EGS_PORT_CFG + portOfs p) 31 ∨ !(d.macPort p).up then d
  else
    let d := if (d.egPort p).selAt = some d.now then d.toFclk (d.fclk + 1) else d
    if (d.egPort p).selAt = some d.now then d
    else
      let d := d.setEgPort p { d.egPort p with selAt := some d.now }
      d.underOld (fun d => d.selectPort p)

/-! ### At the medium (R257, R268, R271, R282) -/

/-- A hold of a class by pause or PFC stands; it holds the FIFO from the FCLK after its receipt, so a frame that starts in the FCLK of the
receipt starts and finishes (R288). -/
def Dev.holdStands (d : Dev) (p c : Nat) : Bool :=
  let h := (d.egPort p).holds
  let on (k : Nat) : Bool := match tabFind h k with | some x => decide (d.now < x.2) | none => false
  on c || on (8 + c)
def Dev.classHeld (d : Dev) (p c : Nat) : Bool :=
  let h := (d.egPort p).holds
  let on (k : Nat) : Bool := match tabFind h k with | some x => decide (x.1 < d.now) && decide (d.now < x.2) | none => false
  on c || on (8 + c)

/-- FCLK the medium carries a frame: (FLEN + 20) × 8 bits at the port's rate. -/
def wireFclk (p len : Nat) : Nat := ceilDiv ((len + 20) * 12) (portRate p)

/-- Occupancy of R271 on a port, against a time in clock units: it lies within it. -/
def fitsWire (p len units : Nat) : Bool := decide ((len + 20) * 8 * nsUnit ≤ portRate p * units)

/-- The clock of a PTP domain on a port, and its ONE_STEP (R258). -/
def Dev.ptpDomain (d : Dev) (p dn : Nat) : Option Nat :=
  (List.range 6).find? (fun k =>
    let c := d.reg (Reg.TIM_DOM_CFG + domOfs k)
    bit c 31 && (bits c 27 20).testBit p && decide (bits c 19 12 = dn))

/-- A Sync on its way out (R258): a one-step one gets its originTimestamp; a two-step one is followed by its Follow_Up. -/
def Dev.ptpOut (d : Dev) (p : Nat) (f : EgFrame) (st : Stamp) : List Byte × Dev :=
  let d := if Config.ptpEvent f.bytes then d.cnt Reg.TIM_CNT_LO 5 1 else d
  match Config.ptpSync f.bytes with
  | none => (f.bytes, d)
  | some (dn, two, ofs) =>
    match d.ptpDomain p dn with
    | none => (f.bytes, d)
    | some k =>
      let t := st.doms.getD k 0
      if !two && d.flag (Reg.TIM_DOM_CFG + domOfs k) 4 then
        (f.bytes.take ofs ++ toBe 6 (clkSec t) ++ toBe 4 (clkNs t) ++ f.bytes.drop (ofs + 10), d)
      else if two then
        let bs := Config.ptpFollowUp f.bytes (clkSec t) (clkNs t)
        (f.bytes, d.setEgPort p { d.egPort p with raw := (d.egPort p).raw ++ [{ cls := f.cls, len := bs.length + 4, bytes := bs }] })
      else (f.bytes, d)

/-- The frame is stamped and sent. -/
def Dev.transmit (d : Dev) (p : Nat) (f : EgFrame) : Dev :=
  let st := d.txStamp p
  let ns := clkNs st.dt
  let (bytes, d) := d.ptpOut p f st
  let d := ((d.pushStamp p st).writeBack f.item.uid 0 ns).frameGone p f
  let d := ((d.egsCount p 0 1).egsCount p 1 f.len).emit (.frame p f.cls f.item.desc f.item.outSeq f.item.outTs ns bytes)
  let m := d.macPort p
  let d := d.setMacPort p { m with txFrames := m.txFrames + 1, txBytes := m.txBytes + f.len }
  let d := d.setEgPort p { d.egPort p with busyUntil := d.now + wireFclk p f.len }
  let d := { d with egs := { d.egs with txAt := recSet d.egs.txAt (p / 4) d.now } }
  match f.leg with
  | some l => d.noteDeparture l f.tw (st.dt / nsUnit) f.len (f.item.md.kind == 1) f.item.rtx
  | none => d

/-- A frame that cannot start: past its launch time it counts as delayed, once (R268). -/
def Dev.delayHead (d : Dev) (p : Nat) (f : EgFrame) : Dev :=
  if f.due.isSome && !f.delayed then (d.setFrame p { f with delayed := true }).gatCount p 3 1 else d

/-- Try to start a class's first frame: held for its launch time, dropped where it exceeds its whole window, else sent once no pause holds its
class, the medium is free and it can finish before its gate closes (R268, R271). -/
def Dev.tryStart (d : Dev) (p c : Nat) : Dev :=
  match (d.egPort p).fifo.find? (fun f => decide (f.cls = c)) with
  | none => d
  | some f =>
    let early : Bool := match f.due with | some t => decide (d.tim.dt < t * nsUnit) | none => false
    let excess : Bool := match d.window p c with | some w => !fitsWire p f.len (w * nsUnit) | none => false
    let fits : Bool := match d.closing p c with | some n => fitsWire p f.len n | none => true
    if early then d
    else if excess then ((d.gatCount p 0 1).raiseOnce Src.WINDOW_OVERLONG p).frameGone p f
    else if d.classHeld p c ∨ d.now < (d.egPort p).busyUntil then d.delayHead p f
    else if fits then d.transmit p f
    else
      let f' := { f with gateHeld := true }
      ((if f.gateHeld then d else (d.setFrame p f').gatCount p 1 1)).delayHead p f'

/-- FRAME_TX_START: each 400G port group starts at most one frame per FCLK (R276). -/
def frameTxStart (p c : Nat) (d : Dev) : Dev :=
  if 8 ≤ p ∨ 8 ≤ c ∨ !(d.macPort p).up then d
  else
    let d := if tabFind d.egs.txAt (p / 4) = some d.now then d.toFclk (d.fclk + 1) else d
    if tabFind d.egs.txAt (p / 4) = some d.now then d else d.tryStart p c

/-- LAUNCH_TIME_REACHED: DT reaches the launch time of the frame at the head of its class; what keeps it then delays it. -/
def launchTimeReached (p c : Nat) (d : Dev) : Dev :=
  match ((d.egPort p).fifo.find? (fun f => decide (f.cls = c))).bind (·.due) with
  | none => d
  | some t => d.atDt (t * nsUnit) (frameTxStart p c)

/-- A pause or PFC hold of a class begins, is renewed, or ends (quanta 0). -/
def Dev.holdClass (d : Dev) (p key quanta : Nat) : Dev :=
  let port := d.egPort p
  let c := key % 8
  let was := d.holdStands p c
  let from_ := match tabFind port.holds key with | some x => if d.now < x.2 then x.1 else d.now | none => d.now
  let holds := if quanta = 0 then tabErase port.holds key
               else recSet port.holds key (from_, d.now + ceilDiv (quanta * 768) (portRate p))
  let d := d.setEgPort p { port with holds := holds }
  let d := if !was && d.holdStands p c then
      d.setEgPort p { d.egPort p with
        heldFrom := recSet (d.egPort p).heldFrom c (if d.fclk = 0 then d.beat else d.beat + 1), heldNow := true }
    else d
  if d.holdStands p c then d
  else d.setEgPort p { d.egPort p with
    heldFrom := tabErase (d.egPort p).heldFrom c, reported := (d.egPort p).reported.erase c }

def pauseReceived (p quanta : Nat) (d : Dev) : Dev :=
  if 8 ≤ p ∨ !d.flag (Reg.EGS_PORT_CFG + portOfs p) 30 then d
  else foldDev (List.range 8) (fun c d => d.holdClass p (8 + c) quanta) (d.egsCount p 2 1)

def pfcReceived (p vec : Nat) (quanta : List Nat) (d : Dev) : Dev :=
  if 8 ≤ p ∨ !d.flag (Reg.EGS_PORT_CFG + portOfs p) 29 then d
  else foldDev (List.range 8) (fun c d =>
    let pri := bits (d.clsCfg p c) 26 24
    if vec.testBit pri then d.holdClass p c (quanta.getD pri 0) else d) (d.egsCount p 3 1)

/-- PAUSE_HOLD_EXPIRY: the quanta of a class's holds elapse. -/
def pauseHoldExpiry (p c : Nat) (d : Dev) : Dev :=
  let h := (d.egPort p).holds
  let till := max (((tabFind h c).map (·.2)).getD 0) (((tabFind h (8 + c)).map (·.2)).getD 0)
  if till = 0 then d
  else
    d.atNow till fun d => (d.holdClass p c 0).holdClass p (8 + c) 0

/-- EGRESS_PAUSE_HELD: held throughout 600 consecutive beats, once until the hold ends. -/
def egressPauseHeld (p c : Nat) (d : Dev) : Dev :=
  let port := d.egPort p
  match tabFind port.heldFrom c with
  | none => d
  | some b =>
    if d.holdStands p c && !port.reported.contains c && decide (b + 600 ≤ d.beat) then
      (d.setEgPort p { port with reported := c :: port.reported }).raise Src.EGRESS_PAUSE_HELD p c
    else d

/-- HELD_BEATS: beats in which any class of the port was held (R289). -/
def Dev.countHeld (d : Dev) (p : Nat) : Dev :=
  let any := (List.range 8).any (fun c => d.holdStands p c)
  let was := (d.egPort p).heldNow
  let d := d.setEgPort p { d.egPort p with heldNow := any }
  if was then d.egsCount p 7 1 else d

/-- EGRESS_MOVE_DONE (R286). -/
def egressMoveDone (leg : Nat) (d : Dev) : Dev :=
  let g := d.egLeg leg
  if g.moving && decide (g.inFlight = 0) then (d.setEgLeg leg { g with moving := false }).raise Src.EGRESS_MOVE_DONE leg else d

/-! ### EGS_TAB (R285, R286, R289) -/

def egsTabSize (t : Nat) : Nat := match t with | 0 => 262144 | 1 => 16384 | 2 => 1024 | 3 => 72 | _ => 0

def Dev.egsView (d : Dev) (t i : Nat) : Entry :=
  match t with
  | 0 => { d.egsStream i with d2 := BitVec.ofNat 32 ((tabFind d.egs.sent i).getD 0) }
  | 1 =>
    let e := d.egsLeg i
    let g := (d.refillLeg i).egLeg i
    let e := (e.setB 0 28 g.moving).setB 0 27 g.runOpen
    { e with d5 := BitVec.ofInt 32 (wholeBytes g.shaper), d6 := BitVec.ofInt 32 (wholeBytes g.pacer),
             d7 := BitVec.ofNat 32 (g.inFlight % 65536) }
  | 2 => d.ent .egs 2 i
  | _ => { d.ent .egs 3 i with d2 := BitVec.ofInt 32 (wholeBytes (d.shaperTok (i / 9) (i % 9))) }

def egsTabRead (v : Word) (d : Dev) : Dev :=
  tabReadOp Reg.EGS_TAB_CMD Reg.EGS_TAB_ADDR Reg.EGS_TAB_DATA 8 17 (pastEnd egsTabSize) Dev.egsView 5 v d

/-- An entry of EGS_TAB as a write of it leaves it, or the code it is refused with. -/
def Dev.egsEntry (d : Dev) (t i : Nat) (n : Entry) : Nat × Entry :=
  match t with
  | 0 => (0, Entry.legal (d.ent .egs 0 i) { d0 := n.d0 &&& 0xFF003FFF, d1 := n.d1 &&& 0x3FFFF } [(0, 25, 24, [(0, 2)])])
  | 1 => (if n.f 4 23 0 < 1536 then 5 else 0,
          { d0 := n.d0 &&& 0xE0001FFF, d1 := n.d1 &&& 0x3FFFF, d2 := n.d2 &&& 0x3FFFF, d3 := n.d3, d4 := n.d4 &&& 0x80FFFFFF })
  | 2 => (if n.f 0 7 0 = 0 then 5 else 0, { d0 := n.d0 &&& 0xFF })
  | _ => (if n.f 0 31 0 ≠ 0 ∧ n.f 1 23 0 < 1536 then 5 else 0, { d0 := n.d0, d1 := n.d1 &&& 0x80FFFFFF })

def egsTabWrite (v : Word) (d : Dev) : Dev :=
  let d := d.tabCmd Reg.EGS_TAB_CMD v
  let t := d.fld Reg.EGS_TAB_CMD 27 24
  let i := d.fld Reg.EGS_TAB_ADDR 17 0
  if pastEnd egsTabSize t i then d.tabErr Reg.EGS_TAB_CMD 5
  else
    let (code, e) := d.egsEntry t i (d.dataEntry Reg.EGS_TAB_DATA)
    if code ≠ 0 then d.tabErr Reg.EGS_TAB_CMD code
    else
      let d := d.refillLeg i
      let was : EgsWrite := { tab := t, idx := i, old := if t = 1 then d.egsLeg i else d.ent .egs t i, new := e,
                              tok := if t = 1 then (d.egLeg i).shaper else d.shaperTok (i / 9) (i % 9), moving := (d.egLeg i).moving }
      let d := { d with egs := { d.egs with writesAt := d.now, writes := was :: (if d.egs.writesAt = d.now then d.egs.writes else []) } }
      (d.applyEgs t i e).tabErr Reg.EGS_TAB_CMD 0

/-! ### GAT_TAB (R270, R273) -/

/-- The bank a table access names: 1 the shadow list. -/
def Dev.gatBank (d : Dev) (p : Nat) : Nat :=
  let g := d.gate p
  if d.flag Reg.GAT_TAB_CMD 23 then 1 - g.bank else g.bank

def gatTabRead (v : Word) (d : Dev) : Dev :=
  let d := d.tabCmd Reg.GAT_TAB_CMD v
  let p := d.fld Reg.GAT_TAB_CMD 27 24
  if 8 ≤ p then d.tabErr Reg.GAT_TAB_CMD 5
  else (d.putData Reg.GAT_TAB_DATA 2 (d.ent .gat p (gateIdx (d.gatBank p) (d.fld Reg.GAT_TAB_ADDR 9 0)))).tabErr Reg.GAT_TAB_CMD 0

/-- GAT_TAB_WRITE: only the shadow list, and only while PENDING is 0. DESIGN CHOICE (assumption 96): R273 says of the bits it does not name
that they are zero, and an entry that has one set is refused with BAD_ENTRY. -/
def gatTabWrite (v : Word) (d : Dev) : Dev :=
  let d := d.tabCmd Reg.GAT_TAB_CMD v
  let p := d.fld Reg.GAT_TAB_CMD 27 24
  let i := d.fld Reg.GAT_TAB_ADDR 9 0
  let e : Entry := { d0 := d.reg Reg.GAT_TAB_DATA, d1 := d.reg (Reg.GAT_TAB_DATA + 4) }
  if 8 ≤ p then d.tabErr Reg.GAT_TAB_CMD 5
  else if !d.flag Reg.GAT_TAB_CMD 23 then d.tabErr Reg.GAT_TAB_CMD 2
  else if d.flag (Reg.GAT_CTRL + portOfs p) 28 then d.tabErr Reg.GAT_TAB_CMD 1
  else if e.f 1 31 0 = 0 ∨ 1000000000 < e.f 1 31 0 ∨ e.f 0 31 8 ≠ 0 then d.tabErr Reg.GAT_TAB_CMD 5
  else (d.setEnt .gat p (gateIdx (d.gatBank p) i) e).tabErr Reg.GAT_TAB_CMD 0

/-- EGS_STATUS, EGS_PORT_HOLD and EGS_TXQ_FILL. -/
def Dev.egsStatus (d : Dev) : Nat :=
  (d.egs.legs.filter (fun p => p.2.moving)).length * 65536 +
  ((List.range 8).map (fun p => if (List.range 8).any (fun c => d.holdStands p c) then 2 ^ p else 0)).sum
def Dev.portHold (d : Dev) (p : Nat) : Nat := ((List.range 8).map (fun c => if d.holdStands p c then 2 ^ c else 0)).sum
def Dev.txqFill (d : Dev) (p : Nat) : Nat :=
  let port := d.egPort p
  ((List.range 8).map (fun c => if fifoBytes < port.fill c + 9216 then 2 ^ (16 + c) else 0)).sum +
  min 65535 ((port.fifo.map (·.len)).sum / 16)

end Sys2Proof.Machine
end

