-- ==== Sys2Proof/Machine/Tap.lean ====
section
/-! DEFINITION. The Gilis tap port (R378 to R381): output streams, lanes, the hold, input frames, and TAP_TAB. -/

namespace Sys2Proof.Machine
open Sys2Proof

def Dev.tapCount (d : Dev) (c n : Nat) : Dev := d.cnt Reg.TAP_CNT_LO c n

/-! ### Checksums -/

/-- One byte of CRC-8, polynomial 0x07. -/
def crc8Bits : Nat → Nat → Nat
  | 0, c => c
  | n + 1, c => crc8Bits n (if 128 ≤ c then (c * 2 % 256) ^^^ 7 else c * 2)

def crc8 (bs : List Byte) : Nat := bs.foldl (fun c b => crc8Bits 8 (c ^^^ b.toNat)) 0

/-! ### Entries and lanes -/

def tapPcm : Nat := 1
def tapPicture : Nat := 2
def tapAu : Nat := 3
def tapEvent : Nat := 4
def tapInject : Nat := 5

def segSize : Nat := 65536

def TapItem.segs (it : TapItem) : Nat := max 1 (ceilDiv it.len segSize)

def Dev.tapOut (d : Dev) (e : Nat) : Entry := d.ent .tap 0 e
def Dev.tapStream (d : Dev) (e : Nat) : TapStream := tabGet (fun _ => {}) d.tap.streams e
def Dev.setTapStream (d : Dev) (e : Nat) (s : TapStream) : Dev :=
  { d with tap := { d.tap with streams := tabSet (fun _ => {}) d.tap.streams e s } }

/-- An output lane is up: it has block lock and its OUT_EN bit is 1. -/
def Dev.laneUp (d : Dev) (lane : Nat) : Bool := d.tap.outUp.getD lane false && d.flag Reg.TAP_CFG (28 + lane)

/-- The lane a stream's next item leaves on: its own, or the next one up in rising order. -/
def Dev.laneOf (d : Dev) (e : Nat) : Option Nat :=
  let home := (d.tapOut e).f 0 23 22
  ((List.range 4).map (fun k => (home + k) % 4)).find? (fun l => d.laneUp l)

def tapVideo (kind : Nat) : Bool := kind == tapPicture || kind == tapAu

/-- The streams in use. -/
def Dev.tapEntries (d : Dev) : List (Nat × Entry) := (d.entries .tap 0).filter (fun p => p.2.b 0 31)

/-- An item that matches nothing is never formed; else it is queued once for each entry that names it, one in DECIMATE,
within the entry's ALLOW. -/
def Dev.tapOffer (d : Dev) (it : TapItem) : Dev :=
  if tapVideo it.kind && d.tap.stopped then d
  else
    foldDev d.tapEntries (fun p d =>
      let e := p.2
      let flock := e.f 1 31 20
      if e.f 0 30 28 = it.kind ∧ e.f 0 27 24 = it.sub ∧ e.f 0 15 0 = it.ident ∧
          (flock = it.flock ∨ (it.kind = tapEvent ∧ flock = 0xFFF)) then
        let s := d.tapStream p.1
        let n := max 1 (e.f 1 7 0)
        let d := d.setTapStream p.1 { s with seen := (s.seen + 1) % n }
        if s.seen ≠ 0 then d
        else if e.f 2 15 0 * segSize < (s.items.map (fun i => i.len - i.seg * segSize)).sum + it.len then
          (d.tapCount 2 1).raiseOnce Src.TAP_DROP p.1
        else
          let s := d.tapStream p.1
          d.setTapStream p.1 { s with items := s.items ++ [it] }
      else d) d

/-! ### Output frames -/

/-- The 16-byte header of Table 17.8. -/
def tapHeader (dev : Nat) (it : TapItem) (n : Nat) : List Byte :=
  let h := [BitVec.ofNat 8 (16 + it.kind), BitVec.ofNat 8 (it.sub * 16 + it.flags)] ++ toBe 2 (dev % 8 * 4096 + it.flock) ++
    toBe 2 it.ident ++ toBe 4 it.beat ++ toBe 3 (it.seg * 4096 + it.segs) ++ toBe 2 (n - 1)
  h ++ [BitVec.ofNat 8 (crc8 h)]

/-- Streams with an item that leaves on a lane, PCM and EVENT before PICTURE and ACCESS_UNIT, in round robin. -/
def Dev.tapPick (d : Dev) (lane : Nat) : Option (Nat × Bool) :=
  let ready := d.tapEntries.filter (fun p =>
    let s := d.tapStream p.1
    !s.items.isEmpty && (match s.lane with | some l => l == lane | none => d.laneOf p.1 == some lane))
  let pick := fun (video : Bool) =>
    (afterLast (tabFind d.tap.rr (lane * 2 + video.toNat))
      ((ready.filter (fun p => tapVideo (p.2.f 0 30 28) == video)).map (·.1))).head?
  match pick false with
  | some e => some (e, false)
  | none => (pick true).map (fun e => (e, true))

/-- TAP_FRAME_TX: the next segment of the lane's streams; nothing while the lane is down or TAP_HOLD_N is low. -/
def tapFrameTx (lane : Nat) (d : Dev) : Dev :=
  if !d.laneUp lane || d.tap.held.isSome then d
  else
    match d.tapPick lane with
    | none => d
    | some (e, video) =>
      let s := d.tapStream e
      match s.items with
      | [] => d
      | it :: rest =>
        let n := if it.seg + 1 = it.segs then it.len - it.seg * segSize else segSize
        let head := tapHeader (d.fld Reg.MUL_STATUS 31 29) it n
        let d := d.emit (.tap lane head n (slice it.known (it.seg * segSize) n))
        let d := (d.tapCount 0 1).tapCount 1 (n + 20)
        let s := if it.seg + 1 = it.segs then { s with items := rest, lane := none }
                 else { s with items := { it with seg := it.seg + 1 } :: rest, lane := some lane }
        let d := d.setTapStream e s
        { d with tap := { d.tap with rr := recSet d.tap.rr (lane * 2 + video.toNat) e } }

/-! ### Hold (R380) -/

def tapHoldAssert (d : Dev) : Dev :=
  if d.tap.held.isSome then d else { d with tap := { d.tap with held := some d.now, longSent := false } }

def tapHoldRelease (d : Dev) : Dev := { d with tap := { d.tap with held := none, longSent := false } }

/-- TAP_HOLD_LONG: the hold has lasted HOLD_WARN units of 60 beats; once for the hold. -/
def tapHoldLong (d : Dev) : Dev :=
  match d.tap.held with
  | none => d
  | some t =>
    if d.tap.longSent then d
    else
      d.atNow (t + d.fld Reg.TAP_CFG 7 0 * 60 * 2500000) fun d => ({ d with tap := { d.tap with longSent := true } }).raise Src.TAP_HOLD_LONG

/-- At shed stage S1 the unsent segments of PICTURE and ACCESS_UNIT items are discarded. -/
def Dev.tapStopVideo (d : Dev) : Dev :=
  let d := { d with tap := { d.tap with stopped := true } }
  foldDev (d.tapEntries.filter (fun p => tapVideo (p.2.f 0 30 28))) (fun p d =>
    d.setTapStream p.1 { d.tapStream p.1 with items := [], lane := none }) d

/-! ### Lanes: 0 to 3 output, 4 and 5 input -/

/-- Items begun on an output lane that fails are lost whole. -/
def Dev.loseBegun (d : Dev) (lane : Nat) : Dev :=
  foldDev (d.tapEntries) (fun p d =>
    let s := d.tapStream p.1
    if s.lane = some lane then (d.setTapStream p.1 { s with items := s.items.drop 1, lane := none }).tapCount 2 1 else d) d

def tapLaneDown (lane : Nat) (d : Dev) : Dev :=
  let d :=
    if lane < 4 then ({ d with tap := { d.tap with outUp := d.tap.outUp.set lane false } } : Dev).loseBegun lane
    else { d with tap := { d.tap with inUp := d.tap.inUp.set (lane - 4) false } }
  d.raise Src.TAP_LANE_DOWN lane

def tapLaneUp (lane : Nat) (d : Dev) : Dev :=
  if lane < 4 then { d with tap := { d.tap with outUp := d.tap.outUp.set lane true } }
  else { d with tap := { d.tap with inUp := d.tap.inUp.set (lane - 4) true } }

/-- A write of TAP_CFG: a lane whose OUT_EN bit becomes 0 is down. -/
def tapCfgWrite (v : Word) (d : Dev) : Dev :=
  foldDev ((List.range 4).filter (fun l => d.flag Reg.TAP_CFG (28 + l) && !bit v (28 + l))) (fun l d => d.loseBegun l) (d.writeReg Reg.TAP_CFG v)

/-! ### Input (R381) -/

def Dev.tapIn (d : Dev) (e : Nat) : Entry := d.ent .tap 1 e

/-- Key of an item in progress: its lane and its input entry. -/
def inKey (lane e : Nat) : Nat := lane * 256 + e

def Dev.setIn (d : Dev) (key : Nat) (v : Option TapIn) : Dev :=
  { d with tap := { d.tap with ins := match v with | some x => recSet d.tap.ins key x | none => tabErase d.tap.ins key } }

/-- An input frame or item is discarded: counter c, and TAP_RX_ERR at most once per beat. -/
def Dev.tapRefuse (d : Dev) (lane c : Nat) : Dev := (d.tapCount c 1).raiseOnce Src.TAP_RX_ERR lane

/-- An item in progress is discarded whole. -/
def Dev.tapDiscard (d : Dev) (key c : Nat) : Dev := (d.setIn key none).tapRefuse (key / 256) c

/-- The input entry that names a frame's SUBTYPE, FLOCK_ID and ID. -/
def Dev.inEntry (d : Dev) (sub flock ident : Nat) : Option Nat :=
  (((d.entries .tap 1).filter (fun p => p.2.b 0 31 && (sub == 2 || sub == 3))).find? (fun p =>
    decide (p.2.f 0 27 24 = sub) && decide (p.2.f 1 31 20 = flock) && decide (p.2.f 0 15 0 = ident))).map (·.1)

/-- Bytes that a picture item takes in a buffer, with the lines of pictureWrites. -/
def pictureSize (bytes : List Byte) : Nat :=
  let h := be16 bytes 2
  ceilDiv (be16 bytes 0 * if byteAt bytes 4 = 10 then 2 else 1) 256 * 256 * (h + h / 2)

/-- The rows of a plane, each put at its place in lines of the stride. -/
def placeRows (row stride : Nat) : List Byte → Nat → Nat → List (Nat × List Byte)
  | _, _, 0 => []
  | bs, at_, n + 1 => (at_, bs.take row) :: placeRows row stride (bs.drop row) (at_ + stride) n

/-- A picture item laid out as a frame buffer of R165: lines of a stride that is a multiple of 256 bytes. -/
def pictureWrites (base : Nat) (bytes : List Byte) : List (Nat × List Byte) :=
  let w := be16 bytes 0
  let h := be16 bytes 2
  let b := if byteAt bytes 4 = 10 then 2 else 1
  let stride := ceilDiv (w * b) 256 * 256
  placeRows (w * b) stride (bytes.drop 16) base (h + h / 2)

/-- An item is complete: an access unit goes to its queue and is posted; a picture goes to a free buffer, where it fits one, and is
posted. -/
def Dev.tapComplete (d : Dev) (key : Nat) (t : TapIn) : Dev :=
  let e := d.tapIn t.entry
  let d := d.setIn key none
  if t.sub = 3 then
    let q := e.f 1 17 0
    let (u, d) := d.newPayload t.bytes t.bytes.length
    let desc : Entry := { d0 := BitVec.ofNat 32 (4 * 2 ^ 28 + cellsFor t.bytes.length * 2 ^ 14 + t.bytes.length % 16384),
                          d2 := BitVec.ofNat 32 (t.ident * 65536) }
    let tail := (d.queue q).tail
    let d := d.enqueue q { desc := desc, uid := u, md := { brood := t.ident, kind := 2, flen := t.bytes.length } }
    if (d.queue q).tail = tail then d else d.push (.arrive (mkTag t.flock t.ident 1 t.beat) u 0)
  else
    let n := e.f 4 7 0
    let used := (d.tap.bufs.filter (fun b => b.1 == t.entry)).map (·.2.1)
    match (if pictureSize t.bytes ≤ e.f 4 31 8 * 4096 then (List.range n).find? (fun k => !used.contains k) else none) with
    | none => d.tapRefuse (key / 256) 7
    | some k =>
      let base := (e.word 2).toNat + 2 ^ 32 * (e.word 3).toNat + k * e.f 4 31 8 * 4096
      let tag := mkTag t.flock t.ident 15 t.beat
      let d := d.writeBlocks 6 base (t.bytes.length - 16)
      let d := { d with
        tap := { d.tap with bufs := d.tap.bufs ++ [(t.entry, k, tag)] }
        pci := { d.pci with dramWrites := d.pci.dramWrites ++ pictureWrites base t.bytes } }
      d.push (.arrive tag base 0)

/-- The segment of a good INJECT frame: it begins an item of its entry, or continues the one in progress on the lane; any other is
discarded with the item. -/
def Dev.tapSegment (d : Dev) (lane e : Nat) (bytes payload : List Byte) : Dev :=
  let key := inKey lane e
  let seg := beNat (slice bytes 10 3)
  let idx := seg / 4096
  let cnt := seg % 4096
  let beat := be32 bytes 6
  let d := if idx = 0 ∧ (tabFind d.tap.ins key).isSome then d.tapDiscard key 7 else d
  let cur : Option TapIn :=
    if idx = 0 then
      some { entry := e, sub := byteAt bytes 1 / 16, flock := be16 bytes 2 % 4096, ident := be16 bytes 4, beat := beat, count := cnt,
             next := 0, first := d.beat }
    else tabFind d.tap.ins key
  match cur with
  | none => d.tapRefuse lane 7
  | some t =>
    if idx ≠ t.next ∨ cnt ≠ t.count ∨ beat ≠ t.beat ∨ cnt ≤ idx then d.tapDiscard key 7
    else
      let t := { t with next := idx + 1, bytes := t.bytes ++ payload }
      if t.next = t.count then d.tapComplete key t else d.setIn key (some t)

/-- TAP_INPUT_FRAME: checked and collected into its item; the segments of an item come in order on one lane, those of other items may
lie between. -/
def tapInputFrame (lane : Nat) (bytes : List Byte) (d : Dev) : Dev :=
  if !(d.tap.inUp.getD lane false) || !d.flag Reg.TAP_CFG (26 + lane) then d
  else if bytes.length < 16 ∨ byteAt bytes 15 ≠ crc8 (bytes.take 15) ∨ byteAt bytes 0 / 16 ≠ 1 then d.tapRefuse lane 5
  else
    let d := d.tapCount 4 1
    let n := be16 bytes 13 + 1
    let payload := slice bytes 16 n
    match (if byteAt bytes 0 % 16 = tapInject then d.inEntry (byteAt bytes 1 / 16) (be16 bytes 2 % 4096) (be16 bytes 4) else none) with
    | none => d.tapRefuse lane (if bytes.length ≠ n + 20 ∨ be32 bytes (16 + n) ≠ crc32 payload then 6 else 7)
    | some e =>
      if bytes.length ≠ n + 20 ∨ be32 bytes (16 + n) ≠ crc32 payload then d.tapDiscard (inKey lane e) 6
      else d.tapSegment lane e bytes payload

/-- TAP_SEG_WAIT_EXPIRY: items of the lane still incomplete SEG_WAIT beats after their first segment. -/
def tapSegWaitExpiry (lane : Nat) (d : Dev) : Dev :=
  foldDev (d.tap.ins.filter (fun x => x.1 / 256 == lane && decide (x.2.first + d.fld Reg.TAP_CFG 15 8 ≤ d.beat))) (fun x d => d.tapDiscard x.1 7) d

/-- A picture buffer is free again when its operand's slot has been freed. -/
def Dev.tapFreeBuf (d : Dev) (tag : Nat) : Dev :=
  { d with tap := { d.tap with bufs := d.tap.bufs.filter (fun b => b.2.2 != tag) } }

/-! ### At each boundary -/

/-- Beats under a hold are counted, and the beat's log records are offered as one device-event item. -/
def Dev.tapBeat (d : Dev) : Dev :=
  let d := if d.tap.held.isSome then d.tapCount 3 1 else d
  let head := d.fld Reg.EVT_LOG_HEAD 11 0
  let n := (head + 4096 - d.evt.tapFrom) % 4096
  let bs := ((List.range n).map (fun k =>
    (tabGet (fun _ => {}) d.evt.log ((d.evt.tapFrom + k) % 4096)).bytes)).flatten
  let d := { d with evt := { d.evt with tapFrom := head } }
  if n = 0 then d
  else d.tapOffer { kind := tapEvent, sub := 2, flock := 0xFFF, ident := 0, beat := d.beat % 2 ^ 32, len := bs.length, known := bs }

/-! ### TAP_TAB -/

def tapTabSize (t : Nat) : Nat := match t with | 0 => 1024 | 1 => 256 | _ => 0

def tapTabRead (v : Word) (d : Dev) : Dev :=
  tabReadOp Reg.TAP_TAB_CMD Reg.TAP_TAB_ADDR Reg.TAP_TAB_DATA 8 9 (pastEnd tapTabSize) (fun d t i => d.ent .tap t i) 5 v d

/-- TAP_TAB_WRITE; an entry taken out of use or given another stream loses its queued items. -/
def tapTabWrite (v : Word) (d : Dev) : Dev :=
  let d := d.tabCmd Reg.TAP_TAB_CMD v
  let t := d.fld Reg.TAP_TAB_CMD 27 24
  let i := d.fld Reg.TAP_TAB_ADDR 9 0
  let n := d.dataEntry Reg.TAP_TAB_DATA
  if tapTabSize t ≤ i then d.tabErr Reg.TAP_TAB_CMD 5
  else if t = 0 then
    let e : Entry := { d0 := n.d0 &&& 0xFFC0FFFF, d1 := n.d1 &&& 0xFFF000FF, d2 := n.d2 &&& 0xFFFF }
    let old := d.tapOut i
    let d := d.setEnt .tap 0 i e
    let d := if e.b 0 31 && decide (e.f 0 30 24 = old.f 0 30 24) && decide (e.f 0 15 0 = old.f 0 15 0) &&
        decide (e.f 1 31 20 = old.f 1 31 20) then d else d.setTapStream i {}
    d.tabErr Reg.TAP_TAB_CMD 0
  else
    let e : Entry := { d0 := n.d0 &&& 0x8F00FFFF, d1 := n.d1 &&& 0xFFF3FFFF, d2 := n.d2, d3 := n.d3, d4 := n.d4 }
    (d.setEnt .tap 1 i e).tabErr Reg.TAP_TAB_CMD 0

/-- TAP_STATUS as read. -/
def Dev.tapStatus (d : Dev) : Nat :=
  ((List.range 4).map (fun l => if d.laneUp l then 2 ^ (28 + l) else 0)).sum +
  ((List.range 2).map (fun l => if d.tap.inUp.getD l false then 2 ^ (26 + l) else 0)).sum +
  d.tap.held.isSome.toNat * 2 ^ 25 +
  (d.que.asserted.any (fun o => (d.fcOut o).f 0 31 28 == 4)).toNat * 2 ^ 24 + d.tap.stopped.toNat * 2 ^ 23

end Sys2Proof.Machine
end

