-- ==== Sys2Proof/Machine/Parser.lean ====
section
/-! DEFINITION. The parse graph and its walk (R75 to R78), and the interpretation of RTP header extensions (R77). -/

namespace Sys2Proof.Machine
open Sys2Proof

/-! ### The graph record (R75) -/

def graphNodes (g : List Byte) : Nat := le32 g 0
def graphTrans (g : List Byte) : Nat := le32 g 4
def graphStart (g : List Byte) : Nat := le32 g 8

/-- Bytes of node i and of transition i; a node that a RECIRC names beyond the graph reads what bytes stand there (assumption 110). -/
def graphNode (g : List Byte) (i : Nat) : List Byte := slice g (16 + 32 * i) 32
def graphTran (g : List Byte) (i : Nat) : List Byte := slice g (16 + 32 * graphNodes g + 8 * i) 8

def ndKind (n : List Byte) : Nat := byteAt n 0 / 16
def ndTerminal (n : List Byte) : Bool := (byteAt n 0).testBit 3
def ndL4 (n : List Byte) : Bool := (byteAt n 0).testBit 2
def ndTunnel (n : List Byte) : Bool := (byteAt n 0).testBit 1
def ndChecks (n : List Byte) : Nat := byteAt n 15 % 16

/-- The k-th extract descriptor of a node. -/
def ndExtract (n : List Byte) (k : Nat) : Nat := le32 n (16 + 4 * k)

/-- A node entry the loader accepts, within a graph of n nodes and t transitions. -/
def nodeOk (g nd : List Byte) : Bool :=
  let n := graphNodes g
  let base := le16 nd 12
  let cnt := byteAt nd 14
  decide (ndKind nd ≠ 15) && decide (cnt ≤ 32) && (decide (cnt = 0) || decide (base + cnt ≤ graphTrans g)) &&
  (decide (byteAt nd 1 = 255) || decide (byteAt nd 1 < n)) &&
  (List.range 4).all (fun k =>
    let x := ndExtract nd k
    let w := x / 65536 % 256
    decide (w ≤ 128) && (decide (w = 0) || decide (x % 512 + w ≤ 512)))

/-- A transition names a node of the graph, or NO_NEXT. -/
def tranOk (g : List Byte) (t : Nat) : Bool :=
  let nx := byteAt (graphTran g t) 4
  decide (nx = 255) || decide (nx < graphNodes g)

/-- R75: the loader's checks of PARSE_GRAPH; START and the payload's length are checked as counts are (assumption 113). -/
def graphOk (g : List Byte) : Bool :=
  decide (1 ≤ graphNodes g) && decide (graphNodes g ≤ 256) && decide (graphTrans g ≤ 1024) &&
  decide (graphStart g < graphNodes g) && decide (g.length = 16 + 32 * graphNodes g + 8 * graphTrans g) &&
  (List.range (graphNodes g)).all (fun i => nodeOk g (graphNode g i)) && (List.range (graphTrans g)).all (tranOk g)

/-! ### The walk -/

/-- What the walk has gathered. Offsets count from the first byte the pass parses. -/
structure Walk where
  ofs : Nat := 0
  nodes : Nat := 0
  last : Nat := 13
  tcis : List Nat := []
  labels : List Nat := []
  ether : Nat := 0
  mac : Nat := 0
  ipVer : Nat := 0
  dscp : Nat := 0
  proto : Nat := 0
  tun : Nat := 0
  vni : Nat := 0
  msg : Nat := 0
  src : Nat := 0
  dst : Nat := 0
  sport : Nat := 0
  dport : Nat := 0
  chan : Nat := 0
  udp : Bool := false
  turn : Bool := false
  frag : Bool := false
  ipEnd : Nat := 0
  udpEnd : Nat := 0
  payEnd : Nat := 0
  inner : Bool := false
  carrier : Nat := 0
  ssrc : Nat := 0
  seq : Nat := 0
  ts : Nat := 0
  rtpOfs : Nat := 0
  extOfs : Nat := 0
  extEnd : Nat := 0
  rtpPay : Nat := 0
  extracts : List Nat := []
deriving DecidableEq, Repr

/-- Two bytes in network order; bytes past the end read 0. -/
def net16 (bs : List Byte) (o : Nat) : Nat := byteAt bs o * 256 + byteAt bs (o + 1)
def net32 (bs : List Byte) (o : Nat) : Nat := net16 bs o * 65536 + net16 bs (o + 2)

/-- Length of a node's header, and the bytes of it that must be there to know the length. -/
def headerLen (nd bs : List Byte) (o : Nat) : Nat × Nat :=
  match ndKind nd with
  | 0 => (14, 14)
  | 1 | 2 | 8 => (4, 4)
  | 3 => (byteAt bs o % 16 * 4, 1)
  | 4 => (40, 40)
  | 5 => ((byteAt bs (o + 1) + 1) * 8, 2)
  | 6 | 7 | 10 => (8, 8)
  | 9 =>
    let fixed := 12 + 4 * (byteAt bs o % 16)
    if (byteAt bs o).testBit 4 then (fixed + 4 + 4 * net16 bs (o + fixed + 2), fixed + 4) else (fixed, 1)
  | 11 => (20, 20)
  | 12 => (13, 13)
  | 13 =>
    let mask := le16 nd 6
    let field := net16 bs (o + byteAt nd 4 % 64)
    (le16 nd 2 + ((field / 2 ^ (byteAt nd 5 / 16)) &&& mask) * 2 ^ (byteAt nd 5 % 16),
     if mask = 0 then 0 else byteAt nd 4 % 64 + 2)
  | _ => (0, 0)

/-- Built-in work of a node's kind (Table 4.2). -/
def builtIn (nd bs : List Byte) (o len : Nat) (w : Walk) : Walk :=
  match ndKind nd with
  | 0 => { w with mac := beNat (slice bs o 12), ether := net16 bs (o + 12) }
  | 1 => { w with tcis := if w.tcis.length < 2 then w.tcis ++ [net16 bs o] else w.tcis, ether := net16 bs (o + 2) }
  | 2 => { w with labels := if w.labels.length < 6 then w.labels ++ [net32 bs o / 4096] else w.labels }
  | 3 =>
    { w with ipVer := 4, dscp := byteAt bs (o + 1) / 4, proto := byteAt bs (o + 9), src := beNat (slice bs (o + 12) 4),
             dst := beNat (slice bs (o + 16) 4), ipEnd := o + net16 bs (o + 2), frag := decide (net16 bs (o + 6) % 8192 ≠ 0) }
  | 4 =>
    { w with ipVer := 6, dscp := net16 bs o / 64 % 64, proto := byteAt bs (o + 6), src := beNat (slice bs (o + 8) 16),
             dst := beNat (slice bs (o + 24) 16), ipEnd := o + 40 + net16 bs (o + 4), frag := false }
  | 5 => { w with frag := decide (w.proto = 44) && decide (net16 bs (o + 2) / 8 ≠ 0), proto := byteAt bs o }
  | 6 => { w with udp := true, udpEnd := o + net16 bs (o + 4), payEnd := o + net16 bs (o + 4) }
  | 7 => { w with vni := net32 bs (o + 4) / 256 }
  | 8 => { w with turn := true, chan := net16 bs o, payEnd := o + 4 + net16 bs (o + 2) }
  | 9 =>
    let fixed := 12 + 4 * (byteAt bs o % 16)
    let x := (byteAt bs o).testBit 4
    { w with ssrc := net32 bs (o + 8), seq := net16 bs (o + 2), ts := net32 bs (o + 4), rtpOfs := o, rtpPay := o + len,
             extOfs := if x then o + fixed else 0, extEnd := if x then o + len else 0 }
  | 10 => { w with ssrc := net32 bs (o + 4), rtpOfs := o }
  | 11 => { w with msg := net16 bs o }
  | 12 => { w with msg := byteAt bs o }
  | 14 => { w with frag := true }
  | _ => w

/-- A header with L4 = 1 supplies the ports of the 5-tuple, by its first four bytes (assumption 83). -/
def portsOf (nd bs : List Byte) (o : Nat) (w : Walk) : Walk :=
  if ndL4 nd then { w with sport := net16 bs o, dport := net16 bs (o + 2) } else w

/-- After a TUNNEL node the headers are inner headers: no transport header of theirs has been seen (assumption 83). -/
def enterTunnel (nd : List Byte) (w : Walk) : Walk :=
  if ndTunnel nd then
    { w with inner := true, tun := ndKind nd, carrier := if w.udp then w.udpEnd else w.ipEnd, udp := false, sport := 0, dport := 0 }
  else w

/-- Bits [at, at + w) of a header, counted from its first bit. -/
def bitField (bs : List Byte) (o at_ w : Nat) : Nat :=
  beNat ((List.range 64).map (fun i => BitVec.ofNat 8 (byteAt bs (o + i)))) / 2 ^ (512 - at_ - w) % 2 ^ w

def extractsOf (nd bs : List Byte) (o : Nat) : List Nat :=
  (List.range 4).flatMap (fun k =>
    let x := ndExtract nd k
    let w := x / 65536 % 256
    if w = 0 then [] else [x / 2 ^ 24, bitField bs o (x % 512) w])

/-- The enabled length check of a node that fails (Table 4.4), by its pair code; `fin` is where the frame's bytes end and
`padded` says that the frame has the 64-byte minimum. -/
def lenConflict (nd bs : List Byte) (o fin : Nat) (padded : Bool) (w : Walk) : Option Nat :=
  let k := ndKind nd
  let on := fun i => (ndChecks nd).testBit i
  let total := if k = 3 then net16 bs (o + 2) else net16 bs (o + 4) + 40
  let ihl := byteAt bs o % 16
  let ulen := net16 bs (o + 4)
  let cd := net16 bs (o + 2)
  if on 0 && (k == 3 || k == 4) && w.inner && decide (o + total ≠ w.carrier) then some 7
  else if on 0 && (k == 3 || k == 4) && !w.inner && !(decide (o + total = fin) || (padded && decide (o + total < fin))) then
    some (if k = 3 then 1 else 2)
  else if on 1 && k == 6 && (decide (o + ulen ≠ w.ipEnd) || decide (ulen < 8)) then some (if w.ipVer = 6 then 4 else 3)
  else if on 2 && k == 8 && (decide (w.udpEnd < o + 4 + cd) || decide (o + 4 + cd + 3 < w.udpEnd)) then some 5
  else if on 3 && k == 3 && (decide (total < ihl * 4) || decide (ihl < 5)) then some 6
  else none

/-- The node after this one: the first transition that matches, in table order, else DEFAULT_NEXT. -/
def nextNode (g nd bs : List Byte) (o : Nat) : Nat :=
  let sel := net16 bs (o + byteAt nd 8 % 64) &&& le16 nd 10
  match (List.range (byteAt nd 14)).find? (fun k =>
    let t := graphTran g (le16 nd 12 + k)
    (sel &&& le16 t 2) == le16 t 0) with
  | some k => byteAt (graphTran g (le16 nd 12 + k)) 4
  | none => byteAt nd 1

inductive Parsed where
  | ok (w : Walk)
  | bad (reason pair : Nat)
deriving DecidableEq, Repr

/-- The walk from a node (R78): reasons 1 TOO_DEEP, 2 LEN_CONFLICT, 3 TRUNC, 4 NO_NEXT. -/
def walk (g bs : List Byte) (fin : Nat) (padded : Bool) : Nat → Nat → Walk → Parsed
  | 0, _, _ => .bad 1 0
  | fuel + 1, node, w =>
    let nd := graphNode g node
    let o := w.ofs
    let (len, need) := headerLen nd bs o
    if 24 ≤ w.nodes ∨ 512 < o + len then .bad 1 0
    else if fin < o + max len need then .bad 3 0
    else
      let w' := portsOf nd bs o (builtIn nd bs o len w)
      match lenConflict nd bs o fin padded w' with
      | some pair => .bad 2 pair
      | none =>
        let w' := { w' with ofs := o + len, nodes := w.nodes + 1, last := ndKind nd,
                            extracts := w'.extracts ++ extractsOf nd bs o }
        let w' := enterTunnel nd w'
        if w'.frag || ndTerminal nd || ndKind nd == 14 then .ok w'
        else
          let nx := nextNode g nd bs o
          if nx = 255 then .bad 4 0 else walk g bs fin padded fuel nx w'

/-- DEMUX of Table 4.5, by where the walk ended. -/
def Walk.demux (w : Walk) : Nat :=
  if w.frag then 6
  else if !w.udp then 5
  else match w.last with
    | 9 => 0
    | 10 => 1
    | 11 => 2
    | 12 => 3
    | _ => if w.turn then 4 else 7

/-- Fields of the ST0 key, in the order of Table 4.6, then the Ethernet addresses of Table 4.2 and the graph's own extracts. -/
def Walk.key0 (w : Walk) (port : Nat) : List Nat :=
  [port, w.tcis.getD 0 0, w.tcis.getD 1 0] ++ (List.range 6).map (fun i => w.labels.getD i 0) ++
  [w.ether, w.ipVer, w.dscp, w.proto, w.tun, w.vni, w.demux, w.msg, w.src, w.dst, w.mac] ++ w.extracts

/-- VNI, the 5-tuple of the innermost headers and the channel number; a fragment has no ports. -/
def Walk.tuple (w : Walk) : List Nat :=
  [w.vni, w.src, w.dst, w.proto, if w.frag then 0 else w.sport, if w.frag then 0 else w.dport, w.chan]

/-! ### Header extensions (R77) -/

/-- Elements of the extension block, in the one-byte (0xBEDE) and two-byte forms, and whether one runs past its end. -/
def extElems (oneByte : Bool) (bs : List Byte) : Nat → Nat → List (Nat × List Byte) × Bool
  | 0, _ => ([], false)
  | fuel + 1, o =>
    if bs.length ≤ o then ([], false)
    else
      let h := byteAt bs o
      if h = 0 then extElems oneByte bs fuel (o + 1)
      else if oneByte && h / 16 == 15 then ([], false)
      else
        let id := if oneByte then h / 16 else h
        let n := if oneByte then h % 16 + 1 else byteAt bs (o + 1)
        let p := if oneByte then o + 1 else o + 2
        if bs.length < p + n then ([], true)
        else
          let r := extElems oneByte bs fuel (p + n)
          ((id, slice bs p n) :: r.1, r.2)

/-- The extension elements of a packet: those whose length fits the block and the 512-byte window. -/
def extOf (bs : List Byte) (ofs fin : Nat) : List (Nat × List Byte) × Bool :=
  if ofs = 0 then ([], false)
  else
    let prof := net16 bs ofs
    let stop := min fin 512
    let block := slice bs (ofs + 4) (stop - (ofs + 4))
    if prof = 0xBEDE then extElems true block 256 0
    else if prof / 16 = 0x100 then extElems false block 256 0
    else ([], false)

end Sys2Proof.Machine
end

