-- ==== Sys2Proof/Machine/Meters.lean ====
section
/-! DEFINITION. Meters and counters (R87, R88) and MET_TAB (R93). -/

namespace Sys2Proof.Machine
open Sys2Proof

/-- Tokens are held in bytes × 1.5·10^9: a rate unit of 256 b/s is then 32 an FCLK. -/
def metScale : Nat := 1500000000

/-- A meter's configuration, Table 4.14. -/
def Dev.metEnt (d : Dev) (i : Nat) : Entry := d.ent .met 0 i

def Dev.meter (d : Dev) (i : Nat) : Meter := tabGet (fun _ => {}) d.pkt.meters i
def Dev.setMeter (d : Dev) (i : Nat) (m : Meter) : Dev :=
  { d with pkt := { d.pkt with meters := tabSet (fun _ => {}) d.pkt.meters i m } }

/-- The buckets refilled from the time counter to FCLK `now`: RFC 2698 refills both, RFC 2697 fills the excess bucket with
what the committed one cannot take. -/
def metRefill (e : Entry) (m : Meter) (now : Nat) : Meter :=
  let dt := now - m.last
  let cbs := e.f 3 23 0 * metScale
  let pbs := e.f 4 23 0 * metScale
  let c := e.f 1 31 0 * 32 * dt
  if e.b 0 31 then
    let excess := (m.tc + c) - cbs
    { tc := min cbs (m.tc + c), tp := min pbs (m.tp + excess), last := now }
  else { tc := min cbs (m.tc + c), tp := min pbs (m.tp + e.f 2 31 0 * 32 * dt), last := now }

/-- Colour of a packet of n bytes (0 green, 1 yellow, 2 red), colour-aware under `aware` with input colour `col`. -/
def metColour (e : Entry) (m : Meter) (n : Nat) (aware : Bool) (col : Nat) : Nat × Meter :=
  let b := n * metScale
  let pre := if aware then col else 0
  if e.b 0 31 then
    if pre = 0 ∧ b ≤ m.tc then (0, { m with tc := m.tc - b })
    else if pre ≤ 1 ∧ b ≤ m.tp then (1, { m with tp := m.tp - b })
    else (2, m)
  else
    if pre = 2 ∨ m.tp < b then (2, m)
    else if pre = 1 ∨ m.tc < b then (1, { m with tp := m.tp - b })
    else (0, { m with tc := m.tc - b, tp := m.tp - b })

/-- Meters written in this FCLK, as they were. -/
def Dev.oldMeters (d : Dev) : Tab (Entry × Meter) := if d.pkt.metOld.1 = d.now then d.pkt.metOld.2 else []

/-- Meter a packet of metered length n; answers its colour. In the FCLK of a write the packet takes the configuration and the tokens
from before it (R88). -/
def Dev.meterPacket (d : Dev) (i n : Nat) (aware : Bool) (col : Nat) : Nat × Dev :=
  match tabFind d.oldMeters i with
  | some (e, m) =>
    let (c, m) := metColour e (metRefill e m d.now) n aware col
    (c, { d with pkt := { d.pkt with metOld := (d.now, recSet d.oldMeters i (e, m)) } })
  | none =>
    let e := d.metEnt i
    let (c, m) := metColour e (metRefill e (d.meter i) d.now) n aware col
    (c, d.setMeter i m)

/-- A meter about to be written keeps its configuration and tokens for the packets of this FCLK. -/
def Dev.keepMeter (d : Dev) (i : Nat) : Dev :=
  if (tabFind d.oldMeters i).isSome then d
  else { d with pkt := { d.pkt with metOld := (d.now, recSet d.oldMeters i (d.metEnt i, d.meter i)) } }

/-- The metered length: FLEN + MET_OVH of the ingress port. -/
def Dev.meteredLen (d : Dev) (port flen : Nat) : Nat := d.debitLen port flen

/-! ### Counters -/

def Dev.ctr (d : Dev) (i : Nat) : Nat × Nat := tabGet (fun _ => (0, 0)) d.pkt.ctrs i
def Dev.setCtr (d : Dev) (i : Nat) (v : Nat × Nat) : Dev :=
  { d with pkt := { d.pkt with ctrs := tabSet (fun _ => (0, 0)) d.pkt.ctrs i (v.1 % 2 ^ 64, v.2 % 2 ^ 64) } }

/-- Count one packet of n bytes. -/
def Dev.countPair (d : Dev) (i n : Nat) : Dev := d.setCtr i ((d.ctr i).1 + 1, (d.ctr i).2 + n)

def pairWords (v : Nat × Nat) : Entry :=
  { d0 := BitVec.ofNat 32 v.1, d1 := BitVec.ofNat 32 (v.1 / 2 ^ 32), d2 := BitVec.ofNat 32 v.2, d3 := BitVec.ofNat 32 (v.2 / 2 ^ 32) }

/-! ### MET_TAB -/

def metTabSize (t : Nat) : Nat := match t with | 0 => 262144 | 1 => 2097152 | _ => 0

def Dev.metView (d : Dev) (t i : Nat) : Entry :=
  if t = 0 then
    let m := d.meter i
    { d.metEnt i with d5 := BitVec.ofNat 32 (m.tc / metScale), d6 := BitVec.ofNat 32 (m.tp / metScale), d7 := 0 }
  else pairWords (d.ctr i)

def metTabRead (v : Word) (d : Dev) : Dev :=
  tabReadOp Reg.MET_TAB_CMD Reg.MET_TAB_ADDR Reg.MET_TAB_DATA 8 20 (pastEnd metTabSize) Dev.metView 5 v d

/-- MET_TAB_WRITE (R88): a CBS or PBS below 9,279 bytes is refused; the buckets are set by TOKEN_INIT. -/
def metTabWrite (v : Word) (d : Dev) : Dev :=
  let d := d.tabCmd Reg.MET_TAB_CMD v
  let t := d.fld Reg.MET_TAB_CMD 27 24
  let i := d.fld Reg.MET_TAB_ADDR 20 0
  let n := d.dataEntry Reg.MET_TAB_DATA
  if metTabSize t ≤ i then d.tabErr Reg.MET_TAB_CMD 5
  else if t = 0 then
    let e : Entry := { d0 := n.d0 &&& 0xC0000000, d1 := n.d1, d2 := n.d2, d3 := n.d3 &&& 0xFFFFFF, d4 := n.d4 &&& 0xFFFFFF }
    let pb := e.f 4 23 0
    if e.f 3 23 0 < 9279 ∨ (pb < 9279 ∧ e.b 0 31 = false) then d.tabErr Reg.MET_TAB_CMD 5
    else
      let m : Meter := if e.b 0 30 then { last := d.now }
        else { tc := e.f 3 23 0 * metScale, tp := pb * metScale, last := d.now }
      (((d.keepMeter i).setEnt .met 0 i e).setMeter i m).tabErr Reg.MET_TAB_CMD 0
  else
    (d.setCtr i ((n.word 0).toNat + 2 ^ 32 * (n.word 1).toNat, (n.word 2).toNat + 2 ^ 32 * (n.word 3).toNat)).tabErr Reg.MET_TAB_CMD 0

/-- MET_TAB_READ_CLEAR: the pair is returned and cleared; a packet of `inc` bytes counted in that FCLK (0: none) is kept for
the next read. -/
def metTabReadClear (v : Word) (inc : Nat) (d : Dev) : Dev :=
  let d := d.tabCmd Reg.MET_TAB_CMD v
  let t := d.fld Reg.MET_TAB_CMD 27 24
  let i := d.fld Reg.MET_TAB_ADDR 20 0
  if metTabSize t ≤ i ∨ t = 0 then d.tabErr Reg.MET_TAB_CMD 5
  else
    let d := d.putData Reg.MET_TAB_DATA 8 (pairWords (d.ctr i))
    (d.setCtr i (if inc = 0 then (0, 0) else (1, inc))).tabErr Reg.MET_TAB_CMD 0

end Sys2Proof.Machine
end

