-- ==== Sys2Proof/Machine/Packets.lean ====
section
/-! DEFINITION. Ingress (chapter 4): frames at the MAC, passes, the match stages, actions, rule-set epochs, the flow table,
and MAT_TAB. -/

namespace Sys2Proof.Machine
open Sys2Proof

/-! ### Registers and regions -/

def Dev.regionOf (d : Dev) (r : Nat) : Region := (tabFind d.regions r).getD {}

/-- The modes that carry traffic; JOIN carries it as the mode before it did. -/
def Dev.traffic (d : Dev) : Bool :=
  match d.mode with
  | .shed => d.before != .join || d.mul.joinFrom == .service
  | .service | .reload | .sprint | .recovery => true
  | .join => d.mul.joinFrom == .service
  | _ => false

def Dev.epochNow (d : Dev) : Nat := d.fld Reg.MAT_EPOCH 3 0

/-- The epoch a frame takes that begins its first parse now: in the FCLK of a COMMIT still the one before (R89). -/
def Dev.epochFor (d : Dev) : Nat := if d.pkt.commitAt = some d.now then d.fld Reg.MAT_EPOCH 7 4 else d.epochNow

/-- Rule-set tables ST0, ST4 and ST5 exist in two banks. -/
def banked (t : Nat) : Bool := t == 0 || t == 4 || t == 5
def bankTable (t bank : Nat) : Nat := if banked t then t + 16 * bank else t

def Dev.metadata (d : Dev) (t bank i : Nat) : Entry := d.ent .mat (bankTable t bank) i

/-- Passes in flight under an epoch: from the start of the first parse until decided. -/
def Dev.inFlight (d : Dev) (e : Nat) : Nat :=
  (d.pkt.planes.map (fun p => (p.passes.filter (fun x => x.2.md.epoch == e && (!x.2.decided || x.2.recirc.isSome))).length)).sum

/-! ### MAC counters and drops (R74, R372) -/

/-- A port's MAC counts a drop and raises MAC_RX_ERR at most once per beat. -/
def Dev.macDrop (d : Dev) (p : Nat) (m : MacPort) : Dev := (d.setMacPort p m).raiseOnce Src.MAC_RX_ERR p

/-! ### HOST queues -/

/-- The queue that feeds punt ring r: the r-th queue of kind HOST (assumption 12). -/
def Dev.hostQueue (d : Dev) (r : Nat) : Option Nat :=
  let qs := (List.range 64).flatMap (fun g =>
    if d.groupKind g = 4 ∧ (d.group g).f 1 18 0 ≠ 0 then [((d.group g).f 0 17 0, (d.group g).f 1 18 0)] else [])
  (qs.foldl (fun (acc : Option Nat × Nat) g =>
    match acc with
    | (some q, n) => (some q, n)
    | (none, n) => if n < g.2 then (some (g.1 + n), n) else (none, n - g.2)) (none, r)).1

/-- An item for a punt ring; its payload's reference is the item's. One that its queue cannot hold is dropped: the ring's next
item carries LOST (R365). -/
def Dev.puntItem (d : Dev) (ring : Nat) (it : Item) : Dev :=
  let lost := fun (d : Dev) =>
    let d := d.setRing ring { d.ringRec ring with lost := true }
    (d.cnt Reg.PCI_CNT_LO 0 1).raiseOnce Src.HOST_RING_FULL ring
  match d.hostQueue ring with
  | none => lost (d.derefPayload it.uid)
  | some q =>
    let tail := (d.queue q).tail
    let d := d.enqueue q it
    if (d.queue q).tail = tail then lost d else d

/-! ### Items of passes -/

/-- The descriptor of a received packet, TYPE 1 PKT, or of one the device makes, TYPE 3 GEN (Table 6.2). -/
def pktDesc (type : Nat) (m : Meta) (prec auth len ns : Nat) (side : Bool) : Entry :=
  { d0 := BitVec.ofNat 32 (type * 2 ^ 28 + auth * 2 ^ 26 + prec * 2 ^ 24 + side.toNat * 2 ^ 23 + cellsFor len * 2 ^ 14 + len),
    d2 := BitVec.ofNat 32 (m.brood * 65536 + m.leg),
    d3 := BitVec.ofNat 32 (m.seq * 65536 + m.stream * 4096 + m.kind * 256 + m.layer),
    d4 := BitVec.ofNat 32 m.ts, d6 := BitVec.ofNat 32 ns, d7 := BitVec.ofNat 32 (m.twseq * 65536 + m.port * 512 + m.rtpOfs % 512) }

def Pass.item (p : Pass) (prec : Nat) : Item :=
  { desc := pktDesc 1 p.md prec p.auth p.bytes.length p.stamp (!p.side.isEmpty), uid := p.uid, md := p.md, side := p.side,
    punt := p.punt, rtpLen := p.rtpLen - p.tagLen, dd := p.dd }

/-! ### Malformed passes (R79) -/

def Dev.malformed (d : Dev) (n : Nat) (p : Pass) (reason pair : Nat) : Dev :=
  let r := reason - 1
  let ctl := Reg.PRS_MAL_CTRL + planeOfs n + 4 * r
  let d := d.count (Reg.PRS_MAL_CNT_LO + planeOfs n + 8 * r) 1
  let d := if reason = 2 then d.count (Reg.PRS_LENC_CNT_LO + planeOfs n + 8 * (pair - 1)) 1 else d
  let d := d.raiseOnce (srcRegion n 8) noDetail reason
  match d.fld ctl 1 0 with
  | 1 =>
    let pl := d.plane n
    let seen := tabGet (fun _ => 0) pl.sample reason + 1
    if d.fld ctl 31 16 ≤ seen then
      let d := d.setPlane n { pl with sample := tabErase pl.sample reason }
      d.puntItem (d.fld ctl 15 12)
        { p.item 0 with punt := some { reason := 2, sampled := true, mal := reason, pair := pair } }
    else (d.setPlane n { pl with sample := recSet pl.sample reason seen }).derefPayload p.uid
  | 2 =>
    let known := [BitVec.ofNat 8 reason, BitVec.ofNat 8 pair, BitVec.ofNat 8 p.md.port, 0] ++ toBe 4 p.stamp ++ p.bytes
    (d.tapOffer { kind := tapEvent, sub := 1, flock := 0xFFF, ident := n, beat := d.beat % 2 ^ 32, len := known.length,
                  known := known }).derefPayload p.uid
  | _ => d.derefPayload p.uid

/-! ### Flow cache (R82) -/

def flowBuckets : Nat := 8388608
def cacheSets : Nat := 16384

def bucketOf (key : List Nat) : Nat := Config.flowHash key % flowBuckets

/-- The fingerprint of a key and ZONE; no entry has 0. -/
def flowFp (zone : Nat) (key : List Nat) : Nat := Config.flowPrint (zone :: key) % (2 ^ 64 - 1) + 1

/-- The bucket becomes the most recently used of its 8-way set. -/
def cacheUse (cache : List Nat) (b : Nat) : List Nat :=
  let rest := b :: cache.filter (fun x => x != b)
  let inSet := rest.filter (fun x => x % cacheSets == b % cacheSets)
  match inSet[8]? with
  | some v => rest.filter (fun x => x != v)
  | none => rest

/-- The ST2 key of a pass: port, VNI, 5-tuple and channel number (Table 4.6), as the six words of a LOOKUP; the fingerprint takes the
ZONE with it (assumption 13). -/
def Pass.flowKey (p : Pass) : List Nat := p.md.port :: p.tuple

/-- The 5-tuple of the innermost headers, which with the ZONE is the ST1 key. -/
def Pass.five (p : Pass) : List Nat := (p.tuple.drop 1).take 5

/-- The ST2 lookup of a pass starts: a hit goes on at once, a miss waits for the fill of its bucket. -/
def Dev.startLookup (d : Dev) (n : Nat) (p : Pass) : Pass × Dev :=
  let b := bucketOf (Config.flowWords p.flowKey)
  let pl := d.plane n
  if pl.cache.contains b then (p, (d.setPlane n { pl with cache := cacheUse pl.cache b }).matCount n 0 1)
  else
    let fills := if pl.fills.any (fun f => f.1 == b) then pl.fills else pl.fills ++ [(b, false)]
    ({ p with waitFill := some b }, (d.setPlane n { pl with fills := fills }).matCount n 1 1)

/-! ### Parsing -/

def Dev.setPass (d : Dev) (n id : Nat) (p : Pass) : Dev :=
  let pl := d.plane n
  d.setPlane n { pl with passes := recSet pl.passes id p }

def Dev.passOf (d : Dev) (n id : Nat) : Option Pass := tabFind (d.plane n).passes id

def Dev.dropPass (d : Dev) (n id : Nat) : Dev :=
  let pl := d.plane n
  d.setPlane n { pl with passes := tabErase pl.passes id }

/-- Parse a pass from node `start`; it joins the plane's passes under id `id`, or takes its malformed-packet action. `padded`: the
frame came with the 64-byte minimum. -/
def Dev.parse (d : Dev) (n id start : Nat) (p : Pass) (padded : Bool) : Dev :=
  let g := (d.regionOf n).sec.graph
  match walk g p.bytes (p.bytes.length - 4) padded 25 start {} with
  | .bad reason pair => (d.dropPass n id).malformed n p reason pair
  | .ok w =>
    let md := { p.md with demux := w.demux, ssrc := w.ssrc, seq := w.seq, ts := w.ts, rtpOfs := w.rtpOfs, extOfs := w.extOfs }
    let fin := if w.payEnd = 0 then p.bytes.length - 4 else min w.payEnd (p.bytes.length - 4)
    let p := { p with md := md, key0 := w.key0 p.md.port, tuple := w.tuple, rtpLen := fin - w.rtpOfs,
                      names := [w.extEnd, w.rtpPay] }
    let (p, d) := d.startLookup n p
    d.setPass n id p

/-- Entries of a plane's reorder buffer in use (PRS_STATUS). -/
def Dev.reorderUsed (d : Dev) (n : Nat) : Nat := ((d.plane n).passes.filter (fun p => p.2.order.isSome)).length

/-- A frame begins its first parse: it takes the epoch of this FCLK. -/
def Dev.startPass (d : Dev) (n : Nat) (p : Pass) : Dev :=
  let pl := d.plane n
  let id := pl.nextPass
  let d := d.setPlane n { pl with nextPass := id + 1 }
  d.parse n id (graphStart (d.regionOf n).sec.graph) { p with md := { p.md with epoch := d.epochFor }, seqNo := id } (decide (p.md.flen = 64))

/-- Frames that waited at a plane's input begin, while entries are free. -/
def Dev.takeWaiting (d : Dev) (n : Nat) : Nat → Dev
  | 0 => d
  | k + 1 =>
    let pl := d.plane n
    match pl.waiting with
    | [] => d
    | p :: rest => if d.reorderUsed n < 4096 then Dev.takeWaiting ((d.setPlane n { pl with waiting := rest }).startPass n p) n k else d

/-- A frame comes to its plane's input. -/
def Dev.toPlane (d : Dev) (n : Nat) (p : Pass) : Dev :=
  let pl := d.plane n
  if 4096 ≤ d.reorderUsed n ∨ pl.waiting.isEmpty = false then
    let d := d.setPlane n { pl with waiting := pl.waiting ++ [p] }
    let d := d.prsCount n 1 1
    if pl.waiting.isEmpty then d.raise (srcRegion n 9) else d
  else d.startPass n p

/-- A plane takes the frames of a port: the port is steered to it and not being switched, and its region is ACTIVE (R47, R48). -/
def Dev.takes (d : Dev) (n port : Nat) : Bool :=
  d.planeOf port == n && d.mac.want.getD port 0 == n && decide (d.fld (Reg.CFG_REGION_STAT + 4 * n) 11 8 = 0)

/-- A frame enters the plane its port is steered to; frames of a port that no plane takes wait in the burst store (R47; assumption 100). -/
def Dev.ingress (d : Dev) (port : Nat) (bytes : List Byte) (ns : Nat) (side : List Byte) : Dev :=
  let (u, d) := d.newPayload bytes bytes.length
  let p : Pass := { md := { port := port, flen := bytes.length, beat := d.beat }, bytes := bytes, uid := u, stamp := ns, side := side }
  if d.takes (d.planeOf port) port then d.toPlane (d.planeOf port) p
  else { d with mac := { d.mac with parked := d.mac.parked ++ [p] } }

/-- FRAME_RECEIVED (R74, R122, R258, R331, R332): stamped, counted by the MAC, and taken in unless it fails its FCS, is a
runt or too long, or the mode or the burst store admits no frame. -/
def frameReceived (port : Nat) (bytes : List Byte) (fcsOk : Bool) (d : Dev) : Dev :=
  let m := d.macPort port
  let stamp := d.rxStamp port
  let d := d.pushStamp port stamp
  let m := { m with rxFrames := m.rxFrames + 1, rxBytes := m.rxBytes + bytes.length }
  if bytes.length < 64 then d.macDrop port { m with runt := m.runt + 1 }
  else if !fcsOk then d.macDrop port { m with fcsErr := m.fcsErr + 1 }
  else if 9216 < bytes.length then d.macDrop port { m with oversize := m.oversize + 1 }
  else
    let d := d.setMacPort port m
    if !d.traffic then d
    else if d.burstFree < d.fld Reg.QUE_BURST_CFG 17 0 then (d.queCount 2 1).raiseOnce Src.BURST_STORE_FULL port
    else d.ingress port bytes (clkNs stamp.dt) []

/-- FLOW_BUCKET_FILL (R82, R83): a fill overtaken by a host write is fetched again; else the waiting lookups proceed. -/
def flowBucketFill (n b : Nat) (d : Dev) : Dev :=
  let pl := d.plane n
  match pl.fills.find? (fun f => f.1 == b) with
  | none => d
  | some (_, true) => d.setPlane n { pl with fills := pl.fills.map (fun f => if f.1 == b then (b, false) else f) }
  | some (_, false) =>
    d.setPlane n { pl with
      fills := pl.fills.filter (fun f => f.1 != b)
      cache := cacheUse pl.cache b
      passes := pl.passes.map (fun p => (p.1, if p.2.waitFill = some b then { p.2 with waitFill := none } else p.2)) }

/-! ### Match stages (R81, R84) -/

/-- The first entry of a table, in index order, that matches a key. -/
def Dev.matchTable (d : Dev) (stage table : Nat) (key : List Nat) : Option Entry :=
  ((d.entries .mat table).find? (fun p => Config.entryMatches stage p.2 key)).map (·.2)

/-- A tree search: the image's format is private to the tools, so what it finds is an open value: a walk ended under R84,
a miss, or an entry. -/
def Dev.treeSearch (d : Dev) (n : Nat) : Option Entry × Dev :=
  let d := d.matCount n 5 1
  let (k, d) := d.draw
  match k % 3 with
  | 0 => (none, (d.setReg Reg.TRE_ERR_CNT (d.reg Reg.TRE_ERR_CNT + 1)).raise (srcRegion n 11))
  | 1 => (none, d)
  | _ =>
    let f := fun i => BitVec.ofNat 32 (Config.freeNat (d.free + i))
    (some ⟨f 0, f 1, f 2, f 3, f 4, f 5, f 6, f 7⟩, { d with free := d.free + 8 })

/-- A ternary stage with its fall-back: bit `en` of TRE_CTRL enables the tree. -/
def Dev.ternary (d : Dev) (n stage bank en : Nat) (mayTree : Bool) (key : List Nat) : Option Entry × Bool × Dev :=
  match d.matchTable stage (bankTable stage bank) key with
  | some e => (some e, false, d)
  | none =>
    if mayTree && d.flag Reg.TRE_CTRL en then
      let (e, d) := d.treeSearch n
      (e, true, d)
    else (none, false, d)

/-! ### The flow table (R82) -/

def Dev.flow (d : Dev) (i : Nat) : Flow := tabGet (fun _ => {}) d.pkt.flows i
def Dev.setFlow (d : Dev) (i : Nat) (f : Flow) : Dev :=
  { d with pkt := { d.pkt with flows := tabSet (fun _ => {}) d.pkt.flows i f } }

/-- The entry of a bucket with a fingerprint, and a free entry of it. -/
def Dev.flowIn (d : Dev) (b fp : Nat) : Option Nat :=
  ((List.range 4).map (fun k => b * 4 + k)).find? (fun i => (d.flow i).fp == fp)

/-- ST2: the entry of the packet's flow, learned where the profile asks for it. -/
def Dev.flowLookup (d : Dev) (n : Nat) (p : Pass) (learn : Bool) (meter : Nat) : Option Flow × Dev :=
  let key := Config.flowWords p.flowKey
  let b := bucketOf key
  let fp := flowFp p.md.zone key
  let now := d.beat % 2 ^ 32
  match d.flowIn b fp with
  | some i =>
    let f := { d.flow i with last := now, pkts := min 0xFFFFFFFF ((d.flow i).pkts + 1) }
    (some f, d.setFlow i f)
  | none =>
    if !learn then (none, d)
    else
      match d.flowIn b 0 with
      | none => (none, (d.matCount n 3 1).raiseOnce (srcRegion n 10))
      | some i =>
        let f : Flow := { fp := fp, first := now, last := now, pkts := 1, learned := true, meterEn := true, meter := meter }
        (some f, (d.setFlow i f).matCount n 2 1)

/-! ### Extensions after ST1 (R77) -/

/-- TWSEQ, LEVEL, LAYER, side record and names (MID, RID, whether a transport-wide number is carried). -/
def Dev.interpret (d : Dev) (n : Nat) (p : Pass) (profile : Nat) : Pass × Dev :=
  let map := d.ent .mat 6 (profile % 256)
  let (els, bad) := extOf p.bytes p.md.extOfs (p.names.getD 0 0)
  let find := fun m => (els.find? (fun x => Config.extMeaning map x.1 == m)).map (·.2)
  let d := if bad then d.prsCount n 0 1 else d
  let md := p.md
  let md := match find 1 with | some x => { md with level := byteAt x 0 } | none => md
  let md := match find 2 with | some x => { md with twseq := net16 x 0 } | none => md
  let side := match find 6 with | some x => x.take 32 | none => p.side
  let name := fun m => match find m with | some x => beNat x + 1 | none => 0
  ({ p with md := md, side := side, dd := ((find 6).getD []).take 256,
            names := [p.names.getD 0 0, p.names.getD 1 0, name 3, max (name 4) (name 5), (find 2).isSome.toNat] }, d)

/-! ### The decision -/

/-- LAYER by the INDICATION of the brood's entry (R138): the dependency descriptor or the frame marking among the extensions. -/
def Dev.layerOf (d : Dev) (p : Pass) (profile : Nat) : Pass :=
  let map := d.ent .mat 6 (profile % 256)
  let find := fun m => (((extOf p.bytes p.md.extOfs (p.names.getD 0 0)).1).find? (fun x => Config.extMeaning map x.1 == m)).map (·.2)
  match (d.broodEnt p.md.brood).f 0 21 20 with
  | 2 => match find 6 with
    | some x => { p with md := { p.md with layer := Config.layerOf 6 x % 256, pic := some (net16 x 1, 65536) } }
    | none => p
  | 3 => match find 7 with
    | some x => { p with md := { p.md with layer := Config.layerOf 7 x % 256, tl0 := if 3 ≤ x.length then some (byteAt x 2) else none } }
    | none => p
  | _ => p

/-- Picture id with its modulus and TL0PICIDX of a VP8 payload descriptor (RFC 7741), where it carries them. -/
def vp8Numbers (b : List Byte) : Option (Nat × Nat) × Option Nat :=
  let x := byteAt b 1
  if !(byteAt b 0).testBit 7 then (none, none)
  else
    let (pic, next) : Option (Nat × Nat) × Nat :=
      if !x.testBit 7 then (none, 2)
      else if (byteAt b 2).testBit 7 then (some (net16 b 2 % 32768, 32768), 4)
      else (some (byteAt b 2, 128), 3)
    (pic, if x.testBit 6 then some (byteAt b next) else none)

/-- LAYER of a brood whose INDICATION is the VP8 payload descriptor, read from the packet's plaintext (R76, R138). -/
def Dev.vp8Layer (d : Dev) (p : Pass) (bytes : List Byte) : Pass :=
  if p.md.kind = 2 ∧ (d.broodEnt p.md.brood).f 0 21 20 = 1 then
    let b := bytes.drop (p.names.getD 1 0)
    { p with md := { p.md with layer := Config.layerOf 8 b % 256, pic := (vp8Numbers b).1, tl0 := (vp8Numbers b).2 } }
  else p

/-- The link whose tunnel an association of kind MULE stands for. -/
def Dev.tunnelOf (d : Dev) (leg : Nat) : Option Nat :=
  (List.range 4).find? (fun k => d.flag (Reg.MUL_LINK_CFG + mulOfs k) 30 && decide ((Config.linkLeg k).toNat = leg))

/-- The stages ST0 to ST4 and the choice of Table 4.7; answers the pass with its metadata and the pre-colour. -/
def Dev.classify (d : Dev) (n : Nat) (p : Pass) : Pass × Nat × Option Flow × Nat × Dev :=
  let bank := p.md.epoch % 2
  let (e0, t0, d) := d.ternary n 0 bank (2 * bank) true p.key0
  let d := if e0.isNone then d.matCount n 6 1 else d
  let r := fun (st : Nat) (e : Option Entry) k => match e with | some x => Config.entryResult st x k | none => 0
  let profile := r 0 e0 0 % 256
  let zone := r 0 e0 1 % 4096
  let p := { p with md := { p.md with profile := profile, zone := zone } }
  let e1 := d.matchTable 1 1 (zone :: p.five)
  let p := { p with md := { p.md with assoc := r 1 e1 0 % 2 ^ 18, leg := r 1 e1 1 % 16384 } }
  let p := if p.md.pass = 0 ∧ e1.isSome = true ∧ r 1 e1 2 = 1 then { p with mule := d.tunnelOf p.md.leg } else p
  let (f2, d) := d.flowLookup n p (decide (r 0 e0 3 % 2 = 1)) (r 0 e0 4 % 262144)
  let (p, d) := if e1.isSome then d.interpret n p (r 1 e1 3) else (p, d)
  let e3 := if e1.isSome ∧ p.md.demux ≤ 1 then
      match d.matchTable 3 3 [p.md.leg, 0, p.md.ssrc] with
      | some e => some e
      | none =>
        match (if p.names.getD 3 0 = 0 then none else d.matchTable 3 3 [p.md.leg, 1, p.names.getD 3 0 - 1]) with
        | some e => some e
        | none => if p.names.getD 2 0 = 0 then none else d.matchTable 3 3 [p.md.leg, 2, p.names.getD 2 0 - 1]
    else none
  let p := { p with md := { p.md with brood := r 3 e3 0 % 65536, stream := r 3 e3 1 % 16, kind := r 3 e3 2 % 16 },
                    queue := r 3 e3 3 % 262144 }
  let p := if e3.isSome then d.vp8Layer (d.layerOf p (r 1 e1 3)) p.bytes else p
  let (e4, t4, d) := d.ternary n 4 bank (2 * bank + 1) (!t0) (p.key0 ++ [profile, zone])
  let d := if e4.isNone then d.matCount n 7 1 else d
  let f2act := (f2.map (·.action)).getD 0
  let idx :=
    if e4.isSome ∧ r 4 e4 0 % 2 = 1 then r 4 e4 1
    else if e3.isSome then r 3 e3 4
    else if e1.isSome then r 1 e1 4
    else if f2act ≠ 0 then f2act
    else if e0.isSome then r 0 e0 2
    else d.fld Reg.MAT_DEFAULT 15 0
  let hits := e0.isSome.toNat * 32 + e1.isSome.toNat * 16 + f2.isSome.toNat * 8 + e3.isSome.toNat * 4 +
    e4.isSome.toNat * 2 + (t0 || t4).toNat
  let p := { p with md := { p.md with action := idx % 65536, hits := hits } }
  (p, idx % 65536, f2, r 4 e4 2 % 3, d)

/-- Metering and counting of R87; answers the colour, whether the disposition drops the packet, and its precedence. -/
def Dev.meterAndCount (d : Dev) (p : Pass) (a : Entry) (f2 : Option Flow) (pre : Nat) : Nat × Bool × Nat × Dev :=
  let len := d.meteredLen p.md.port p.md.flen
  let (c1, d) :=
    match f2 with
    | some f => if a.b 0 24 && f.meterEn then
        (let r := d.meterPacket f.meter len false 0; (some r.1, r.2)) else (none, d)
    | none => (none, d)
  let input := c1.getD pre
  let (col, d) := if a.b 0 26 then d.meterPacket (a.f 2 17 0) len (a.b 0 25) input else (input, d)
  let disp := a.f 3 (2 * col + 1) (2 * col)
  let d := if a.b 0 27 then d.countPair (a.f 1 20 0) p.md.flen else d
  let d := match f2 with | some f => if f.countEn then d.countPair f.counter p.md.flen else d | none => d
  (col, decide (disp = 2), if disp = 1 then col else 0, d)

/-! ### Cipher work (R92, R97, R102, R110) -/

/-- A FORWARD pass carries SRTP or SRTCP when it is RTP or RTCP of a leg that is not KEYLESS. -/
def Dev.isSrtp (d : Dev) (p : Pass) : Bool := decide (p.md.demux ≤ 1) && p.md.hits.testBit 4 && !(d.egsLeg p.md.leg).b 0 30

/-- The next entry of the plane's reorder buffer; the entry of a first pass is free with it. -/
def Dev.takeEntry (d : Dev) (n id : Nat) (p : Pass) : Dev :=
  let pl := d.plane n
  (d.setPlane n { pl with nextOrder := pl.nextOrder + 1 }).setPass n id { p with decided := true, order := some pl.nextOrder }

/-- The authenticated header: the RTP header with its extensions, or the first 8 bytes of SRTCP. -/
def headBytes (p : Pass) : Nat := if p.md.demux = 1 then 8 else p.names.getD 1 0 - p.md.rtpOfs

/-- Where an SRTCP packet's E flag and index lie: behind the tag of a GCM profile, before that of another (R101). -/
def srtcpWordAt (profile rtpLen : Nat) : Nat := if profile ≤ 2 then rtpLen - 4 else rtpLen - 14

/-- The index the replay check takes: estimated for SRTP, carried by SRTCP (R102). -/
def Dev.passIndex (d : Dev) (p : Pass) (profile : Nat) : Nat :=
  if p.md.demux = 1 then be32 p.bytes (p.md.rtpOfs + srtcpWordAt profile p.rtpLen) % 2 ^ 31
  else estIndex (d.ctx p.md.leg false) p.md.seq

/-- The pass takes an entry and goes to the herd under a resident slot, which it holds; a replay is dropped before decryption. -/
def Dev.cipherPass (d : Dev) (n id : Nat) (p : Pass) (slot : Nat) : Dev :=
  let prof := ((d.penSlot slot).map (·.profile)).getD 1
  let rtcp := p.md.demux == 1
  if isReplay (d.inCtx p.md.leg rtcp) (d.passIndex p prof) then
    ((d.endUse slot).takeEntry n id { p with drop := true, ready := true, slot := none }).cipCount n 1 1
  else
    let tag := tagBytes prof rtcp
    let d := d.takeEntry n id { p with auth := 1, slot := some slot, tagLen := tag }
    let d := d.setAuth p.uid 1
    d.herdGive n (.pass id) (herdCost prof (p.rtpLen - headBytes p - tag)) (laneCost prof (p.rtpLen - tag + 4))

/-- The key-wait queue of a plane takes a pass whose slot is not resident, and one load is requested; a first pass's entry goes with it
(R92, R110; assumption 111). -/
def Dev.keyWait (d : Dev) (n id : Nat) (p : Pass) : Dev :=
  let pl := d.plane n
  if 16384 ≤ pl.kw.length then
    ((d.takeEntry n id { p with drop := true, ready := true }).vltCount 2 1).raise Src.KEY_WAIT_FULL n
  else
    let d := (d.setPass n id { p with decided := true, order := none }).askGroup p.md.leg false 1
    let pl := d.plane n
    d.setPlane n { pl with kw := pl.kw ++ [(id, d.beat)] }

/-- Entries of the reorder buffer are free: passes back from the key wait take fresh ones in order, then frames that wait at the input
begin (R92). -/
def Dev.takeBack (d : Dev) (n : Nat) : Nat → Dev
  | 0 => d
  | k + 1 =>
    let pl := d.plane n
    match pl.back with
    | [] => d
    | id :: rest =>
      if 4096 ≤ d.reorderUsed n then d
      else
        let d := d.setPlane n { pl with back := rest }
        let d := match d.passOf n id with
          | some p => (match p.slot with | some s => d.cipherPass n id p s | none => d)
          | none => d
        d.takeBack n k

def Dev.entriesFreed (d : Dev) (n : Nat) : Dev :=
  let d := d.takeBack n (d.plane n).back.length
  d.takeWaiting n (d.plane n).waiting.length

/-- A transport-wide number of a packet from a leg with TWCC is noted for the feedback toward it (R154). -/
def Dev.noteArrival (d : Dev) (p : Pass) : Dev :=
  if p.names.getD 4 0 = 1 ∧ (d.legEnt p.md.leg).b 0 27 = true then
    let g := d.gov p.md.leg
    d.setGov p.md.leg { g with arrivals := (p.md.twseq, p.stamp) :: g.arrivals }
  else d

/-- What the chosen action does with the pass. -/
def Dev.act (d : Dev) (n id : Nat) (p : Pass) (a : Entry) (drop : Bool) : Dev :=
  let ready := fun (d : Dev) (p : Pass) => d.takeEntry n id { p with ready := true }
  if drop then ready d { p with drop := true }
  else
    match a.f 0 31 28 with
    | 1 =>
      let q := if a.b 5 31 then a.f 5 17 0 else p.queue
      let p := { p with queue := q, queueOvr := a.b 5 31 }
      if d.mode = .recovery ∧ q ≠ Config.ptpQueue then ready (d.cnt Reg.PWR_CNT_LO 2 1) { p with drop := true }
      else if 5 ≤ d.stage ∧ p.md.kind = 2 then ready (d.cnt Reg.PWR_CNT_LO 2 1) { p with drop := true }
      else
        let d := d.noteArrival p
        if d.isSrtp p then
          match d.slotFor p.md.leg false with
          | some k => (d.useSlot k).cipherPass n id p k
          | none => (d.keyWait n id p).entriesFreed n
        else ready d p
    | 2 => ready d { p with ring := a.f 0 23 20, punt := some { reason := 1 } }
    | 3 =>
      if d.mode = .recovery then ready (d.cnt Reg.PWR_CNT_LO 2 1) { p with drop := true }
      else if p.md.pass = 1 then
        ready ((d.prsCount n 2 1).raiseOnce (srcRegion n 13)) { p with drop := true }
      else d.takeEntry n id { p with recirc := some (a.f 4 16 8, a.f 4 7 0) }
    | _ => ready d { p with drop := true }

/-- PASS_DECISION (R81, R86, R87, R92): nothing while the bucket's fill is awaited or every entry is taken. -/
def passDecision (n id : Nat) (d : Dev) : Dev :=
  match d.passOf n id with
  | none => d
  | some p =>
    if p.decided || p.waitFill.isSome || (decide (4096 ≤ d.reorderUsed n) && p.order.isNone) then d
    else
      let (p, idx, f2, pre, d) := d.classify n p
      if idx = 0 then d.act n id p { d0 := 0x40000000 } true
      else
        let a := d.ent .mat (bankTable 5 (p.md.epoch % 2)) idx
        let (col, drop, prec, d) := d.meterAndCount p a f2 pre
        let p := { p with md := { p.md with colour := col }, prec := prec }
        d.act n id p a drop

/-- RECIRC_SECOND_PASS (R91): STRIP bytes go, and the walk starts at START under the epoch of the first pass, whose entry is kept
until this pass takes one; FLEN of the second pass is what is left (assumption 109). -/
def recircSecondPass (n id : Nat) (d : Dev) : Dev :=
  match d.passOf n id with
  | none => d
  | some p =>
    match p.recirc with
    | none => d
    | some (strip, start) =>
      let bytes := p.bytes.drop strip
      let d := d.setPayloadBytes p.uid bytes
      let p' : Pass := { md := { epoch := p.md.epoch, pass := 1, port := p.md.port, flen := p.md.flen - strip }, bytes := bytes,
                         uid := p.uid, stamp := p.stamp, side := p.side, seqNo := p.seqNo, mule := p.mule }
      (d.parse n id start { p' with order := p.order } (decide (p.md.flen = 64))).entriesFreed n

/-! ### Releases -/

/-- A pass of the port may be released: every earlier pass of the port that keeps its order has been. -/
def Dev.mayRelease (d : Dev) (n : Nat) (p : Pass) : Bool :=
  p.returned || !(d.plane n).passes.any (fun x =>
    x.2.md.port == p.md.port && decide (x.2.seqNo < p.seqNo) && !x.2.released && !x.2.returned &&
    !(x.2.decided && x.2.order.isNone))

/-- The pass of a port to release next: ready, holding an entry, in per-port arrival order. -/
def Dev.nextRelease (d : Dev) (n port : Nat) : Option (Nat × Pass) :=
  let c := (d.plane n).passes.filter (fun x =>
    x.2.md.port == port && x.2.ready && x.2.order.isSome && x.2.recirc.isNone && d.mayRelease n x.2)
  (sortBy (fun a b => decide (a.2.order.getD 0 ≤ b.2.order.getD 0)) c).head?

/-- The side record of a frame for the PTP queue: its DT stamp and its ring index; none: its ring entry has been overwritten
(R258; its layout is the model's, assumption 81). -/
def Dev.ptpSide (d : Dev) (p : Pass) : Option (List Byte) :=
  let ring := (tabFind d.tim.rings p.md.port).getD []
  (ring.zipIdx.find? (fun x => clkNs x.1.dt == p.stamp)).map (fun x => toLe 8 (clkSec x.1.dt) ++ toLe 4 (clkNs x.1.dt) ++ toLe 2 x.2)

/-- The units that act on a leg's packets take it: ST1 admitted it, and it is RTCP or ST3 named its brood (R81, assumption 83). -/
def Pass.known (p : Pass) : Bool := p.md.hits.testBit 4 && (p.md.demux == 1 || p.md.hits.testBit 2)

/-- The packet is handed on: dropped, punted, or to its queue and the units that take packets; a retransmission and RTCP go to the
forwarding unit alone (R86). A frame for the PTP queue
takes its side record with it, and is discarded where its stamp is lost (R258). -/
def Dev.handOn (d : Dev) (p : Pass) : Dev :=
  if p.drop then d.derefPayload p.uid
  else
    let it := p.item p.prec
    match p.punt with
    | some _ => d.puntItem p.ring it
    | none =>
      if p.md.pass = 1 ∧ p.mule.isSome = true then (d.push (.mule (p.mule.getD 0) p.bytes)).derefPayload p.uid
      else if p.queue = Config.ptpQueue then
        match d.ptpSide p with
        | none => (d.cnt Reg.TIM_CNT_LO 6 1).derefPayload p.uid
        | some side =>
          let d := if Config.ptpEvent p.bytes then d.cnt Reg.TIM_CNT_LO 4 1 else d
          d.push (.enqueue p.queue { it with side := side, desc := it.desc.setB 0 23 true })
      else if p.known && (p.md.demux == 1 || p.md.kind == 3) then d.push (.packet it)
      else if p.known then d.push (.deliver p.queue it)
      else d.push (.enqueue p.queue it)

/-- REORDER_RELEASE (R92): the entry is freed and its packet handed on; a frame waiting at the input may begin. -/
def reorderRelease (n port : Nat) (d : Dev) : Dev :=
  match d.nextRelease n port with
  | none => d
  | some (id, p) =>
    let busy := p.auth == 1 && !p.drop
    let d := if busy then d.setPass n id { p with order := none, released := true, relAt := some d.now }
             else d.dropPass n id
    (d.handOn p).entriesFreed n

/-! ### Flow sweeper -/

/-- FLOW_AGE_SWEEP (R82): a learned entry, not pinned, idle for AGE beats. -/
def flowAgeSweep (i : Nat) (d : Dev) : Dev :=
  let f := d.flow i
  if f.fp ≠ 0 ∧ f.learned = true ∧ f.pinned = false ∧ d.fld Reg.MAT_FLOW_CFG 23 0 ≤ d.beatsSince f.last then
    (d.setFlow i {}).matCount 0 4 1
  else d

/-! ### Rule-set epochs (R89, R90) -/

def matEpochCommit (v : Word) (d : Dev) : Dev :=
  let d := d.setReg Reg.MAT_EPOCH (d.reg Reg.MAT_EPOCH &&& ~~~(v &&& 0x20000000))
  if !bit v 31 then d
  else if !d.flag Reg.MAT_EPOCH 30 then d.setFlag Reg.MAT_EPOCH 29 true
  else
    let e := d.epochNow
    let d := ((d.setFld Reg.MAT_EPOCH 7 4 e).setFld Reg.MAT_EPOCH 3 0 ((e + 1) % 16)).setFlag Reg.MAT_EPOCH 30 false
    { d with pkt := { d.pkt with commitAt := some d.now } }

/-- EPOCH_RECLAIMED: no pass of the previous epoch is in flight in either plane, and none can begin any more; the event is P0's,
whose sub-window holds MAT_EPOCH (assumption 108). -/
def epochReclaimed (d : Dev) : Dev :=
  if d.flag Reg.MAT_EPOCH 30 || decide (d.inFlight (d.fld Reg.MAT_EPOCH 7 4) ≠ 0) then d
  else
    d.atNow (match d.pkt.commitAt with | some t => t + 1 | none => d.now) fun d =>
      (d.setFlag Reg.MAT_EPOCH 30 true).raise (srcRegion 0 12) (d.fld Reg.MAT_EPOCH 7 4)

/-! ### MAT_TAB -/

def matTabSize (t : Nat) : Nat :=
  match t with
  | 0 => 4096 | 1 => 262144 | 2 => 33554432 | 3 => 131072 | 4 => 2048 | 5 => 65536 | 6 => 256 | _ => 0

/-- A flow entry's words (Table 4.8). -/
def Flow.words (f : Flow) : Entry :=
  { d0 := BitVec.ofNat 32 f.fp, d1 := BitVec.ofNat 32 (f.fp / 2 ^ 32), d2 := BitVec.ofNat 32 f.first,
    d3 := BitVec.ofNat 32 f.last, d4 := BitVec.ofNat 32 f.pkts,
    d5 := BitVec.ofNat 32 (f.meterEn.toNat * 2 ^ 31 + f.learned.toNat * 2 ^ 30 + f.pinned.toNat * 2 ^ 29 + f.meter),
    d6 := BitVec.ofNat 32 (f.action * 65536), d7 := BitVec.ofNat 32 (f.countEn.toNat * 2 ^ 31 + f.counter) }

def flowOf (e : Entry) : Flow :=
  { fp := (e.word 0).toNat + 2 ^ 32 * (e.word 1).toNat, first := e.f 2 31 0, last := e.f 3 31 0, pkts := e.f 4 31 0,
    meterEn := e.b 5 31, learned := e.b 5 30, pinned := e.b 5 29, meter := e.f 5 17 0, action := e.f 6 31 16,
    countEn := e.b 7 31, counter := e.f 7 20 0 }

/-- A host write of a bucket commits to both mirrors and the cache; a fill in flight is fetched again (R83). -/
def Dev.commitFlow (d : Dev) (i : Nat) (f : Flow) : Dev :=
  let dirty := fun (n : Nat) (d : Dev) =>
    let pl := d.plane n
    d.setPlane n { pl with fills := pl.fills.map (fun x => if x.1 == i / 4 then (x.1, true) else x) }
  dirty 1 (dirty 0 (d.setFlow i f))

def Dev.matErr (d : Dev) (code : Nat) : Dev := d.tabErr Reg.MAT_TAB_CMD code

/-- The bank of a rule-set table that BANK names: 0 active, 1 shadow. -/
def Dev.bankOf (d : Dev) : Nat := (d.epochNow + d.fld Reg.MAT_TAB_CMD 23 23) % 2

def Dev.matView (d : Dev) (t i : Nat) : Entry :=
  if t = 2 then (d.flow i).words else d.ent .mat (bankTable t d.bankOf) i

def matTabRead (v : Word) (d : Dev) : Dev :=
  tabReadOp Reg.MAT_TAB_CMD Reg.MAT_TAB_ADDR Reg.MAT_TAB_DATA 8 24 (pastEnd matTabSize) Dev.matView 5 v d

/-- The fields of an action entry that a write keeps (Table 4.9); reserved codes keep their fields. -/
def actionWrite (old n : Entry) : Entry :=
  let e : Entry := { d0 := n.d0 &&& 0xFFF00000, d1 := n.d1 &&& 0x1FFFFF, d2 := n.d2 &&& 0x3FFFF, d3 := n.d3 &&& 0x3F,
                     d4 := n.d4 &&& 0x1FFFF, d5 := n.d5 &&& 0x8003FFFF }
  let e := if e.f 0 31 28 = 0 ∨ 4 < e.f 0 31 28 then e.setF 0 31 28 (old.f 0 31 28) else e
  (List.range 3).foldl (fun e k => if e.f 3 (2 * k + 1) (2 * k) = 3 then
    e.setF 3 (2 * k + 1) (2 * k) (old.f 3 (2 * k + 1) (2 * k)) else e) e

/-- An entry is placed at an index of a table other than ST2, of a rule-set table only in the shadow bank and while RECLAIMED is 1
(R90). -/
def Dev.matPlace (d : Dev) (t i : Nat) (n : Entry) : Dev :=
  if matTabSize t ≤ i then d.matErr 5
  else if banked t then
    if !d.flag Reg.MAT_TAB_CMD 23 then d.matErr 2
    else if !d.flag Reg.MAT_EPOCH 30 then d.matErr 1
    else if t = 5 then
      if i = 0 then d.matErr 5
      else (d.setEnt .mat (bankTable 5 d.bankOf) i (actionWrite (d.ent .mat (bankTable 5 d.bankOf) i) n)).matErr 0
    else (d.setEnt .mat (bankTable t d.bankOf) i n).matErr 0
  else (d.setEnt .mat t i n).matErr 0

/-- MAT_TAB_WRITE (R83, R90). -/
def matTabWrite (v : Word) (d : Dev) : Dev :=
  let d := d.tabCmd Reg.MAT_TAB_CMD v
  let t := d.fld Reg.MAT_TAB_CMD 27 24
  let i := d.fld Reg.MAT_TAB_ADDR 24 0
  let n := d.dataEntry Reg.MAT_TAB_DATA
  if t = 2 ∧ i < matTabSize 2 then (d.commitFlow i (flowOf n)).matErr 0 else d.matPlace t i n

/-- MAT_TAB_INSERT: a flow entry into the bucket of MAT_TAB_ADDR, over the one of its fingerprint or into a free place, which
MAT_TAB_ADDR then names; of another table, as a write at MAT_TAB_ADDR (assumption 13). -/
def matTabInsert (v : Word) (d : Dev) : Dev :=
  let d := d.tabCmd Reg.MAT_TAB_CMD v
  let b := d.fld Reg.MAT_TAB_ADDR 24 2
  let f := flowOf (d.dataEntry Reg.MAT_TAB_DATA)
  let t := d.fld Reg.MAT_TAB_CMD 27 24
  if matTabSize t = 0 then d.matErr 5
  else if t ≠ 2 then d.matPlace t (d.fld Reg.MAT_TAB_ADDR 24 0) (d.dataEntry Reg.MAT_TAB_DATA)
  else if f.fp = 0 then d.matErr 5
  else
    match (match d.flowIn b f.fp with | some i => some i | none => d.flowIn b 0) with
    | none => d.matErr 3
    | some i => ((d.commitFlow i f).setFld Reg.MAT_TAB_ADDR 24 0 i).matErr 0

/-- MAT_TAB_DELETE: the entry of the bucket of MAT_TAB_ADDR with the fingerprint of DATA0 and DATA1; of another table, the entry at
MAT_TAB_ADDR goes back to what nothing has written (assumption 13). -/
def matTabDelete (v : Word) (d : Dev) : Dev :=
  let d := d.tabCmd Reg.MAT_TAB_CMD v
  let b := d.fld Reg.MAT_TAB_ADDR 24 2
  let f := flowOf (d.dataEntry Reg.MAT_TAB_DATA)
  let t := d.fld Reg.MAT_TAB_CMD 27 24
  let i := d.fld Reg.MAT_TAB_ADDR 24 0
  if matTabSize t = 0 then d.matErr 5
  else if t ≠ 2 then
    if i < matTabSize t ∧ d.matView t i = entReset (tabKey .mat (bankTable t d.bankOf) i) then d.matErr 4
    else d.matPlace t i (entReset (tabKey .mat (bankTable t d.bankOf) i))
  else if f.fp = 0 then d.matErr 5
  else
    match d.flowIn b f.fp with
    | none => d.matErr 4
    | some i => (d.commitFlow i {}).matErr 0

/-- MAT_TAB_LOOKUP: ST2 by the key in DATA0 to DATA5, whichever ZONE its entry was made under; the entry found is
placed in the DATA words (assumption 13). -/
def matTabLookup (v : Word) (d : Dev) : Dev :=
  let d := d.tabCmd Reg.MAT_TAB_CMD v
  let key := (List.range 6).map (fun k => ((d.dataEntry Reg.MAT_TAB_DATA).word k).toNat)
  if d.fld Reg.MAT_TAB_CMD 27 24 ≠ 2 then d.matErr 5
  else
    let mine := fun i => (d.flow i).fp != 0 && (List.range 4096).any (fun z => flowFp z key == (d.flow i).fp)
    match ((List.range 4).map (fun k => bucketOf key * 4 + k)).find? mine with
    | none => d.matErr 4
    | some i => ((d.putData Reg.MAT_TAB_DATA 8 (d.flow i).words).setFld Reg.MAT_TAB_ADDR 24 0 i).matErr 0

/-- MAT_TAB_COPY_ACTIVE (R90): ST0, ST4, ST5, the tree roots and the fall-back enables of the active bank. -/
def matTabCopyActive (v : Word) (d : Dev) : Dev :=
  let d := d.tabCmd Reg.MAT_TAB_CMD v
  if !d.flag Reg.MAT_EPOCH 30 then d.matErr 1
  else
    let act := d.epochNow % 2
    let sh := 1 - act
    let copy := fun (t : Nat) (d : Dev) =>
      foldDev (d.entries .mat (bankTable t act)) (fun p d => d.setEnt .mat (bankTable t sh) p.1 p.2)
        (d.clearTab .mat (bankTable t sh))
    let d := copy 5 (copy 4 (copy 0 d))
    let d := d.setFld Reg.TRE_CTRL (2 * sh + 1) (2 * sh) (d.fld Reg.TRE_CTRL (2 * act + 1) (2 * act))
    let root := fun (b s h : Nat) => Reg.TRE_ROOT_LO + 8 * (2 * b + s) + 4 * h
    let d := foldDev [(0, 0), (0, 1), (1, 0), (1, 1)] (fun x d => d.setReg (root sh x.1 x.2) (d.reg (root act x.1 x.2))) d
    d.matErr 0

end Sys2Proof.Machine
end

