-- ==== Sys2Proof/Machine/Matching.lean ====
section
/-! DEFINITION. The matching store and the task table (chapter 3): operands, states, terminations, host waits and posts,
aborts. What each kind releases and settles is in Kinds.lean. -/

namespace Sys2Proof.Machine
open Sys2Proof

/-! ### Names -/

def Kd.decode : Nat := 1
def Kd.encode : Nat := 2
def Kd.compose : Nat := 3
def Kd.mix : Nat := 4
def Kd.adecode : Nat := 5
def Kd.aencode : Nat := 6
def Kd.filter : Nat := 7

/-- States of Table 3.12. -/
def St.waiting : Nat := 1
def St.ready : Nat := 2
def St.running : Nat := 3
def St.parked : Nat := 4
def St.complete : Nat := 5
def St.expired : Nat := 6
def St.late : Nat := 7
def St.aborted : Nat := 8

/-- Operand classes of Table 3.5. -/
def Cl.au : Nat := 1
def Cl.picture : Nat := 2
def Cl.composite : Nat := 3
def Cl.aframe : Nat := 4
def Cl.talkers : Nat := 5
def Cl.mixout : Nat := 6
def Cl.rowtoken : Nat := 7
def Cl.samples : Nat := 8
def Cl.host : Nat := 15

def Dev.tskCount (d : Dev) (c n : Nat) : Dev := d.cnt Reg.TSK_CNT_LO c n

def Dev.task (d : Dev) (t : Nat) : Option Task := tabFind d.tsk.tasks t
def Dev.setTask (d : Dev) (t : Nat) (v : Task) : Dev := { d with tsk := { d.tsk with tasks := recSet d.tsk.tasks t v } }
def Dev.slotOf (d : Dev) (k : Nat) : Option Slot := tabFind d.tsk.slots k
def Dev.setSlot (d : Dev) (k : Nat) (v : Slot) : Dev := { d with tsk := { d.tsk with slots := recSet d.tsk.slots k v } }

def Dev.flockEnt (d : Dev) (f : Nat) : Entry := d.ent .tsk 0 f
def Dev.flockValid (d : Dev) (f : Nat) : Bool := (d.flockEnt f).b 0 31
def Dev.flockPrio (d : Dev) (f : Nat) : Nat := (d.flockEnt f).f 0 30 28
/-- The media region (0 to 3) that serves a flock. -/
def Dev.flockRegion (d : Dev) (f : Nat) : Nat := (d.flockEnt f).f 0 27 26

/-- A beat given by its bits [31:0], as the beat nearest the present one. -/
def Dev.beatNear (d : Dev) (w : Nat) : Int := posNear d.beat w

/-- The handle of a task (R55): generation in [23:17], entry in [16:0]. -/
def Dev.genOf (d : Dev) (t : Nat) : Nat := tabGet (fun _ => 0) d.tsk.gens t
def Dev.handle (d : Dev) (t : Nat) : Nat := d.genOf t * 2 ^ 17 + t

/-! ### Host waits (R66) -/

/-- Offset of the registers of a host wait, of which there are 64. -/
def waitOfs (n : Nat) : Nat := 16 * (n % 64)

/-- Change every slot. -/
def Dev.mapSlots (d : Dev) (f : Slot → Slot) : Dev :=
  { d with tsk := { d.tsk with slots := d.tsk.slots.map (fun s => (s.1, f s.2)) } }

/-- A wait ends: its result is set, ARM clears, and HWAIT_DONE is raised on its vector. -/
def Dev.endWait (d : Dev) (n res : Nat) : Dev :=
  let d := { d with tsk := { d.tsk with waits := tabErase d.tsk.waits n } }
  let d := d.mapSlots (fun s => { s with hostWaits := s.hostWaits.filter (fun x => x != n) })
  let d := d.setFlag (Reg.TSK_HWAIT_CTRL + waitOfs n) 31 false
  let d := d.setReg (Reg.TSK_HWAIT_RESULT + waitOfs n) (BitVec.ofNat 32 res)
  d.raiseOn Src.HWAIT_DONE (d.fld (Reg.TSK_HWAIT_CTRL + waitOfs n) 5 0) n res

def Dev.endWaits (d : Dev) (ns : List Nat) (res : Nat) : Dev := foldDev ns (fun n d => d.endWait n res) d

/-! ### Slots (R56 to R61) -/

def msSlots : Nat := 65536

def Dev.findSlot (d : Dev) (tag : Nat) : Option Nat := (d.tsk.slots.find? (fun s => s.2.tag == tag)).map (·.1)

/-- HOLD_UNTIL: MEDIA_BEAT + TSK_MS_HOLD, bits [31:0], with the TSK_MS_HOLD of the moment the slot is taken (assumption 94). -/
def Dev.holdUntil (d : Dev) (tag : Nat) : Nat := (tagMedia tag + d.fld Reg.TSK_MS_HOLD 5 0) % 2 ^ 32

/-- A new slot for a tag; none is free: MATCH_STORE_FULL. The fill reaching TSK_MS_HIWAT raises MATCH_STORE_HIGH. -/
def Dev.newSlot (d : Dev) (tag : Nat) : Option Nat × Dev :=
  match freeKey d.tsk.slots msSlots with
  | none => (none, d.raiseOnce Src.MATCH_STORE_FULL noDetail tag)
  | some k =>
    let d := d.setSlot k { tag := tag, holdUntil := d.holdUntil tag }
    if d.fld Reg.TSK_MS_HIWAT 15 0 ≤ d.tsk.slots.length ∧ d.tsk.hiwatHit = false then
      (some k, ({ d with tsk := { d.tsk with hiwatHit := true } }).raise Src.MATCH_STORE_HIGH noDetail d.tsk.slots.length)
    else (some k, d)

/-- A slot is freed; HIGH may be raised again once the fill is below 7/8 of the mark. -/
def Dev.freeSlot (d : Dev) (k : Nat) : Dev :=
  match d.slotOf k with
  | none => d
  | some s =>
    let d := { d with tsk := { d.tsk with slots := tabErase d.tsk.slots k } }
    let d := if d.tsk.slots.length * 8 < d.fld Reg.TSK_MS_HIWAT 15 0 * 7 then { d with tsk := { d.tsk with hiwatHit := false } } else d
    d.tapFreeBuf s.tag

/-- The waiting tasks an arrival would be given to: those that have not frozen and whose deadline beat has not begun. -/
def Dev.waiters (d : Dev) (s : Slot) : List Nat :=
  s.tasks.filter (fun t => match d.task t with
    | some x => !x.frozen && decide (d.beat < x.deadline) && decide (x.st < 5)
    | none => false)

/-- Mark an operand of a task present. -/
def Dev.present (d : Dev) (t tag ref quality : Nat) : Dev :=
  match d.task t with
  | none => d
  | some x =>
    let ops := x.ops.map (fun o => if o.tag = tag ∧ o.st = 0 then { o with st := 1, ref := ref, quality := quality } else o)
    d.setTask t { x with ops := ops }

/-- Name an operand for a task: a class its template excludes is missing from the start; a held item is given; else the task
waits on the tag's slot, or the operand is missing where the store is full (R56, R57, R59). -/
def Dev.nameOperand (d : Dev) (t tag : Nat) : Dev :=
  match d.task t with
  | none => d
  | some x =>
    let add := fun (d : Dev) (o : Operand) => match d.task t with
      | some x => d.setTask t { x with ops := x.ops ++ [o] }
      | none => d
    if 64 ≤ x.ops.length then d
    else if !x.classes.testBit (tagClass tag) then
      let d := add d { tag := tag, st := 2 }
      match (d.findSlot tag).bind d.slotOf with
      | some s => if s.arrived then d.tskCount 7 1 else d
      | none => d
    else
      match d.findSlot tag with
      | some k =>
        match d.slotOf k with
        | some s =>
          let d := d.setSlot k { s with tasks := s.tasks ++ [t], everConsumed := true }
          if s.arrived then add d { tag := tag, st := 1, quality := s.quality, ref := s.ref } else add d { tag := tag }
        | none => d
      | none =>
        match d.newSlot tag with
        | (none, d) => add d { tag := tag, st := 2 }
        | (some k, d) =>
          let d := match d.slotOf k with | some s => d.setSlot k { s with tasks := [t], everConsumed := true } | none => d
          add d { tag := tag }

/-- R60: the TALKERS operand of a MIX task adds the AFRAME of every DECODE entry among the selection's places and
departing broods (R244). -/
def Dev.addTalkers (d : Dev) (t tag : Nat) : Dev :=
  match d.task t with
  | none => d
  | some x =>
    if x.kind ≠ Kd.mix then d
    else
      match tabFind d.aud.sels (tagFlock tag * 2 ^ 32 + tagMedia tag) with
      | none => d
      | some (places, departing) =>
        let broods := (places.filterMap (fun b => b)).take 8 ++ departing.take 8
        let decoded := fun (b : Nat) => (d.entries .aud 0).any (fun e => e.2.b 0 31 && e.2.f 0 15 0 == b && e.2.f 0 27 26 != 1)
        foldDev (broods.filter (fun b => decoded b)) (fun b d => d.nameOperand t (mkTag x.flock b Cl.aframe (tagMedia tag))) d

/-- The earlier task that a task waits on has not terminated (R172). -/
def Dev.predLive (d : Dev) (x : Task) : Bool :=
  match x.pred with
  | some o => d.tsk.tasks.any (fun q => q.2.order == o && decide (q.2.st < 5))
  | none => false

/-- A WAITING task is READY once all of its operands are settled or its wait limit has come (R64), and its predecessor has
terminated (R172). -/
def Dev.settleReady (d : Dev) (t : Nat) : Dev :=
  match d.task t with
  | none => d
  | some x =>
    if x.st = St.waiting ∧ d.predLive x = false ∧ (x.ops.all (fun o => o.st != 0) = true ∨ x.waitAt ≤ d.beat)
    then d.setTask t { x with st := St.ready } else d

/-- A live task names a tag of a class that its template excludes, and no other consumer holds a slot for the tag. -/
def Dev.barred (d : Dev) (tag : Nat) : Bool :=
  (d.findSlot tag).isNone && d.tsk.tasks.any (fun q =>
    decide (q.2.st < 5) && !q.2.frozen && !q.2.classes.testBit (tagClass tag) && q.2.ops.any (fun o => o.tag == tag))

/-- An arrival (R56 to R61); answers whether it was taken. A reserved class is refused, and one that the template of the only tasks that
name the tag excludes. -/
def Dev.arrive (d : Dev) (tag ref quality : Nat) : Bool × Dev :=
  let c := tagClass tag
  if c = 0 ∨ (9 ≤ c ∧ c ≤ 14) ∨ d.barred tag = true then (false, d.tskCount 7 1)
  else
    let give := fun (d : Dev) (k : Nat) (s : Slot) =>
      let ws := d.waiters s
      let d := d.setSlot k { s with arrived := true, ref := ref, quality := quality }
      let d := foldDev ws (fun t d =>
        let d := if c = Cl.talkers then d.addTalkers t tag else d
        (d.present t tag ref quality).settleReady t) d
      let d := if ws.isEmpty && (s.frozenWithout || !s.tasks.isEmpty) then d.tskCount 4 1 else d
      d.endWaits s.hostWaits 1
    match d.findSlot tag with
    | some k =>
      match d.slotOf k with
      | none => (false, d)
      | some s =>
        if !s.arrived then (true, give d k s)
        else if s.quality = 2 ∧ s.frozenWith = false then
          let d := d.setSlot k { s with ref := ref, quality := quality }
          (true, foldDev (d.waiters s) (fun t d => match d.task t with
            | some x => d.setTask t { x with ops := x.ops.map (fun o =>
                if o.tag = tag ∧ o.st = 1 then { o with ref := ref, quality := quality } else o) }
            | none => d) d)
        else (false, d.tskCount 6 1)
    | none =>
      match d.newSlot tag with
      | (none, d) => (false, d.tskCount 7 1)
      | (some k, d) =>
        match d.slotOf k with
        | some s => (true, give d k s)
        | none => (true, d)

/-- The operand set is frozen at the first job's issue (R61): slots learn who took their item and who went without. -/
def Dev.freeze (d : Dev) (t : Nat) : Dev :=
  match d.task t with
  | none => d
  | some x =>
    if x.frozen then d
    else
      let d := foldDev x.ops (fun o d =>
        match (d.findSlot o.tag).bind (fun k => (d.slotOf k).map (fun s => (k, s))) with
        | some (k, s) =>
          if s.tasks.contains t then
            d.setSlot k { s with tasks := s.tasks.erase t, frozenWith := s.frozenWith || o.st == 1,
                                 frozenWithout := s.frozenWithout || o.st == 0 }
          else d
        | none => d) d
      (d.setTask t { x with frozen := true, ops := x.ops.map (fun o => if o.st = 0 then { o with st := 2 } else o) }).push
        (.frozen t)

/-- MS_SLOT_HOLD_EXPIRY (R57). -/
def msSlotHoldExpiry (k : Nat) (d : Dev) : Dev :=
  match d.slotOf k with
  | none => d
  | some s =>
    if s.tasks.isEmpty && s.hostWaits.isEmpty && decide (d.beatNear s.holdUntil ≤ d.beat) then
      (if s.arrived && !s.everConsumed then d.tskCount 5 1 else d).freeSlot k
    else d

/-! ### The task table (R55) -/

def taskEntries : Nat := 131072

/-- Tasks that hold an entry of the table: those refused for want of one are settled under numbers beyond it. -/
def Dev.liveEntries (d : Dev) : Nat := (d.tsk.tasks.filter (fun p => decide (p.1 < taskEntries))).length

/-- Counter of a final state. -/
def endCounter (st : Nat) : Nat := st - 5

/-- A task that finds the table full is settled as EXPIRED without running (R55): its settlement goes on under a number beyond the
table, which no handle names and no completion record tells. -/
def Dev.refuseTask (d : Dev) (x : Task) : Nat × Dev :=
  let g := taskEntries + d.tsk.nextOrder
  let d := { d with tsk := { d.tsk with nextOrder := d.tsk.nextOrder + 1 } }
  let d := d.setTask g { x with order := d.tsk.nextOrder, st := St.expired, notify := false, ended := d.beat, endNow := d.now }
  let d := (d.tskCount (endCounter St.expired) 1).raiseOnce Src.TASK_EXPIRED
  (g, d.push (.ended g))

/-- A free entry is taken for a task: its generation advances. Answers the task's number. -/
def Dev.takeTask (d : Dev) (x : Task) : Nat × Dev :=
  match freeKey d.tsk.tasks taskEntries with
  | none => (d.raiseOnce Src.TASK_TABLE_FULL noDetail x.kind).refuseTask x
  | some t =>
    let d := { d with tsk := { d.tsk with gens := recSet d.tsk.gens t ((d.genOf t + 1) % 128), nextOrder := d.tsk.nextOrder + 1 } }
    let d := d.setTask t { x with order := d.tsk.nextOrder }
    if d.liveEntries = 122880 then (t, d.raise Src.TASK_TABLE_HIGH noDetail 122880) else (t, d)

/-- The cells a task runs on are free of it. -/
def Dev.clearCells (d : Dev) (cells : List Nat) : Dev :=
  foldDev cells (fun c d => d.setCell c { d.cell c with job := none, yielding := false, aborting := false }) d

/-- Reservations a task holds are dropped. -/
def Dev.unreserve (d : Dev) (t : Nat) : Dev :=
  { d with tsk := { d.tsk with cells := tabMap (fun _ => {}) (fun _ c =>
    if c.reserved = some t then { c with reserved := none } else c) d.tsk.cells } }

/-- The abort under way names a task. -/
def Dev.abortNames (d : Dev) (t : Nat) : Bool :=
  match d.tsk.abort with
  | some (h, _) => decide (h % 2 ^ 17 = t) && decide (d.genOf t = h / 2 ^ 17 % 128)
  | none => false

/-- Some cell of a task has an abort on its way or accepted. -/
def Dev.aborting (d : Dev) (x : Task) : Bool := x.cells.any (fun k => (d.cell k).aborting)

/-- The outcome of the abort that names a task is settled: 0 ABORTED, 1 NOTHING_TO_ABORT (Table 3.7). -/
def Dev.settleAbort (d : Dev) (t code : Nat) : Dev :=
  if d.abortNames t && d.tsk.abortEnd.isNone then { d with tsk := { d.tsk with abortEnd := some code } } else d

/-- A task terminates in a state: its slots let go of it, its waits end, and what its kind does at the end follows in the
same step. -/
def Dev.terminate (d : Dev) (t st : Nat) : Dev :=
  match d.task t with
  | none => d
  | some x =>
    if 5 ≤ x.st then d
    else
      let d := d.mapSlots (fun s => { s with tasks := s.tasks.filter (fun y => y != t) })
      let d := (d.clearCells (if x.st = St.running ∨ x.st = St.parked then x.cells else [])).unreserve t
      let d := d.settleAbort t (if st = St.aborted then 0 else 1)
      let d := d.setTask t { x with st := st, ended := d.beat, endNow := d.now }
      let d := d.tskCount (endCounter st) 1
      let d := if st = St.expired then d.raiseOnce Src.TASK_EXPIRED (d.handle t) else d
      let h := d.handle t
      let d := d.endWaits ((d.tsk.waits.filter (fun w => w.2.onTask && w.2.name == h)).map (·.1)) 1
      let d := foldDev ((d.tsk.tasks.filter (fun q => q.2.pred == some x.order)).map (·.1)) (fun q d => d.settleReady q) d
      d.push (.ended t)

/-- TASK_WAIT_LIMIT (R64): it does not release a task from its predecessor. -/
def taskWaitLimit (t : Nat) (d : Dev) : Dev := d.settleReady t

/-! ### Host waits: commands -/

/-- What a handle names: none where it is stale (R55); some of a task that lives, has ended, or is gone. -/
def Dev.byHandle (d : Dev) (h : Nat) : Option (Option Task) :=
  let t := h % 2 ^ 17
  match tabFind d.tsk.gens t with
  | none => none
  | some g => if g = h / 2 ^ 17 % 128 then some (d.task t) else none

/-- A wait is armed on a tag: it holds the slot, or ends at once. -/
def Dev.armTag (d : Dev) (n tag : Nat) (limit : Option Nat) : Dev :=
  let live := fun (d : Dev) => { d with tsk := { d.tsk with waits := recSet d.tsk.waits n { name := tag, limit := limit } } }
  match d.findSlot tag with
  | some k =>
    match d.slotOf k with
    | some s =>
      if s.arrived then (live d).endWait n 1
      else live (d.setSlot k { s with hostWaits := s.hostWaits ++ [n], everConsumed := true })
    | none => d
  | none =>
    match d.newSlot tag with
    | (none, d) => (live d).endWait n 2
    | (some k, d) =>
      match d.slotOf k with
      | some s => live (d.setSlot k { s with hostWaits := [n], everConsumed := true })
      | none => d

/-- HWAIT_ARM (R66): CTRL is written; ARM 1 arms an idle wait and clears RESULT, ARM 0 ends a live one CANCELLED; ARM 1 on a live wait
leaves its limit and what it names, and its new VECTOR is the one it ends on (assumption 93). -/
def hwaitArm (n : Nat) (v : Word) (d : Dev) : Dev :=
  if 64 ≤ n then d
  else
    let o := waitOfs n
    let live := (tabFind d.tsk.waits n).isSome
    let d := d.setReg (Reg.TSK_HWAIT_CTRL + o) (v &&& 0xA0003FFF)
    if live then
      if bit v 31 && !bit v 30 then d else d.endWait n 3
    else if bit v 31 then
      let d := d.setReg (Reg.TSK_HWAIT_RESULT + o) 0
      let limit := if bits v 13 6 = 0 then none else some (d.beat + bits v 13 6)
      if bit v 29 then
        let h := d.fld (Reg.TSK_HWAIT_TAG_LO + o) 23 0
        let d := { d with tsk := { d.tsk with waits := recSet d.tsk.waits n { onTask := true, name := h, limit := limit } } }
        match d.byHandle h with
        | some (some x) => if 5 ≤ x.st then d.endWait n 1 else d
        | _ => d.endWait n 1
      else d.armTag n (d.reg64 (Reg.TSK_HWAIT_TAG_LO + o) (Reg.TSK_HWAIT_TAG_HI + o)) limit
    else d

/-- HWAIT_CANCEL: a live wait ends CANCELLED. -/
def hwaitCancel (n : Nat) (v : Word) (d : Dev) : Dev :=
  if 64 ≤ n then d
  else
    let live := (tabFind d.tsk.waits n).isSome
    let d := d.setReg (Reg.TSK_HWAIT_CTRL + waitOfs n) (v &&& 0x20003FFF)
    if live then d.endWait n 3 else d

/-- HWAIT_TIMEOUT: the limit has passed. -/
def hwaitTimeout (n : Nat) (d : Dev) : Dev :=
  match tabFind d.tsk.waits n with
  | none => d
  | some w => match w.limit with
    | some l => if l ≤ d.beat then d.endWait n 2 else d
    | none => d

/-- TSK_POST (R67): the commit of TSK_POST_TAG_HI with the low half its path holds. -/
def tskPost (p : Path) (v : Word) (d : Dev) : Dev :=
  let lo := d.heldLo p
  let d := (d.hold p 0).setReg64 Reg.TSK_POST_TAG_LO Reg.TSK_POST_TAG_HI (lo.toNat + 2 ^ 32 * v.toNat)
  let tag := lo.toNat + 2 ^ 32 * v.toNat
  let refused := fun (d : Dev) => d.hwSet Reg.TSK_POST_STAT 0
  if tagClass tag ≠ Cl.host then refused d
  else
    let (ok, d) := d.arrive tag (d.reg64 Reg.TSK_POST_REF_LO Reg.TSK_POST_REF_HI) 0
    if ok then d else refused d

/-! ### Aborts (R69) -/

def Dev.abortResult (d : Dev) (done : Bool) (code : Nat) : Dev :=
  d.setReg Reg.TSK_ABORT_RESULT (BitVec.ofNat 32 (done.toNat * 2 ^ 31 + code))

/-- An abort goes to the cells of a running task, which accept it within 8 FCLK (R69), in an FCLK that is left open. -/
def Dev.abortCells (d : Dev) (cells : List Nat) : Dev :=
  let (k, d) := d.drawBelow 9
  foldDev cells (fun c d => d.setCell c { d.cell c with aborting := true, acceptAt := d.now + k }) d

/-- The cells of a task have an abort that they accepted in an FCLK that is over. -/
def Dev.accepted (d : Dev) (x : Task) : Bool := x.cells.any (fun k => (d.cell k).aborting && decide ((d.cell k).acceptAt < d.now))

/-- TSK_ABORT: the message goes to the cells of a running task; a second write while one abort is unresolved is refused. -/
def tskAbort (v : Word) (d : Dev) : Dev :=
  match d.tsk.abort with
  | some _ => d.abortResult false 3
  | none =>
    let h := bits v 23 0
    let d := ({ d with tsk := { d.tsk with abort := some (h, d.now), abortEnd := none } }).abortResult false 0
    match d.byHandle h with
    | some (some x) => if x.st = St.running then d.abortCells x.cells else d
    | _ => d

def Dev.abortDone (d : Dev) (h code : Nat) : Dev :=
  (({ d with tsk := { d.tsk with abort := none, abortEnd := none } }).abortResult true code).raise Src.ABORT_DONE h code

/-- ABORT_RESOLVED (Table 3.7): what ended the named task since the write is the outcome; a task that has not ended ends ABORTED, a
running one once the FCLK in which its cells accept is over, since a retirement in that FCLK still completes it. -/
def abortResolved (d : Dev) : Dev :=
  match d.tsk.abort with
  | none => d
  | some (h, _) =>
    match d.tsk.abortEnd with
    | some c => d.abortDone h c
    | none =>
      match d.byHandle h with
      | none => d.abortDone h 2
      | some none => d.abortDone h 1
      | some (some x) =>
        if 5 ≤ x.st then d.abortDone h 1
        else if x.st = St.running then
          d.atNow ((d.cell (x.cells.headD 0)).acceptAt + 1) fun d => (d.terminate (h % 2 ^ 17) St.aborted).abortDone h 0
        else (d.terminate (h % 2 ^ 17) St.aborted).abortDone h 0

/-! ### Cells (R15, R24) -/

/-- Mark a cell OUT: its task ends LATE, CELL_OUT is raised, and a block that comes to have half its cells OUT asks for a
region scrub. -/
def Dev.markOut (d : Dev) (code : Nat) : Dev :=
  let c := d.cell code
  if c.out then d
  else
    let blk := cellBlock code
    let outs := fun (d : Dev) => (blk.filter (fun x => (d.cell x).out)).length
    let before := outs d
    let job := c.job
    let d := d.setCell code { c with out := true, job := none, yielding := false, resetting := false, aborting := false, reserved := none }
    let d := d.raise (srcRegion (cellRegion code) 0) code
    let d := match job with | some t => d.terminate t (if c.aborting then St.aborted else St.late) | none => d
    let parked := d.tsk.tasks.filter (fun p => p.2.st == St.parked && p.2.cells.contains code)
    let d := foldDev (parked.map (·.1)) (fun t d => d.terminate t St.late) d
    if before * 2 < blk.length ∧ blk.length ≤ outs d * 2 then d.push (.cellOut code) else d

/-- A task watchdog expiry of a cell: the second within one second marks it OUT. -/
def Dev.watchdog (d : Dev) (code : Nat) : Dev :=
  let c := d.cell code
  let recent := c.expiries.filter (fun t => decide (d.now < t + 1500000000))
  let d := d.setCell code { c with expiries := d.now :: recent }
  if recent.isEmpty then d else d.markOut code

/-- A cell was stopped in the FCLK that has just ended and is reset; it overran its grace. -/
def Dev.overrun (d : Dev) (code : Nat) : Dev :=
  let d := d.setCell code { d.cell code with job := none, yielding := false, aborting := false, resetting := true, stopAt := d.now - 1 }
  (d.raise Src.CELL_OVERRUN code).watchdog code

/-- A drain limit has ended n tasks (R43): they are counted, and the reload raises its event once. -/
def Dev.countForced (d : Dev) (n : Nat) : Dev :=
  match d.cfg.reload with
  | none => d
  | some x =>
    if n = 0 then d
    else
      let k := (d.reg Reg.CFG_DRAIN_FORCED).toNat + n
      let d := { d.setReg Reg.CFG_DRAIN_FORCED (BitVec.ofNat 32 (min k (2 ^ 32 - 1))) with
                 cfg := { d.cfg with reload := some { x with forced := true } } }
      if x.forced then d else d.raise (srcRegion x.region 4) noDetail k

/-- Cells that have not stopped are reset and their task ends: LATE (R24), or ABORTED where they are under an abort (R69). -/
def Dev.stopTask (d : Dev) (t : Nat) (x : Task) (cells : List Nat) : Dev :=
  let st := if d.aborting x then St.aborted else St.late
  ((foldDev cells (fun c d => d.overrun c) d).countForced (if x.ending = 2 ∧ st = St.late then 1 else 0)).terminate t st

/-- The grace of a boundary, in FCLK (Table 1.9). -/
def graceEnd : Nat := 3000

/-- Time passes until the grace is over: what happens in its last FCLK has happened (Table 3.6). -/
def Dev.endGrace (d : Dev) : Dev := d.toFclk (graceEnd + 1)

/-- DEADLINE_SETTLE (R25): the end of the grace after the deadline beat's boundary. A task still running has cells that have not
yielded, and they are stopped as R24 says; any other has expired. -/
def deadlineSettle (t : Nat) (d : Dev) : Dev :=
  match d.task t with
  | none => d
  | some x =>
    if 5 ≤ x.st ∨ d.beat < x.deadline then d
    else if x.st = St.running then d.endGrace.stopTask t x (x.cells.filter (fun c => (d.cell c).yielding))
    else d.endGrace.terminate t St.expired

/-- ABORT_STOP_TIMEOUT: 3,000 FCLK after the abort its cells are reset; the task is ABORTED all the same. -/
def abortStopTimeout (d : Dev) : Dev :=
  match d.tsk.abort with
  | none => d
  | some (h, at_) =>
    match d.byHandle h with
    | some (some x) =>
      if x.st ≠ St.running then d
      else d.atNow (at_ + graceEnd + 1) fun d => (d.stopTask (h % 2 ^ 17) x x.cells).abortDone h 0
    | _ => d

/-- FCLK from a cell's stop to its taking jobs again (Table 1.9). -/
def resetFclk : Nat := 64

/-- CELL_RESET_DONE: 64 FCLK after its stop the cell takes jobs again. -/
def cellResetDone (code : Nat) (d : Dev) : Dev :=
  if (d.cell code).resetting then
    d.atNow ((d.cell code).stopAt + resetFclk) fun d => d.setCell code { d.cell code with resetting := false }
  else d

/-- CELL_PARITY_ERROR (R15): retried; the same access failing again marks the cell OUT. -/
def cellParityError (code : Nat) (again : Bool) (d : Dev) : Dev :=
  if again && cellValid code then d.markOut code else d

/-! ### Issue (R61 to R63) -/

/-- Personality a codec cell needs for a kind: DECODE a decoder, ENCODE an encoder. -/
def cellKind (d : Dev) (code : Nat) : List Nat :=
  let i := cellIdx code
  match cellType code with
  | 0 => if d.flag (Reg.CFG_PERSONALITY + 4 * (i / 16)) (i % 16) then [Kd.encode] else [Kd.decode]
  | 1 => [Kd.compose]
  | 2 => [Kd.mix, Kd.adecode, Kd.aencode]
  | 3 => [Kd.filter]
  | _ => []

/-- Blocks whose cells are gated under a shed stage: M2 and M3 from S3; codec and compose blocks of every region from S4. -/
def Dev.gated (d : Dev) (code : Nat) : Bool :=
  let r := cellRegion code
  (decide (3 ≤ d.stage) && decide (4 ≤ r)) || (decide (4 ≤ d.stage) && decide (2 ≤ r) && decide (cellType code ≤ 1))

/-- A packet of an ADECODE's slice is still PENDING: the cell does not start the frame yet (R113). -/
def Dev.slicePending (d : Dev) (x : Task) : Bool :=
  match tabFind d.aud.ents x.entry with
  | none => false
  | some s =>
    let lo : Int := (x.media * 80 : Nat)
    s.pkts.any (fun p => decide (p.base + s.shift < lo + 480) && decide (lo < p.base + s.shift + p.dur) &&
      ((tabFind d.que.payloads p.uid).map (·.auth)) == some 1)

/-- The tasks a cell could take now. -/
def Dev.issueable (d : Dev) (code : Nat) : List (Nat × Task) :=
  let c := d.cell code
  d.tsk.tasks.filter (fun p =>
    let x := p.2
    let here := (cellKind d code).contains x.kind && decide (x.region + 2 = cellRegion code)
    let free := match x.pred with
      | some o => !d.tsk.tasks.any (fun q => q.2.order == o && (decide (q.2.st < 5) || q.2.filling))
      | none => true
    let free := free && !(x.kind == Kd.encode && d.tsk.tasks.any (fun q =>
      q.2.kind == Kd.encode && q.2.entry == x.entry && decide (q.2.media < x.media) && (decide (q.2.st < 5) || q.2.filling)))
    let free := free && !(x.kind == Kd.adecode && d.slicePending x)
    let held := match c.reserved with | some r => r == p.1 | none => true
    let elsewhere := d.tsk.cells.any (fun k => k.2.reserved == some p.1 && !(cellBlock code).contains k.1)
    (x.st == St.ready && here && held && free && !(decide (1 < x.gang) && elsewhere) && decide (d.beat < x.deadline)) ||
    (x.st == St.parked && x.cells.contains code && decide (d.beat < x.deadline)))

/-- Order of R62. -/
def Dev.issueBefore (d : Dev) (a b : Nat × Task) : Bool :=
  let fp := fun (x : Task) => d.flockPrio x.flock
  if a.2.deadline ≠ b.2.deadline then decide (a.2.deadline < b.2.deadline)
  else if fp a.2 ≠ fp b.2 then decide (fp b.2 < fp a.2)
  else if a.2.prio ≠ b.2.prio then decide (b.2.prio < a.2.prio)
  else decide (a.2.order ≤ b.2.order)

/-- A task starts on its cells. -/
def Dev.issueOn (d : Dev) (t : Nat) (cells : List Nat) : Dev :=
  let d := d.freeze t
  match d.task t with
  | none => d
  | some x =>
    let d := foldDev cells (fun c d => d.setCell c { d.cell c with job := some t, reserved := none, yielding := false }) d
    d.setTask t { x with st := St.running, cells := cells }

/-- JOB_ISSUE: a cell with no job asks and takes the head of its order; a gang starts when all of its cells have asked. The FCLK of the
issue is over when the set freezes, so that an arrival in it is in the set (Table 3.6). -/
def jobIssue (code : Nat) (d : Dev) : Dev :=
  let d := d.lapse
  let c := d.cell code
  if c.out || c.resetting || c.job.isSome || d.gated code || !cellValid code then d
  else
    match (sortBy (fun a b => d.issueBefore a b) (d.issueable code)).head? with
    | none => d
    | some (t, x) =>
      if x.gang ≤ 1 then d.issueOn t [code]
      else if x.st = St.parked then
        let d := d.setCell code { c with reserved := some t }
        if x.cells.all (fun k => (d.cell k).reserved == some t) then d.issueOn t x.cells else d
      else
        let d := d.setCell code { c with reserved := some t }
        let mine := (cellBlock code).filter (fun k => (d.cell k).reserved == some t)
        if x.gang ≤ mine.length then d.issueOn t (mine.take x.gang) else d

/-- CELL_YIELDED (R24): the task is parked on its cells once all of them have yielded; a task of a flock no longer VALID ends
ABORTED, one under a forced drain or a stopped block is settled. -/
def cellYielded (code : Nat) (d : Dev) : Dev :=
  let c := d.cell code
  match c.job with
  | none => d
  | some t =>
    if !c.yielding then d
    else
      let d := d.setCell code { c with yielding := false }
      match d.task t with
      | none => d
      | some x =>
        if x.cells.any (fun k => (d.cell k).yielding) then d
        else
          let gone := d.aborting x || (!d.flockValid x.flock && x.kind != Kd.filter)
          let d := foldDev x.cells (fun k d => d.setCell k { d.cell k with job := none, aborting := false }) d
          let d := d.setTask t { x with st := St.parked }
          if gone then d.terminate t St.aborted else if x.ending = 2 then (d.countForced 1).terminate t St.late else d

/-- Tasks of blocks that a shed stage stopped at this boundary are settled at the end of the grace, EXPIRED (R340). -/
def Dev.settleShed (d : Dev) : Dev :=
  foldDev ((d.tsk.tasks.filter (fun p => p.2.ending == 1 && decide (p.2.st < 5))).map (·.1)) (fun t d =>
    (d.cnt Reg.PWR_CNT_LO 1 1).terminate t St.expired) d

/-- YIELD_GRACE_EXPIRY (R24): at 3,000 FCLK every cell that has not yielded is stopped and reset, its task ended LATE, or ABORTED where
it is under an abort. -/
def yieldGraceExpiry (d : Dev) : Dev :=
  let d := d.endGrace
  foldDev ((d.tsk.cells.filter (fun c => c.2.yielding)).map (·.1)) (fun code d =>
    match (d.cell code).job.bind (fun t => (d.task t).map (fun x => (t, x))) with
    | some (t, x) => d.stopTask t x [code]
    | none => d.overrun code) d |>.settleShed

/-- Completion: the task's final job has retired. -/
def Dev.complete (d : Dev) (t : Nat) : Dev := d.terminate t St.complete

end Sys2Proof.Machine
end

