-- ==== Sys2Proof/Machine/Templates.lean ====
section
/-! DEFINITION. Task templates and what an entry leaves open (R50, R51, R54), cadences and phases (R21 to R23, R71, R195). -/

namespace Sys2Proof.Machine
open Sys2Proof

/-! ### Templates -/

/-- Template entry bytes decoded (Table 3.2). -/
def templateOf (b : List Byte) : Template :=
  { id := byteAt b 0, kind := byteAt b 1 / 16, rel := byteAt b 1 / 4 % 4, notify := (byteAt b 1).testBit 1,
    cadence := byteAt b 2, deadlineOfs := byteAt b 3, waitLimit := byteAt b 4, nOperands := byteAt b 5,
    chainNext := byteAt b 6, priority := byteAt b 7 % 8, cost := le16 b 8, classes := le16 b 10, param := le32 b 12 }

/-- Cadences of Table 1.8. -/
def cadences : List Nat := [6, 10, 12, 20, 24, 25, 40, 80]

def isCadence (c : Nat) : Bool := cadences.contains c

/-- Following CHAIN_NEXT from a template never comes back to it. -/
def chainEnds (ts : List Template) (start : Nat) : Nat → Nat → Bool
  | 0, _ => false
  | n + 1, id =>
    match ts.find? (fun t => t.id == id) with
    | none => true
    | some t => if t.chainNext = 255 then true
                else if t.chainNext = id ∧ t.kind = 2 then true
                else t.chainNext != start && chainEnds ts start n t.chainNext

/-- R51, with R171 and R194: a template of a section is in range. -/
def templateOk (ts : List Template) (t : Template) : Bool :=
  decide (t.id ≤ 254) && decide (1 ≤ t.kind) && decide (t.kind ≤ 7) && decide (t.rel ≤ 2) &&
  (if t.rel = 0 then t.cadence == 0 || t.cadence == 1 || isCadence t.cadence else t.cadence == 0) &&
  decide (t.deadlineOfs ≤ 240) && decide (t.nOperands ≤ 64) && decide (t.priority ≤ 7) &&
  (t.waitLimit == 255 || t.deadlineOfs == 0 || decide (t.waitLimit < t.deadlineOfs)) &&
  (t.chainNext == 255 || ts.any (fun x => x.id == t.chainNext)) && chainEnds ts t.id 256 t.id &&
  (if t.kind = 2 then decide (t.param < 256) else t.param == 0)

/-- R50, R51, R54: the templates of a section. -/
def templatesOk (ts : List Template) : Bool :=
  decide (ts.length ≤ 255) && ts.all (templateOk ts) &&
  ts.all (fun t => decide ((ts.filter (fun x => x.id == t.id)).length = 1)) &&
  (List.range 7).all (fun k => ts.any (fun t => t.kind == k + 1)) && ts.any (fun t => t.kind == 2 && t.rel == 0)

/-- The template of lowest id that passes p. -/
def lowestTemplate (ts : List Template) (p : Template → Bool) : Option Template :=
  (sortBy (fun a b => decide (a.id ≤ b.id)) (ts.filter p)).head?

/-- Templates of the section of media region r. -/
def Dev.templates (d : Dev) (r : Nat) : List Template := (d.regionOf (r + 2)).sec.templates

/-- The standard template of a kind (R54). -/
def Dev.stdTemplate (d : Dev) (r kind : Nat) : Option Template :=
  lowestTemplate (d.templates r) (fun t => t.kind == kind && (kind != Kd.encode || t.rel == 0))

/-- The template an entry's TEMPLATE field takes in a region: v − 1 where the section has it with that kind. -/
def Dev.templateFor (d : Dev) (r kind v : Nat) : Option Template :=
  if v = 0 then d.stdTemplate r kind
  else
    match (d.templates r).find? (fun t => t.id == v - 1 && t.kind == kind) with
    | some t => some t
    | none => d.stdTemplate r kind

/-- DEADLINE_OFS and WAIT_LIMIT as resolved for an entry: `cad` its SLOT_CAD or CADENCE, `lines` the compose time of a layout
in beats. -/
def resolve (t : Template) (cad : Nat) (lines : Option Nat) : Nat × Nat :=
  let dl := if t.deadlineOfs = 0 then cad else t.deadlineOfs
  let wl := if t.waitLimit = 255 then
      (match lines with | some n => min (cad * 6 / 10) (cad - n - 2) | none => dl * 6 / 10)
    else t.waitLimit
  (dl, wl)

/-- The resolved values keep R51. -/
def resolvedOk (t : Template) (cad : Nat) (lines : Option Nat) : Bool :=
  let (dl, wl) := resolve t cad lines
  decide (1 ≤ dl) && decide (dl ≤ 240) && decide (wl < dl)

/-- An entry keeps R51 under the template a region gives it. -/
def keepsR51 (t : Option Template) (cad : Nat) (lines : Option Nat) : Bool := match t with | some t => resolvedOk t cad lines | none => false

/-- Cadence of a PHASE task's releases: the template's, or the entry's where the template leaves it open (R52, R54). -/
def relCad (t : Template) (cad : Nat) : Nat := if t.cadence = 0 then cad else t.cadence

/-- Release cadence and cost of an entry's work under a template; without one, the entry's cadence. -/
def relOf (t : Option Template) (cad : Nat) : Nat × Nat := match t with | some t => (relCad t cad, t.cost) | none => (cad, 0)

/-! ### Phases (R22, R23, R71) -/

def phaseKey (flock cad : Nat) : Nat := flock * 256 + cad

def Dev.phaseRec (d : Dev) (flock cad : Nat) : Option PhaseRec := tabFind d.tsk.phases (phaseKey flock cad)
def Dev.setPhase (d : Dev) (flock cad : Nat) (r : PhaseRec) : Dev :=
  { d with tsk := { d.tsk with phases := recSet d.tsk.phases (phaseKey flock cad) r } }

/-- The half-word of cadence slot k of a flock entry: [15] FIXED, [14:8] CADENCE, [6:0] PHASE. -/
def cadSlot (e : Entry) (k : Nat) : Nat := e.f (1 + k / 2) (16 * (k % 2) + 15) (16 * (k % 2))
def setCadSlot (e : Entry) (k v : Nat) : Entry := e.setF (1 + k / 2) (16 * (k % 2) + 15) (16 * (k % 2)) v
def slotCad (v : Nat) : Nat := v / 256 % 128
def slotFixed (v : Nat) : Bool := v.testBit 15
def slotPhase (v : Nat) : Nat := v % 128

/-- Task load the flocks of a region already put on the beats n ≡ p mod c, at its greatest. -/
def Dev.loadAt (d : Dev) (region c p : Nat) : Nat :=
  let recs := d.tsk.phases.filter (fun r => d.flockRegion (r.1 / 256) == region)
  ((List.range (1200 / c)).map (fun k =>
    let n := p + k * c
    ((recs.filter (fun r => decide (0 < r.1 % 256) && n % (r.1 % 256) == r.2.phase)).map (·.2.weight)).sum)).foldl max 0

/-- Phases a flock may take at a cadence: congruent with its phases at cadences that divide it, or that it divides (R195). -/
def Dev.congruent (d : Dev) (flock c p : Nat) : Bool :=
  d.tsk.phases.all (fun r =>
    let c' := r.1 % 256
    r.1 / 256 != flock || c' == 0 || c' == c ||
    ((c % c' != 0 || p % c' == r.2.phase) && (c' % c != 0 || r.2.phase % c == p)))

/-- The dispatcher's choice: one of the phases with the least greatest load; which of them is left open. -/
def Dev.choosePhase (d : Dev) (flock c : Nat) : Nat × Dev :=
  let all := List.range c
  let ok := all.filter (fun p => d.congruent flock c p)
  let cand := if ok.isEmpty then all else ok
  let loads := cand.map (fun p => (p, d.loadAt (d.flockRegion flock) c p))
  let least := (loads.map (·.2)).foldl min (((loads.head?).map (·.2)).getD 0)
  let best := (loads.filter (fun x => x.2 == least)).map (·.1)
  let (k, d) := d.drawBelow (max 1 best.length)
  (best.getD k 0, d)

/-- Show a phase in the flock entry: in the slot that holds the cadence, else in the lowest unused one. -/
def Dev.showPhase (d : Dev) (flock c p : Nat) : Dev :=
  let e := d.flockEnt flock
  match (List.range 4).find? (fun k => slotCad (cadSlot e k) == c) with
  | some k => d.setEnt .tsk 0 flock (setCadSlot e k ((slotFixed (cadSlot e k)).toNat * 32768 + c * 256 + p))
  | none =>
    match (List.range 4).find? (fun k => slotCad (cadSlot e k) == 0) with
    | some k => d.setEnt .tsk 0 flock (setCadSlot e k (c * 256 + p))
    | none => d

/-- The flock uses a cadence, with work of the given cost: its phase is chosen at the first use. -/
def Dev.useCadence (d : Dev) (flock c cost : Nat) : Dev :=
  if c ≤ 1 then d
  else
    match d.phaseRec flock c with
    | some r => d.setPhase flock c { r with weight := r.weight + cost }
    | none =>
      let (p, d) := d.choosePhase flock c
      (d.setPhase flock c { phase := p, notBefore := 0, weight := cost }).showPhase flock c p

/-- Work of a cadence goes. -/
def Dev.dropCadence (d : Dev) (flock c cost : Nat) : Dev :=
  match d.phaseRec flock c with
  | some r => d.setPhase flock c { r with weight := r.weight - cost }
  | none => d

/-- Work of one cadence and cost becomes work of another: its entry's template is another one. -/
def Dev.swapCadence (d : Dev) (flock : Nat) (old new : Nat × Nat) : Dev :=
  if old = new then d else (d.dropCadence flock old.1 old.2).useCadence flock new.1 new.2

def Dev.phaseOf (d : Dev) (flock c : Nat) : Nat := ((d.phaseRec flock c).map (·.phase)).getD 0

/-- A phase change delays the next release, one that an earlier change has delayed included, by (new − old) mod c beats; it never runs
one twice and never brings one forward (R23). -/
def Dev.changePhase (d : Dev) (flock c p : Nat) : Dev :=
  match d.phaseRec flock c with
  | none => (d.setPhase flock c { phase := p }).showPhase flock c p
  | some r =>
    if r.phase = p then d.showPhase flock c p
    else
      let least := max r.notBefore (d.beat + 1)
      let next := least + (r.phase + c - least % c) % c
      let dly := (p + c - r.phase % c) % c
      (d.setPhase flock c { r with phase := p, notBefore := next + dly }).showPhase flock c p

/-- Whether a flock's work at a cadence is released at this beat (R22). -/
def Dev.phaseDue (d : Dev) (flock c : Nat) : Bool :=
  if c = 1 then true
  else
    match d.phaseRec flock c with
    | some r => d.beat % c == r.phase && decide (r.notBefore ≤ d.beat)
    | none => false

/-- The first beat at or after n on a flock's phase at a cadence (R169). -/
def Dev.slotBeat (d : Dev) (flock c n : Nat) : Nat :=
  let p := d.phaseOf flock c
  n + (p + c - n % c) % c

/-! ### The flock entry (R71) -/

/-- One cadence slot written over another. -/
def Dev.writeCadSlot (d : Dev) (flock k v : Nat) : Dev :=
  let e := d.flockEnt flock
  let old := cadSlot e k
  let c := slotCad v
  if c = 0 then d.setEnt .tsk 0 flock (setCadSlot e k 0)
  else
    let d := d.setEnt .tsk 0 flock (setCadSlot e k ((slotFixed v).toNat * 32768 + c * 256 + slotPhase old))
    if slotFixed v then
      if slotPhase v < c then d.changePhase flock c (slotPhase v)
      else if slotPhase old < c then d.changePhase flock c (slotPhase old)
      else
        let (p, d) := d.choosePhase flock c
        let d := d.setEnt .tsk 0 flock (setCadSlot (d.flockEnt flock) k (c * 256))
        d.changePhase flock c p
    else
      match d.phaseRec flock c with
      | some r => d.showPhase flock c r.phase
      | none =>
        let (p, d) := d.choosePhase flock c
        d.changePhase flock c p

/-! ### Regions -/

/-- Codec cells of a media region with a personality, not OUT, in one block (0 or 1) or in both. -/
def Dev.codecCells (d : Dev) (r : Nat) (enc : Bool) (blocks : List Nat) : Nat :=
  ((blocks.flatMap (fun b => (List.range 8).map (fun k => r * 16 + b * 8 + k))).filter (fun i =>
    d.flag (Reg.CFG_PERSONALITY + 4 * (i / 16)) (i % 16) == enc && !(d.cell (cellCode 0 i)).out)).length

/-- Cells of a type in a media region that are not OUT. -/
def Dev.cellsUp (d : Dev) (r ty per : Nat) : Nat :=
  ((List.range per).filter (fun k => !(d.cell (cellCode ty (r * per + k))).out)).length

def Dev.regionState (d : Dev) (n : Nat) : Nat := d.fld (Reg.CFG_REGION_STAT + 4 * n) 11 8

/-- Units replicated per media region lie at + 0x4_0000 × n. -/
def mediaOfs (r : Nat) : Nat := 0x40000 * r

end Sys2Proof.Machine
end

