-- ==== Sys2Proof/Machine/Release.lean ====
section
/-! DEFINITION. Releasing a task for an entry (R52, R54, R64), the buffers consumers hold, and what of a cell's work a
boundary does. -/

namespace Sys2Proof.Machine
open Sys2Proof

/-- A task of a kind for an entry, as its template and entry give it. -/
structure Launch where
  kind : Nat
  flock : Nat
  entry : Nat
  media : Nat
  tmpl : Template
  /-- SLOT_CAD or CADENCE of the entry; the beats a layout needs (R194) -/
  cad : Nat := 0
  lines : Option Nat := none
  /-- tags it names; an operand given at once -/
  tags : List Nat := []
  given : List Operand := []
  gang : Nat := 1
  pred : Option Nat := none
  row : Nat := 0
  rows : Nat := 1
  /-- deadline of the first row group (R52) -/
  deadline : Option Nat := none
  /-- the region a chain of row groups stays in (R53) -/
  region : Option Nat := none

/-- The dispatcher releases tasks where the device carries traffic, and in TEST for host-injected work; in RECOVERY only the next
row group of a picture begun (R331). -/
def Dev.dispatches (d : Dev) (row : Nat) : Bool :=
  match d.mode with
  | .test => true
  | .recovery => decide (0 < row)
  | _ => d.traffic

/-- No task of a kind is released in a region: it is not ACTIVE, but for the next row group of a picture begun before its reload (R41,
R53), or a stage stops the kind there (R340, R342). -/
def Dev.stops (d : Dev) (kind r row : Nat) : Bool :=
  decide (5 ≤ d.regionState (r + 2)) || (row == 0 && d.regionState (r + 2) != 0) || (decide (3 ≤ d.stage) && decide (2 ≤ r)) ||
  (decide (4 ≤ d.stage) && decide (kind ≤ Kd.compose)) || (decide (6 ≤ d.stage) && (kind == Kd.mix || kind == Kd.aencode))

/-- R60: a TALKERS operand found held at the release adds its broods' AFRAME tags at once. -/
def Dev.nameTalkers (d : Dev) (t tag : Nat) : Dev :=
  match d.task t with
  | some x => if tagClass tag = Cl.talkers ∧ x.ops.any (fun o => o.tag == tag && o.st == 1) = true then d.addTalkers t tag else d
  | none => d

/-- A given operand whose class the template excludes is missing from the start (R56). -/
def Dev.giveOps (d : Dev) (classes : Nat) (ops : List Operand) : List Operand × Dev :=
  let bad (o : Operand) : Bool := !classes.testBit (tagClass o.tag)
  (ops.map (fun o => if bad o then { o with st := 2 } else o), d.tskCount 7 (ops.filter bad).length)

/-- The operand a tag gives a task that found the table full: the item held, else none (R55). -/
def Dev.heldOp (d : Dev) (tag : Nat) : Operand :=
  match (d.findSlot tag).bind d.slotOf with
  | some s => if s.arrived then { tag := tag, st := 1, quality := s.quality, ref := s.ref } else { tag := tag, st := 2 }
  | none => { tag := tag, st := 2 }

/-- Release: the task's operands are named; a task whose deadline beat has begun is settled EXPIRED and never runs. -/
def Dev.launch (d : Dev) (l : Launch) : Option Nat × Dev :=
  if !d.dispatches l.row || d.stops l.kind (l.region.getD (d.flockRegion l.flock)) l.row then (none, d) else
  let (dl, wl) := resolve l.tmpl l.cad l.lines
  let (ops, d) := if l.given.isEmpty then ([], d) else d.giveOps l.tmpl.classes l.given
  let x : Task := {
    kind := l.kind, region := l.region.getD (d.flockRegion l.flock), tmpl := l.tmpl.id, prio := l.tmpl.priority, classes := l.tmpl.classes,
    notify := l.tmpl.notify, chainNext := l.tmpl.chainNext, flock := l.flock, entry := l.entry, release := d.beat, released := d.now,
    deadline := l.deadline.getD (d.beat + dl), waitAt := d.beat + wl, media := l.media, ops := ops, gang := l.gang,
    pred := l.pred, row := l.row, rows := l.rows }
  let (t, d) := d.takeTask x
  if taskEntries ≤ t then
    (some t, match d.task t with | some y => d.setTask t { y with ops := y.ops ++ l.tags.map d.heldOp } | none => d)
  else
    let d := (foldDev l.tags (fun tag d => (d.nameOperand t tag).nameTalkers t tag) d).settleReady t
    match d.task t with
    | none => (some t, d)
    | some x =>
      (some t, if x.deadline ≤ d.beat then d.terminate t St.expired else d)

/-- HOLD of an item's buffer: the operand while its slot lives, and each task that has frozen it (R174, R192). -/
def Dev.holds (d : Dev) (cls ref : Nat) : Nat :=
  (d.tsk.slots.filter (fun s => s.2.arrived && tagClass s.2.tag == cls && s.2.ref == ref)).length +
  (d.tsk.tasks.filter (fun p => p.2.frozen && (decide (p.2.st < 5) || p.2.filling) &&
    p.2.ops.any (fun o => o.st == 1 && tagClass o.tag == cls && o.ref == ref))).length

/-- Live tasks of a kind for an entry. -/
def Dev.liveTasks (d : Dev) (kind entry : Nat) : List (Nat × Task) :=
  d.tsk.tasks.filter (fun p => p.2.kind == kind && p.2.entry == entry && decide (p.2.st < 5))

/-- The flocks of an entry's tasks: WAITING, READY and PARKED ones end ABORTED at once, RUNNING ones at their next yield
(R71, R69). -/
def Dev.abortTasks (d : Dev) (p : Task → Bool) : Dev :=
  foldDev ((d.tsk.tasks.filter (fun x => decide (x.2.st < 5) && p x.2)).map (·.1)) (fun t d =>
    match d.task t with
    | some x => if x.st = St.running then d.abortCells x.cells else d.terminate t St.aborted
    | none => d) d

/-- Add to the k-th of an entry's saturating counters. -/
def bumpAt (l : List Nat) (k limit : Nat) : List Nat := l.set k (min limit (l.getD k 0 + 1))

/-- Errors and views of table commands shared by the media units: an index out of range or a write refused. -/
def Dev.mediaTab (d : Dev) (cmd code : Nat) : Dev := d.tabErr cmd code

/-- The task and its handle a cell works on, with the role of a gang: 0 none, 1 lead, 2 member. -/
def Dev.cellRole (d : Dev) (code : Nat) : Nat :=
  match (d.cell code).job.bind d.task with
  | some x => if x.gang ≤ 1 then 0 else if x.cells.head? = some code then 1 else 2
  | none => 0

def Dev.cellBrood (d : Dev) (code : Nat) (broodOf : Task → Nat) : Nat :=
  match (d.cell code).job.bind d.task with
  | some x => broodOf x
  | none => 0

end Sys2Proof.Machine
end

