-- ==== Sys2Proof/Machine/VideoDecode.lean ====
section
/-! DEFINITION. Video decode (chapter 8): access units, admission, reference pools and slot maps, output order, quality,
concealment, and VDC_TAB. Pools are numbered over the device, regions and classes in order (assumption 20). -/

namespace Sys2Proof.Machine
open Sys2Proof

def Dev.decEnt (d : Dev) (e : Nat) : Entry := d.ent .vdc 0 e
def Dev.dec (d : Dev) (e : Nat) : Option Dec := tabFind d.vdc.decs e
def Dev.setDec (d : Dev) (e : Nat) (v : Dec) : Dev := { d with vdc := { d.vdc with decs := recSet d.vdc.decs e v } }
def Dev.modDec (d : Dev) (e : Nat) (f : Dec → Dec) : Dev := { d with vdc := { d.vdc with decs := recMod d.vdc.decs e f } }

def Dev.vdcCount (d : Dev) (r c n : Nat) : Dev := d.cnt (Reg.VDC_CNT_LO + mediaOfs r) c n

def deBrood (e : Entry) : Nat := e.f 0 15 0
def deFlock (e : Entry) : Nat := e.f 1 11 0
def deSlotCad (e : Entry) : Nat := e.f 1 23 16
def deTarget (e : Entry) : Nat × Nat := (e.f 2 31 30, e.f 2 29 28)

/-- Count on a region's counter and, where the entry keeps it, on the entry's own (k-th of `cnts`). -/
def Dev.decCount (d : Dev) (e c : Nat) (k : Option Nat) : Dev :=
  match d.dec e with
  | none => d
  | some s =>
    let d := d.vdcCount s.region c 1
    match k with
    | some k => d.setDec e { s with cnts := bumpAt s.cnts k (if k = 0 then 0xFFFFFFFF else 0xFFFF) }
    | none => d

/-! ### Classes and pools (R165, R166) -/

def Dev.decClasses (d : Dev) (r : Nat) : List DecClass := (d.regionOf (r + 2)).sec.decCls

def Dev.decClass (d : Dev) (r c : Nat) : Option DecClass := (d.decClasses r)[c]?

/-- First pool of a class. -/
def Dev.poolBase (d : Dev) (r c : Nat) : Nat :=
  ((List.range r).map (fun k => ((d.decClasses k).map (·.pools)).sum)).sum + (((d.decClasses r).take c).map (·.pools)).sum

def frameBytes (maxW maxH : Nat) (depth10 : Bool) (motion : Nat) : Nat :=
  let stride := ceilDiv (maxW * (if depth10 then 2 else 1)) 256 * 256
  ceilDiv (stride * maxH * 3 / 2 + motion) 4096 * 4096

/-- Bytes of a frame buffer of a stream class. -/
def DecClass.bytes (c : DecClass) : Nat :=
  frameBytes c.maxW c.maxH c.depth10 (ceilDiv c.maxW 16 * ceilDiv c.maxH 16 * 16)

/-- A stream class keeps R165 (what the loader checks). -/
def DecClass.ok (c : DecClass) : Bool :=
  decide (c.maxW ≤ 4096) && decide (c.maxH ≤ 4096) && decide (c.maxW * c.maxH ≤ 9437184) && decide (c.poolSize ≤ 17)

/-- Reference of a buffer of a pool. -/
def picRef (pool buf : Nat) : Nat := pool * 32 + buf

/-- Tiles of a layout: index within the layout and entry. -/
def Dev.tilesOf (d : Dev) (l : Nat) : List (Nat × Entry) :=
  (List.range ((d.ent .cmp 0 l).f 2 7 0)).map (fun k => (k, d.ent .cmp 1 (l * 64 + k)))

/-- Some layout draws a brood. -/
def Dev.drawsBrood (d : Dev) (b : Nat) : Bool :=
  d.cmp.lays.any (fun l =>
    let e := d.ent .cmp 0 l.1
    (d.tilesOf l.1).any (fun t => tileBrood (e.b 2 13) (d.speakers (e.f 2 31 20)) t.2 == some b))

/-- HOLD of a buffer: consumers' holds, and the compose unit's hold of the newest picture of a brood it draws (R198). -/
def Dev.picHolds (d : Dev) (ref : Nat) : Nat :=
  d.holds Cl.picture ref + (d.vdc.newest.filter (fun n => n.2.2.2 == ref && d.drawsBrood n.1)).length +
  (d.ven.encs.filter (fun e => match e.2.pic with | some p => p.src == some (Cl.picture, ref) | none => false)).length

/-- A pool given back is free again once nothing holds a buffer of it. -/
def Dev.poolHeld (d : Dev) (pool : Nat) : Bool := (List.range 17).any (fun k => decide (0 < d.picHolds (picRef pool k)))

def Dev.poolBusy (d : Dev) (pool : Nat) : Bool :=
  d.vdc.decs.any (fun x => x.2.pool == pool) || (d.vdc.freeing.contains pool && d.poolHeld pool)

/-- Pools of a class now free. -/
def Dev.freePools (d : Dev) (r c : Nat) : List Nat :=
  match d.decClass r c with
  | none => []
  | some k => ((List.range k.pools).map (fun i => d.poolBase r c + i)).filter (fun p => !d.poolBusy p)

/-- A picture that output order has released waits for its packets to leave PENDING (R183). -/
def Dec.unpublished (s : Dec) (k : Nat) : Bool := s.held.any (fun h => h.buf == k)

/-- A buffer's mark as it stands: a picture that is no reference, has been output and is not held is FREE (R174). -/
def Dev.bufMark (d : Dev) (s : Dec) (k : Nat) (b : Buf) : Nat :=
  if b.mark = 3 ∧ b.wait = false ∧ s.unpublished k = false ∧ d.picHolds (picRef s.pool k) = 0 then 0 else b.mark

/-! ### Admission (R166, R167) -/

def decRate : Nat := 250000000

/-- Load of an entry, luma samples a second. -/
def Dev.decLoad (d : Dev) (e : Entry) (c : DecClass) : Nat :=
  let be := d.broodEnt (deBrood e)
  let area :=
    if brStruct be = 1 then ((List.range (e.f 2 31 30 + 1)).map (fun s => (brSize be s).1 * (brSize be s).2)).sum
    else c.maxW * c.maxH
  max area 16384 * 600 / max 1 (e.f 1 31 24)

def gangOf (rate load : Nat) : Nat := if load ≤ rate then 1 else ceilDiv load rate

/-- Load admitted in a region, and its capacity (samples a second). -/
def Dev.decAdmitted (d : Dev) (r : Nat) : Nat := ((d.vdc.decs.filter (fun x => x.2.region == r)).map (·.2.load)).sum
def Dev.decCapacity (d : Dev) (r : Nat) : Nat :=
  decRate * d.codecCells r false [0, 1] * d.fld Reg.VDC_CFG 22 16 / 100

/-- The template of a decode entry in a region, and the cadence of its slots with the template's cost. -/
def Dev.decTemplate (d : Dev) (r : Nat) (e : Entry) : Option Template := d.templateFor r Kd.decode (e.f 2 19 12)
def Dev.decRel (d : Dev) (r : Nat) (e : Entry) : Nat × Nat := (deSlotCad e, ((d.decTemplate r e).map (·.cost)).getD 0)

/-- A new decoder state in a pool. -/
def newDec (r pool cls load gang : Nat) (c : DecClass) (cur : Nat × Nat) (codec : Nat) : Dec :=
  { region := r, pool := pool, cls := cls, bufs := List.replicate c.poolSize {}, load := load, gang := gang, cur := cur,
    slots := List.replicate (match codec with | 1 => 3 | 2 => 8 | 3 => 8 | _ => 16) none }

/-- What admission finds: an error of VDC_TAB_CMD, or the new decoder. -/
def Dev.admitDec (d : Dev) (e : Entry) : Nat ⊕ Dec :=
  let r := d.flockRegion (deFlock e)
  let cls := e.f 0 27 24
  match d.decClass r cls, d.decTemplate r e with
  | some c, some t =>
    let load := d.decLoad e c
    let gang := gangOf decRate load
    if !isCadence (e.f 1 31 24) || !isCadence (deSlotCad e) || decide (4 < e.f 0 30 28) || decide (8 < e.f 1 15 12) ||
       !resolvedOk t (deSlotCad e) none || decide (3 < gang) || decide (4096 ≤ (d.vdc.decs.filter (fun x => x.2.region == r)).length) then .inl 4
    else if gang ≠ 1 ∧ d.codecCells r false [0] < gang ∧ d.codecCells r false [1] < gang then .inl 3
    else
      match (d.freePools r cls).head? with
      | none => .inl 2
      | some pool =>
        if d.decCapacity r < d.decAdmitted r + load then .inl 1
        else .inr (newDec r pool cls load gang c (deTarget e) (e.f 0 30 28))
  | _, _ => .inl 4

/-- An entry leaves: its live tasks are aborted and its pool is given back. -/
def Dev.releaseDec (d : Dev) (e : Nat) : Dev :=
  match d.dec e with
  | none => d
  | some s =>
    let d := d.abortTasks (fun x => x.kind == Kd.decode && x.entry == e)
    let d := foldDev (s.aus.flatMap (·.items)) (fun it d => d.derefPayload it.uid) d
    let ent := d.decEnt e
    let rel := d.decRel s.region ent
    ({ d with vdc := { d.vdc with decs := tabErase d.vdc.decs e, freeing := s.pool :: d.vdc.freeing.filter (fun p => d.poolHeld p) } }
      ).dropCadence (deFlock ent) rel.1 rel.2

/-- A decoder has a task under way in the region that holds its pool. -/
def Dev.decBound (d : Dev) (e : Nat) (s : Dec) : Bool :=
  d.tsk.tasks.any (fun x => x.2.kind == Kd.decode && x.2.entry == e && x.2.region == s.region && (decide (x.2.st < 5) || x.2.filling))

/-- A decoder of a flock that moved to another region follows once its tasks in the old one have ended: a pool of the same class there,
the pictures with it; else the brood restarts there with no references, its pictures going into the pool it has (R166; assumption 21). It
is refused where the region's template breaks R51 (R54). -/
def Dev.moveDec (d : Dev) (e r : Nat) : Dev :=
  match d.dec e with
  | none => d
  | some s =>
    let ent := d.decEnt e
    if s.region = r ∨ d.decBound e s = true then d
    else if !keepsR51 (d.decTemplate r ent) (deSlotCad ent) none then
      ((d.releaseDec e).setEnt .vdc 0 e (ent.setB 0 31 false)).tabErr Reg.VDC_TAB_CMD 4
    else
      let d := d.swapCadence (deFlock ent) (d.decRel s.region ent) (d.decRel r ent)
      match (d.freePools r s.cls).head? with
      | some p =>
        let d := d.setDec e { s with region := r, pool := p }
        { d with vdc := { d.vdc with
          freeing := s.pool :: d.vdc.freeing
          newest := d.vdc.newest.map (fun n => if n.2.2.2 / 32 = s.pool then (n.1, n.2.1, n.2.2.1, picRef p (n.2.2.2 % 32)) else n) } }
      | none =>
        d.setDec e { s with region := r, slots := s.slots.map (fun _ => none), held := []
                            bufs := s.bufs.map (fun b => { b with wait := false, mark := if b.mark = 0 then 0 else 3 }) }

/-! ### Prefixes of tap items (Table 17.10) -/

def picPrefix (w h : Nat) (depth10 : Bool) (quality : Nat) : List Byte :=
  toBe 2 w ++ toBe 2 h ++ toBe 1 (if depth10 then 10 else 8) ++ toBe 1 quality ++ toBe 10 0

def auPrefix (codec quality : Nat) (key : Bool) (spatial temporal len : Nat) : List Byte :=
  toBe 1 codec ++ toBe 1 quality ++ toBe 1 (key.toNat * 128 + spatial * 16 + temporal) ++ toBe 1 0 ++ toBe 4 len

/-! ### Access units (R168 to R172) -/

/-- Whether every number of the picture's packets is present. -/
def Au.whole (a : Au) (indicated : Bool) : Bool :=
  match a.startSeq, a.endSeq with
  | some f, some l =>
    let n := toField 16 ((l : Int) - f)
    (List.range (n + 1)).all (fun k => a.seen.contains ((f + k) % 65536))
  | _, _ =>
    !indicated &&
      (match a.seen with
       | [] => false
       | s :: r =>
         let ds := (s :: r).map (fun (x : Nat) => signed 16 (toField 16 ((x : Int) - (s : Int))))
         let lo := ds.foldl min 0
         let hi := ds.foldl max 0
         decide ((hi - lo) + 1 = ((s :: r).length : Int)))

def Dev.putAu (d : Dev) (e : Nat) (a : Au) : Dev :=
  d.modDec e (fun s => { s with aus := s.aus.map (fun x => if x.ref = a.ref then a else x) })

def Dev.dropAu (d : Dev) (e ref : Nat) : Dev :=
  match d.dec e with
  | none => d
  | some s =>
    let d := foldDev ((s.aus.filter (fun x => x.ref == ref)).flatMap (·.items)) (fun it d => d.derefPayload it.uid) d
    d.modDec e (fun s => { s with aus := s.aus.filter (fun x => x.ref != ref) })

def Dev.auTag (d : Dev) (e : Nat) (a : Au) : Nat :=
  let ent := d.decEnt e
  mkTag (deFlock ent) (deBrood ent) Cl.au (a.media % 2 ^ 32)

/-- Live DECODE tasks of an entry, latest last. -/
def Dev.decTasks (d : Dev) (e : Nat) : List (Nat × Task) := sortBy (fun a b => decide (a.2.order ≤ b.2.order)) (d.liveTasks Kd.decode e)

def Dev.maxBacklog (d : Dev) (e : Nat) : Nat :=
  let own := (d.decEnt e).f 1 15 12
  if own = 0 then d.fld Reg.VDC_CFG 11 8 else own

/-- A key request of a decoder: for SIMULCAST it names the encoding decoded. -/
def Dev.decKeyReq (d : Dev) (e : Nat) (enc : Nat) (need : Bool := false) : Dev := d.keyRequest (deBrood (d.decEnt e)) enc need

/-- The DECODE task of an access unit. -/
def Dev.releaseDecode (d : Dev) (e : Nat) (a : Au) (quality : Nat) : Dev :=
  match d.dec e with
  | none => d
  | some s =>
    let ent := d.decEnt e
    match d.decTemplate (d.flockRegion (deFlock ent)) ent with
    | none => d
    | some t =>
      let tag := d.auTag e a
      (d.launch { kind := Kd.decode, flock := deFlock ent, entry := e, media := a.media, tmpl := t, cad := deSlotCad ent,
                  tags := if a.publish then [tag] else [],
                  given := if a.publish then [] else [{ tag := tag, st := 1, quality := quality, ref := a.ref }],
                  gang := s.gang, pred := (d.decTasks e).getLast?.map (·.2.order) }).2

/-- An access unit reaches the decoder: discarded in RESYNC or when the backlog is full, else its task is released. -/
def Dev.auArrives (d : Dev) (e : Nat) (a : Au) (quality : Nat) : Dev :=
  match d.dec e with
  | none => d
  | some s =>
    let full := decide (d.maxBacklog e ≤ (d.decTasks e).length)
    if full || (s.st == 3 && !a.key) then
      let d := if s.st = 3 then d
        else ((d.modDec e (fun s => { s with st := 3 })).raise (srcRegion (s.region + 2) 10) e).decKeyReq e s.cur.1
      ((d.decCount e 7 none)).dropAu e a.ref
    else
      let d := if s.st = 3 ∨ s.st = 0 then d.modDec e (fun s => { s with st := 1 }) else d
      if a.publish then d.releaseDecode e a quality
      else (d.decCount e 6 none).releaseDecode e a quality

/-- An access unit is offered as an operand. -/
def Dev.offerAu (d : Dev) (e ref : Nat) : Dev :=
  match (d.dec e).bind (fun s => s.aus.find? (fun a => a.ref == ref)) with
  | none => d
  | some a =>
    if a.offered then d
    else
      let ent := d.decEnt e
      let clean := a.whole (decide ((d.broodEnt (deBrood ent)).f 0 21 20 ≠ 0))
      let a := { a with offered := true, clean := clean }
      let d := d.putAu e a
      let q := if clean then 0 else 2
      let (len, d) := d.drawBelow (2 ^ 24)
      let d := d.tapOffer { kind := tapAu, sub := 0, flock := deFlock ent, ident := deBrood ent, beat := a.media % 2 ^ 32, len := 8 + len,
                            known := auPrefix (ent.f 0 30 28) q a.key 0 0 len }
      if a.publish then
        let (ok, d) := d.arrive (d.auTag e a) a.ref q
        if ok then d.auArrives e a q else d.dropAu e ref
      else d.auArrives e a q

/-- An operand of class AU that the tap port injected: taken as a whole access unit of its brood. -/
def Dev.injectedAu (d : Dev) (tag ref : Nat) : Dev :=
  match d.vdc.decs.find? (fun x => deBrood (d.decEnt x.1) == tagBrood tag && deFlock (d.decEnt x.1) == tagFlock tag) with
  | none => d
  | some (e, s) =>
    let m := (d.beatNear (tagMedia tag)).toNat
    let a : Au := { ref := ref, media := m, first := d.beat, offered := true, clean := true, key := true }
    (d.setDec e { s with aus := s.aus ++ [a], lastMedia := some m }).auArrives e a 0

/-- The point in force for a picture that begins with this packet (R170, under R143 and R144). -/
def Dev.decSwitch (d : Dev) (e : Nat) (it : Item) (key : Bool) : Dev :=
  match d.dec e with
  | none => d
  | some s =>
    let tgt := deTarget (d.decEnt e)
    let be := d.broodEnt it.md.brood
    let go := fun (d : Dev) (p : Nat × Nat) => d.modDec e (fun s => { s with cur := p, pend := none })
    let key := key && !(d.brood it.md.brood).bad.contains (it.md.stream, it.md.ts)
    if tgt = s.cur then d
    else if brStruct be = 2 ∧ tgt.1 ≠ s.cur.1 then
      if it.md.stream = tgt.1 ∧ key = true then go d tgt else d
    else if brStruct be = 2 ∧ it.md.stream ≠ s.cur.1 then d
    else
      let okT := decide (tgt.2 ≤ s.cur.2) || key || (it.md.layer.testBit 2 && decide (it.md.layer / 8 % 8 ≤ tgt.2))
      let okS := decide (tgt.1 ≤ s.cur.1) || key || (be.f 0 30 28 == 3 && Config.ddSwitch it.dd tgt.1 tgt.2)
      if okT && okS then go d tgt
      else if okT && decide (tgt.2 < s.cur.2) then go d (s.cur.1, tgt.2)
      else if okS && decide (tgt.1 < s.cur.1) then go d (tgt.1, s.cur.2)
      else d

/-- The point in force for a picture that begins now: while a change of encoding down is pending, temporal layer 0 alone (R143). -/
def Dev.decPoint (d : Dev) (e : Nat) : Nat × Nat :=
  match d.dec e with
  | none => (0, 0)
  | some s =>
    let ent := d.decEnt e
    if brStruct (d.broodEnt (deBrood ent)) = 2 ∧ (deTarget ent).1 < s.cur.1 then (s.cur.1, 0) else s.cur

/-- A decoder's pending switch, at a boundary: where it has found no switching point in KEYREQ_WAIT beats, a key-picture request names
its target (R145, R170). -/
def Dev.decPending (d : Dev) (e : Nat) : Dev :=
  match d.dec e with
  | none => d
  | some s =>
    let ent := d.decEnt e
    let tgt := deTarget ent
    if tgt = s.cur ∨ d.composeStopped (deFlock ent) = true then d.modDec e (fun s => { s with pend := none })
    else
      match s.pend with
      | some (t, since, asked) =>
        if t ≠ tgt then d.modDec e (fun s => { s with pend := some (tgt, d.beat, false) })
        else if asked ∨ d.beat < since + d.fld Reg.FWD_CFG 9 0 then d
        else (d.modDec e (fun s => { s with pend := some (tgt, since, true) })).decKeyReq e tgt.1 (decide (tgt.1 ≠ s.cur.1))
      | none => d.modDec e (fun s => { s with pend := some (tgt, d.beat, false) })

/-- The decode task of an access unit has frozen it. -/
def Dev.auFrozen (d : Dev) (e ref : Nat) : Bool :=
  d.tsk.tasks.any (fun x => x.2.kind == Kd.decode && x.2.entry == e && x.2.frozen && x.2.ops.any (fun o => o.ref == ref))

/-- An access unit offered DAMAGED, and not yet frozen, is complete again (R168): it replaces the one offered, in the store under R58, or
in the task that was given it. -/
def Dev.completeAu (d : Dev) (e : Nat) (a : Au) : Dev :=
  if a.publish then
    match (d.findSlot (d.auTag e a)).bind d.slotOf with
    | some sl =>
      if sl.arrived ∧ sl.ref = a.ref ∧ sl.quality = 2 ∧ sl.frozenWith = false
      then ((d.putAu e { a with clean := true }).arrive (d.auTag e a) a.ref 0).2 else d.tskCount 4 1
    | none => d.tskCount 4 1
  else
    foldDev ((d.decTasks e).filter (fun x => x.2.ops.any (fun o => o.ref == a.ref))) (fun x d =>
      d.setTask x.1 { x.2 with ops := x.2.ops.map (fun o => if o.ref = a.ref then { o with quality := 0 } else o) })
      (d.putAu e { a with clean := true })

/-- A packet is gathered into the access unit of its picture. -/
def Dev.gather (d : Dev) (e : Nat) (it : Item) : Dev :=
  match d.dec e with
  | none => d
  | some s =>
    let be := d.broodEnt it.md.brood
    let indicated := decide (be.f 0 21 20 ≠ 0)
    let bytes := ((d.payload it.uid).map (·.bytes)).getD []
    let key := isKeyItem be it bytes
    let strm := if brStruct be = 2 then it.md.stream else 0
    let ref := 2 ^ 33 + strm * 2 ^ 34 + it.md.ts
    let newest := (s.aus.filter (fun a => decide (2 ^ 33 ≤ a.ref) && a.stream == strm)).getLast?
    let old := match newest with
      | some a => a.ts != it.md.ts && decide (2 ^ 31 ≤ toField 32 ((it.md.ts : Int) - a.ts))
      | none => false
    let isNew := !s.aus.any (fun a => a.ref == ref)
    if isNew && old then d
    else
      let d := if isNew then d.decSwitch e it key else d
      match d.dec e with
      | none => d
      | some s =>
        let st := brStruct be
        let lay := (if st = 2 then it.md.stream else it.md.layer / 64 % 4, it.md.layer / 8 % 8)
        let pt := match s.aus.find? (fun a => a.ref == ref) with | some a => a.pt | none => d.decPoint e
        if !inPoint st pt lay then d
        else
          let ent := d.decEnt e
          let top := st != 1 || lay.1 == pt.1
          let add := fun (a : Au) => { a with
            items := a.items ++ [it], seen := if a.seen.contains it.md.seq then a.seen else a.seen ++ [it.md.seq],
            startSeq := if it.md.layer.testBit 1 && a.startSeq.isNone then some it.md.seq else a.startSeq,
            endSeq := if it.md.layer.testBit 0 && top then some it.md.seq else a.endSeq, key := a.key || key }
          let d := d.refPayload it.uid
          if isNew then
            let d := foldDev ((s.aus.filter (fun a => !a.offered)).map (·.ref)) (fun r d => d.offerAu e r) d
            let m := d.slotBeat (deFlock ent) (deSlotCad ent) d.beat
            let a := add { ref := ref, ts := it.md.ts, stream := strm, pt := pt, media := m, first := d.beat, publish := (d.dec e).bind (·.lastMedia) != some m }
            let d := d.modDec e (fun s => { s with aus := s.aus ++ [a], lastMedia := some m })
            if a.whole true then d.offerAu e ref else d
          else
            match s.aus.find? (fun a => a.ref == ref) with
            | none => d
            | some a =>
              if d.auFrozen e ref then
                let b := add a
                let d := (d.derefPayload it.uid).putAu e { b with items := a.items }
                if !a.clean && !a.whole indicated && b.whole indicated then d.tskCount 4 1 else d
              else
                let a := add a
                let d := d.putAu e a
                if !a.offered then (if a.whole true then d.offerAu e ref else d)
                else if a.clean || !a.whole indicated then d
                else d.completeAu e a

/-- A video packet for every decoder of its brood. -/
def Dev.decPacket (d : Dev) (it : Item) : Dev :=
  if it.md.kind ≠ 2 ∨ d.itemAuth it = 3 then d
  else foldDev ((d.vdc.decs.filter (fun x => deBrood (d.decEnt x.1) == it.md.brood && !d.composeStopped (deFlock (d.decEnt x.1)))).map (·.1))
    (fun e d => d.gather e it) d

/-- AU_WAIT_EXPIRY: an incomplete access unit is offered AU_WAIT beats after its first packet. -/
def auWaitExpiry (e : Nat) (d : Dev) : Dev :=
  match d.dec e with
  | none => d
  | some s =>
    foldDev ((s.aus.filter (fun a => !a.offered && decide (a.first + d.fld Reg.VDC_CFG 7 0 ≤ d.beat))).map (·.ref))
      (fun r d => d.offerAu e r) d

/-! ### Pools, publication and quality (R174 to R185) -/

def Dev.decEvent (d : Dev) (r i : Nat) (d0 : Nat) : Dev := d.raiseOnce (srcRegion (r + 2) i) d0

/-- Slots named by a buffer become MISSING. -/
def Dec.unslot (s : Dec) (buf : Nat) : Dec := { s with slots := s.slots.map (fun x => if x = some buf then none else x) }

/-- Slots named become MISSING, and references no slot names are no references any more. -/
def Dec.lose (s : Dec) (slots : List Nat) : Dec :=
  let s := { s with slots := slots.foldl (fun l k => l.set k none) s.slots }
  { s with bufs := s.bufs.mapIdx (fun k b => if (b.mark = 1 ∨ b.mark = 2 ∨ b.mark = 4) ∧ !s.slots.contains (some k)
                                              then { b with mark := 3 } else b) }

/-- A key picture drops every reference of the pool. -/
def Dec.dropAll (s : Dec) : Dec :=
  { s with slots := s.slots.map (fun _ => none),
           bufs := s.bufs.map (fun b => if b.mark = 1 ∨ b.mark = 2 ∨ b.mark = 4 then { b with mark := 3 } else b) }

/-- A buffer for a new picture: a FREE one, else the reference with HOLD 0 least recently used (R175); answers whether one
was evicted. -/
def Dev.takeBuf (d : Dev) (s : Dec) : Option (Nat × Bool) :=
  let bs := s.bufs.mapIdx (fun k b => (k, b))
  match bs.find? (fun x => d.bufMark s x.1 x.2 == 0) with
  | some (k, _) => some (k, false)
  | none =>
    let c := bs.filter (fun x => x.2.mark != 3 && !s.unpublished x.1 && d.picHolds (picRef s.pool x.1) == 0)
    ((sortBy (fun a b => decide (a.2.used ≤ b.2.used)) c).head?).map (fun x => (x.1, true))

/-- A PICTURE operand leaves the decoder: counted, made the brood's newest, and given to its consumers. -/
def Dev.publishPicture (d : Dev) (e : Nat) (h : Held) : Dev :=
  match d.dec e with
  | none => d
  | some s =>
    let ent := d.decEnt e
    let ref := picRef s.pool h.buf
    let media := tagMedia h.tag
    let b := s.bufs.getD h.buf {}
    let d := d.decCount e 0 (some 0)
    let d := if b.quality = 1 then d.decCount e 1 (some 1)
             else if b.quality = 2 then (d.decCount e 2 (some 2)).decEvent s.region 14 e else d
    let d := { d with vdc := { d.vdc with newest := recSet d.vdc.newest (deBrood ent) (media, b.quality, ref) } }
    let d := d.tapOffer { kind := tapPicture, sub := 0, flock := deFlock ent, ident := deBrood ent,
                          beat := media, len := 16 + b.w * b.h * (if b.depth10 then 2 else 1) * 3 / 2,
                          known := picPrefix b.w b.h b.depth10 b.quality }
    (d.arrive h.tag ref b.quality).2

/-- Publication waits until every packet of the picture's access unit has left PENDING (R183). -/
def Dev.publishWhen (d : Dev) (e : Nat) (h : Held) : Dev :=
  match d.dec e with
  | none => d
  | some s => if (s.bufs.getD h.buf {}).uids.isEmpty then d.publishPicture e h else d.setDec e { s with held := s.held ++ [h] }

/-- A packet's authentication is known: a FAIL makes the pictures decoded from it DAMAGED, counts one that is never published, and asks
for a key picture; pictures that waited may be published (R183). -/
def Dev.decResolved (d : Dev) (uid : Nat) (pass : Bool) : Dev :=
  foldDev (d.vdc.decs.map (·.1)) (fun e d =>
    match d.dec e with
    | none => d
    | some s =>
      let hit := s.bufs.any (fun b => b.uids.contains uid)
      let hidden := s.bufs.zipIdx.any (fun b => b.1.uids.contains uid && !b.1.wait && !s.unpublished b.2)
      let bufs := s.bufs.map (fun b =>
        if !b.uids.contains uid then b
        else if pass then { b with uids := b.uids.filter (fun u => u != uid) }
        else { b with uids := b.uids.filter (fun u => u != uid), quality := 2, mark := if b.mark = 1 ∨ b.mark = 2 then 4 else b.mark })
      let due := s.held.filter (fun h => (bufs.getD h.buf {}).uids.isEmpty)
      let d := d.setDec e { s with held := s.held.filter (fun h => !(bufs.getD h.buf {}).uids.isEmpty), bufs := bufs }
      let d := if hidden && !pass then d.decCount e 2 (some 2) else d
      let d := foldDev due (fun h d => d.publishPicture e h) d
      if hit && !pass then d.decKeyReq e s.cur.1 else d) d

/-- Place a decoded or concealed picture in the pool and publish what output order releases. -/
def Dev.storePicture (d : Dev) (e : Nat) (a : Au) (p : PicInfo) (quality buf : Nat) (evicted : Bool) : Dev :=
  match d.dec e with
  | none => d
  | some s =>
    let ent := d.decEnt e
    let codec := ent.f 0 30 28
    let d := if evicted then d.decCount e 8 none else d
    let s := if evicted then s.unslot buf else s
    let reord := codec == 0 || codec == 4
    let mark := if quality ≠ 0 then 4 else if p.longTerm then 2 else 1
    let b : Buf := { mark := mark, wait := reord && p.shown, media := a.media, order := s.order, used := s.order, w := p.w,
                     h := p.h, depth10 := p.depth10, quality := quality, mono := p.chroma == 0
                     uids := (a.items.filter (fun it => d.itemAuth it == 1)).map (·.uid) }
    let used := p.refs.filterMap (fun k => (s.slots.getD k none))
    let bufs := s.bufs.mapIdx (fun k x => if used.contains k then { x with used := s.order } else x)
    let s := { s with bufs := bufs.set buf b, order := s.order + 1, size := some (p.w, p.h),
                      slots := p.refresh.foldl (fun l k => l.set k (some buf)) s.slots }
    let s := s.lose p.drops
    let outs := if reord then p.bump.map (fun k => if k = 31 then buf else k) else if p.shown then [buf] else []
    let s := { s with bufs := s.bufs.mapIdx (fun k x => if outs.contains k then { x with wait := false } else x) }
    let d := d.setDec e s
    match outs with
    | [] => d
    | o :: more =>
      let d := foldDev more (fun _ d => d.decCount e 6 none) d
      if !a.publish then d
      else
        let d := d.modDec e (fun s => { s with bufs := s.bufs.mapIdx (fun k x => if k = o then { x with media := a.media } else x) })
        let tag := mkTag (deFlock ent) (deBrood ent) Cl.picture (a.media % 2 ^ 32)
        d.publishWhen e { buf := o, tag := tag }

/-- The access unit of a task and its entry's state. -/
def Dev.taskAu (d : Dev) (x : Task) : Option (Dec × Au) :=
  match d.dec x.entry, x.ops.head? with
  | some s, some o => (s.aus.find? (fun a => a.ref == o.ref)).map (fun a => (s, a))
  | _, _ => none

/-- The picture is not stored: slots it would have filled read MISSING, its task ends EXPIRED with nothing published. -/
def Dev.notStored (d : Dev) (t : Nat) (x : Task) (refresh : List Nat) : Dev :=
  let d := d.modDec x.entry (fun s => s.lose refresh)
  let d := match x.ops.head? with | some o => d.dropAu x.entry o.ref | none => d
  (d.setTask t { x with quality := 3 }).terminate t St.expired

/-- Table 8.1: a picture of a codec is of a supported profile and format, and uses no tool that is not supported. -/
def codecTakes (codec : Nat) (p : PicInfo) : Bool :=
  !p.tool &&
  match codec with
  | 0 => decide (p.profile ≤ 2) && !p.depth10 && p.chroma == 1
  | 1 => decide (p.profile ≤ 3) && !p.depth10 && p.chroma == 1
  | 2 => (p.profile == 0 || p.profile == 2) && (!p.depth10 || p.profile == 2) && p.chroma == 1
  | 3 => p.profile == 0 && decide (p.chroma ≤ 1)
  | _ => decide (p.profile ≤ 1) && (!p.depth10 || p.profile == 1) && p.chroma == 1

/-- Greatest luma rate, in samples a second (R164). -/
def lumaLimit : Nat := 566231040

/-- The syntax reason of a picture (Table 8.5), 0 none: what the limits of R163 and R164 give, else what the checker found. A picture over
the luma rate at the entry's SRC_CAD is out of RANGE (assumption 105). -/
def picReason (codec srcCad : Nat) (changed : Bool) (len : Nat) (p : PicInfo) : Nat :=
  if !codecTakes codec p then 3
  else if changed then 4
  else if Config.codedLimit codec < len then 5
  else if lumaLimit * srcCad < p.w * p.h * 600 then 1
  else p.syntaxErr

/-- With PARSE_AHEAD 0 the decoder waits for packets of its access unit that are PENDING (R183). -/
def Dev.parseWaits (d : Dev) (a : Au) : Bool := !d.flag Reg.VDC_CFG 24 && a.items.any (fun it => d.itemAuth it == 1)

/-- The final job of a DECODE task retires; the job of a decoder that waits for a packet goes on. -/
def Dev.retireDecode (d : Dev) (t : Nat) (x : Task) (cell : Nat) (p : PicInfo) : Dev :=
  let e := x.entry
  match d.taskAu x with
  | none => d.complete t
  | some (s, a) =>
    if d.parseWaits a then d else
    match d.decClass s.region s.cls with
    | none => d.complete t
    | some c =>
      if c.maxW < p.w ∨ c.maxH < p.h ∨ (p.depth10 = true ∧ c.depth10 = false) then
        let d := (d.decCount e 4 (some 4)).modDec e (fun s => { s with st := 4 })
        (d.decEvent s.region 9 e).notStored t x p.refresh
      else
        let d := d.modDec e (fun s => { s with st := if s.st = 4 then 1 else s.st })
        let changed := !p.key && !p.seqHdr && (match s.size with | some z => z != (p.w, p.h) | none => false)
        let ent := d.decEnt e
        let reason := picReason (ent.f 0 30 28) (ent.f 1 31 24) changed ((a.items.map (·.rtpLen)).sum) p
        let p := if changed then { p with w := (s.size.getD (p.w, p.h)).1, h := (s.size.getD (p.w, p.h)).2 } else p
        let d := if reason = 0 then d
          else ((d.decCount e 5 (some 5)).setReg (Reg.VDC_CELL_ERR + mediaOfs s.region + 0x1000 * (cellIdx cell % 16))
            (BitVec.ofNat 32 (deBrood (d.decEnt e) * 65536 + reason))).decEvent s.region 12 e
        let d := if p.key then d.modDec e Dec.dropAll else d
        let slots := ((d.dec e).getD s).slots
        let missing := p.refs.filter (fun k => (slots.getD k none).isNone)
        let d := foldDev missing (fun _ d => d.decCount e 3 (some 3)) d
        let d := if missing.isEmpty then d else d.decEvent s.region 13 e
        let bad := a.hurt || p.refs.any (fun k => match slots.getD k none with
          | some b => (s.bufs.getD b {}).mark == 4 | none => false)
        let failed := a.items.any (fun it => d.itemAuth it == 3)
        let quality := if !a.clean || failed then 2 else if reason ≠ 0 ∨ bad = true ∨ !missing.isEmpty then 1 else 0
        match d.takeBuf ((d.dec e).getD s) with
        | none => ((d.decCount e 9 none).raise (srcRegion (s.region + 2) 11) e).notStored t x p.refresh
        | some (buf, ev) =>
          let d := d.storePicture e a p quality buf ev
          let d := if quality = 0 then d else d.decKeyReq e s.cur.1
          (d.dropAu e a.ref).complete t

/-- A picture that could not be parsed to its end: which slots it would have refreshed is open. -/
def Dev.openSlots (d : Dev) (s : Dec) : List Nat × Dev :=
  let (m, d) := d.drawBelow (2 ^ s.slots.length)
  ((List.range s.slots.length).filter (fun k => m.testBit k), d)

/-- What the end of a DECODE task leaves (R181, R185): an unfinished picture goes to the fill engine; an aborted one's slots
read MISSING. -/
def Dev.endDecode (d : Dev) (t : Nat) (x : Task) : Dev :=
  match d.taskAu x with
  | none => d
  | some (s, a) =>
    if x.st = St.aborted then
      let (m, d) := d.openSlots s
      (d.modDec x.entry (fun s => s.lose m)).dropAu x.entry a.ref
    else if (x.st = St.expired ∨ x.st = St.late) ∧ x.quality ≠ 3 then
      let d := if x.frozen then d else d.decCount x.entry 11 none
      d.setTask t { x with filling := true }
    else d

/-- The fill engine has copied a picture concealed whole: it is published CONCEALED, or DAMAGED by R180. -/
def Dev.fillDecode (d : Dev) (t : Nat) (x : Task) : Dev :=
  let d := d.setTask t { x with filling := false }
  match d.taskAu x with
  | none => d
  | some (s, a) =>
    let (m, d) := d.openSlots s
    let failed := a.items.any (fun it => d.itemAuth it == 3)
    let quality := if !a.clean || failed then 2 else 1
    let z := s.size.getD (match d.decClass s.region s.cls with | some c => (c.maxW, c.maxH) | none => (0, 0))
    match d.takeBuf s with
    | none => (((d.decCount x.entry 9 none).raise (srcRegion (s.region + 2) 11) x.entry).modDec x.entry (fun s => s.lose m)).dropAu x.entry a.ref
    | some (buf, ev) =>
      let d := d.storePicture x.entry a { w := z.1, h := z.2, refresh := m, bump := [31] } quality buf ev
      (d.decKeyReq x.entry s.cur.1).dropAu x.entry a.ref

/-- A write outside the fence: the task ends and is settled, and its cell counts a watchdog expiry (R177). -/
def Dev.decFence (d : Dev) (cell : Nat) : Dev :=
  match (d.cell cell).job with
  | none => d
  | some t =>
    match d.task t with
    | none => d
    | some x =>
      if x.kind ≠ Kd.decode then d
      else
        let d := (d.decCount x.entry 10 none).raise (srcRegion (x.region + 2) 8) cell
        (d.terminate t St.late).watchdog cell

/-! ### VDC_TAB (R186) -/

def vdcTabSize (t : Nat) : Nat := match t with | 0 => 8192 | 1 => 64 | 2 => 65536 * 17 | 3 => 8192 | _ => 0

def Dev.decView (d : Dev) (e : Nat) : Entry :=
  let ent := d.decEnt e
  match d.dec e with
  | none => ent
  | some s =>
    let used := (s.bufs.mapIdx (fun k b => d.bufMark s k b)).filter (fun m => m != 0)
    let st := if s.st = 1 ∧ s.cur ≠ deTarget ent then 2 else if s.st = 1 ∧ (d.decTasks e).isEmpty ∧ s.aus.isEmpty then 0 else s.st
    let c := s.cnts
    { d0 := (ent.setF 0 21 20 (s.gang - 1)).d0, d1 := ent.d1,
      d2 := (((ent.setF 2 27 26 s.cur.1).setF 2 25 24 s.cur.2).setF 2 23 20 st).d2,
      d3 := BitVec.ofNat 32 (s.pool * 65536 + used.length), d4 := BitVec.ofNat 32 (c.getD 0 0),
      d5 := BitVec.ofNat 32 (c.getD 1 0 * 65536 + c.getD 2 0), d6 := BitVec.ofNat 32 (c.getD 3 0 * 65536 + c.getD 4 0),
      d7 := BitVec.ofNat 32 (c.getD 5 0 * 65536 + s.load / 100000) }

def Dev.vdcView (d : Dev) (t i : Nat) : Entry :=
  match t with
  | 0 => d.decView i
  | 1 =>
    match d.decClass (i / 16) (i % 16) with
    | none => {}
    | some c => { d0 := BitVec.ofNat 32 (c.maxW * 65536 + c.maxH),
                  d1 := BitVec.ofNat 32 (c.depth10.toNat * 2 ^ 28 + c.poolSize * 65536 + c.pools),
                  d2 := BitVec.ofNat 32 (d.freePools (i / 16) (i % 16)).length, d3 := BitVec.ofNat 32 c.bytes }
  | 2 =>
    match d.vdc.decs.find? (fun x => x.2.pool == i / 17) with
    | none => {}
    | some (_, s) =>
      let b := s.bufs.getD (i % 17) {}
      { d0 := BitVec.ofNat 32 (d.bufMark s (i % 17) b * 2 ^ 29 + min 31 (d.picHolds (picRef s.pool (i % 17))) * 2 ^ 24),
        d1 := BitVec.ofNat 32 b.media }
  | _ =>
    match d.dec i with
    | none => {}
    | some s =>
      let byte := fun (k : Nat) => match s.slots.getD k none with | some b => b | none => 0x1F
      let w := fun (j : Nat) => BitVec.ofNat 32 (byte (4 * j) + byte (4 * j + 1) * 2 ^ 8 + byte (4 * j + 2) * 2 ^ 16 + byte (4 * j + 3) * 2 ^ 24)
      { d0 := w 0, d1 := w 1, d2 := w 2, d3 := w 3 }

def vdcTabRead (v : Word) (d : Dev) : Dev :=
  tabReadOp Reg.VDC_TAB_CMD Reg.VDC_TAB_ADDR Reg.VDC_TAB_DATA 8 13 (pastEnd vdcTabSize) Dev.vdcView 4 v d

/-- VDC_TAB_WRITE: an entry is admitted, released, or given new settings while it stays admitted. A reserved CODEC leaves the field (R9). -/
def vdcTabWrite (v : Word) (d : Dev) : Dev :=
  let d := d.tabCmd Reg.VDC_TAB_CMD v
  let t := d.fld Reg.VDC_TAB_CMD 27 24
  let i := d.fld Reg.VDC_TAB_ADDR 13 0
  let n := d.dataEntry Reg.VDC_TAB_DATA
  let err := d.tabErr Reg.VDC_TAB_CMD
  if pastEnd vdcTabSize t i then err 4
  else if t ≠ 0 then err 5
  else
    let old := d.decEnt i
    let e : Entry := Entry.legal old { d0 := n.d0 &&& 0xFF00FFFF, d1 := n.d1, d2 := n.d2 &&& 0xF00FF000 } [(0, 30, 28, [(0, 4)])]
    match d.dec i with
    | some s =>
      if !e.b 0 31 then ((d.releaseDec i).setEnt .vdc 0 i e).tabErr Reg.VDC_TAB_CMD 0
      else if e.d0 ≠ old.d0 ∨ e.f 1 31 16 ≠ old.f 1 31 16 ∨ e.f 1 11 0 ≠ old.f 1 11 0 ∨ 8 < e.f 1 15 12 ∨
          keepsR51 (d.decTemplate s.region e) (deSlotCad e) none = false then err 4
      else
        ((d.setEnt .vdc 0 i e).swapCadence (deFlock e) (d.decRel s.region old) (d.decRel s.region e)).tabErr Reg.VDC_TAB_CMD 0
    | none =>
      if !e.b 0 31 then (d.setEnt .vdc 0 i e).tabErr Reg.VDC_TAB_CMD 0
      else
        match d.admitDec e with
        | .inl code => err code
        | .inr s =>
          let rel := d.decRel s.region e
          (((d.setEnt .vdc 0 i e).setDec i s).useCadence (deFlock e) rel.1 rel.2).tabErr Reg.VDC_TAB_CMD 0

/-- The compose unit writes a decode entry's target OP_S (R201). -/
def Dev.setDecOp (d : Dev) (e op : Nat) : Dev := d.setEnt .vdc 0 e ((d.decEnt e).setF 2 31 30 op)

/-- Views: valid decode entries, a region's capacity and load, a codec cell's status as a decoder. -/
def Dev.vdcStatus (d : Dev) : Nat := d.vdc.decs.length
def Dev.vdcRegionLoad (d : Dev) (r : Nat) : Nat := d.decCapacity r / 1000000 * 65536 + d.decAdmitted r / 1000000
def Dev.vdcCellStat (d : Dev) (r i : Nat) : Nat :=
  let code := cellCode 0 (r * 16 + i)
  let dec := !d.flag (Reg.CFG_PERSONALITY + 4 * r) i
  dec.toNat * 2 ^ 31 + (d.cell code).out.toNat * 2 ^ 30 + (if dec then d.cellRole code * 2 ^ 28 else 0) +
  (if dec then d.cellBrood code (fun x => deBrood (d.decEnt x.entry)) else 0)

end Sys2Proof.Machine
end

