-- ==== Sys2Proof/Machine/Compose.lean ====
section
/-! DEFINITION. Composition (chapter 9): layouts and pools, composites, how a composite's samples are drawn, and CMP_TAB. -/

namespace Sys2Proof.Machine
open Sys2Proof

def Dev.layEnt (d : Dev) (l : Nat) : Entry := d.ent .cmp 0 l
def Dev.lay (d : Dev) (l : Nat) : Option Lay := tabFind d.cmp.lays l
def Dev.setLay (d : Dev) (l : Nat) (v : Lay) : Dev := { d with cmp := { d.cmp with lays := recSet d.cmp.lays l v } }
def Dev.cmpCount (d : Dev) (r c n : Nat) : Dev := d.cnt (Reg.CMP_CNT_LO + mediaOfs r) c n

def laFlock (e : Entry) : Nat := e.f 2 31 20
def laCad (e : Entry) : Nat := e.f 0 23 16
def laBrood (e : Entry) : Nat := e.f 0 15 0

/-! ### Drawing (R196, R197) -/

/-- A colour's component in a plane, at the drawing's bit depth. -/
def colourOf (c plane : Nat) (depth10 : Bool) : Nat :=
  let v := c / 2 ^ (8 * (2 - plane)) % 256
  if depth10 then v * 4 else v

/-- The blend of R197. -/
def blend (alpha src dst : Nat) : Nat :=
  let a := alpha + alpha / 128
  (a * src + (256 - a) * dst + 128) / 256

def overlayAlpha (pa ga : Nat) : Nat := (pa * ga + 128) / 256

/-- A sample of another bit depth, as converted on read (R189). -/
def convertDepth (from10 to10 : Bool) (v : Nat) : Nat :=
  if from10 && !to10 then min 255 ((v + 2) / 4) else if !from10 && to10 then v * 4 else v

/-- Tap k of a phase of a filter set: the fixed sets' taps are the implementation's. -/
def Dev.tapOf (d : Dev) (set phase k : Nat) : Int :=
  if set < 2 then Config.filterTap set phase k
  else
    let e := d.ent .cmp 3 (set * 64 + phase)
    let v := e.f 0 31 0 + e.f 1 31 0 * 2 ^ 32 + e.f 2 31 0 * 2 ^ 64
    signed 10 (v / 2 ^ (10 * k) % 1024)

/-- Where the drawn part lies in a tile of w × h and what part of a picture of pw × ph it shows: for each axis the offset
and size drawn, and the offset and size taken (FIT, FILL, STRETCH; centred, rounded down: assumption 22). -/
def fitOf (fit w h pw ph : Nat) : (Nat × Nat × Nat × Nat) × (Nat × Nat × Nat × Nat) :=
  match fit with
  | 0 =>
    if w * ph ≤ h * pw then
      let dh := max 1 (ph * w / max 1 pw)
      ((0, w, 0, pw), ((h - dh) / 2, dh, 0, ph))
    else
      let dw := max 1 (pw * h / max 1 ph)
      (((w - dw) / 2, dw, 0, pw), (0, h, 0, ph))
  | 1 =>
    if h * pw ≥ w * ph then
      let cw := max 1 (w * ph / max 1 h)
      ((0, w, (pw - cw) / 2, cw), (0, h, 0, ph))
    else
      let ch := max 1 (h * pw / max 1 w)
      ((0, w, 0, pw), (0, h, (ph - ch) / 2, ch))
  | _ => ((0, w, 0, pw), (0, h, 0, ph))

/-- Source sample indices and phase for output sample i of n drawn from m source samples: every second one above a ratio
of 4; sample positions are centred, taps beyond the edge repeat the edge sample. -/
def axisTaps (i n m : Nat) : Nat × List Nat :=
  let step := if 4 * n < m then 2 else 1
  let size := ceilDiv m step
  let pos := roundOpen (((2 * (i : Int) + 1) * size - n : Int) * 64 / (2 * (max 1 n : Nat) : Rat))
  let base := pos / 64
  let phase := (pos % 64).toNat
  (phase, (List.range 8).map (fun (k : Nat) => step * (min (max (base + (k : Int) - 3) 0) ((size : Int) - 1)).toNat))

/-- A ratio above 16: the tile is drawn in BG_COLOUR. -/
def ratioOver (n m : Nat) : Bool := decide (16 * n < m)

/-- The scaled sample of a picture. -/
def Dev.scaled (d : Dev) (set : Nat) (sample : Nat → Nat → Nat) (top : Nat) (ax ay : Nat × Nat × Nat × Nat) (x y : Nat) : Nat :=
  let (px, xs) := axisTaps (x - ax.1) ax.2.1 ax.2.2.2
  let (py, ys) := axisTaps (y - ay.1) ay.2.1 ay.2.2.2
  let sum : Int := ((List.range 8).map (fun j => ((List.range 8).map (fun k =>
    d.tapOf set py j * d.tapOf set px k * (sample (ax.2.2.1 + xs.getD k 0) (ay.2.2.1 + ys.getD j 0) : Int))).sum)).sum
  (min (max (roundOpen (sum / (65536 : Rat))) 0) top).toNat

/-- What a tile puts at (x, y) of a plane over dst; coordinates within the tile, in samples of the plane. -/
def Dev.tileSample (d : Dev) (g : Drawing) (t : TileDraw) (plane x y dst : Nat) : Nat :=
  let div := if plane = 0 then 1 else 2
  let w := t.ent.f 1 31 16 / div
  let h := t.ent.f 1 15 0 / div
  let bg := colourOf (g.layout.f 3 23 0) plane g.depth10
  let lit := t.brood.isSome && t.brood == g.speaker && g.layout.f 4 27 24 != 0
  let bw := if lit then g.layout.f 4 27 24 else t.ent.f 3 27 24
  let col := if lit then g.layout.f 4 23 0 else t.ent.f 3 23 0
  let lx := x * div
  let ly := y * div
  if lx < bw ∨ ly < bw ∨ t.ent.f 1 31 16 ≤ lx + bw ∨ t.ent.f 1 15 0 ≤ ly + bw then colourOf col plane g.depth10
  else
    let style := g.layout.f 2 15 14
    match t.src with
    | none => bg
    | some (ref, media, (pw, ph), ten, _) =>
      if t.st = 3 ∧ style = 2 then bg
      else
        let (ax, ay) := fitOf (t.ent.f 2 29 28) w h (pw / div) (ph / div)
        if ratioOver ax.2.1 ax.2.2.2 || ratioOver ay.2.1 ay.2.2.2 then bg
        else
          let inside := decide (ax.1 ≤ x) && decide (x < ax.1 + ax.2.1) && decide (ay.1 ≤ y) && decide (y < ay.1 + ay.2.1)
          let mid := if ten then 512 else 128
          let src := fun (sx sy : Nat) =>
            convertDepth ten g.depth10 (if t.mono && plane != 0 then mid else Config.sample ref media plane sx sy)
          let v := if inside then d.scaled (g.layout.f 2 10 8) src (if g.depth10 then 1023 else 255) ax ay x y else bg
          let alpha := t.ent.f 2 23 16
          if t.st = 3 ∧ style = 1 then blend (alpha / 2) v bg else blend alpha v dst

/-- What an overlay plane puts at (x, y) over dst; bitmaps are read from DRAM, 8 bits a sample. -/
def overlaySample (mem : Nat → Nat) (e : Entry) (depth10 : Bool) (plane x y dst : Nat) : Nat :=
  let div := if plane = 0 then 1 else 2
  let ox := e.f 1 31 16
  let oy := e.f 1 15 0
  let w := e.f 2 31 16
  let h := e.f 2 15 0
  let lx := x * div
  let ly := y * div
  if lx < ox ∨ ly < oy ∨ ox + w ≤ lx ∨ oy + h ≤ ly then dst
  else
    let base := e.f 3 31 0 + e.f 4 31 0 * 2 ^ 32
    let stride := ceilDiv w 256 * 256
    let px := lx - ox
    let py := ly - oy
    let v := if plane = 0 then mem (base + py * stride + px)
             else mem (base + h * stride + py / 2 * stride + px / 2 * 2 + (plane - 1))
    let pa := mem (base + h * stride * 3 / 2 + py * stride + px)
    blend (overlayAlpha pa (e.f 0 23 16)) (convertDepth false depth10 v) dst

/-- Sample (x, y) of a plane of a composite: BG_COLOUR, the tiles in index order, the overlay planes in order (R196). -/
def Dev.drawSample (d : Dev) (mem : Nat → Nat) (g : Drawing) (plane x y : Nat) : Nat :=
  let div := if plane = 0 then 1 else 2
  let v := g.tiles.foldl (fun v t =>
    let tx := t.ent.f 0 31 16 / div
    let ty := t.ent.f 0 15 0 / div
    if tx ≤ x ∧ x < tx + t.ent.f 1 31 16 / div ∧ ty ≤ y ∧ y < ty + t.ent.f 1 15 0 / div
    then d.tileSample g t plane (x - tx) (y - ty) v else v) (colourOf (g.layout.f 3 23 0) plane g.depth10)
  g.overlays.foldl (fun v e => overlaySample mem e g.depth10 plane x y v) v

/-- What a composite buffer holds at (x, y) of a plane. -/
def Dev.compositeSample (d : Dev) (mem : Nat → Nat) (b : CBuf) (plane x y : Nat) : Nat :=
  let line := if plane = 0 then y else 2 * y
  match (b.content.filter (fun c => decide (c.1 ≤ line))).getLast? with
  | some (_, g) => d.drawSample mem g plane x y
  | none => 0

/-! ### Pools and admission (R189, R192) -/

def Dev.cmpClasses (d : Dev) (r : Nat) : List CmpClass := (d.regionOf (r + 2)).sec.cmpCls
def Dev.cmpClass (d : Dev) (r c : Nat) : Option CmpClass := (d.cmpClasses r)[c]?

def Dev.cmpBase (d : Dev) (r c : Nat) : Nat :=
  ((List.range r).map (fun k => ((d.cmpClasses k).map (·.pools)).sum)).sum + (((d.cmpClasses r).take c).map (·.pools)).sum

def CmpClass.ok (c : CmpClass) : Bool := decide (c.maxW ≤ 3840) && decide (c.maxH ≤ 2160) && decide (c.bufs ≤ 4)
def CmpClass.bytes (c : CmpClass) : Nat := frameBytes c.maxW c.maxH c.depth10 0

/-- HOLD of a composite buffer: its operand and the tasks that froze it, a composite being written, and the encode picture
made from it. -/
def Dev.cmpHolds (d : Dev) (ref : Nat) : Nat :=
  d.holds Cl.composite ref + (d.cmp.shots.filter (fun s => s.2.ref == ref)).length +
  (d.ven.encs.filter (fun e => match e.2.pic with | some p => p.src == some (Cl.composite, ref) | none => false)).length

def Dev.cmpPoolHeld (d : Dev) (pool : Nat) : Bool := (List.range 4).any (fun k => decide (0 < d.cmpHolds (picRef pool k)))
def Dev.cmpPoolBusy (d : Dev) (pool : Nat) : Bool :=
  d.cmp.lays.any (fun x => x.2.pool == pool) || (d.cmp.freeing.contains pool && d.cmpPoolHeld pool)
def Dev.cmpFree (d : Dev) (r c : Nat) : List Nat :=
  match d.cmpClass r c with
  | none => []
  | some k => ((List.range k.pools).map (fun i => d.cmpBase r c + i)).filter (fun p => !d.cmpPoolBusy p)

/-- Beats one cell takes for a composite. -/
def layLines (e : Entry) : Nat := ceilDiv (e.f 1 31 16 * e.f 1 15 0) 1666666

/-- Compose load admitted in a region, that of one layout left out; a flock demoted by a reload has none (R42). -/
def Dev.cmpAdmitted (d : Dev) (r : Nat) (but : Nat := 4096) : Nat :=
  ((d.cmp.lays.filter (fun x => x.2.region == r && x.1 != but && (tabFind d.cfg.demoted (laFlock (d.layEnt x.1))).isNone)).map (·.2.load)).sum
def Dev.cmpCapacity (d : Dev) (r : Nat) : Nat := 1000000000 * d.cellsUp r 1 4 * d.fld Reg.CMP_CFG 22 16 / 100

/-- The overlay entries a layout enables, by plane. -/
def layOverlays (e : Entry) : List (Nat × Nat) :=
  (if e.b 5 15 then [(0, e.f 5 11 0)] else []) ++ (if e.b 5 31 then [(1, e.f 5 27 16)] else []) ++
  (if e.b 6 15 then [(2, e.f 6 11 0)] else []) ++ (if e.b 6 31 then [(3, e.f 6 27 16)] else [])

/-- Operands a layout names: its distinct FIXED broods, one for its SPEAKER tiles, one for a waited overlay. -/
def Dev.layOperands (d : Dev) (l : Nat) (e : Entry) : Nat :=
  let ts := (List.range (e.f 2 7 0)).map (fun k => d.ent .cmp 1 (l * 64 + k))
  let fixed := (ts.filter (fun t => t.f 2 31 30 == 0)).map (fun t => t.f 2 15 0)
  (fixed.eraseDups).length + (ts.any (fun t => t.f 2 31 30 == 1)).toNat + (e.b 2 12).toNat

/-- A layout entry keeps R190, R191. -/
def Dev.layOk (d : Dev) (l : Nat) (e : Entry) : Bool :=
  let w := e.f 1 31 16
  let h := e.f 1 15 0
  isCadence (laCad e) && decide (w % 2 = 0) && decide (h % 2 = 0) && decide (layLines e + 2 ≤ laCad e) &&
  decide (1 ≤ e.f 2 7 0) && decide (e.f 2 7 0 ≤ 64) && decide (d.layOperands l e ≤ 64) &&
  (layOverlays e).all (fun o => (d.ent .cmp 2 o.2).b 0 31)

def tileOk (e t : Entry) : Bool :=
  let x := t.f 0 31 16
  let y := t.f 0 15 0
  let w := t.f 1 31 16
  let h := t.f 1 15 0
  decide (x + w ≤ e.f 1 31 16) && decide (y + h ≤ e.f 1 15 0) && decide (x % 2 = 0) && decide (y % 2 = 0) &&
  decide (w % 2 = 0) && decide (h % 2 = 0) && decide (16 ≤ w) && decide (16 ≤ h) &&
  decide (2 * t.f 3 27 24 < w) && decide (2 * t.f 3 27 24 < h)

/-- The template of a layout in a region. -/
def Dev.layTemplate (d : Dev) (r : Nat) (e : Entry) : Option Template := d.templateFor r Kd.compose (e.f 3 31 24)

/-- What admission finds: an error of CMP_TAB_CMD, or the layout's place. An entry in use keeps its pool where its region and class stay. -/
def Dev.admitLay (d : Dev) (l : Nat) (e : Entry) : Nat ⊕ Lay :=
  let r := d.flockRegion (laFlock e)
  let cls := e.f 0 27 24
  match d.cmpClass r cls, d.layTemplate r e with
  | some c, some t =>
    let load := e.f 1 31 16 * e.f 1 15 0 * 600 / max 1 (laCad e)
    if !d.layOk l e || decide (c.maxW < e.f 1 31 16) || decide (c.maxH < e.f 1 15 0) ||
       !resolvedOk t (laCad e) (some (layLines e)) then .inl 3
    else
      let own := (d.lay l).bind (fun s => if s.region = r ∧ s.cls = cls then some s.pool else none)
      match own.or (d.cmpFree r cls).head? with
      | none => .inl 2
      | some p => if d.cmpCapacity r < d.cmpAdmitted r l + load then .inl 1
                  else .inr { (d.lay l).getD {} with region := r, pool := p, cls := cls, load := load }
  | _, _ => .inl 3

/-- Cadence and cost of a layout's releases in a region. -/
def Dev.layRel (d : Dev) (r : Nat) (e : Entry) : Nat × Nat := relOf (d.layTemplate r e) (laCad e)

/-- Clearing VALID stops releases; what runs already runs to its end, and the pool is free once nothing is held (R193). -/
def Dev.releaseLay (d : Dev) (l : Nat) : Dev :=
  match d.lay l with
  | none => d
  | some s =>
    let e := d.layEnt l
    let rel := d.layRel s.region e
    ({ d with cmp := { d.cmp with
        lays := tabErase d.cmp.lays l
        freeing := s.pool :: d.cmp.freeing.filter (fun p => d.cmpPoolHeld p)
        demand := d.cmp.demand.filter (fun x => x.1 / 65536 != l) } }).dropCadence (laFlock e) rel.1 rel.2

/-- A layout of a flock that moved, once no composite of it is under way: its pool there, its buffers with it, or none of them (R204); it is
refused where the region's template breaks R51. -/
def Dev.moveLay (d : Dev) (l r : Nat) : Dev :=
  match d.lay l with
  | none => d
  | some s =>
    let e := d.layEnt l
    if s.region = r ∨ d.cmp.shots.any (fun x => x.2.lay == l) then d
    else if !keepsR51 (d.layTemplate r e) (laCad e) (some (layLines e)) then
      ((d.releaseLay l).setEnt .cmp 0 l (e.setB 0 31 false)).tabErr Reg.CMP_TAB_CMD 3
    else
      let d := d.swapCadence (laFlock e) (d.layRel s.region e) (d.layRel r e)
      match (d.cmpFree r s.cls).head? with
      | some p =>
        let bufs := d.cmp.bufs.filter (fun b => b.1 / 32 == s.pool)
        let d := d.setLay l { s with region := r, pool := p }
        let d := { d with cmp := { d.cmp with freeing := s.pool :: d.cmp.freeing } }
        foldDev bufs (fun b d => { d with cmp := { d.cmp with bufs := recSet d.cmp.bufs (picRef p (b.1 % 32)) b.2 } }) d
      | none =>
        let d := d.setLay l { s with region := r }
        { d with cmp := { d.cmp with bufs := d.cmp.bufs.filter (fun b => b.1 / 32 != s.pool) } }

/-! ### Release (R193, R194, R200, R201) -/

/-- The decode entry of a brood. -/
def Dev.decOf (d : Dev) (b : Nat) : Option Nat := (d.vdc.decs.find? (fun x => deBrood (d.decEnt x.1) == b)).map (·.1)

/-- The smallest layer or encoding at least as large as a tile, or the top one. -/
def Dev.layerFor (d : Dev) (b w h : Nat) : Nat :=
  let be := d.broodEnt b
  let n := brLayers be
  ((List.range n).find? (fun s => decide (w ≤ (brSize be s).1) && decide (h ≤ (brSize be s).2))).getD (n - 1)

/-- AUTO_OP: each drawn brood's decode target follows the largest demand (R201). -/
def Dev.autoOp (d : Dev) (l : Nat) (tiles : List TileDraw) : Dev :=
  let want := tiles.filterMap (fun t => if t.ent.b 2 27 then t.brood.map (fun b => (b, d.layerFor b (t.ent.f 1 31 16) (t.ent.f 1 15 0))) else none)
  let old := d.cmp.demand.filter (fun x => x.1 / 65536 != l)
  let dem := want.foldl (fun (m : Tab Nat) x => recSet m (l * 65536 + x.1) (max x.2 ((tabFind m (l * 65536 + x.1)).getD 0))) old
  let d := { d with cmp := { d.cmp with demand := dem } }
  if !d.flag Reg.CMP_CFG 24 then d
  else
    foldDev (want.map (·.1)).eraseDups (fun b d =>
      let op := ((dem.filter (fun x => x.1 % 65536 == b)).map (·.2)).foldl max 0
      match d.decOf b with | some e => d.setDecOp e op | none => d) d

/-- A buffer of the pool not held: the one written longest ago, so that the latest stays for R200. -/
def Dev.cmpBuf (d : Dev) (pool n : Nat) : Option Nat :=
  let refs := ((List.range n).map (picRef pool)).filter (fun r => d.cmpHolds r == 0)
  (sortBy (fun a b => decide (((tabFind d.cmp.bufs a).map (·.media)).getD 0 ≤ ((tabFind d.cmp.bufs b).map (·.media)).getD 0)) refs).head?

/-- A layout's composite is released at the current beat. -/
def Dev.releaseCompose (d : Dev) (l : Nat) : Dev :=
  match d.lay l with
  | none => d
  | some s =>
    let e := d.layEnt l
    match d.cmpClass s.region s.cls, d.layTemplate s.region e with
    | some c, some t =>
      match d.cmpBuf s.pool c.bufs with
      | none => (d.cmpCount s.region 4 1).raise (srcRegion (s.region + 2) 17) l
      | some ref =>
        let spk := d.speakers (laFlock e)
        let tiles := (d.tilesOf l).map (fun k => ({ idx := k.1, ent := k.2, brood := tileBrood (e.b 2 13) spk k.2 } : TileDraw))
        let broods := (tiles.filterMap (·.brood)).eraseDups
        let media := d.beat % 2 ^ 32
        let wait := if e.b 2 12 then some (mkTag (laFlock e) (laBrood e) Cl.host media) else none
        let ovl := (layOverlays e).map (fun o => d.ent .cmp 2 o.2)
        let d := d.autoOp l tiles
        match d.launch { kind := Kd.compose, flock := laFlock e, entry := l, media := d.beat, tmpl := t, cad := laCad e,
                         lines := some (layLines e), region := some s.region,
                         tags := broods.map (fun b => mkTag (laFlock e) b Cl.picture media) ++ wait.toList } with
        | (none, d) => d
        | (some k, d) =>
          let g : Drawing := { layout := e, tiles := tiles, overlays := ovl, speaker := spk.1, depth10 := c.depth10 }
          { d with cmp := { d.cmp with shots := recSet d.cmp.shots k { lay := l, drawing := g, ref := ref, wait := wait } } }
    | _, _ => d

/-! ### The freeze, and the end of a composite (R198 to R203) -/

/-- The buffer of a brood's picture, by reference. -/
def Dev.picBuf (d : Dev) (ref : Nat) : Buf :=
  match d.vdc.decs.find? (fun x => x.2.pool == ref / 32) with
  | some (_, s) => s.bufs.getD (ref % 32) {}
  | none => {}

/-- What a tile draws at the freeze. -/
def Dev.drawTile (d : Dev) (x : Task) (cad : Nat) (t : TileDraw) : TileDraw :=
  match t.brood with
  | none => t
  | some b =>
    let tag := mkTag x.flock b Cl.picture (x.media % 2 ^ 32)
    match x.ops.find? (fun o => o.tag == tag && o.st == 1) with
    | some o =>
      let b := d.picBuf o.ref
      { t with src := some (o.ref, x.media % 2 ^ 32, (b.w, b.h), b.depth10, o.quality), mono := b.mono, st := 1, age := 0 }
    | none =>
      match tabFind d.vdc.newest b with
      | none => t
      | some (m, q, ref) =>
        let f := d.picBuf ref
        let age := toField 32 ((x.media : Int) - m)
        let p := max cad (match d.decOf b with | some e => (d.decEnt e).f 1 31 24 | none => 0)
        { t with src := some (ref, m, (f.w, f.h), f.depth10, q), mono := f.mono, st := if ((3 * p : Nat) : Int) ≤ signed 32 age then 3 else 2, age := age }

/-- A tile over the ratio of 16 on an axis. -/
def TileDraw.over (t : TileDraw) : Bool :=
  match t.src with
  | none => false
  | some (_, _, (pw, ph), _, _) =>
    let (ax, ay) := fitOf (t.ent.f 2 29 28) (t.ent.f 1 31 16) (t.ent.f 1 15 0) pw ph
    ratioOver ax.2.1 ax.2.2.2 || ratioOver ay.2.1 ay.2.2.2

/-- The operand set of a composite freezes: its tiles and its waited overlay are settled. -/
def Dev.freezeCompose (d : Dev) (k : Nat) (x : Task) : Dev :=
  match tabFind d.cmp.shots k with
  | none => d
  | some sh =>
    let l := sh.lay
    let r := x.region
    let g := sh.drawing
    let tiles := g.tiles.map (d.drawTile x (laCad g.layout))
    let d := foldDev tiles (fun t d =>
      let d := { d with cmp := { d.cmp with shown := recSet d.cmp.shown (l * 64 + t.idx) (t.st, t.brood.getD 0, t.age) } }
      let d := if t.st = 2 then d.cmpCount r 2 1 else d
      let d := if t.st = 3 then (d.cmpCount r 3 1).raiseOnce (srcRegion (r + 2) 16) l else d
      if t.over then (d.cmpCount r 5 1).raiseOnce (srcRegion (r + 2) 18) l else d) d
    let got := match sh.wait with
      | none => none
      | some tag => (x.ops.find? (fun o => o.tag == tag && o.st == 1)).map (·.ref)
    let last := (d.lay l).bind (·.lastOvl)
    let addr := match got with | some a => some a | none => if sh.wait.isSome then last else none
    let d := match sh.wait, got with
      | some _, none => (d.cmpCount r 6 1).raiseOnce (srcRegion (r + 2) 19) l
      | _, _ => d
    let d := match got, d.lay l with | some a, some s => d.setLay l { s with lastOvl := some a } | _, _ => d
    let ovl := match addr, g.layout.b 5 15, g.overlays with
      | some a, true, o :: os => { o with d3 := BitVec.ofNat 32 a, d4 := BitVec.ofNat 32 (a / 2 ^ 32) } :: os
      | _, _, os => os
    let d := { d with cmp := { d.cmp with
      shots := recSet d.cmp.shots k { sh with drawing := { g with tiles := tiles, overlays := ovl } } } }
    d

/-- Every tile FRESH, or EMPTY for want of a source, and every picture CLEAN (R199). -/
def Drawing.clean (g : Drawing) : Bool :=
  g.tiles.all (fun t => (t.st == 1 && (match t.src with | some (_, _, _, _, q) => q == 0 | none => true)) || t.st == 0)

/-- The composite is finished: it is the layout's latest, and its operand is published. -/
def Dev.publishCompose (d : Dev) (k : Nat) (x : Task) (sh : Shot) (content : List (Nat × Drawing)) (quality : Nat) : Dev :=
  let e := sh.drawing.layout
  let media := x.media % 2 ^ 32
  let d := (d.cmpCount x.region 0 1).cmpCount x.region 1 (if quality = 0 then 0 else 1)
  let d := match d.lay sh.lay with | some s => d.setLay sh.lay { s with composites := min 65535 (s.composites + 1) } | none => d
  let d := { d with cmp := { d.cmp with
    bufs := recSet d.cmp.bufs sh.ref { media := x.media, quality := quality, content := content } } }
  let d := d.tapOffer { kind := tapPicture, sub := 1, flock := laFlock e, ident := laBrood e, beat := media,
                        len := 16 + e.f 1 31 16 * e.f 1 15 0 * (if sh.drawing.depth10 then 2 else 1) * 3 / 2,
                        known := picPrefix (e.f 1 31 16) (e.f 1 15 0) sh.drawing.depth10 quality }
  let (_, d) := d.arrive (mkTag (laFlock e) (laBrood e) Cl.composite media) sh.ref quality
  { d with cmp := { d.cmp with shots := tabErase d.cmp.shots k } }

def Dev.retireCompose (d : Dev) (k : Nat) (x : Task) : Dev :=
  match tabFind d.cmp.shots k with
  | none => d.complete k
  | some sh =>
    let q := if sh.drawing.clean then 0 else 1
    let d := d.complete k
    let d := match d.task k with | some y => d.setTask k { y with quality := q } | none => d
    d.publishCompose k x sh [(0, sh.drawing)] q

/-- The end of a composite that did not complete: EXPIRED goes to the fill engine; LATE or ABORTED publishes nothing. -/
def Dev.endCompose (d : Dev) (k : Nat) (x : Task) : Dev :=
  if x.st = St.expired then
    if (tabFind d.cmp.shots k).isSome then d.setTask k { x with filling := true } else d
  else if x.st = St.complete then d
  else { d with cmp := { d.cmp with shots := tabErase d.cmp.shots k } }

/-- The layout's most recent composite buffer, other than the one being filled. -/
def Dev.lastComposite (d : Dev) (l ref : Nat) : Option CBuf :=
  match d.lay l with
  | none => none
  | some s =>
    let bs := d.cmp.bufs.filter (fun b => b.1 / 32 == s.pool && b.1 != ref)
    ((sortBy (fun a b => decide (b.2.media ≤ a.2.media)) bs).head?).map (·.2)

/-- Content whose lines from n on are those of another. -/
def spliceLines (own : Drawing) (n : Nat) (below : List (Nat × Drawing)) : List (Nat × Drawing) :=
  let at_ := (below.filter (fun c => decide (c.1 ≤ n))).getLast?
  (if n = 0 then [] else [(0, own)]) ++ (match at_ with | some (_, g) => [(n, g)] | none => []) ++
  below.filter (fun c => decide (n < c.1))

/-- The fill engine has copied the unwritten lines of an EXPIRED composite (R200); how many lines the cell had written is open. -/
def Dev.fillCompose (d : Dev) (k : Nat) (x : Task) : Dev :=
  let d := d.setTask k { x with filling := false, quality := 1 }
  match tabFind d.cmp.shots k with
  | none => d
  | some sh =>
    let h := sh.drawing.layout.f 1 15 0
    let (n, d) := if x.frozen then d.drawBelow h else (0, d)
    let d := d.cmpCount x.region 7 (h - n)
    let below := match d.lastComposite sh.lay sh.ref with
      | some b => b.content
      | none => [(0, { layout := sh.drawing.layout, depth10 := sh.drawing.depth10 })]
    d.publishCompose k x sh (spliceLines sh.drawing n below) 1

/-! ### CMP_TAB (R205) -/

def cmpTabSize (t : Nat) : Nat := match t with | 0 => 4096 | 1 => 262144 | 2 => 4096 | 3 => 512 | _ => 0

def tapsSum (e : Entry) : Int :=
  let v := e.f 0 31 0 + e.f 1 31 0 * 2 ^ 32 + e.f 2 31 0 * 2 ^ 64
  ((List.range 8).map (fun k => signed 10 (v / 2 ^ (10 * k) % 1024))).sum

/-- The words of a fixed filter set's phase. -/
def fixedTaps (set phase : Nat) : Entry :=
  let v := ((List.range 8).map (fun k => toField 10 (Config.filterTap set phase k) * 2 ^ (10 * k))).sum
  { d0 := BitVec.ofNat 32 v, d1 := BitVec.ofNat 32 (v / 2 ^ 32), d2 := BitVec.ofNat 32 (v / 2 ^ 64) }

def Dev.cmpView (d : Dev) (t i : Nat) : Entry :=
  match t with
  | 0 =>
    match d.lay i with
    | none => d.layEnt i
    | some s => { d.layEnt i with d7 := BitVec.ofNat 32 (s.composites * 65536 + s.load / 100000) }
  | 1 =>
    let e := d.ent .cmp 1 i
    match tabFind d.cmp.shown i with
    | none => e
    | some (st, b, age) => { e with d4 := BitVec.ofNat 32 (st * 2 ^ 28 + b), d5 := BitVec.ofNat 32 age }
  | 2 => d.ent .cmp 2 i
  | _ => if i < 128 then fixedTaps (i / 64) (i % 64) else d.ent .cmp 3 i

def cmpTabRead (v : Word) (d : Dev) : Dev :=
  tabReadOp Reg.CMP_TAB_CMD Reg.CMP_TAB_ADDR Reg.CMP_TAB_DATA 8 17 (pastEnd cmpTabSize) Dev.cmpView 3 v d

/-- A layout entry written: released, or admitted, keeping what it has where it was in use. -/
def Dev.writeLayout (d : Dev) (i : Nat) (n : Entry) : Dev :=
  let old := d.layEnt i
  let e : Entry := Entry.legal old
    { d0 := n.d0 &&& 0x8FFFFFFF, d1 := n.d1, d2 := n.d2 &&& 0xFFF0F7FF, d3 := n.d3, d4 := n.d4 &&& 0x0FFFFFFF,
      d5 := n.d5 &&& 0x8FFF8FFF, d6 := n.d6 &&& 0x8FFF8FFF } [(0, 27, 24, [(0, 7)]), (2, 15, 14, [(0, 2)])]
  let done := fun (d : Dev) => d.tabErr Reg.CMP_TAB_CMD 0
  if !e.b 0 31 then done ((d.releaseLay i).setEnt .cmp 0 i e)
  else
    match d.admitLay i e with
    | .inl code => d.tabErr Reg.CMP_TAB_CMD code
    | .inr s =>
      let d := match d.lay i with
        | some o =>
          let rel := d.layRel o.region old
          let d := d.dropCadence (laFlock old) rel.1 rel.2
          if o.pool = s.pool then d else { d with cmp := { d.cmp with freeing := o.pool :: d.cmp.freeing.filter (fun p => d.cmpPoolHeld p) } }
        | none => d
      let d := (d.setEnt .cmp 0 i e).setLay i s
      let cost := d.layRel s.region e
      done (d.useCadence (laFlock e) cost.1 cost.2)

def cmpTabWrite (v : Word) (d : Dev) : Dev :=
  let d := d.tabCmd Reg.CMP_TAB_CMD v
  let t := d.fld Reg.CMP_TAB_CMD 27 24
  let i := d.fld Reg.CMP_TAB_ADDR 17 0
  let n := d.dataEntry Reg.CMP_TAB_DATA
  let err := d.tabErr Reg.CMP_TAB_CMD
  if cmpTabSize t ≤ i then err 3
  else
    match t with
    | 0 => d.writeLayout i n
    | 1 =>
      let e : Entry := Entry.legal (d.ent .cmp 1 i) { d0 := n.d0, d1 := n.d1, d2 := n.d2 &&& 0xF8FFFFFF, d3 := n.d3 &&& 0x0FFFFFFF }
        [(2, 31, 30, [(0, 2)]), (2, 29, 28, [(0, 2)])]
      if tileOk (d.layEnt (i / 64)) e then (d.setEnt .cmp 1 i e).tabErr Reg.CMP_TAB_CMD 0 else err 3
    | 2 =>
      let e : Entry := { d0 := n.d0 &&& 0x80FF0000, d1 := n.d1, d2 := n.d2, d3 := n.d3 &&& 0xFFFFF000, d4 := n.d4 }
      (d.setEnt .cmp 2 i e).tabErr Reg.CMP_TAB_CMD 0
    | _ =>
      let e : Entry := { d0 := n.d0, d1 := n.d1, d2 := n.d2 &&& 0xFFFF }
      if i < 128 then err 5
      else if tapsSum e = 256 then (d.setEnt .cmp 3 i e).tabErr Reg.CMP_TAB_CMD 0
      else err 3

def Dev.cmpStatus (d : Dev) : Nat := d.cmp.lays.length
def Dev.cmpRegionLoad (d : Dev) (r : Nat) : Nat := d.cmpCapacity r / 1000000 * 65536 + d.cmpAdmitted r / 1000000
def Dev.cmpCellStat (d : Dev) (r c : Nat) : Nat :=
  let code := cellCode 1 (r * 4 + c)
  (d.cell code).out.toNat * 2 ^ 30 + (d.cell code).job.isSome.toNat * 2 ^ 29 + d.cellBrood code (·.entry)

end Sys2Proof.Machine
end

