-- ==== Sys2Proof/Machine/Refresh.lean ====
section
/-! DEFINITION. What an encode entry codes: its layers and rows (R207, R214); the gradual refresh (R218), the area it has refreshed and
what a block there may take data from (R219); what the search keeps of its candidates (R216, R217). -/

namespace Sys2Proof.Machine
open Sys2Proof

def enCodec (e : Entry) : Nat := e.f 0 30 28
def enStruct (e : Entry) : Nat := e.f 0 27 26
def enLayers (e : Entry) : Nat := if enStruct e = 0 then 1 else e.f 0 25 24 + 1
def enTemporal (e : Entry) : Nat := e.f 0 23 22 + 1
def enFast (e : Entry) : Bool := e.b 0 18
def enBrood (e : Entry) : Nat := e.f 0 15 0
def enSrc (e : Entry) : Nat := e.f 1 31 30
def enCad (e : Entry) : Nat := e.f 1 23 16
def enFlock (e : Entry) : Nat := e.f 2 31 20
def enPeriod (e : Entry) : Nat := e.f 2 19 11

/-! ### Layers, rows and temporal pattern (R207, R208, R214) -/

/-- Half, rounded up to an even number. -/
def halfEven (n : Nat) : Nat := ceilDiv (ceilDiv n 2) 2 * 2

/-- Sizes of the layers or encodings, lowest first. -/
def encSizes (e : Entry) : List (Nat × Nat) :=
  let top := (e.f 6 31 16, e.f 6 15 0)
  let mid := (halfEven top.1, halfEven top.2)
  match enLayers e with
  | 1 => [top]
  | 2 => [mid, top]
  | _ => [(halfEven mid.1, halfEven mid.2), mid, top]

def encArea (e : Entry) : Nat := ((encSizes e).map (fun s => s.1 * s.2)).sum

/-- Samples in a row's height: a macroblock row, or an AV1 superblock row. -/
def rowHeight (e : Entry) : Nat := if enCodec e = 3 then 64 else 16

/-- Rows of a picture of the lowest n layers: (layer, row), lowest layer first. -/
def encRows (e : Entry) (n : Nat) : List (Nat × Nat) :=
  ((encSizes e).take n).zipIdx.flatMap (fun s => (List.range (ceilDiv s.1.2 (rowHeight e))).map (fun r => (s.2, r)))

/-- Luma area of a row. -/
def rowArea (e : Entry) (x : Nat × Nat) : Nat :=
  let s := (encSizes e).getD x.1 (0, 0)
  s.1 * min (rowHeight e) (s.2 - x.2 * rowHeight e)

/-! ### The sweep (R218) -/

/-- Blocks the sweep of a row runs over. -/
def sweepBlocks (e : Entry) (layer : Nat) : Nat :=
  let s := (encSizes e).getD layer (0, 0)
  ceilDiv (if e.b 2 10 then s.2 else s.1) (rowHeight e)

/-- The band of a picture, in blocks. -/
def bandOf (e : Entry) (accel : Bool) (layer : Nat) : Nat :=
  if accel then ceilDiv (sweepBlocks e layer) 4 else if enPeriod e = 0 then 0 else ceilDiv (sweepBlocks e layer) (enPeriod e)

/-- A row's sweep and position after a picture in which it was coded; a key picture begins a sweep anew. -/
def sweepNext (e : Entry) (key accel : Bool) (layer : Nat) (at_ : Nat × Nat) : Nat × Nat :=
  let q := at_.2 + bandOf e accel layer
  if key then (at_.1 + 1, 0) else if sweepBlocks e layer ≤ q then (at_.1 + 1, 0) else (at_.1, q)

/-- Index of a row among all rows of a picture. -/
def rowIdx (e : Entry) (layer row : Nat) : Nat :=
  (((encSizes e).take layer).map (fun s => ceilDiv s.2 (rowHeight e))).sum + row

/-! ### The refreshed area (R219) -/

/-- A block's place along the sweep. -/
def sweepPlace (e : Entry) (row x : Nat) : Nat := if e.b 2 10 then row else x / rowHeight e

/-- How far the reference is refreshed in a row, in blocks: what its sweep, if it is the row's present one, had covered. -/
def refExtent (p : EncPic) (k : Nat) : Nat :=
  let r := p.refArea.getD k (0, 0)
  if r.1 = (p.sweepBefore.getD k (0, 0)).1 then r.2 else 0

/-- How far the picture being coded is refreshed in a row already coded. -/
def ownExtent (e : Entry) (s : Enc) (p : EncPic) (layer row : Nat) : Nat :=
  let k := rowIdx e layer row
  let now := s.sweep.getD k (0, 0)
  if p.key.getD layer false || decide (now.1 ≠ (p.sweepBefore.getD k (0, 0)).1) then sweepBlocks e layer else now.2

/-- The rows that lines y0 to y1 of a layer touch. -/
def rowsTouched (e : Entry) (layer : Nat) (y0 y1 : Int) : List Nat :=
  let n := ceilDiv ((encSizes e).getD layer (0, 0)).2 (rowHeight e)
  let a := (max 0 y0).toNat / rowHeight e
  let b := min (n - 1) ((max 0 y1).toNat / rowHeight e)
  (List.range (b + 1 - a)).map (a + ·)

/-- A prediction block lies in the reference's refreshed area less a margin of 16 luma samples, in every row it touches. -/
def keepsArea (e : Entry) (p : EncPic) (layer : Nat) (w : Window) (v : Int × Int) : Bool :=
  let width : Int := ((encSizes e).getD layer (0, 0)).1
  let x1 := (w.x : Int) + w.w - 1 + (v.1 + 3) / 4 + 16
  (rowsTouched e layer ((w.y : Int) + v.2 / 4 - 16) ((w.y : Int) + w.h - 1 + (v.2 + 3) / 4 + 16)).all (fun r =>
    decide (sweepPlace e r (max 0 (min (width - 1) x1)).toNat < refExtent p (rowIdx e layer r)))

/-- A sample of the picture being coded is refreshed, seen from a block of `row`. -/
def sampleClean (e : Entry) (s : Enc) (p : EncPic) (layer row : Nat) (x y : Int) : Bool :=
  let size := (encSizes e).getD layer (0, 0)
  if x < 0 ∨ y < 0 ∨ (size.1 : Int) ≤ x then false
  else
    let r := y.toNat / rowHeight e
    let ext := if r = row then (s.sweep.getD (rowIdx e layer row) (0, 0)).2 + bandOf e (p.accel.contains layer) layer
               else ownExtent e s p layer r
    decide (r ≤ row) && (p.key.getD layer false || decide (sweepPlace e r x.toNat < ext))

/-- An intra mode reads no neighbour outside the refreshed area. -/
def modeClean (e : Entry) (s : Enc) (p : EncPic) (layer row : Nat) (w : Window) (m : Nat) : Bool :=
  let x : Int := w.x
  let y : Int := w.y
  let ok := sampleClean e s p layer row
  (!m.testBit 0 || ok (x - 1) y) && (!m.testBit 1 || ok x (y - 1)) && (!m.testBit 2 || ok (x - 1) (y - 1)) &&
  (!m.testBit 3 || ok (x + w.w) (y - 1))

/-! ### What the search keeps (R216, R217) -/

/-- The effective range of both presets, ±512 × ±256 samples. -/
def inRange (v : Int × Int) : Bool := decide (v.1.natAbs ≤ 2048) && decide (v.2.natAbs ≤ 1024)

/-- How a block stands in the refresh: 0 not yet refreshed, 1 refreshed before, 2 in the picture's band (all of a key picture). -/
def blockState (e : Entry) (s : Enc) (p : EncPic) (layer row : Nat) (w : Window) : Nat :=
  let pos := (s.sweep.getD (rowIdx e layer row) (0, 0)).2
  let at_ := sweepPlace e row w.x
  if p.key.getD layer false then 2
  else if at_ < pos then 1
  else if at_ < pos + bandOf e (p.accel.contains layer) layer then 2
  else 0

/-- The candidates left to a block, and its intra modes left: those that would break the refresh constraint are removed before any is
compared. -/
def candidates (e : Entry) (s : Enc) (p : EncPic) (layer row : Nat) (w : Window) : List (Int × Int) × List Nat :=
  match blockState e s p layer row w with
  | 0 => (w.vecs.filter inRange, w.modes)
  | 1 => (w.vecs.filter (fun v => inRange v && keepsArea e p layer w v), w.modes.filter (modeClean e s p layer row w))
  | _ => ([], w.modes.filter (modeClean e s p layer row w))

/-- A block as it is coded: by the best candidate left, else intra, by DC prediction from no neighbour where no mode is left. -/
def codeBlock (e : Entry) (s : Enc) (p : EncPic) (layer row : Nat) (w : Window) : Coded :=
  let (vs, ms) := candidates e s p layer row w
  { layer := layer, row := row, x := w.x, y := w.y, w := w.w, h := w.h, vec := vs.head?, mode := if vs.isEmpty then ms.headD 0 else 0 }

end Sys2Proof.Machine
end

