-- ==== Sys2Proof/Machine/Encode.lean ====
section
/-! DEFINITION. Video encode (chapter 10): entries and capacity, pictures and row groups, key pictures and refresh, the rate
models of both modes, settlement, output packets, and VEN_TAB. What the search chooses inside a row is the cell's: the bits
each row took come with its job. -/

namespace Sys2Proof.Machine
open Sys2Proof

def Dev.encEnt (d : Dev) (e : Nat) : Entry := d.ent .ven 0 e
def Dev.enc (d : Dev) (e : Nat) : Option Enc := tabFind d.ven.encs e
def Dev.setEnc (d : Dev) (e : Nat) (v : Enc) : Dev := { d with ven := { d.ven with encs := recSet d.ven.encs e v } }
def Dev.modEnc (d : Dev) (e : Nat) (f : Enc → Enc) : Dev := { d with ven := { d.ven with encs := recMod d.ven.encs e f } }
def Dev.venCount (d : Dev) (r c n : Nat) : Dev := d.cnt (Reg.VEN_CNT_LO + mediaOfs r) c n

/-! ### Row groups and temporal pattern (R208, R214) -/

/-- The row group of each row: every group takes rows until it has its share of what is left, so that where the areas do not divide the
earlier groups have more. -/
def rowGroupsOf : List Nat → Nat → Nat → Nat → Nat → List Nat
  | [], _, _, _, _ => []
  | a :: as, i, got, left, n =>
    i :: (if left ≤ (got + a) * n ∧ 1 < n then rowGroupsOf as (i + 1) 0 (left - got - a) (n - 1) else rowGroupsOf as i (got + a) left n)

/-- The row group of each row of a picture in g groups. -/
def groupsOf (e : Entry) (rows : List (Nat × Nat)) (g : Nat) : List Nat :=
  rowGroupsOf (rows.map (rowArea e)) 0 0 (rows.map (rowArea e)).sum g

/-- Temporal layer at a position of the pattern (Table 10.2). -/
def tidAt (t pos : Nat) : Nat :=
  match t with
  | 1 => 0
  | 2 => pos % 2
  | _ => [0, 2, 1, 2].getD (pos % 4) 0

/-- w(t), in tenths. -/
def weightOf (t tid : Nat) : Nat :=
  match t with
  | 1 => 10
  | 2 => [12, 8].getD tid 8
  | _ => [20, 10, 5].getD tid 5

/-- Layers a model covers: a SVC model m covers layers 0 to m, an encoding's model that encoding. -/
def covers (e : Entry) (m layer : Nat) : Bool := if enStruct e = 1 then decide (layer ≤ m) else m == layer

/-- Declared rate of model m, b/s. -/
def encRate (e : Entry) (m : Nat) : Nat :=
  let rate := fun k => (match k with | 0 => e.f 4 31 16 | 1 => e.f 4 15 0 | _ => e.f 5 31 16) * 8000
  if enStruct e = 1 then ((List.range (m + 1)).map rate).sum else rate m

/-- Floor bits of a row (R218). -/
def floorOf (e : Entry) (key accel : Bool) (x : Nat × Nat) : Nat :=
  let s := (encSizes e).getD x.1 (0, 0)
  Config.floorBits [enCodec e, (e.b 0 19).toNat, s.1, s.2, x.2, key.toNat, accel.toNat, enPeriod e, (e.b 2 10).toNat]

def modelFloor (e : Entry) (n m : Nat) (key : Bool) : Nat :=
  (((encRows e n).filter (fun x => covers e m x.1)).map (floorOf e key false)).sum

/-- Buffer size and drain per picture of a model. -/
def Model.size (m : Model) : Rat := (m.rate * m.bufMs : Nat) / (1000 : Rat)
def Model.drain (m : Model) (cad : Nat) : Rat := (m.rate * cad : Nat) / (600 : Rat)

/-! ### Classes, pools and admission (R210 to R212) -/

def Dev.encClasses (d : Dev) (r : Nat) : List EncClass := (d.regionOf (r + 2)).sec.encCls
def Dev.encClass (d : Dev) (r c : Nat) : Option EncClass := (d.encClasses r)[c]?
def Dev.encBase (d : Dev) (r c : Nat) : Nat :=
  ((List.range r).map (fun k => ((d.encClasses k).map (·.pools)).sum)).sum + (((d.encClasses r).take c).map (·.pools)).sum

def EncClass.ok (c : EncClass) : Bool :=
  decide (c.maxW ≤ 4096) && decide (c.maxH ≤ 4096) && decide (c.maxW * c.maxH ≤ 9437184) && decide (c.refs ≤ 4)

def Dev.encFree (d : Dev) (r c : Nat) : List Nat :=
  match d.encClass r c with
  | none => []
  | some k => ((List.range k.pools).map (fun i => d.encBase r c + i)).filter (fun p => !d.ven.encs.any (fun x => x.2.pool == p))

def encUnit : Nat := 125000000

def encLoad (e : Entry) : Nat := encArea e * 600 / max 1 (enCad e)
def encCharge (e : Entry) : Nat := if enFast e then encLoad e / 2 else encLoad e

/-- Encode load admitted in a region; a flock demoted by a reload has none (R42). -/
def Dev.encAdmitted (d : Dev) (r : Nat) : Nat :=
  ((d.ven.encs.filter (fun x => x.2.region == r && (tabFind d.cfg.demoted (enFlock (d.encEnt x.1))).isNone)).map (·.2.load)).sum
def Dev.encCapacity (d : Dev) (r : Nat) : Nat := encUnit * d.codecCells r true [0, 1] * d.fld Reg.VEN_CFG 22 16 / 100

/-- The template of an entry; a COMPOSITE entry's standard one is its layout's chained template. -/
def Dev.encTemplate (d : Dev) (r : Nat) (e : Entry) : Option Template :=
  let std :=
    if enSrc e = 0 then
      let l := d.layEnt (e.f 1 11 0)
      match d.layTemplate r l with
      | some t => ((d.templates r).find? (fun x => x.id == t.chainNext && x.kind == Kd.encode))
      | none => none
    else d.stdTemplate r Kd.encode
  let v := e.f 3 9 2
  if v = 0 then std
  else match (d.templates r).find? (fun t => t.id == v - 1 && t.kind == Kd.encode) with | some t => some t | none => std

/-- Cadence and cost of an encode entry's own releases in a region: those of a COMPOSITE entry are its layout's. -/
def Dev.encRel (d : Dev) (r : Nat) (e : Entry) : Nat × Nat := relOf (d.encTemplate r e) (enCad e)

/-- Row groups of a picture (R54, R214). -/
def rowGroups (t : Template) (e : Entry) (gang : Nat) : Nat :=
  let g := t.param % 256
  if g = 0 then min 255 (max 1 (ceilDiv (encArea e) ((if enFast e then 416666 else 208333) * gang))) else g

/-- A stream keeps level 5.1 and the luma rate of R164: each encoding is one, and so are all the layers of an SVC brood together. -/
def encWithin (e : Entry) : Bool :=
  decide (((if enStruct e = 1 then encArea e else e.f 6 31 16 * e.f 6 15 0) * 600) ≤ lumaLimit * enCad e) &&
  (List.range (enLayers e)).all (fun m => decide (encRate e m ≤ Config.levelRate (enCodec e) (e.b 0 19)))

/-- An entry keeps R207, R210, R221 and its field ranges. -/
def encOk (e : Entry) (c : EncClass) : Bool :=
  let st := enStruct e
  let n := enLayers e
  let t := enTemporal e
  let cad := enCad e
  encWithin e && (enCodec e == 0 || enCodec e == 1 || enCodec e == 3) && decide (st ≤ 2) && decide (n ≤ 3) && decide (t ≤ 3) &&
  (st != 1 || (enCodec e == 3 && t == 3 && decide (2 ≤ n))) && (enCodec e == 0 || (!e.b 0 19 && !e.b 2 8)) &&
  decide (enSrc e ≤ 2) && isCadence cad && (enPeriod e == 0 || (decide (8 ≤ enPeriod e) && decide (enPeriod e ≤ 256))) &&
  decide (e.f 2 7 6 ≤ 2) && decide (30 ≤ e.f 3 31 22) && decide (50 ≤ e.f 3 21 10) && decide (e.f 3 21 10 ≤ 2000) &&
  decide (e.f 6 31 16 % 2 = 0) && decide (e.f 6 15 0 % 2 = 0) && decide (0 < e.f 6 31 16) && decide (0 < e.f 6 15 0) &&
  decide (e.f 6 31 16 ≤ c.maxW) && decide (e.f 6 15 0 ≤ c.maxH) && decide ((if t = 3 then 3 else 2) ≤ c.refs) &&
  (List.range n).all (fun m =>
    let k : Model := { rate := encRate e m, bufMs := e.f 3 21 10 }
    decide ((modelFloor e n m false : Rat) ≤ k.drain cad) && decide ((modelFloor e n m true : Rat) ≤ k.size))

def newModels (e : Entry) : List Model := (List.range (enLayers e)).map (fun m => { rate := encRate e m, bufMs := e.f 3 21 10 })

def Dev.admitEnc (d : Dev) (e : Entry) : Nat ⊕ Enc :=
  let r := d.flockRegion (enFlock e)
  let cls := e.f 1 27 24
  match d.encClass r cls, d.encTemplate r e with
  | some c, some t =>
    let charge := encCharge e
    let gang := gangOf encUnit charge
    if !encOk e c || decide (3 < gang) || !resolvedOk t (enCad e) none then .inl 4
    else if gang ≠ 1 ∧ d.codecCells r true [0] < gang ∧ d.codecCells r true [1] < gang then .inl 3
    else
      match (d.encFree r cls).head? with
      | none => .inl 2
      | some p =>
        if d.encCapacity r < d.encAdmitted r + charge then .inl 1
        else .inr { region := r, pool := p, cls := cls, gang := gang, load := charge, models := newModels e,
                    lastKey := List.replicate (enLayers e) none, sweep := (encRows e (enLayers e)).map (fun _ => (0, 0)) }
  | _, _ => .inl 4

/-! ### Requests (R220) -/

/-- A key request reaches the encoder of a brood: merged with the one standing. -/
def Dev.encRequest (d : Dev) (brood named : Nat) (need : Bool) : Dev :=
  foldDev ((d.ven.encs.filter (fun x => enBrood (d.encEnt x.1) == brood)).map (·.1)) (fun e d =>
    let enc := if enStruct (d.encEnt e) = 0 then 0 else named
    d.modEnc e (fun s =>
      let coding := match s.pic with | some p => !p.skip && p.key.getD enc false | none => false
      if coding then s
      else match s.req with
        | some (ns, nd, at_, c) => { s with req := some (if ns.contains enc then ns else ns ++ [enc], nd || need, at_, c) }
        | none => { s with req := some ([enc], need, d.now, false) })) d

/-! ### A picture begins (R215, R220 to R222, R224) -/

/-- Layers coded now: from stage S2 the top one is dropped, where there is more than one. -/
def Dev.encActive (d : Dev) (e : Entry) : Nat := if 2 ≤ d.stage ∧ 1 < enLayers e then enLayers e - 1 else enLayers e

/-- A key picture of a layer may be made now: its gap has ended, and its models have room for its floor under the rate that
will be in force. -/
def Enc.keyRoom (s : Enc) (e : Entry) (n layer : Nat) : Bool :=
  (List.range n).all (fun m =>
    !covers e m layer ||
      (let k := s.models.getD m {}
       let new : Model := { rate := encRate e m, bufMs := e.f 3 21 10 }
       decide ((modelFloor e n m true : Rat) ≤ k.size - k.occ) &&
       ((k.rate == new.rate && k.bufMs == new.bufMs) || decide (k.occ ≤ new.size - new.drain (enCad e)))))

def Enc.gapOk (s : Enc) (e : Entry) (layer media : Nat) : Bool :=
  match s.lastKey.getD layer none with
  | some m => decide (m + e.f 3 31 22 ≤ media)
  | none => true

/-- What begins with a picture: its layers, the key ones among them, what is left of the standing request, the accelerated refresh (pictures
left, layers, whether it begins), whether a request was deferred. -/
structure KeyChoice where
  layers : Nat
  keys : List Bool
  req : Option (List Nat × Bool × Nat × Bool)
  accel : Nat
  accelFor : List Nat
  starts : Bool := false
  deferred : Bool := false

/-- Every layer below n may be made a key picture, by its model alone. -/
def Enc.roomAll (s : Enc) (e : Entry) (n : Nat) : Bool := (List.range n).all (fun k => s.keyRoom e n k)

/-- The key layers of the picture that begins; `released` is the FCLK of its first row group's release. A first picture is a key picture
throughout; one after a restart too, once the models have room; so is a layer that a stage had dropped, which returns with it (R220,
R224). -/
def Enc.decideKeys (s : Enc) (e : Entry) (n media released : Nat) : KeyChoice :=
  let svc := enStruct e == 1
  let all := List.replicate n true
  let back := s.dropped && decide (n = enLayers e)
  let backOk := if svc then s.roomAll e n else s.keyRoom e n (n - 1)
  let plain (n : Nat) : KeyChoice :=
    { layers := n, keys := List.replicate n false, req := s.req, accel := s.accel, accelFor := s.accelFor }
  if s.first || (s.restart && s.roomAll e n) then { layers := n, keys := all, req := none, accel := 0, accelFor := [] }
  else if back && backOk then
    if svc then { layers := n, keys := all, req := none, accel := 0, accelFor := [] }
    else { plain n with keys := (List.replicate n false).set (n - 1) true }
  else
    let n := if back then n - 1 else n
    match s.req with
    | none => plain n
    | some (names, need, since, counted) =>
      if released < since then plain n
      else if need || !e.b 2 9 then
        let cand := if svc then List.range n else names.filter (· < n)
        let ok := fun k => s.gapOk e k media && s.keyRoom e n k
        let go := if svc then (if cand.all ok then cand else []) else cand.filter ok
        let left := if svc then (if go.isEmpty then names else []) else names.filter (fun k => !go.contains k)
        let keys := (List.range n).map (fun k => go.contains k)
        let stop := need || left.isEmpty
        { layers := n, keys := keys, req := if left.isEmpty then none else some (left, need, since, true),
          accel := if stop then 0 else s.accel, accelFor := if stop then [] else s.accelFor,
          deferred := !left.isEmpty && !counted }
      else if 0 < s.accel then { plain n with req := none }
      else { plain n with req := none, accel := 4, accelFor := if enStruct e = 2 then names.filter (· < n) else List.range n, starts := true }

/-- Hard caps of the picture by model (R222), or the legacy targets (R225). -/
def Dev.encCaps (d : Dev) (s : Enc) (e : Entry) (n tid : Nat) (legacy : Bool) (key : List Bool) : List Rat :=
  let cad := enCad e
  let w : Rat := (weightOf (enTemporal e) tid : Nat) / (10 : Rat)
  let base := (List.range n).map (fun m => (s.models.getD m {}).drain cad * w)
  let leg := e.f 5 13 0
  let avail : Rat := ((((d.gov leg).target : Int) - d.audioRate leg : Int) : Rat) * cad / 600 * w
  let others : Rat := if enStruct e = 2 then (base.take (n - 1)).sum else 0
  let tops := if e.b 5 15 then base.set (n - 1) (min (base.getD (n - 1) 0) (max 0 (avail - others))) else base
  (List.range n).map (fun m =>
    let k := s.models.getD m {}
    let t := tops.getD m 0
    if legacy then max (t - k.carry) (modelFloor e n m (key.getD m false) : Rat)
    else min (2 * t) (k.size - k.occ))

def legacyMode (d : Dev) (e : Entry) : Bool :=
  match e.f 2 7 6 with | 0 => d.flag Reg.VEN_RC_MODE 0 | 1 => false | _ => true

/-- The rows of the layers given begin a sweep at the edge. -/
def Enc.fromEdge (s : Enc) (e : Entry) (layers : List Nat) : List (Nat × Nat) :=
  (s.sweep.zip (encRows e (enLayers e))).map (fun x => if layers.contains x.2.1 then (x.1.1 + 1, 0) else x.1)

/-- The refreshed area of the picture that one of a temporal layer refers to: the latest of a lower layer, or of layer 0 itself (R208). -/
def Enc.refArea (s : Enc) (tid : Nat) : List (Nat × Nat) :=
  ((s.areas.find? (fun a => decide (a.1 < tid) || (a.1 == 0 && tid == 0))).map (·.2)).getD []

/-- A picture begins: its layers, its temporal place, whether it is a key picture, its caps. `skip`: no source. An accelerated refresh
sweeps from the edge. -/
def Dev.beginPicture (d : Dev) (e : Nat) (media released : Nat) (src : Option (Nat × Nat)) (skip : Bool) : Dev :=
  match d.enc e with
  | none => d
  | some s =>
    let ent := d.encEnt e
    let r := s.region
    let m := d.encActive ent
    let c : KeyChoice :=
      if skip then { layers := m, keys := List.replicate m s.first, req := s.req, accel := s.accel, accelFor := s.accelFor }
      else s.decideKeys ent m media released
    let n := c.layers
    let anyKey := c.keys.any id
    let tid := tidAt (enTemporal ent) s.pos
    let legacy := legacyMode d ent
    let fresh := fun (m : Nat) (k : Model) =>
      if (List.range n).any (fun l => c.keys.getD l false && covers ent m l)
      then { k with rate := encRate ent m, bufMs := ent.f 3 21 10 } else k
    let sweep := if c.starts then s.fromEdge ent c.accelFor else s.sweep
    let s1 := { s with models := s.models.mapIdx fresh, sweep := sweep }
    let pic : EncPic := {
      media := media, tid := tid, layers := n, key := c.keys, accel := if 0 < c.accel && !anyKey then c.accelFor else [], legacy := legacy,
      spent := List.replicate n 0, floorRows := List.replicate n 0, before := s.models,
      sweepBefore := sweep, refArea := s.refArea tid, src := src, caps := d.encCaps s1 ent n tid legacy c.keys, skip := skip }
    let d := d.setEnc e { s1 with req := c.req, accel := c.accel, accelFor := c.accelFor, pic := some pic }
    let d := if c.starts then d.venCount r 2 1 else d
    let d := if c.deferred then (d.venCount r 5 1).raiseOnce (srcRegion (r + 2) 29) e else d
    if (anyKey && !skip) || c.starts then d.raiseOnce (srcRegion (r + 2) 28) e else d

/-! ### Rows (R218, R222, R225) -/

/-- Bits a model has spent so far, and the floors of its rows after row k. -/
def EncPic.spentIn (p : EncPic) (e : Entry) (m : Nat) : Nat :=
  ((p.spent.mapIdx (fun l b => if covers e m l then b else 0))).sum

def EncPic.floorsAfter (p : EncPic) (e : Entry) (m k : Nat) : Nat :=
  ((((encRows e p.layers).drop (k + 1)).filter (fun x => covers e m x.1)).map (fun x => floorOf e (p.key.getD x.1 false) (p.accel.contains x.1) x)).sum

/-- Whether a row of the given bits may stand: within its allowance in every model that contains it; under the legacy
control, while the target is not spent. -/
def EncPic.allows (p : EncPic) (e : Entry) (x : Nat × Nat) (bits_ : Nat) : Bool :=
  (List.range p.layers).all (fun m =>
    !covers e m x.1 ||
      (let cap := p.caps.getD m 0
       if p.legacy then decide ((p.spentIn e m : Rat) < cap)
       else decide ((bits_ : Rat) ≤ cap - p.spentIn e m - p.floorsAfter e m p.row)))

/-- Code the next row: the bits it took where they may stand (none: a floor row, and so is every row after one that may not). Answers also
whether it was rewound. -/
def Enc.codeRow (s : Enc) (e : Entry) (p : EncPic) (bits_ : Option Nat) (ws : List Window) : Bool × Enc × EncPic :=
  match (encRows e p.layers)[p.row]? with
  | none => (false, s, p)
  | some x =>
    let l := x.1
    let key := p.key.getD l false
    let fl := floorOf e key (p.accel.contains l) x
    let put := fun (p : EncPic) (b : Nat) => { p with spent := p.spent.set l (p.spent.getD l 0 + b), row := p.row + 1 }
    let floor := fun (p : EncPic) => put { p with floorRows := p.floorRows.set l (p.floorRows.getD l 0 + 1) } fl
    match bits_ with
    | none => (false, s, floor p)
    | some b =>
      if p.floored then (true, s, floor p)
      else if p.allows e x b then
        (false, { s with sweep := s.sweep.set p.row (sweepNext e key (p.accel.contains l) l (s.sweep.getD p.row (0, 0))) },
         put { p with blocks := p.blocks ++ ws.map (codeBlock e s p l x.2) } b)
      else (true, s, floor { p with floored := true })

/-- The rows of a row group, with the bits each took and its blocks; answers how many became floor rows. -/
def Enc.codeRows (s : Enc) (e : Entry) (p : EncPic) : List (Option Nat × List Window) → Nat → Nat × Enc × EncPic
  | [], n => (n, s, p)
  | b :: bs, n => let (f, s, p) := s.codeRow e p b.1 b.2; Enc.codeRows s e p bs (n + f.toNat)

/-! ### Output (R209) -/

/-- One RTP packet of the device's own, with its header extension. -/
def rtpPacket (marker : Bool) (seqn ts : Nat) (ext payload : List Byte) : List Byte :=
  [if ext.isEmpty then 0x80 else 0x90, BitVec.ofNat 8 (marker.toNat * 128)] ++ toBe 2 seqn ++ toBe 4 ts ++ toBe 4 0 ++ ext ++ payload

/-- Pieces of at most n bytes. -/
def chunks (n : Nat) : Nat → List Byte → List (List Byte)
  | 0, _ => []
  | k + 1, bs => if bs.length ≤ n then [bs] else bs.take n :: chunks n k (bs.drop n)

/-- A packet made by the device enters its brood's queue and input. -/
def Dev.ownItem (d : Dev) (m : Meta) (bytes : List Byte) (dd : List Byte) : Dev :=
  let (u, d) := d.newPayload bytes bytes.length
  let m := { m with flen := bytes.length }
  let it : Item := { desc := pktDesc 3 m 0 0 bytes.length d.dtNs false, uid := u, md := m, rtpLen := bytes.length, dd := dd }
  ((d.refPayload u).push (.enqueue (Config.broodQueue m.brood m.stream) it)).push (.packet it)

/-- The packets of a picture leave in layer order, each with what marks its layers (R208, R209): a VP8 descriptor in its payload, the frame
marking of H.264 or the dependency descriptor of AV1 in a header extension. -/
def Dev.sendPicture (d : Dev) (e : Nat) (p : EncPic) (packets : List (Nat × List Byte)) : Dev :=
  let ent := d.encEnt e
  let sim := enStruct ent == 2
  let codec := enCodec ent
  let d := foldDev (packets.zipIdx) (fun x d =>
    match d.enc e with
    | none => d
    | some s =>
      let l := x.1.1
      let str := if sim then l else 0
      let firstOf := x.2 == 0 || (packets.getD (x.2 - 1) (0, [])).1 != l
      let lastOf := x.2 + 1 == packets.length || (packets.getD (x.2 + 1) (0, [])).1 != l
      let marker := if sim then lastOf else x.2 + 1 == packets.length
      let key := p.key.getD l false
      let seqn := (tabFind s.outSeq str).getD 0
      let ts := (p.media * 150 + s.tsBase) % 2 ^ 32
      let mark := if codec = 1 then [] else
        Config.encMarking [codec, key.toNat, p.layers, l, p.tid, firstOf.toNat, lastOf.toNat, s.sent % 65536]
      let d := d.setEnc e { s with outSeq := recSet s.outSeq str ((seqn + 1) % 65536) }
      let (pic, tl0) := if codec = 1 then vp8Numbers x.1.2 else (if codec = 3 then some (s.sent % 65536, 65536) else none, none)
      d.ownItem { brood := enBrood ent, stream := str, kind := 2, ts := ts, seq := seqn, beat := d.beat, keyed := some key, pic := pic, tl0 := tl0,
                  layer := (if sim then 0 else l * 64) + p.tid * 8 + 4 + firstOf.toNat * 2 + lastOf.toNat }
        (rtpPacket marker seqn ts (Config.encExtension codec mark) x.1.2) (if codec = 3 then mark else [])) d
  d.modEnc e (fun s => { s with sent := s.sent + 1 })

/-- Bytes of a picture that the fill engine finished: as many as its rows take, their values open, cut at the MTU. -/
def Dev.openPackets (d : Dev) (p : EncPic) : List (Nat × List Byte) × Dev :=
  (List.range p.layers).foldl (fun acc l =>
    let n := ceilDiv (p.spent.getD l 0) 8
    let (bs, d) := acc.2.drawBytes n
    (acc.1 ++ (chunks (d.fld Reg.VEN_CFG 10 0) (n + 1) bs).map (fun c => (l, c)), d)) ([], d)

/-- Filler NAL units of n bytes in all, in payloads of at most the MTU (R221). -/
def fillerUnits (mtu : Nat) : Nat → Nat → List (List Byte)
  | 0, _ => []
  | _ + 1, 0 => []
  | k + 1, n =>
    let m := max 2 (min mtu n)
    ([0x0C] ++ List.replicate (m - 2) 0xFF ++ [0x80]) :: fillerUnits mtu k (n - m)

/-- Bits of filler that a CBR model asks for: what the picture's bits and its occupancy fall short of D_m. -/
def Enc.filler (s : Enc) (e : Entry) (p : EncPic) (m : Nat) : Nat :=
  if enCodec e = 0 ∧ e.b 2 8 then
    let k := s.models.getD m {}
    (max 0 (k.drain (enCad e) - k.occ - p.spentIn e m) : Rat).ceil.toNat
  else 0

/-- Parameter sets of H.264 and sequence headers of AV1 go with every key picture and where a sweep begins, there with the mark of the
recovery point (R209, R218). -/
def EncPic.headers (p : EncPic) (e : Entry) : List (Nat × List Byte) :=
  if enCodec e = 1 then []
  else (List.range p.layers).filterMap (fun l =>
    let begins := decide (0 < enPeriod e) && decide ((p.sweepBefore.getD (rowIdx e l 0) (0, 0)).2 = 0)
    if p.key.getD l false || begins then
      let s := (encSizes e).getD l (0, 0)
      some (l, Config.streamHeaders [(e.word 0).toNat, (e.word 2).toNat, (e.word 3).toNat, (e.word 4).toNat, (e.word 5).toNat, l, s.1, s.2,
                                     if p.key.getD l false then 0 else enPeriod e])
    else none)

/-- The end of a picture: the models, the pattern and the counters advance, and its packets leave. -/
def Dev.finishPicture (d : Dev) (e : Nat) (filled : Bool) : Dev :=
  match d.enc e with
  | none => d
  | some s =>
    match s.pic with
    | none => d
    | some p =>
      let ent := d.encEnt e
      let r := s.region
      let cad := enCad ent
      let quant := if p.quants.isEmpty then 0 else p.quants.sum / p.quants.length
      let broke := (List.range p.layers).any (fun m =>
        let k := s.models.getD m {}
        decide (k.size < k.occ + p.spentIn ent m))
      let models := s.models.mapIdx (fun m k =>
        if p.layers ≤ m then k
        else
          let b := p.spentIn ent m + s.filler ent p m
          { k with occ := max 0 (k.occ + b - k.drain cad), last := b, quant := quant,
                   floors := min 0xFFFFFFFF (k.floors + ((p.floorRows.mapIdx (fun l f => if covers ent m l then f else 0)).sum)),
                   carry := if p.legacy then max 0 ((b : Rat) - p.caps.getD m 0) else 0 })
      let nKeys := if enStruct ent = 1 then (p.key.any id).toNat else (p.key.filter id).length
      let accel := if p.accel.isEmpty then s.accel else s.accel - 1
      let edge := !p.accel.isEmpty && accel == 0
      let sweep := if edge then s.fromEdge ent p.accel else s.sweep
      let fill := (List.range p.layers).flatMap (fun l =>
        let n := ceilDiv (s.filler ent p l) 8
        (fillerUnits (d.fld Reg.VEN_CFG 10 0) n n).map (fun c => (l, c)))
      let s := { s with
        models := models, pos := s.pos + 1, first := false, restart := s.restart && !(p.key.all id), accel := accel, pic := none,
        accelFor := if accel = 0 then [] else s.accelFor, coded := p.blocks, dropped := p.layers != enLayers ent,
        lastKey := s.lastKey.mapIdx (fun l k => if p.key.getD l false then some p.media else k),
        sweep := sweep, areas := ((p.tid, sweep) :: s.areas.filter (fun a => a.1 != p.tid)), keys := min 65535 (s.keys + nKeys) }
      let d := (((d.setEnc e s).venCount r 0 1).venCount r 1 nKeys)
      let d := if p.skip then (d.venCount r 4 1).raiseOnce (srcRegion (r + 2) 25) e else d
      let d := if p.legacy && broke then (d.venCount r 6 1).raiseOnce (srcRegion (r + 2) 26) e else d
      let (pk, d) := if filled then d.openPackets p else (p.packets, d)
      let layer := fun (l : Nat) (ps : List (Nat × List Byte)) => ps.filter (fun x => x.1 == l)
      let d := d.sendPicture e p ((List.range p.layers).flatMap (fun l => layer l (p.headers ent) ++ layer l pk ++ layer l fill))
      let (len, d) := d.drawBelow (2 ^ 24)
      let d := d.tapOffer { kind := tapAu, sub := 1, flock := enFlock ent, ident := enBrood ent, beat := p.media % 2 ^ 32, len := 8 + len,
                            known := auPrefix (enCodec ent) (if filled then 1 else 0) (p.key.any id) (p.layers - 1) p.tid len }
      if s.closing then { d with ven := { d.ven with encs := tabErase d.ven.encs e } } else d

/-- Every row still to come is a floor row. -/
def Dev.floorRest (d : Dev) (e : Nat) : Dev :=
  match d.enc e with
  | none => d
  | some s =>
    match s.pic with
    | none => d
    | some p =>
      let ent := d.encEnt e
      let left := (encRows ent p.layers).length - p.row
      let (_, s, p) := s.codeRows ent p (List.replicate left (none, [])) 0
      d.setEnc e { s with pic := some p }

/-- A skip picture (R215), made at once by the fill engine. -/
def Dev.skipPicture (d : Dev) (e media : Nat) : Dev :=
  ((d.beginPicture e media d.now none true).floorRest e).finishPicture e true

/-- Skip pictures that waited for the picture in progress, in order. -/
def Dev.drainSkips (d : Dev) (e : Nat) : Nat → Dev
  | 0 => d
  | n + 1 =>
    match d.enc e with
    | none => d
    | some s =>
      match s.skips with
      | [] => d
      | m :: ms =>
        if s.pic.isSome || (d.liveTasks Kd.encode e).any (fun t => decide (t.2.media < m)) then d
        else ((d.setEnc e { s with skips := ms }).skipPicture e m).drainSkips e n

def Dev.queueSkip (d : Dev) (e media : Nat) : Dev :=
  (d.modEnc e (fun s => { s with skips := s.skips ++ [media] })).drainSkips e 8

/-- A release position with no composite under a halved frame rate: the pattern advances and the models drain (R341). -/
def Dev.idlePosition (d : Dev) (e : Nat) : Dev :=
  let ent := d.encEnt e
  let n := d.encActive ent
  d.modEnc e (fun s => { s with pos := s.pos + 1, models := s.models.mapIdx (fun m k =>
    if n ≤ m then k else { k with occ := max 0 (k.occ - k.drain (enCad ent)) }) })

/-! ### Tasks -/

/-- The first row-group task of a picture. -/
def Dev.launchPicture (d : Dev) (e media : Nat) (tags : List Nat) (given : List Operand) : Dev :=
  match d.enc e with
  | none => d
  | some s =>
    let ent := d.encEnt e
    match d.encTemplate (d.flockRegion (enFlock ent)) ent with
    | none => d
    | some t =>
      if s.closing then d
      else (d.launch { kind := Kd.encode, flock := enFlock ent, entry := e, media := media, tmpl := t, cad := enCad ent,
                       tags := tags, given := given, gang := s.gang, rows := rowGroups t ent s.gang }).2

/-- A PHASE entry's picture: the decoded picture of its brood or a picture the host posts (R213). -/
def Dev.releaseEncode (d : Dev) (e : Nat) : Dev :=
  let ent := d.encEnt e
  let m := d.beat % 2 ^ 32
  match enSrc ent with
  | 1 => d.launchPicture e d.beat [mkTag (enFlock ent) (ent.f 1 15 0) Cl.picture m] []
  | 2 => d.launchPicture e d.beat [mkTag (enFlock ent) (enBrood ent) Cl.host m] []
  | _ => d

/-- Encode entries fed by a layout. -/
def Dev.encsOf (d : Dev) (l : Nat) : List Nat :=
  (d.ven.encs.filter (fun x => let e := d.encEnt x.1; enSrc e == 0 && e.f 1 11 0 == l && !x.2.closing)).map (·.1)

/-- A composite released its chain: one picture for each entry made from its layout (R54). -/
def Dev.chainEncode (d : Dev) (x : Task) : Dev :=
  let l := d.layEnt x.entry
  let tag := mkTag (laFlock l) (laBrood l) Cl.composite (x.media % 2 ^ 32)
  foldDev (d.encsOf x.entry) (fun e d => d.launchPicture e x.media [tag] []) d

/-- Ratio of a source within 0.25 to 4 on each axis (R213). -/
def ratioOk (s o : Nat) : Bool := decide (o ≤ 4 * s) && decide (s ≤ 4 * o)

/-- The operand set of a first row group freezes: the picture begins, or is a skip picture for want of a source. -/
def Dev.freezeEncode (d : Dev) (t : Nat) (x : Task) : Dev :=
  if x.row ≠ 0 then d
  else
    let ent := d.encEnt x.entry
    let o := x.ops.find? (fun o => o.st == 1)
    let size : Option (Nat × Nat) := match o with
      | none => none
      | some o =>
        match enSrc ent with
        | 0 => let l := d.layEnt (ent.f 1 11 0); some (l.f 1 31 16, l.f 1 15 0)
        | 1 => let b := d.picBuf o.ref; some (b.w, b.h)
        | _ => none
    let bad := match size with
      | some (w, h) => !(ratioOk w (ent.f 6 31 16) && ratioOk h (ent.f 6 15 0))
      | none => false
    let d := if bad then d.venCount x.region 7 1 else d
    match o, bad with
    | some o, false => d.beginPicture x.entry x.media x.released (some (tagClass o.tag, o.ref)) false
    | _, _ =>
      let d := d.terminate t St.complete
      match d.task t with
      | some y => d.setTask t { y with filling := true }
      | none => d

/-- The rows of a picture's row group that are still to be coded. -/
def EncPic.rowsOf (p : EncPic) (e : Entry) (x : Task) : List Nat :=
  let gs := groupsOf e (encRows e p.layers) x.rows
  (List.range gs.length).filter (fun k => decide (p.row ≤ k) && decide (gs.getD k 0 = x.row))

/-- A row group's job retires: its rows are coded, and the next group is released, or the picture is finished. -/
def Dev.retireEncode (d : Dev) (t : Nat) (x : Task) (res : JobResult) : Dev :=
  match d.enc x.entry with
  | none => d.complete t
  | some s =>
    match s.pic with
    | none => d.complete t
    | some p =>
      let ent := d.encEnt x.entry
      let rows := encRows ent p.layers
      let mine := p.rowsOf ent x
      let bs := mine.mapIdx (fun i k =>
        let row := rows.getD k (0, 0)
        (some (res.rows.getD i (floorOf ent (p.key.getD row.1 false) (p.accel.contains row.1) row)), res.windows.getD i []))
      let (n, s, p) := s.codeRows ent p bs 0
      let mtu := d.fld Reg.VEN_CFG 10 0
      let made := res.packets.flatMap (fun q => (chunks mtu (q.2.length + 1) q.2).map (fun c => (q.1, c)))
      let p := { p with quants := p.quants ++ [res.quant], packets := if made.isEmpty then p.packets else made }
      let d := d.setEnc x.entry { s with pic := some p }
      let d := if n = 0 then d else (d.venCount x.region 3 n).raiseOnce (srcRegion (x.region + 2) 27) x.entry
      let d := d.complete t
      if x.row + 1 < x.rows then
        let tag := mkTag x.flock (enBrood ent) Cl.rowtoken (x.media % 2 ^ 32)
        let next := fun (k : Template) => d.launch {
          kind := Kd.encode, flock := x.flock, entry := x.entry, media := x.media, tmpl := k, cad := enCad ent,
          given := [{ tag := tag, st := 1 }], gang := s.gang, row := x.row + 1, rows := x.rows, deadline := some x.deadline,
          region := some x.region }
        match ((d.templates x.region).find? (fun k => k.id == x.tmpl)).map next with
        | some (some _, d) => d
        | _ => ((d.floorRest x.entry).finishPicture x.entry true).drainSkips x.entry 8
      else (d.finishPicture x.entry p.packets.isEmpty).drainSkips x.entry 8

/-- The end of an ENCODE task that did not complete: its rows go to the fill engine; an abort discards the picture and puts
the state back (R70, R223). -/
def Dev.endEncode (d : Dev) (t : Nat) (x : Task) : Dev :=
  if x.st = St.aborted then
    (d.modEnc x.entry (fun s =>
      match s.pic with
      | some p =>
        if p.media = x.media then
          let names := (List.range p.layers).filter (fun l => p.key.getD l false)
          let req := if names.isEmpty then s.req else match s.req with
            | some (ns, nd, a, c) => some (ns ++ names, nd, a, c)
            | none => some (names, true, d.now, true)
          { s with pic := none, models := p.before, sweep := p.sweepBefore, req := if s.first then s.req else req }
        else s
      | none => s)).drainSkips x.entry 8
  else if x.st = St.complete then d
  else d.setTask t { x with filling := true }

/-- Rows of its group that a cut-off job had coded stand; how many there are, and the bits of each, are open. -/
def Dev.rowsBefore (d : Dev) (e : Nat) (p : EncPic) (x : Task) : Dev :=
  match d.enc e with
  | none => d
  | some s =>
    let ent := d.encEnt e
    let (n, d) := d.drawBelow ((p.rowsOf ent x).length + 1)
    let (bs, d) := (List.range n).foldl (fun (acc : List (Option Nat × List Window) × Dev) _ =>
      let (b, d) := acc.2.drawBelow (2 ^ 24)
      (acc.1 ++ [(some b, [])], d)) ([], d)
    let (f, s, p) := s.codeRows ent p bs 0
    let d := d.setEnc e { s with pic := some p }
    if f = 0 then d else (d.venCount x.region 3 f).raiseOnce (srcRegion (x.region + 2) 27) e

/-- The fill engine has written the floor rows of a picture (R215, R223). -/
def Dev.fillEncode (d : Dev) (t : Nat) (x : Task) : Dev :=
  let d := d.setTask t { x with filling := false }
  match (d.enc x.entry).bind (·.pic) with
  | some p =>
    if p.media = x.media then
      let d := if x.frozen then d.rowsBefore x.entry p x else d
      ((d.floorRest x.entry).finishPicture x.entry true).drainSkips x.entry 8
    else d
  | none => (d.skipPicture x.entry x.media).drainSkips x.entry 8

/-- A write outside the fence: the picture ends as LATE. -/
def Dev.encFence (d : Dev) (cell : Nat) : Dev :=
  match (d.cell cell).job with
  | none => d
  | some t =>
    match d.task t with
    | none => d
    | some x =>
      if x.kind ≠ Kd.encode then d
      else
        let d := d.setFlag (Reg.VEN_CELL_STAT + mediaOfs (cellIdx cell / 16) + 0x1000 * (cellIdx cell % 16)) 16 true
        ((d.raise (srcRegion (x.region + 2) 24) cell).terminate t St.late).watchdog cell

/-- An entry leaves: pictures not begun are aborted; the one in progress ends first. -/
def Dev.releaseEnc (d : Dev) (e : Nat) : Dev :=
  match d.enc e with
  | none => d
  | some s =>
    let ent := d.encEnt e
    let cost := d.encRel s.region ent
    let d := if enSrc ent = 0 then d else d.dropCadence (enFlock ent) cost.1 cost.2
    let cur := s.pic.map (·.media)
    let d := d.abortTasks (fun x => x.kind == Kd.encode && x.entry == e && some x.media != cur)
    if s.pic.isSome then d.modEnc e (fun s => { s with closing := true, skips := [] })
    else { d with ven := { d.ven with encs := tabErase d.ven.encs e } }

/-- A picture of an encoder is under way in the region that holds its pool: from the release of its first row group on (R53). -/
def Dev.encBound (d : Dev) (e : Nat) (s : Enc) : Bool :=
  s.pic.isSome || d.tsk.tasks.any (fun x => x.2.kind == Kd.encode && x.2.entry == e && x.2.region == s.region && (decide (x.2.st < 5) || x.2.filling))

/-- An encoder of a flock that moved, between pictures: a pool of its class there, or a restart with a key picture (R211, R53). -/
def Dev.moveEnc (d : Dev) (e r : Nat) : Dev :=
  match d.enc e with
  | none => d
  | some s =>
    let ent := d.encEnt e
    if s.region = r ∨ d.encBound e s = true then d
    else if !keepsR51 (d.encTemplate r ent) (enCad ent) none then
      ((d.releaseEnc e).setEnt .ven 0 e (ent.setB 0 31 false)).tabErr Reg.VEN_TAB_CMD 4
    else
      let d := if enSrc ent = 0 then d else d.swapCadence (enFlock ent) (d.encRel s.region ent) (d.encRel r ent)
      match (d.encFree r s.cls).head? with
      | some p => d.setEnc e { s with region := r, pool := p }
      | none => d.setEnc e { s with region := r, restart := true }

/-! ### VEN_TAB (R226) -/

def venTabSize (t : Nat) : Nat := match t with | 0 => 4096 | 1 => 16384 | _ => 0

/-- Beyond a table, or model 3 of an entry, which has models 0 to 2 (R404). -/
def venBeyond (t i : Nat) : Bool := pastEnd venTabSize t i || (t == 1 && i % 4 == 3)

/-- A non-negative amount of bits as a word. -/
def bitsWord (q : Rat) : Word := BitVec.ofNat 32 q.floor.toNat

def Dev.venView (d : Dev) (t i : Nat) : Entry :=
  match t with
  | 0 =>
    match d.enc i with
    | none => d.encEnt i
    | some s => ({ d.encEnt i with d7 := BitVec.ofNat 32 (s.keys * 65536 + s.load / 100000) }).setF 0 21 20 (s.gang - 1)
  | _ =>
    match d.enc (i / 4) with
    | none => {}
    | some s =>
      match s.models[i % 4]? with
      | none => {}
      | some m => { d0 := bitsWord m.occ, d1 := bitsWord m.size, d2 := BitVec.ofNat 32 m.last, d3 := BitVec.ofNat 32 (m.quant % 256),
                    d4 := BitVec.ofNat 32 m.floors, d5 := bitsWord m.carry }

def venTabRead (v : Word) (d : Dev) : Dev :=
  tabReadOp Reg.VEN_TAB_CMD Reg.VEN_TAB_ADDR Reg.VEN_TAB_DATA 8 13 venBeyond Dev.venView 4 v d

/-- VEN_TAB_WRITE: admission, release, and in place a new rate or BUF_MS, which raises a request with NEED_KEY = 1. -/
def venTabWrite (v : Word) (d : Dev) : Dev :=
  let d := d.tabCmd Reg.VEN_TAB_CMD v
  let t := d.fld Reg.VEN_TAB_CMD 27 24
  let i := d.fld Reg.VEN_TAB_ADDR 13 0
  let n := d.dataEntry Reg.VEN_TAB_DATA
  let err := d.tabErr Reg.VEN_TAB_CMD
  let done := fun (d : Dev) => d.tabErr Reg.VEN_TAB_CMD 0
  if venBeyond t i then err 4
  else if t ≠ 0 then err 5
  else
    let old := d.encEnt i
    let e : Entry := Entry.legal old
      { d0 := n.d0 &&& 0xFFCCFFFF, d1 := n.d1 &&& 0xCFFFFFFF, d2 := n.d2 &&& 0xFFFFFFC0, d3 := n.d3 &&& 0xFFFFFFFC,
        d4 := n.d4, d5 := n.d5 &&& 0xFFFFBFFF, d6 := n.d6 }
      [(0, 30, 28, [(0, 1), (3, 3)]), (0, 27, 26, [(0, 2)]), (0, 23, 22, [(0, 2)]), (1, 31, 30, [(0, 2)]), (1, 27, 24, [(0, 7)]),
       (2, 19, 11, [(0, 0), (8, 256)]), (2, 7, 6, [(0, 2)])]
    match d.enc i with
    | some s =>
      if !e.b 0 31 then done ((d.releaseEnc i).setEnt .ven 0 i e)
      else
        let same := e.d0 = old.d0 ∧ e.d1 = old.d1 ∧ e.f 2 31 11 = old.f 2 31 11 ∧ e.f 2 8 8 = old.f 2 8 8 ∧ e.d6 = old.d6
        match d.encClass s.region s.cls with
        | none => err 4
        | some c =>
          if s.closing then err 2
          else if ¬ same ∨ encOk e c = false ∨ keepsR51 (d.encTemplate s.region e) (enCad e) none = false then err 4
          else
            let d := if enSrc e = 0 then d else d.swapCadence (enFlock e) (d.encRel s.region old) (d.encRel s.region e)
            let d := d.setEnt .ven 0 i e
            let changed := fun (m : Nat) => encRate e m != encRate old m || e.f 3 21 10 != old.f 3 21 10
            done (foldDev ((List.range (enLayers e)).filter changed) (fun l d => d.encRequest (enBrood e) l true) d)
    | none =>
      if !e.b 0 31 then done (d.setEnt .ven 0 i e)
      else
        match d.admitEnc e with
        | .inl code => err code
        | .inr s =>
          let (b, d) := d.drawBelow (2 ^ 32)
          let d := (d.setEnt .ven 0 i e).setEnc i { s with tsBase := b }
          let cost := d.encRel s.region e
          done (if enSrc e = 0 then d else d.useCadence (enFlock e) cost.1 cost.2)

def Dev.venStatus (d : Dev) : Nat := (d.ven.encs.filter (fun x => !x.2.closing)).length
def Dev.venRegionLoad (d : Dev) (r : Nat) : Nat := d.encCapacity r / 1000000 * 65536 + d.encAdmitted r / 1000000
def Dev.venCellStat (d : Dev) (r i : Nat) : Nat :=
  let code := cellCode 0 (r * 16 + i)
  let enc := d.flag (Reg.CFG_PERSONALITY + 4 * r) i
  enc.toNat * 2 ^ 31 + (d.cell code).out.toNat * 2 ^ 30 + (if enc then d.cellRole code * 2 ^ 28 else 0) +
  (d.flag (Reg.VEN_CELL_STAT + mediaOfs r + 0x1000 * i) 16).toNat * 65536 + (if enc then d.cellBrood code (fun x => enBrood (d.encEnt x.entry)) else 0)

end Sys2Proof.Machine
end

