-- ==== Sys2Proof/Machine/Audio.lean ====
section
/-! DEFINITION. Audio entries, the jitter buffer and decoded frames (R228 to R235), and AUD_TAB. Positions are counted in
samples at 48 kHz, 80 a beat. -/

namespace Sys2Proof.Machine
open Sys2Proof

def Dev.audEnt (d : Dev) (e : Nat) : Entry := d.ent .aud 0 e
def Dev.mixEnt (d : Dev) (f : Nat) : Entry := d.ent .aud 1 f
def Dev.audio (d : Dev) (e : Nat) : Option AudEnt := tabFind d.aud.ents e
def Dev.setAud (d : Dev) (e : Nat) (v : AudEnt) : Dev := { d with aud := { d.aud with ents := recSet d.aud.ents e v } }
def Dev.modAud (d : Dev) (e : Nat) (f : AudEnt → AudEnt) : Dev := { d with aud := { d.aud with ents := recMod d.aud.ents e f } }
def Dev.mix (d : Dev) (f : Nat) : Option MixSt := tabFind d.aud.mixes f
def Dev.setMix (d : Dev) (f : Nat) (v : MixSt) : Dev := { d with aud := { d.aud with mixes := recSet d.aud.mixes f v } }
def Dev.chan (d : Dev) (c : Nat) : Option Chan := tabFind d.aud.chans c
def Dev.setChan (d : Dev) (c : Nat) (v : Chan) : Dev := { d with aud := { d.aud with chans := recSet d.aud.chans c v } }
def Dev.audCount (d : Dev) (r c n : Nat) : Dev := d.cnt (Reg.AUD_CNT_LO + mediaOfs r) c n
def Dev.fltCount (d : Dev) (r c n : Nat) : Dev := d.cnt (Reg.FLT_CNT_LO + mediaOfs r) c n

def aeCodec (e : Entry) : Nat := e.f 0 30 28
def aeClient (e : Entry) : Bool := e.f 0 27 26 == 1
def aeBrood (e : Entry) : Nat := e.f 0 15 0
def aeFlock (e : Entry) : Nat := e.f 1 31 20
def aeQueue (e : Entry) : Nat := e.f 1 17 0
def tens (ms : Nat) : Nat := ceilDiv ms 10 * 10
def aeMin (e : Entry) : Nat := tens (e.f 2 31 23)
def aeMax (e : Entry) : Nat := tens (e.f 2 22 14)
def aeGain (e : Entry) : Int := signed 6 (e.f 2 13 8)

/-- Count on a region's counter and on an entry's own (PLC, LATE, FEC_RECOVERED, JB_STEPS). -/
def Dev.audTally (d : Dev) (e c : Nat) (k : Option Nat) : Dev :=
  match d.audio e with
  | none => d
  | some s =>
    let d := d.audCount s.region c 1
    match k with
    | some k => d.setAud e { s with cnts := bumpAt s.cnts k 0xFFFF }
    | none => d

def Dev.audEvent (d : Dev) (r i d0 : Nat) : Dev := d.raiseOnce (srcRegion (r + 2) (32 + i)) d0

/-! ### Admission (R230, Table 11.2) -/

/-- Weights in eighths of an Opus equivalent. -/
def decWeight (codec : Nat) : Nat := match codec with | 0 => 8 | 3 => 4 | _ => 2
def encWeight (codec : Nat) : Nat := match codec with | 0 => 8 | 3 => 4 | _ => 1

/-- Format f of a mix entry: EN, CODEC, STEREO, FEC, DTX, FRAME20, RATE. -/
def mixFormat (e : Entry) (f : Nat) : Nat := e.f (1 + f / 2) (16 * (f % 2) + 15) (16 * (f % 2))
def fmEn (v : Nat) : Bool := v.testBit 15
def fmCodec (v : Nat) : Nat := v / 4096 % 8
def fmDtx (v : Nat) : Bool := v.testBit 9
def fmFrame20 (v : Nat) : Bool := v.testBit 8
def mixN (e : Entry) : Nat := e.f 0 29 27 + 1
def mixBrood (e : Entry) : Nat := e.f 0 15 0

def enabledFormats (e : Entry) : List Nat := (List.range 4).filter (fun f => fmEn (mixFormat e f))

/-- Encode charge of a mix entry, in eighths. -/
def mixCharge (e : Entry) : Nat :=
  let ws := (enabledFormats e).map (fun f => encWeight (fmCodec (mixFormat e f)))
  ws.sum + mixN e * ws.foldl max 0

/-- The region an entry or a mix is in, or on its way to. -/
def AudEnt.home (s : AudEnt) : Nat := s.moveTo.getD s.region
def MixSt.home (s : MixSt) : Nat := s.moveTo.getD s.region

def Dev.audDecLoad (d : Dev) (r : Nat) : Nat :=
  ((d.aud.ents.filter (fun x => x.2.home == r && !aeClient (d.audEnt x.1))).map (fun x => decWeight (aeCodec (d.audEnt x.1)))).sum
def Dev.audEncLoad (d : Dev) (r : Nat) : Nat := ((d.aud.mixes.filter (fun x => x.2.home == r)).map (fun x => mixCharge (d.mixEnt x.1))).sum
def Dev.audMixes (d : Dev) (r : Nat) : Nat := (d.aud.mixes.filter (fun x => x.2.home == r)).length

def filterChannels : Nat := 4096
def chanKey (r c : Nat) : Nat := r * filterChannels + c

/-- A free channel of a region, on a filter cell that is not OUT. -/
def Dev.freeChan (d : Dev) (r : Nat) : Option Nat :=
  let used := (d.aud.chans.filter (fun c => c.1 / filterChannels == r)).map (fun c => c.1 % filterChannels)
  let up := fun f => !(d.cell (cellCode 3 (r * 2 + f))).out
  let from_ := fun (lo : Nat) => (List.range 2048).find? (fun k => !used.contains (lo + k))
  match (if up 0 then from_ 0 else none) with
  | some k => some k
  | none => if up 1 then (from_ 2048).map (· + 2048) else none

def audEntOk (e : Entry) : Bool :=
  decide (aeCodec e ≤ 3) && decide (e.f 0 27 26 ≤ 1) && decide (20 ≤ e.f 2 31 23) && decide (e.f 2 31 23 ≤ 400) &&
  decide (e.f 2 31 23 ≤ e.f 2 22 14) && decide (e.f 2 22 14 ≤ 400) && decide (-24 ≤ aeGain e) && decide (aeGain e ≤ 12)

def fmOk (v : Nat) : Bool :=
  !fmEn v || (decide (fmCodec v ≤ 3) &&
    (if fmCodec v = 0 then decide (6 ≤ v % 256) else v % 256 == 0 && !v.testBit 11 && !v.testBit 10))

def mixEntOk (e : Entry) : Bool :=
  fmEn (mixFormat e 0) && (List.range 4).all (fun f => fmOk (mixFormat e f)) &&
  decide (-24 ≤ signed 8 (e.f 0 23 16)) && decide (signed 8 (e.f 0 23 16) ≤ 12)

/-- The template of an audio entry in a region. -/
def Dev.audTemplate (d : Dev) (r : Nat) (e : Entry) : Option Template := d.templateFor r Kd.adecode (e.f 3 31 24)

/-- Cadence and cost of an audio entry's ADECODE releases in a region, and of a mix's: every 10 ms where the template leaves it open. -/
def Dev.audRel (d : Dev) (r : Nat) (e : Entry) : Nat × Nat := relOf (d.audTemplate r e) 6
def Dev.mixRel (d : Dev) (r : Nat) : Nat × Nat := relOf (d.stdTemplate r Kd.mix) 6

/-- A channel is assigned to an entry: SILENT, running BLOCK from the first beat it filters; as a switch where the entry brings a
channel's state with it (R239, R250). -/
def Dev.assignChan (d : Dev) (e : Nat) : Dev :=
  match d.audio e with
  | none => d
  | some s =>
    match d.freeChan s.region with
    | none => d.setAud e { s with chan := none }
    | some c =>
      let v : Chan := match s.parked with
        | some old => { old with chain := {}, since := none }
        | none => { ent := e, silentFrom := d.beat, lastPkt := d.beat }
      (d.setAud e { s with chan := some c, parked := none }).setChan (chanKey s.region c) v

/-- An entry's channel is freed, and goes to an entry of the region that waits for one (R250). -/
def Dev.dropChan (d : Dev) (e : Nat) : Dev :=
  match d.audio e with
  | some s =>
    match s.chan with
    | some c =>
      let d := d.setAud e { s with chan := none, parked := tabFind d.aud.chans (chanKey s.region c) }
      let d := { d with aud := { d.aud with chans := tabErase d.aud.chans (chanKey s.region c) } }
      match d.aud.ents.find? (fun x => x.1 != e && x.2.region == s.region && x.2.chan.isNone) with
      | some x => d.assignChan x.1
      | none => d
    | none => d
  | none => d

def Dev.entChan (d : Dev) (e : Nat) : Option (Nat × Chan) :=
  match d.audio e with
  | some s => s.chan.bind (fun c => (d.chan (chanKey s.region c)).map (fun v => (chanKey s.region c, v)))
  | none => none

/-- The audio entry of a brood. -/
def Dev.audOf (d : Dev) (b : Nat) : Option Nat := (d.aud.ents.find? (fun x => aeBrood (d.audEnt x.1) == b)).map (·.1)

/-! ### Packets -/

/-- Payload of an RTP packet, its marker and its payload type. -/
def rtpBody (bs : List Byte) : List Byte × Bool × Nat :=
  let b0 := byteAt bs 0
  let h := 12 + 4 * (b0 % 16)
  let h := if b0.testBit 4 then h + 4 + 4 * be16 bs (h + 2) else h
  let pad := if b0.testBit 5 then (bs.getLast?.map (·.toNat)).getD 0 else 0
  ((bs.drop h).take (bs.length - h - pad), (byteAt bs 1).testBit 7, byteAt bs 1 % 128)

/-- Samples at 48 kHz of an Opus packet, by its table-of-contents byte (RFC 6716). -/
def opusSamples (body : List Byte) : Nat :=
  let toc := byteAt body 0
  let c := toc / 8
  let one := if c < 12 then [480, 960, 1920, 2880].getD (c % 4) 0
             else if c < 16 then [480, 960].getD (c % 2) 0 else [120, 240, 480, 960].getD (c % 4) 0
  let n := match toc % 4 with | 0 => 1 | 1 => 2 | 2 => 2 | _ => byteAt body 1 % 64
  one * n

/-- Length in samples at 48 kHz, DTX signalled, comfort noise, and whether it is outside Table 11.1. -/
def packetFacts (e : Entry) (bs : List Byte) : Nat × Bool × Bool × Bool :=
  let (body, _, pt) := rtpBody bs
  let cn := e.b 3 15 && pt == e.f 3 14 8
  if cn then (0, false, true, false)
  else if aeCodec e = 0 then
    let n := opusSamples body
    (n, decide (body.length ≤ 2), false, pt != e.f 3 6 0 || decide (5760 < n) || n == 0)
  else (body.length * 6, false, false, pt != e.f 3 6 0 || body.length % 20 != 0)

def audClock (codec : Nat) : Nat := if codec = 0 then 48000 else 8000

/-- Age of an item since its ingress stamp, ns. -/
def Dev.ageOf (d : Dev) (it : Item) : Nat := toField 64 ((d.dtNs : Int) - it.desc.f 6 31 0 + 1000000000) % 1000000000

/-- The present moment in samples. -/
def Dev.sampleNow (d : Dev) : Rat := (d.beat * 80 : Nat) + (d.fclk * 80 : Nat) / (2500000 : Rat)

/-- Beat of an item's ingress stamp. -/
def Dev.ingressBeat (d : Dev) (it : Item) : Nat := (d.sampleNow - (d.ageOf it * 48 : Nat) / (1000000 : Rat)).floor.toNat / 80

/-- JB_WINDOW in beats. -/
def Dev.jbWindow (d : Dev) : Nat := d.fld Reg.AUD_CFG 15 8 * 60

/-- D and the margins after a packet (R232): one step of 10 ms at most in any 200 ms. -/
def Dev.jitterStep (d : Dev) (e : Nat) (margin : Rat) (late : Bool) : Dev :=
  match d.audio e with
  | none => d
  | some s =>
    let ent := d.audEnt e
    let win := d.jbWindow
    let head := d.fld Reg.AUD_CFG 23 16
    let ms := (d.beat, margin) :: s.margins.filter (fun m => decide (d.beat < m.1 + win))
    let sorted := sortBy (fun a b => decide (a ≤ b)) (ms.map (·.2))
    let p5 := sorted.getD (ceilDiv sorted.length 20 - 1) 0
    let since := if (head + 20 : Nat) < p5 then (match s.since with | some b => some b | none => some d.beat) else none
    let s := { s with margins := ms, p5 := p5, since := since }
    let d := d.setAud e s
    let d := if late && decide (aeMax ent ≤ s.depth) then d.audEvent s.region 1 (aeBrood ent) else d
    let soon := match s.lastStep with | some b => decide (d.beat < b + 120) | none => false
    if soon then d
    else if (late ∨ p5 < (head : Nat)) ∧ s.depth < aeMax ent then
      (d.setAud e { s with depth := s.depth + 10, steps := s.steps ++ [(true, d.beat)], lastStep := some d.beat }).audTally e 4 (some 3)
    else
      match since with
      | some b =>
        if b + win ≤ d.beat ∧ aeMin ent < s.depth then
          (d.setAud e { s with depth := s.depth - 10, steps := s.steps ++ [(false, d.beat)], lastStep := some d.beat, since := none }).audTally
            e 5 (some 3)
        else d
      | none => d

/-- Signed difference of RTP timestamps. -/
def tsDiff (a b : Nat) : Int := signed 32 (toField 32 ((a : Int) - b))

/-- What a job reads of the queue for a slice: the packets that overlap it, and whether they cover it. A packet that is FAIL counts as
lost (R113); a slice that a growth inserted takes no packet. -/
def Dev.sliceRead (d : Dev) (s : AudEnt) (media : Nat) : SliceRead :=
  let genuine := fun (p : APkt) => match (d.payload p.uid).map (·.auth) with | some 1 => false | some 3 => false | _ => true
  let lo : Int := (media * 80 : Nat)
  let hi := lo + 480
  let sound := s.pkts.filter (fun p => genuine p && !p.cn && !p.lost && !p.dtx)
  let here := sound.filter (fun p => decide (p.base + s.shift < hi) && decide (lo < p.base + s.shift + p.dur))
  let cover := (here.map (fun p => min hi (p.base + s.shift + p.dur) - max lo (p.base + s.shift))).sum
  let quiet := s.pkts.any (fun p => (p.cn || p.dtx) && decide (p.base + s.shift < hi)) || (match s.last with | some (_, q) => q | none => false)
  { uids := if decide (480 ≤ cover) && !s.inserted.contains media then here.map (·.uid) else [], quiet := quiet && here.isEmpty,
    next := sound.any (fun p => decide (lo < p.base + s.shift)), at_ := d.now }

/-- A packet of a DECODE entry, already in its jitter queue: anchored or placed (R231), late ones counted (R234). -/
def Dev.audArrive (d : Dev) (e : Nat) (it : Item) : Dev :=
  match d.audio e with
  | none => d
  | some s =>
    let ent := d.audEnt e
    let bs := ((((d.payload it.uid).map (·.bytes)).getD []).drop it.md.rtpOfs).take it.rtpLen
    let (dur, dtx, cn, lost) := packetFacts ent bs
    let marker := (rtpBody bs).2.1
    let clock := audClock (aeCodec ent)
    let fresh := match s.anchor, s.last with
      | some _, some (ts, quiet) => marker || quiet || decide (tsDiff it.md.ts ts < 0) || decide ((clock : Int) < tsDiff it.md.ts ts)
      | _, _ => true
    let lo := d.ingressBeat it + ceilDiv (s.depth * 6) 10
    let lo := match s.lastSlice with | some q => max lo (q + 6) | none => lo
    let q := d.slotBeat (aeFlock ent) 6 lo
    let s := if fresh then { s with anchor := some (it.md.ts, ((q * 80 : Nat) : Int) - s.shift), steps := [] } else s
    let (ats, apos) := s.anchor.getD (0, 0)
    let base := apos + tsDiff it.md.ts ats * 48000 / clock
    let pos := base + s.shift
    let late := match (if s.readAt = some d.now then s.readOld else s.readTo) with | some r => decide (pos < r) | none => false
    let margin : Rat := ((pos : Rat) - d.sampleNow) / 48 + (d.ageOf it : Nat) / (1000000 : Rat)
    let s := { s with last := some (it.md.ts, dtx || cn) }
    let s := if late then s else { s with pkts := s.pkts ++ [{ uid := it.uid, base := base, dur := dur, dtx := dtx, cn := cn, lost := lost }] }
    let s := if late then s else { s with reading := s.reading.map (fun r => if r.2.at_ = d.now then (r.1, d.sliceRead s r.1) else r) }
    let d := d.setAud e s
    let d := if late then d.audTally e 3 (some 1) else d
    d.jitterStep e margin late

/-- Packets wholly before a position are released from the jitter queue, which keeps its mark at its oldest item; READ stands past the
packets that begin before that position, which the cell has read. -/
def Dev.audRelease (d : Dev) (e : Nat) (upto : Int) : Dev :=
  match d.audio e with
  | none => d
  | some s =>
    let q := aeQueue (d.audEnt e)
    let keep := s.pkts.filter (fun p => decide (upto < p.base + s.shift + p.dur))
    let d := d.setAud e { s with pkts := keep }
    let st := d.queue q
    let gone := (st.items.takeWhile (fun it => !keep.any (fun p => p.uid == it.uid))).length
    let d := d.releaseOldest q gone false
    let st := d.queue q
    let ahead := fun (it : Item) => keep.any (fun p => p.uid == it.uid && decide (upto ≤ p.base + s.shift))
    d.setQueue q { st with mark := st.release, markSet := true, read := st.release + (st.items.reverse.dropWhile ahead).length }

/-! ### ADECODE (R233 to R235) -/

/-- The brood's channel is below the END_LVL of its profile. -/
def Dev.belowEnd (d : Dev) (e : Nat) : Bool :=
  match d.entChan e with
  | some (_, c) => decide ((d.ent .flt 1 ((d.audEnt e).f 0 23 21)).f 0 17 9 < c.level)
  | none => true

/-- At a beat of the flock's phase: a step of D that has found no anchor is applied between slices, and the slice's task is
released. -/
def Dev.releaseAdecode (d : Dev) (e : Nat) : Dev :=
  match d.audio e with
  | none => d
  | some s =>
    let ent := d.audEnt e
    let win := d.jbWindow
    let m := d.beat + 6
    let s := match s.steps with
      | (true, b) :: rest =>
        if b + win ≤ d.beat then
          { s with shift := s.shift + 480, steps := rest, inserted := m :: s.inserted, readTo := s.readTo.map (· + 480) }
        else s
      | (false, b) :: rest =>
        if b + win ≤ d.beat ∧ (d.belowEnd e = true ∨ b + 2 * win ≤ d.beat) then { s with shift := s.shift - 480, steps := rest } else s
      | [] => s
    let d := d.setAud e s
    match d.audTemplate s.region ent with
    | none => d
    | some t =>
      (d.launch { kind := Kd.adecode, flock := aeFlock ent, entry := e, media := m, tmpl := t, cad := 6, region := some s.region }).2

/-- The job reads the queue. A packet that arrives in the same FCLK is read too (R127). -/
def Dev.freezeAdecode (d : Dev) (x : Task) : Dev :=
  d.modAud x.entry (fun s =>
    let hi : Int := (x.media * 80 + 480 : Nat)
    { s with readOld := if s.readAt = some d.now then s.readOld else s.readTo, readAt := some d.now,
             readTo := some (max hi (s.readTo.getD hi)), lastSlice := some (max x.media (s.lastSlice.getD 0)),
             reading := recSet s.reading x.media (d.sliceRead s x.media) })

/-- All the DECODE channels of a filter group have a frame for a beat. -/
def Dev.groupReady (d : Dev) (r g n : Nat) : Bool :=
  (d.aud.chans.filter (fun c => c.1 / filterChannels == r && c.1 % filterChannels / 64 == g)).all (fun c =>
    aeClient (d.audEnt c.2.ent) ||
    (match d.audio c.2.ent with
     | some s => s.frames.any (fun f => decide (f.media ≤ n) && decide (n < f.media + 6))
     | none => true))

/-- A frame is finished: kept, offered to the tap, published as an AFRAME, and the samples of its group posted once whole. -/
def Dev.publishFrame (d : Dev) (e : Nat) (f : AFrame) : Dev :=
  match d.audio e with
  | none => d
  | some s =>
    let ent := d.audEnt e
    let tag := mkTag (aeFlock ent) (aeBrood ent) Cl.aframe (f.media % 2 ^ 32)
    let hi : Int := (f.media * 80 + 480 : Nat)
    let d := d.setAud e { s with frames := (f :: s.frames.filter (fun g => g.media != f.media)).take 8, reading := tabErase s.reading f.media,
                                 readTo := some (max hi (s.readTo.getD hi)), lastSlice := some (max f.media (s.lastSlice.getD 0)) }
    let stereo := !f.right.isEmpty
    let bytes := (f.left.zipIdx.flatMap (fun x => toBe 4 (toField 32 x.1) ++ (if stereo then toBe 4 (toField 32 (f.right.getD x.2 0)) else [])))
    let d := d.tapOffer { kind := tapPcm, sub := 0, flock := aeFlock ent, ident := aeBrood ent, flags := f.quality * 4 + stereo.toNat,
                          beat := f.media % 2 ^ 32, len := bytes.length, known := bytes }
    let (_, d) := d.arrive tag (2 ^ 34 + e) f.quality
    match s.chan with
    | none => d
    | some c =>
      let g := c / 64
      foldDev ((List.range 6).map (f.media + ·)) (fun n d =>
        let had := s.frames.any (fun h => decide (h.media ≤ n) && decide (n < h.media + 6))
        if !had && d.groupReady s.region g n then
          (d.arrive (mkTag 0 (s.region * 64 + g) Cl.samples (n % 2 ^ 32)) (2 ^ 35 + s.region * 64 + g) 0).2
        else d) d

/-- 480 samples, zeros where fewer are given. -/
def slice480 (l : List Int) : List Int := (List.range 480).map (fun i => l.getD i 0)

/-- The ADECODE job retires (R234). -/
def Dev.retireAdecode (d : Dev) (t : Nat) (x : Task) (res : JobResult) : Dev :=
  let e := x.entry
  match d.audio e with
  | none => d.complete t
  | some s =>
    let rd := (tabFind s.reading x.media).getD {}
    let ok := !rd.uids.isEmpty && rd.uids.all (fun u => match (d.payload u).map (·.auth) with | some 1 => false | some 3 => false | _ => true)
    let ins := s.inserted.contains x.media
    let d := d.modAud e (fun s => { s with inserted := s.inserted.filter (fun m => m != x.media), fillRun := 0, lost := false })
    let silent := match d.entChan e with | some (_, c) => !c.talking | none => true
    let (q, d) :=
      if ins then if silent then (0, d) else (1, (d.audTally e 1 (some 0)).audEvent s.region 0 (aeBrood (d.audEnt e)))
      else if ok then (0, d)
      else if res.fec && rd.next && decide (aeCodec (d.audEnt e) = 0) && d.flag Reg.AUD_CFG 24 then (1, d.audTally e 2 (some 2))
      else if rd.quiet then (0, d)
      else (1, (d.audTally e 1 (some 0)).audEvent s.region 0 (aeBrood (d.audEnt e)))
    let d := (d.audTally e 0 none).complete t
    let f : AFrame := { media := x.media, left := slice480 res.left, right := if res.right.isEmpty then [] else slice480 res.right, quality := q }
    (d.publishFrame e f).audRelease e ((x.media * 80 + 480 : Nat) : Int)

/-- A sample 6 dB lower. -/
def halveSample (v : Int) : Int := v / 2

/-- A settled ADECODE (R235): the previous frame 6 dB lower, silence the second time; the decoder's state records the loss. -/
def Dev.endAdecode (d : Dev) (x : Task) : Dev :=
  if x.st = St.complete then d
  else
    match d.audio x.entry with
    | none => d
    | some s =>
      let prev := s.frames.head?
      let l := if s.fillRun = 0 then ((prev.map (·.left)).getD []).map halveSample else []
      let r := if s.fillRun = 0 then ((prev.map (·.right)).getD []).map halveSample else []
      let stereo := match prev with | some p => !p.right.isEmpty | none => false
      let d := d.setAud x.entry { s with fillRun := s.fillRun + 1, lost := true }
      (d.publishFrame x.entry { media := x.media, left := slice480 l, right := if stereo then slice480 r else [], quality := 1 }).audRelease
        x.entry ((x.media * 80 + 480 : Nat) : Int)

/-! ### Entries: leaving, moving -/

/-- An entry gives up its channel and its jitter queue, whose packets are released. -/
def Dev.releaseAud (d : Dev) (e : Nat) : Dev :=
  match d.audio e with
  | none => d
  | some s =>
    let ent := d.audEnt e
    let d := d.abortTasks (fun x => x.kind == Kd.adecode && x.entry == e)
    let rel := d.audRel s.region ent
    let d := d.dropChan e
    let d := if aeClient ent then foldDev s.pkts (fun p d => d.derefPayload p.uid) d
      else (d.dropCadence (aeFlock ent) rel.1 rel.2).releaseOldest (aeQueue ent) (d.queue (aeQueue ent)).items.length false
    { d with aud := { d.aud with ents := tabErase d.aud.ents e } }

/-- An entry whose flock moved (R250): at the end of its running task it goes, its channel assigned afresh in the new region as a switch. It
is refused there where the region's template breaks R51 (R54; assumption 103). -/
def Dev.moveAud (d : Dev) (e r : Nat) : Dev :=
  match d.audio e with
  | none => d
  | some s =>
    let ent := d.audEnt e
    if s.region = r then d.setAud e { s with moveTo := none }
    else if !(d.liveTasks Kd.adecode e).isEmpty then d.setAud e { s with moveTo := some r }
    else if !keepsR51 (d.audTemplate r ent) 6 none then
      ((d.releaseAud e).setEnt .aud 0 e (ent.setB 0 31 false)).tabErr Reg.AUD_TAB_CMD 4
    else
      let d := if aeClient ent then d else d.swapCadence (aeFlock ent) (d.audRel s.region ent) (d.audRel r ent)
      ((d.dropChan e).modAud e (fun s => { s with region := r, moveTo := none })).assignChan e

/-- A mix entry leaves: its live tasks are aborted. -/
def Dev.releaseMixEnt (d : Dev) (f : Nat) : Dev :=
  match d.mix f with
  | none => d
  | some s =>
    let rel := d.mixRel s.region
    let d := d.abortTasks (fun x => (x.kind == Kd.mix || x.kind == Kd.aencode) && x.entry == f)
    { d.dropCadence f rel.1 rel.2 with aud := { d.aud with mixes := tabErase d.aud.mixes f } }

/-- The mix of a flock that moved, at the end of its running tasks; it is refused where the new region's template breaks R51. -/
def Dev.moveMix (d : Dev) (f r : Nat) : Dev :=
  match d.mix f with
  | none => d
  | some s =>
    if s.region = r then d.setMix f { s with moveTo := none }
    else if !(d.liveTasks Kd.mix f ++ d.liveTasks Kd.aencode f).isEmpty then d.setMix f { s with moveTo := some r }
    else if !keepsR51 (d.stdTemplate r Kd.mix) 6 none then
      ((d.releaseMixEnt f).setEnt .aud 1 f ((d.mixEnt f).setB 0 31 false)).tabErr Reg.AUD_TAB_CMD 4
    else (d.swapCadence f (d.mixRel s.region) (d.mixRel r)).setMix f { s with region := r, moveTo := none }

/-- An audio task has ended: what waited for it to move goes. -/
def Dev.followAud (d : Dev) (x : Task) : Dev :=
  if x.kind = Kd.adecode then
    match (d.audio x.entry).bind (·.moveTo) with
    | some r => d.moveAud x.entry r
    | none => d
  else
    match (d.mix x.entry).bind (·.moveTo) with
    | some r => d.moveMix x.entry r
    | none => d

end Sys2Proof.Machine
end

