-- ==== Sys2Proof/Machine/Mixer.lean ====
section
/-! DEFINITION. The filter chain and its talker events (R236 to R241), the choice of talkers (R242, R243), mixing and the
encoded mixes (R244 to R249), and AUD_TAB and FLT_TAB (R251, R252). -/

namespace Sys2Proof.Machine
open Sys2Proof

/-! ### The stages of a channel (Table 11.3, R237) -/

def wrap56 (n : Int) : Nat := (n % 2 ^ 56).toNat

/-- One sample through the four integrators, wrapping. -/
def integrate (p : Nat) : List Nat → List Nat
  | [] => []
  | i :: is => let v := (i + p) % 2 ^ 56; v :: integrate v is

/-- One value through the combs: the output and the combs' new delays. -/
def combs (v : Nat) : List Nat → Nat × List Nat
  | [] => (v, [])
  | c :: cs => let (o, r) := combs (wrap56 ((v : Int) - c)) cs; (o, v :: r)

/-- Compensator output times 64: (64 + 2A) x1 − A (x + x2). -/
def compensate (a x : Nat) (fir : List Nat) : Int :=
  ((64 + 2 * a : Nat) : Int) * fir.getD 0 0 - (a : Int) * ((x : Int) + fir.getD 1 0)

/-- Forty squares: one output of the decimator and of the compensator. -/
def decimate (a : Nat) (c : Chain) (sq : List Nat) : Int × Chain :=
  let integ := sq.foldl (fun i p => integrate p i) c.integ
  let (x, comb) := combs (integ.getD 3 0) c.comb
  (compensate a x c.fir, { c with integ := integ, comb := comb, fir := [x, c.fir.getD 0 0] })

/-- Square of the top 16 bits of a sample; both sides of a stereo one. -/
def squareOf (l : Int) (r : Option Int) : Nat :=
  let p := fun (s : Int) => ((s / 65536) * (s / 65536)).toNat
  match r with
  | none => p l
  | some r => (p l + p r) / 2

/-- Level of a mean square, in 0.25 dB below 0 dBov, from −127 dB to 0 dB; how a level between two steps is rounded is open. -/
def levelOf (p : Rat) : Nat :=
  if p ≤ 0 then 508
  else
    let r : Rat := (2 ^ 30 : Nat) / p
    let n := r.num.toNat ^ 40
    let dn := r.den ^ 40
    match ((List.range 509).filter (fun k => decide (10 ^ k * dn ≤ n))).getLast? with
    | none => 0
    | some k => if k = 508 ∨ 10 ^ k * dn = n then k else k + (Config.roundsUp r).toNat

/-- Level of a sum of n compensator outputs (times 64). -/
def levelOfComp (ys : List Int) : Nat := levelOf ((ys.sum : Int) / ((ys.length * 64 * 40 ^ 4 : Nat) : Rat))

/-- One beat of a channel: its registers after it and the levels it puts out (R238, R239). -/
def chanBeat (preset a n since : Nat) (c : Chain) (sq : List Nat) : Chain × List Nat :=
  let (y1, c) := decimate a c (sq.take 40)
  let (y2, c) := decimate a c (sq.drop 40)
  let even := (n - since) % 2 == 0
  let sum := (if even then 0 else c.block) + sq.sum
  let got := (if n % 4 = 0 then [] else c.collected) ++ [y1, y2]
  let c := { c with block := sum, collected := got }
  let block := if even then [] else [levelOf ((sum : Nat) / (160 : Rat))]
  if n ≤ since + 3 then (c, block)
  else
    match preset with
    | 0 => (c, [levelOfComp [y1], levelOfComp [y2]])
    | 1 => (c, [levelOfComp [y1, y2]])
    | 2 => (c, if n % 4 = 3 ∧ since + 6 ≤ n then [levelOfComp got] else [])
    | _ => (c, block)

/-! ### Talker events (R240, R241) -/

/-- START_LVL, END_LVL, CLIP_LVL; hold times and windows in beats. -/
structure Profile where
  preset : Nat
  startLvl : Nat
  endLvl : Nat
  clipLvl : Nat
  startHold : Nat
  endHold : Nat
  silence : Nat
  rankWin : Nat
  comp : Nat

def beatsOfMs (ms : Nat) : Nat := ceilDiv (ms * 6) 10

def Dev.profile (d : Dev) (p : Nat) : Profile :=
  let e := d.ent .flt 1 p
  { preset := e.f 0 31 30, startLvl := e.f 0 26 18, endLvl := e.f 0 17 9, clipLvl := e.f 0 8 0, startHold := beatsOfMs (e.f 1 31 16),
    endHold := beatsOfMs (e.f 1 15 0), silence := e.f 2 31 16 * 600, rankWin := beatsOfMs (e.f 2 15 0), comp := e.f 3 7 0 }

def Dev.chanProfile (d : Dev) (c : Chan) : Profile := d.profile ((d.audEnt c.ent).f 0 23 21)

/-- A talker event: counted, raised, and sent to the tap where the entry asks (record layout: assumption 10). -/
def Dev.talkEvent (d : Dev) (key code level : Nat) (ent : Nat) : Dev :=
  let e := d.audEnt ent
  let r := key / filterChannels
  let d := d.fltCount r (code - 1) 1
  let d := d.audEvent r (if code ≤ 2 then 3 else code + 1) (aeBrood e)
  if e.b 0 20 then
    let bs := toBe 1 code ++ toBe 2 level ++ toBe 2 (aeBrood e) ++ toBe 11 0
    d.tapOffer { kind := tapEvent, sub := 0, flock := aeFlock e, ident := mixBrood (d.mixEnt (aeFlock e)), beat := d.beat % 2 ^ 32,
                 len := bs.length, known := bs }
  else d

/-- A channel turns SILENT. -/
def Dev.talkEnd (d : Dev) (key n : Nat) : Dev :=
  match d.chan key with
  | none => d
  | some c =>
    (d.setChan key { c with talking := false, silentFrom := n, silenceSent := false, startAt := none, endAt := none }).talkEvent
      key 2 c.level c.ent

/-- One output of a channel's level in beat n; `quiet`: its voice flag is 0. -/
def Dev.chanOutput (d : Dev) (key n level : Nat) (quiet : Bool) : Dev :=
  match d.chan key with
  | none => d
  | some c =>
    let p := d.chanProfile c
    let loud := decide (level ≤ p.startLvl) && !quiet
    let low := decide (p.endLvl < level)
    let c := { c with level := level,
                      hist := ((n, level) :: c.hist).filter (fun h => decide (n < h.1 + p.rankWin + 12)),
                      startAt := if loud then (match c.startAt with | some b => some b | none => some n) else none,
                      endAt := if low then (match c.endAt with | some b => some b | none => some n) else none }
    let d := d.setChan key c
    let d :=
      match c.talking, c.startAt, c.endAt with
      | false, some b, _ =>
        if p.startHold ≤ n - b then
          (d.setChan key { c with talking := true, talkFrom := b, endAt := none }).talkEvent key 1 level c.ent
        else d
      | true, _, some b => if p.endHold ≤ n - b then d.talkEnd key n else d
      | _, _, _ => d
    let gap := d.fld Reg.FLT_CFG 15 8 * 60
    let clip := decide (level ≤ p.clipLvl) && (match c.clipAt with | some b => decide (b + gap ≤ n) | none => true)
    let d := if clip then
        (match d.chan key with | some c => d.setChan key { c with clipAt := some n } | none => d).talkEvent key 3 level c.ent
      else d
    match d.chan key with
    | none => d
    | some c =>
      if !c.talking && !c.silenceSent && decide (c.silentFrom + p.silence ≤ n) then
        (d.setChan key { c with silenceSent := true }).talkEvent key 4 level c.ent
      else d

/-- Squares of a channel's 80 samples of beat n; none: its samples are missing. -/
def Dev.chanSquares (d : Dev) (c : Chan) (n : Nat) : Option (List Nat) :=
  match d.audio c.ent with
  | none => none
  | some s =>
    (s.frames.find? (fun f => decide (f.media ≤ n) && decide (n < f.media + 6))).map (fun f =>
      (List.range 80).map (fun i =>
        let k := (n - f.media) * 80 + i
        squareOf (f.left.getD k 0) (if f.right.isEmpty then none else some (f.right.getD k 0))))

/-- One beat of one DECODE channel. -/
def Dev.filterChan (d : Dev) (key n : Nat) : Dev :=
  match d.chan key with
  | none => d
  | some c =>
    let r := key / filterChannels
    let sq := d.chanSquares c n
    let d := if sq.isNone then d.fltCount r 5 1 else d
    let p := d.chanProfile c
    let a := c.since.getD n
    let (ch, outs) := chanBeat p.preset p.comp n a c.chain (sq.getD (List.replicate 80 0))
    let d := d.setChan key { c with chain := ch, since := some a }
    foldDev outs (fun l d => d.chanOutput key n l false) d

/-- The FILTER task of a group has run for beat n (R236); a channel whose context failed its parity check runs BLOCK again. -/
def Dev.filterGroup (d : Dev) (entry n : Nat) (ctxErr : Option Nat) : Dev :=
  let r := entry / 64
  let keys := ((d.aud.chans.filter (fun c => c.1 / filterChannels == r && c.1 % filterChannels / 64 == entry % 64 &&
    !aeClient (d.audEnt c.2.ent))).map (·.1))
  let d := foldDev keys (fun k d => d.filterChan k n) d
  match ctxErr with
  | none => d
  | some c =>
    match d.chan (chanKey r c) with
    | none => d
    | some v => ((d.setChan (chanKey r c) { v with chain := {}, since := none }).fltCount r 7 1).raise (srcRegion (r + 2) 38) c

/-- Release of a group's FILTER task, its SAMPLES posted where no channel of the group lacks them (R236). -/
def Dev.releaseFilter (d : Dev) (r g : Nat) : Dev :=
  match d.stdTemplate r Kd.filter with
  | none => d
  | some t =>
    let tag := mkTag 0 (r * 64 + g) Cl.samples (d.beat % 2 ^ 32)
    let d := if d.groupReady r g d.beat && decide ((d.heldOp tag).st ≠ 1) then (d.arrive tag (2 ^ 35 + r * 64 + g) 0).2 else d
    (d.launch { kind := Kd.filter, flock := 0, entry := r * 64 + g, media := d.beat, tmpl := t, cad := 1, region := some r, tags := [tag] }).2

/-- Groups of a region with an assigned channel. -/
def Dev.filterGroups (d : Dev) (r : Nat) : List Nat :=
  ((d.aud.chans.filter (fun c => c.1 / filterChannels == r)).map (fun c => c.1 % filterChannels / 64)).eraseDups

/-- A packet of a CLIENT_LEVEL entry that passed authentication: one output (R241). -/
def Dev.clientLevel (d : Dev) (e : Nat) (it : Item) : Dev :=
  match d.entChan e with
  | none => d
  | some (k, c) =>
    let d := (d.setChan k { c with lastPkt := d.beat }).fltCount (k / filterChannels) 6 1
    d.chanOutput k d.beat (it.md.level % 128 * 4) (d.flag Reg.FLT_CFG 16 && !it.md.level.testBit 7)

/-- At each beat: a client that stopped sending ends its talk END_MS after its outputs fell below END_LVL, or after its last packet. -/
def Dev.clientEnds (d : Dev) : Dev :=
  foldDev (d.aud.chans.filter (fun c => c.2.talking && aeClient (d.audEnt c.2.ent))) (fun c d =>
    if c.2.endAt.getD c.2.lastPkt + (d.chanProfile c.2).endHold ≤ d.beat then d.talkEnd c.1 d.beat else d) d

/-! ### The choice of talkers (R242, R243) -/

/-- Rank of a channel at beat m: the level of the mean power of its outputs in its window. -/
def Dev.rankOf (d : Dev) (c : Chan) (m : Nat) : Nat :=
  let win := (d.chanProfile c).rankWin
  let hs := c.hist.filter (fun h => decide (m ≤ h.1 + win) && decide (h.1 < m) && decide (c.talkFrom ≤ h.1))
  if hs.isEmpty then c.level
  else levelOf (((hs.map (fun h => Config.levelPower h.2)).sum / (hs.length : Nat)) * (2 ^ 30 : Nat))

/-- Broods that hold a place of a flock's mix and found no channel in the region they moved to: they stay, at −127 dB (R250). -/
def Dev.mutePlaces (d : Dev) (f : Nat) : List Nat :=
  let mute := fun (b : Nat) => match (d.audOf b).bind d.audio with | some s => s.chan.isNone | none => false
  match d.mix f with
  | some s => (s.places.filterMap id).filter mute
  | none => []

/-- The talking channels of a flock: brood and rank, best first; equal ranks by the lower brood. -/
def Dev.talkersOf (d : Dev) (f m : Nat) : List (Nat × Nat) :=
  let cs := d.aud.chans.filter (fun c => c.2.talking && aeFlock (d.audEnt c.2.ent) == f)
  sortBy (fun a b => decide (a.2 < b.2) || (a.2 == b.2 && decide (a.1 ≤ b.1)))
    (cs.map (fun c => (aeBrood (d.audEnt c.2.ent), d.rankOf c.2 m)) ++ (d.mutePlaces f).map (fun b => (b, 508)))

/-- The selection of R242: places before, talking broods with their ranks (0.25 dB below 0 dBov), N and SWAP_LVL; answers
places and departing broods. -/
def selectPlaces (prev : List (Option Nat)) (talking : List (Nat × Nat)) (n swap : Nat) : List (Option Nat) × List Nat :=
  let rank := fun (b : Nat) => ((talking.find? (fun t => t.1 == b)).map (·.2)).getD 100000
  let isTalking := fun b => talking.any (fun t => t.1 == b)
  let kept := (prev.zipIdx).map (fun x => match x.1 with | some b => if isTalking b && decide (x.2 < n) then some b else none | none => none)
  let gone := (prev.filterMap id).filter (fun b => !(kept.contains (some b)))
  let worst := fun (ps : List (Option Nat)) =>
    (sortBy (fun (a b : Nat × Nat) => decide (rank b.2 < rank a.2) || (rank a.2 == rank b.2 && decide (b.2 ≤ a.2)))
      ((ps.zipIdx).filterMap (fun x => x.1.map (fun b => (x.2, b))))).head?
  let (ps, gone) := talking.foldl (fun acc t =>
    let (ps, gone) := acc
    if ps.contains (some t.1) then acc
    else
      match (List.range n).find? (fun k => (ps.getD k none).isNone) with
      | some k => (ps.set k (some t.1), gone)
      | none =>
        match worst ps with
        | some (k, w) => if t.2 + swap ≤ rank w then (ps.set k (some t.1), gone ++ [w]) else acc
        | none => acc) (kept, gone)
  let best := (sortBy (fun (a b : Nat × Nat) => decide (rank a.2 < rank b.2) || (rank a.2 == rank b.2 && decide (a.2 ≤ b.2)))
    ((ps.zipIdx).filterMap (fun x => x.1.map (fun b => (x.2, b))))).head?
  let first := match ps.getD 0 none with | some b => rank b | none => 100000
  match best with
  | some (k, h) => if k ≠ 0 ∧ rank h + swap ≤ first then (((ps.set k (ps.getD 0 none)).set 0 (some h)), gone) else (ps, gone)
  | none => (ps, gone)

def selKey (f media : Nat) : Nat := f * 2 ^ 32 + media

/-- A frame mix: every second mix, on the flock's phase at cadence 12. -/
def Dev.frameMix (d : Dev) (f n : Nat) : Bool := n % 12 == d.phaseOf f 12

/-- A selection is posted: its places become the flock's, and a frame mix drives the speaker. -/
def Dev.postTalkers (d : Dev) (f m : Nat) (places : List (Option Nat)) (gone : List Nat) : Dev :=
  match d.mix f with
  | none => d
  | some s =>
    let e := d.mixEnt f
    let changed := ((List.range 8).filter (fun k => places.getD k none != s.places.getD k none)).length
    let d := (d.setMix f { s with places := places }).fltCount s.region 4 changed
    let d := { d with aud := { d.aud with sels := recSet d.aud.sels (selKey f (m % 2 ^ 32)) (places, gone) } }
    let d := if d.frameMix f m then (match places.getD 0 none with | some b => d.setSpeaker f b | none => d) else d
    (d.arrive (mkTag f (mixBrood e) Cl.talkers (m % 2 ^ 32)) (2 ^ 36 + f) 0).2

/-- The candidate lists that HOME has received for a spread flock from members that it reaches (R321, R325), with its own. -/
def Dev.wideTalkers (d : Dev) (e : Entry) (f m : Nat) : List (Nat × Nat) :=
  let key := dirIdx (dirHome e) (dirFlock e (dirHome e))
  let all := d.talkersOf f m ++ ((d.wideOthers e).filter (fun k => d.reaches k)).flatMap (fun k => (tabFind d.mul.cands (key * 8 + k)).getD [])
  sortBy (fun a b => decide (a.2 < b.2) || (a.2 == b.2 && decide (a.1 ≤ b.1))) all

/-- A selection as the numbers of a TALKERS frame: eight places (65,536: empty), then the departing broods. -/
def talkerNums (places : List (Option Nat)) (gone : List Nat) : List Nat := places.map (fun p => p.getD 65536) ++ gone

/-- The talker selector at beat m of a flock's mix phase; for a spread flock HOME selects for every member (R321). -/
def Dev.selectTalkers (d : Dev) (f m : Nat) : Dev :=
  match d.mix f with
  | none => d
  | some s =>
    let e := d.mixEnt f
    let pick := fun (l : List (Nat × Nat)) => if d.frameMix f m then selectPlaces s.places l (mixN e) (e.f 3 31 24) else (s.places, [])
    match d.wide f with
    | none =>
      let (ps, gone) := pick (d.talkersOf f m)
      d.postTalkers f m ps gone
    | some w =>
      if dirHome w ≠ d.devId then d
      else
        let (ps, gone) := pick (d.wideTalkers w f m)
        let d := foldDev (d.wideOthers w) (fun k d =>
          d.muleTo k muleTalkers 1 (dirFlock w k) 0 m (Config.muleBytes muleTalkers (talkerNums ps gone))) d
        d.postTalkers f m ps gone

/-! ### Mixing (R244 to R246) -/

/-- Half-up rounding of v / 2^n. -/
def roundShift (v : Int) (n : Nat) : Int := (v + 2 ^ (n - 1)) / 2 ^ n

/-- Linear change over the 480 samples: the value at sample i (assumption 25). -/
def ramp (a b : Int) (i : Nat) : Int := a + (b - a) * (i + 1) / 480

/-- One talker's term for each sample: fade from and to (Q1.15), gain from and to (Q4.12). -/
def termOf (xs : List Int) (f0 f1 g0 g1 : Int) : List Int :=
  (List.range 480).map (fun i => roundShift (xs.getD i 0 * ramp f0 f1 i * ramp g0 g1 i) 27)

def satQ31 (v : Int) : Int := max (-(2 ^ 31)) (min (2 ^ 31 - 1) v)

/-- Output of an accumulator under the master gain; the second tells that some sample was saturated. -/
def outputOf (acc : List Int) (m : Int) : List Int × Bool :=
  let raw := acc.map (fun a => roundShift (a * m) 12)
  (raw.map satQ31, raw.any (fun v => satQ31 v != v))

def addLists (a b : List Int) : List Int := (List.range 480).map (fun i => a.getD i 0 + b.getD i 0)
def subLists (a b : List Int) : List Int := (List.range 480).map (fun i => a.getD i 0 - b.getD i 0)

/-- AGC after a mix: toward AGC_TARGET − rank, within ±12 dB, at most 2 dB down and 0.5 dB up. -/
def agcNext (cur target : Rat) : Rat :=
  let t := max (-12) (min 12 target)
  if t < cur then max t (cur - 2) else min t (cur + 1 / 2)

/-- The AFRAME of a brood that a task holds. -/
def Dev.frameFor (d : Dev) (x : Task) (b : Nat) : Option AFrame :=
  let tag := mkTag x.flock b Cl.aframe (x.media % 2 ^ 32)
  if !x.ops.any (fun o => o.tag == tag && o.st == 1) then none
  else
    match tabFind d.aud.partials tag with
    | some f => some f
    | none => ((d.audOf b).bind d.audio).bind (fun s => s.frames.find? (fun f => f.media == x.media))

/-- The gain of an entry at a mix (R246): its AGC moves while its channel is TALKING. -/
def Dev.nextGain (d : Dev) (e m : Nat) : Dev :=
  match d.audio e with
  | none => d
  | some s =>
    let ent := d.audEnt e
    let agc : Rat := if !ent.b 2 7 then 0
      else match d.entChan e with
        | some (_, c) => if c.talking then agcNext s.agc ((d.rankOf c m : Nat) / (4 : Rat) - (d.fld Reg.AUD_CFG 7 0 : Nat)) else s.agc
        | none => s.agc
    d.setAud e { s with agc := agc, gain := Config.gainQ12 ((aeGain ent : Rat) + agc), gainWas := s.gain }

/-- The gains of a flock's DECODE entries at a mix. -/
def Dev.nextGains (d : Dev) (f m : Nat) : Dev :=
  foldDev ((d.aud.ents.filter (fun x => aeFlock (d.audEnt x.1) == f && !aeClient (d.audEnt x.1))).map (·.1)) (fun e d => d.nextGain e m) d

/-- One side of a frame in a mix: a mono frame on both sides; a stereo frame averaged in a mono mix. -/
def sideOf (stereo : Bool) (side : Nat) (f : AFrame) : List Int :=
  if f.right.isEmpty then f.left
  else if stereo then (if side = 0 then f.left else f.right)
  else (List.range 480).map (fun i => (f.left.getD i 0 + f.right.getD i 0) / 2)

/-- A mix made: its outputs by brood key (none: common), by side; whether each saturated. -/
structure MixOut where
  talker : Option Nat
  left : List Int
  right : List Int
  sat : Bool

/-- Output keys: format f of the common mix, or a talker's brood. -/
def commonKey (f : Nat) : Nat := f
def talkerKey (b : Nat) : Nat := 16 + b

/-- Format a talker's own stream is encoded in. -/
def Dev.talkerFormat (d : Dev) (f b : Nat) : Nat :=
  let e := d.mixEnt f
  match d.audOf b with
  | some k => let v := (d.audEnt k).f 0 25 24; if fmEn (mixFormat e v) then v else 0
  | none => 0

/-- Encoder states when a selection comes into force: the encoder of a talker that enters starts from a copy of the common one of its
format; one that leaves drops its own (R248). -/
def Dev.enterStreams (d : Dev) (f : Nat) (s : MixSt) (places : List (Option Nat)) : Tab Nat :=
  let stay := (places.filterMap id)
  let kept := s.encSt.filter (fun x => decide (x.1 < 16) || stay.any (fun b => talkerKey b == x.1))
  stay.foldl (fun t b =>
    if s.served.contains (some b) then t else recSet t (talkerKey b) ((tabFind s.encSt (commonKey (d.talkerFormat f b))).getD 0)) kept

/-- The terms of a flock's mix for a task's operands: its places and departing broods, the terms of each talker it holds, and the
sides' accumulators. -/
def Dev.mixTerms (d : Dev) (x : Task) : PartMix × Dev :=
  let f := x.flock
  match d.mix f with
  | none => ({}, d)
  | some s =>
    let stereo := (d.mixEnt f).b 0 30
    let key := selKey f (x.media % 2 ^ 32)
    let known := x.ops.any (fun o => o.st == 1 && tagClass o.tag == Cl.talkers)
    let (places, gone) := if known then (tabFind d.aud.sels key).getD ([], []) else (s.places, [])
    let mine := fun (b : Nat) => known && (match d.audOf b with | some k => !aeClient (d.audEnt k) | none => false)
    let talkers := (places.filterMap id).filter (fun b => mine b)
    let leaving := gone.filter (fun b => mine b)
    let d := d.nextGains f x.media
    let sides := if stereo then [0, 1] else [0]
    let step := fun (acc : List (Nat × List (List Int)) × List Nat × Dev) (b : Nat × Bool) =>
      let (terms, mixed, d) := acc
      match d.frameFor x b.1 with
      | none => (terms, mixed, d.audCount s.region 6 1)
      | some fr =>
        let (g0, g1) : Int × Int := match (d.audOf b.1).bind d.audio with | some s => (s.gainWas, s.gain) | none => (4096, 4096)
        let (f0, f1) : Int × Int := if b.2 then (32768, 0) else if s.mixed.contains b.1 then (32768, 32768) else (0, 32768)
        let ts := sides.map (fun side => termOf (sideOf stereo side fr) f0 f1 g0 g1)
        (terms ++ [(b.1, ts)], if b.2 then mixed else mixed ++ [b.1], d)
    let (terms, mixed, d) := (talkers.map (fun b => (b, false)) ++ leaving.map (fun b => (b, true))).foldl step ([], [], d)
    let accs := sides.map (fun side => (terms.map (fun t => t.2.getD side [])).foldl addLists (List.replicate 480 0))
    let d := match d.mix f with
      | some s =>
        if d.frameMix f x.media then d.setMix f { s with mixed := mixed, served := places, encSt := d.enterStreams f s places }
        else d.setMix f { s with mixed := mixed }
      | none => d
    ({ places := places, gone := gone, accs := accs, terms := terms }, { d with aud := { d.aud with sels := tabErase d.aud.sels key } })

/-- The outputs formed from accumulators: the common mix, and the mix without its own voice of each given talker. -/
def Dev.mixOuts (d : Dev) (f : Nat) (pm : PartMix) (talkers : List Nat) : List MixOut × Dev :=
  let e := d.mixEnt f
  let stereo := e.b 0 30
  let master : Int := Config.gainQ12 (signed 8 (e.f 0 23 16) : Rat)
  let make := fun (talker : Option Nat) (minus : Nat → List Int) =>
    let (l, sl) := outputOf (subLists (pm.accs.getD 0 []) (minus 0)) master
    let (r, sr) := if stereo then outputOf (subLists (pm.accs.getD 1 []) (minus 1)) master else ([], false)
    ({ talker := talker, left := l, right := r, sat := sl || sr } : MixOut)
  let own := talkers.map (fun b =>
    make (some b) (fun side => match pm.terms.find? (fun t => t.1 == b) with | some t => t.2.getD side [] | none => []))
  let outs := make none (fun _ => []) :: own
  let r := ((d.mix f).map (·.region)).getD 0
  (outs, if outs.any (·.sat) then (d.audCount r 7 (outs.filter (·.sat)).length).audEvent r 2 f else d)

/-! ### Wide mixes (R322) -/

/-- A PARTIAL's payload: 8 bytes of prefix with the bitmap of the places and departing entries held, then 48-bit samples; nothing
where no talker of the selection is this member's. -/
def partBytes (pm : PartMix) : List Byte :=
  if pm.terms.isEmpty then []
  else
    let held := fun (b : Option Nat) => match b with | some x => pm.terms.any (fun t => t.1 == x) | none => false
    let map := (pm.places ++ pm.gone.map some).zipIdx.map (fun x => if held x.1 then 2 ^ x.2 else 0)
    toBe 2 (map.sum % 65536) ++ List.replicate 6 0 ++ (List.range 480).flatMap (fun i => pm.accs.flatMap (fun a => toBe 6 (toField 48 (a.getD i 0))))

/-- The sides of a PARTIAL of the given payload; zeros where it holds none. -/
def partSides (stereo : Bool) (bs : List Byte) : List (List Int) :=
  let n := if stereo then 2 else 1
  (List.range n).map (fun s => (List.range 480).map (fun i =>
    if bs.length < 8 + 2880 * n then 0 else signed 48 (beNat (slice bs (8 + 6 * (i * n + s)) 6))))

/-- A running sum goes on along the chain once this member's part and the sum from the other side are there. -/
def Dev.sendRunning (d : Dev) (e : Entry) (f media side : Nat) : Dev :=
  let key := selKey f (media % 2 ^ 32)
  match d.chain e side, tabFind d.mul.parts key with
  | some dst, some pm =>
    let send := fun (pm : PartMix) (d : Dev) =>
      d.muleTo dst mulePartial 1 (dirFlock e dst) ((dirBrood e + d.devId) % 65536) media (partBytes pm)
    match d.chain e (1 - side) with
    | none => send pm d
    | some _ =>
      match tabFind d.mul.sums (key * 2 + (1 - side)) with
      | none => d
      | some from_ =>
        let accs := pm.accs.zipIdx.map (fun a => addLists a.1 (from_.getD a.2 []))
        send { pm with accs := accs, terms := if pm.terms.isEmpty then [(0, [])] else pm.terms } d
  | _, _ => d

/-- The member's own part of a wide mix is made: kept for its final mix and sent to the other members. -/
def Dev.sendPartial (d : Dev) (e : Entry) (x : Task) : Dev :=
  let f := x.flock
  let (pm, d) := d.mixTerms x
  let d := { d with mul := { d.mul with parts := recSet d.mul.parts (selKey f (x.media % 2 ^ 32)) pm } }
  if dirSpread e = 2 then (d.sendRunning e f x.media 0).sendRunning e f x.media 1
  else foldDev (d.wideOthers e) (fun m d =>
    d.muleTo m mulePartial 1 (dirFlock e m) ((dirBrood e + d.devId) % 65536) x.media (partBytes pm)) d

/-- A running sum has come from a side. -/
def Dev.takeRunning (d : Dev) (e : Entry) (f media side : Nat) (sides : List (List Int)) : Dev :=
  let key := selKey f (media % 2 ^ 32)
  ({ d with mul := { d.mul with sums := recSet d.mul.sums (key * 2 + side) sides } }).sendRunning e f media (1 - side)

/-- The final mix of a wide flock: its own part and the PARTIALs that came; one that did not is counted. -/
def Dev.wideFinal (d : Dev) (x : Task) : List MixOut × Dev :=
  let f := x.flock
  let key := selKey f (x.media % 2 ^ 32)
  let stereo := (d.mixEnt f).b 0 30
  let none_ : PartMix := { accs := List.replicate (if stereo then 2 else 1) (List.replicate 480 0) }
  let pm := (tabFind d.mul.parts key).getD none_
  let got := (x.ops.filter (fun o => o.st == 1)).filterMap (fun o => tabFind d.aud.partials o.tag)
  let missing := x.ops.length - got.length
  let d := if missing = 0 then d else (d.mulCount 2 missing).raiseOnce Src.PARTIAL_MISSING f
  let accs := pm.accs.zipIdx.map (fun a =>
    got.foldl (fun acc g => addLists acc (if a.2 = 0 then g.left else g.right)) a.1)
  let d := { d with mul := { d.mul with parts := tabErase d.mul.parts key,
                                        sums := tabErase (tabErase d.mul.sums (key * 2)) (key * 2 + 1) }
                    aud := { d.aud with partials := x.ops.foldl (fun t (o : Operand) => tabErase t o.tag) d.aud.partials } }
  d.mixOuts f { pm with accs := accs } ((pm.places.filterMap id).filter (fun b => (d.audOf b).isSome))

/-- A MIX task of a spread flock that makes its member's part, and not the final mix: it names the TALKERS operand. -/
def partTask (x : Task) : Bool := x.ops.any (fun o => tagClass o.tag == Cl.talkers)

/-! ### The encoded mixes (R247 to R249) -/

/-- Mean square level of a frame. -/
def frameLevel (l r : List Int) : Nat :=
  let sq := l.zipIdx.map (fun x => squareOf x.1 (if r.isEmpty then none else some (r.getD x.2 0)))
  levelOf ((sq.sum : Nat) / (480 : Rat))

/-- A subscription takes its leg's own stream of a talker while that talker holds a place; the others the common one. -/
def Dev.mixSubs (d : Dev) (f fmt : Nat) (talker : Option Nat) : List Nat :=
  match d.mix f with
  | none => []
  | some s =>
    let legOf := fun (b : Nat) => (d.broodEnt b).f 0 13 0
    let own := (s.served.filterMap id).filter (fun b => d.talkerFormat f b == fmt)
    let subs := (d.entries .fwd 1).filter (fun p => p.2.b 0 31 && p.2.f 0 15 0 == (mixBrood (d.mixEnt f) + fmt) % 65536)
    (subs.filter (fun p =>
      match talker with
      | some b => p.2.f 1 29 16 == legOf b
      | none => !own.any (fun b => legOf b == p.2.f 1 29 16))).map (·.1)

/-- A packet made by the device's own encoder is measured and offered to the given subscriptions. -/
def Dev.forwardOwn (d : Dev) (it : Item) (subs : List Nat) : Dev :=
  let st := d.brood it.md.brood
  let win := (d.beat, 0, 0, it.md.flen) :: recent d.beat 120 (·.1) st.window
  foldDev subs (fun s d => d.forwardTo s it 0 0 true) (d.setBrood it.md.brood { st with window := win })

/-- One packet of an output stream leaves. -/
def Dev.sendMix (d : Dev) (f fmt : Nat) (talker : Option Nat) (media : Nat) (cn : Bool) (payload : List Byte) : Dev :=
  match d.mix f with
  | none => d
  | some s =>
    let e := d.mixEnt f
    let codec := fmCodec (mixFormat e fmt)
    let key := match talker with | some b => talkerKey b | none => commonKey fmt
    let seqn := (tabFind s.outSeq key).getD 0
    let d := d.setMix f { s with outSeq := recSet s.outSeq key ((seqn + 1) % 65536),
                                 encSt := recSet s.encSt key (Config.encoderAfter ((tabFind s.encSt key).getD 0) media) }
    let ts := (media * audClock codec / 600 + s.tsBase.getD fmt 0) % 2 ^ 32
    let bytes := rtpPacket false seqn ts [] payload
    let (u, d) := d.newPayload bytes bytes.length
    let brood := (mixBrood e + fmt) % 65536
    let stream := match talker with | some b => 1 + (s.served.findIdx (fun p => p == some b)) | none => 0
    let m : Meta := { brood := brood, stream := stream, kind := 1, ts := ts, seq := seqn, flen := bytes.length, beat := d.beat, cn := cn }
    let it : Item := { desc := pktDesc 3 m 0 0 bytes.length d.dtNs false, uid := u, md := m, rtpLen := bytes.length }
    let d := (d.refPayload u).push (.enqueue (Config.broodQueue brood stream) it)
    (d.forwardOwn it (d.mixSubs f fmt talker)).derefPayload u

/-- A frame with no voice (R249): an Opus DTX frame, or comfort noise on its own payload type, of one open byte. -/
def Dev.sendDtx (d : Dev) (f fmt : Nat) (talker : Option Nat) (media : Nat) : Dev :=
  let (bs, d) := d.drawBytes 1
  let r := ((d.mix f).map (·.region)).getD 0
  (d.audCount r 9 1).sendMix f fmt talker media (fmCodec (mixFormat (d.mixEnt f) fmt) != 0) bs

/-- Every output stream of a flock: its format and talker. -/
def Dev.mixStreams (d : Dev) (f : Nat) : List (Nat × Option Nat) :=
  match d.mix f with
  | none => []
  | some s =>
    (enabledFormats (d.mixEnt f)).map (fun k => (k, none)) ++ (s.places.filterMap id).map (fun b => (d.talkerFormat f b, some b))

/-- The outputs of a MIX task are published and their AENCODE tasks released. -/
def Dev.publishOuts (d : Dev) (x : Task) (outs : List MixOut) : Dev :=
  let f := x.flock
  let e := d.mixEnt f
  let media := x.media % 2 ^ 32
  let t := match d.mix f with | some s => d.stdTemplate s.region Kd.aencode | none => none
  let child := fun (tag : Nat) (d : Dev) =>
    let (_, d) := d.arrive tag (2 ^ 37 + f) 0
    match t, d.mix f with
    | some t, some s => (d.launch { kind := Kd.aencode, flock := f, entry := f, media := x.media, tmpl := t, cad := 6, tags := [tag],
                                    region := some s.region }).2
    | _, _ => d
  foldDev outs (fun o d =>
    let stereo := !o.right.isEmpty
    let bytes := (o.left.zipIdx.flatMap (fun y => toBe 4 (toField 32 y.1) ++ (if stereo then toBe 4 (toField 32 (o.right.getD y.2 0)) else [])))
    let d := d.tapOffer { kind := tapPcm, sub := if o.talker.isSome then 2 else 1, flock := f,
                          ident := match o.talker with | some b => b | none => mixBrood e, flags := stereo.toNat,
                          beat := media, len := bytes.length, known := bytes }
    let low := decide (240 < frameLevel o.left o.right)
    let keys := match o.talker with | some b => [talkerKey b] | none => (enabledFormats e).map commonKey
    let d := foldDev keys (fun k d =>
      match d.mix f with
      | some s => d.setMix f { s with quiet := recSet s.quiet k (if low then (tabFind s.quiet k).getD 0 + 1 else 0) }
      | none => d) d
    match o.talker with
    | some b => child (mkTag f b Cl.mixout media) d
    | none => foldDev (enabledFormats e) (fun k d => child (mkTag f (mixBrood e + k) Cl.mixout media) d) d) d

/-- A MIX task has ended COMPLETE or EXPIRED. -/
def Dev.publishMix (d : Dev) (x : Task) : Dev :=
  match d.wide x.flock with
  | some e =>
    if partTask x then d.sendPartial e x
    else let (outs, d) := d.wideFinal x; d.publishOuts x outs
  | none =>
    let (pm, d) := d.mixTerms x
    let (outs, d) := d.mixOuts x.flock pm (pm.places.filterMap id)
    d.publishOuts x outs

/-- Format and talker that an AENCODE task's operand names. -/
def Dev.encodeOf (d : Dev) (x : Task) : Nat × Option Nat :=
  let b := match x.ops.head? with | some o => tagBrood o.tag | none => 0
  let base := mixBrood (d.mixEnt x.flock)
  if base ≤ b ∧ b < base + 4 then (b - base, none) else (d.talkerFormat x.flock b, some b)

/-- An AENCODE task has ended: its frame leaves, or a DTX or comfort-noise frame; the first half of a FRAME20 pair waits. -/
def Dev.encodeFrame (d : Dev) (x : Task) (payload : Option (List Byte)) : Dev :=
  let f := x.flock
  match d.mix f with
  | none => d
  | some s =>
    let (fmt, talker) := d.encodeOf x
    let v := mixFormat (d.mixEnt f) fmt
    let key := match talker with | some b => talkerKey b | none => commonKey fmt
    if fmFrame20 v && d.frameMix f x.media then d.setMix f { s with half := recSet s.half key x.media }
    else
      let media := if fmFrame20 v then x.media - 6 else x.media
      let d := d.setMix f { s with half := tabErase s.half key }
      let quiet := fmDtx v && decide (20 ≤ (tabFind s.quiet key).getD 0)
      match payload, quiet with
      | some bs, false => (d.audCount s.region 8 1).sendMix f fmt talker media false bs
      | _, _ => d.sendDtx f fmt talker media

/-- The end of a MIX that publishes nothing: a DTX or comfort-noise frame on every output stream; a spread flock's part is only
missing at the other members. -/
def Dev.mixLost (d : Dev) (x : Task) : Dev :=
  if (d.wide x.flock).isSome && partTask x then d
  else foldDev (d.mixStreams x.flock) (fun s d =>
    let pair := fmFrame20 (mixFormat (d.mixEnt x.flock) s.1)
    if pair && d.frameMix x.flock x.media then d else d.sendDtx x.flock s.1 s.2 (if pair then x.media - 6 else x.media)) d

/-- Release of a flock's MIX task. -/
def Dev.releaseMix (d : Dev) (f : Nat) : Dev :=
  match d.mix f with
  | none => d
  | some s =>
    match d.stdTemplate s.region Kd.mix with
    | none => d
    | some t =>
      (d.launch { kind := Kd.mix, flock := f, entry := f, media := d.beat, tmpl := t, cad := 6, region := some s.region,
                  tags := [mkTag f (mixBrood (d.mixEnt f)) Cl.talkers (d.beat % 2 ^ 32)] }).2

/-- The final mix of a spread flock for media beat m, released WIDE_LAG beats later: it waits on the PARTIALs (R322). -/
def Dev.releaseFinal (d : Dev) (f m : Nat) : Dev :=
  match d.wide f, d.mix f with
  | some e, some s =>
    match d.stdTemplate s.region Kd.mix with
    | none => d
    | some t =>
      (d.launch { kind := Kd.mix, flock := f, entry := f, media := m, tmpl := t, cad := 6, region := some s.region,
                  tags := (d.partFrom e).map (fun k => mkTag f ((dirBrood e + k) % 65536) Cl.aframe (m % 2 ^ 32)) }).2
  | _, _ => d

/-- Loudest-talker forwarding: whether it serves a flock (R340, R342). -/
def Dev.loudFlock (d : Dev) (f : Nat) : Bool := decide (6 ≤ d.stage) || d.pwr.loud.contains f

/-- The brood whose stream serves a leg's subscription to format k of a flock: the talker in place 0, for that talker's own leg the
one in place 1; none unless its CODEC is the format's (R342). -/
def Dev.loudBrood (d : Dev) (f k leg : Nat) : Option Nat :=
  match d.mix f with
  | none => none
  | some s =>
    let p0 := s.places.getD 0 none
    let own := match p0 with | some b => decide ((d.broodEnt b).f 0 13 0 = leg) | none => false
    match if own then s.places.getD 1 none else p0 with
    | none => none
    | some b =>
      let codec := match d.audOf b with | some e => aeCodec (d.audEnt e) | none => 7
      if codec = fmCodec (mixFormat (d.mixEnt f) k) then some b else none

/-- Every subscription to an output stream of a flock's mix, with its format and leg. -/
def Dev.mixReceivers (d : Dev) (f : Nat) : List (Nat × Nat × Nat) :=
  let e := d.mixEnt f
  (enabledFormats e).flatMap (fun k =>
    ((d.entries .fwd 1).filter (fun p => p.2.b 0 31 && decide (p.2.f 0 15 0 = (mixBrood e + k) % 65536))).map
      (fun p => (p.1, k, p.2.f 1 29 16)))

/-- An audio packet goes to the receivers that loudest-talker forwarding serves from its stream. -/
def Dev.loudest (d : Dev) (it : Item) : Dev :=
  foldDev (d.aud.mixes.filter (fun m => d.loudFlock m.1)) (fun m d =>
    foldDev ((d.mixReceivers m.1).filter (fun r => d.loudBrood m.1 r.2.1 r.2.2 == some it.md.brood))
      (fun r d => d.forwardTo r.1 it 0 0 true) d) d

/-- A mix that loudest-talker forwarding replaces: each receiver for whom no stream exists counts (R342; assumption 117). -/
def Dev.loudMissed (d : Dev) (f : Nat) : Dev :=
  d.cnt Reg.PWR_CNT_LO 2 ((d.mixReceivers f).filter (fun r => (d.loudBrood f r.2.1 r.2.2).isNone)).length

/-- An audio packet for its entry: placed in its jitter buffer, or its level taken once it has passed. -/
def Dev.audPacket (d : Dev) (it : Item) : Dev :=
  if it.md.kind ≠ 1 then d
  else
    let d := if 6 ≤ d.stage ∨ !d.pwr.loud.isEmpty then d.loudest it else d
    match d.audOf it.md.brood with
    | none => d
    | some e =>
      if aeClient (d.audEnt e) then
        match d.itemAuth it with
        | 1 => (d.refPayload it.uid).modAud e (fun s => { s with pkts := s.pkts ++ [{ uid := it.uid, base := it.md.level, dur := 0 }] })
        | 3 => d
        | _ => d.clientLevel e it
      else if (d.queue (aeQueue (d.audEnt e))).items.any (fun q => q.uid == it.uid) then d.audArrive e it
      else d

/-- A pending packet of a CLIENT_LEVEL entry is resolved. -/
def Dev.audResolved (d : Dev) (uid : Nat) (pass : Bool) : Dev :=
  foldDev (d.aud.ents.filter (fun x => aeClient (d.audEnt x.1) && x.2.pkts.any (fun p => p.uid == uid))) (fun x d =>
    match x.2.pkts.find? (fun p => p.uid == uid) with
    | none => d
    | some p =>
      let d := (d.modAud x.1 (fun s => { s with pkts := s.pkts.filter (fun q => q.uid != uid) })).derefPayload uid
      if pass then d.clientLevel x.1 { uid := uid, md := { level := p.base.toNat } } else d) d

/-! ### AUD_TAB and FLT_TAB -/

def audTabSize (t : Nat) : Nat := match t with | 0 => 16384 | 1 => 4096 | _ => 0

def Dev.audView (d : Dev) (t i : Nat) : Entry :=
  match t with
  | 0 =>
    let e := d.audEnt i
    match d.audio i with
    | none => e
    | some s =>
      let ch := d.entChan i
      let talking := match ch with | some (_, c) => c.talking | none => false
      let level := match ch with | some (_, c) => c.level | none => 508
      let rank := match ch with | some (_, c) => d.rankOf c d.beat | none => 508
      let sel := match d.mix (aeFlock e) with | some m => m.places.contains (some (aeBrood e)) | none => false
      let k := s.cnts
      { e with
        d4 := BitVec.ofNat 32 (s.depth * 2 ^ 23 + min 511 (max 0 s.p5.floor).toNat * 2 ^ 14 + s.chan.getD 0)
        d5 := BitVec.ofNat 32 (talking.toNat * 2 ^ 31 + sel.toNat * 2 ^ 30 + level * 2 ^ 21 + rank * 2 ^ 12)
        d6 := BitVec.ofNat 32 (k.getD 0 0 * 65536 + k.getD 1 0)
        d7 := BitVec.ofNat 32 (k.getD 2 0 * 65536 + k.getD 3 0) }
  | _ =>
    let e := d.mixEnt i
    match d.mix i with
    | none => e
    | some s =>
      let pl := fun k => match s.places.getD k none with | some b => b | none => 0xFFFF
      let w := fun k => BitVec.ofNat 32 (pl (2 * k + 1) * 65536 + pl (2 * k))
      { e with
        d3 := (e.setF 3 23 0 ((s.places.filterMap id).length * 2 ^ 20 + pl 0)).d3
        d4 := w 0, d5 := w 1, d6 := w 2, d7 := w 3 }

def audTabRead (v : Word) (d : Dev) : Dev :=
  tabReadOp Reg.AUD_TAB_CMD Reg.AUD_TAB_ADDR Reg.AUD_TAB_DATA 8 13 (pastEnd audTabSize) Dev.audView 4 v d

/-- An audio entry is admitted in the region that serves its flock. -/
def Dev.admitAud (d : Dev) (i : Nat) (e : Entry) : Nat × Dev :=
  let r := d.flockRegion (aeFlock e)
  match d.audTemplate r e with
  | none => (4, d)
  | some t =>
    if !audEntOk e || !resolvedOk t 6 none || (!aeClient e && d.queueKind (aeQueue e) != some 2) then (4, d)
    else if !aeClient e && decide (512 * 8 * d.cellsUp r 2 8 < d.audDecLoad r + decWeight (aeCodec e)) then (1, d)
    else if (d.freeChan r).isNone then (2, d)
    else
      let g := Config.gainQ12 (aeGain e : Rat)
      let d := (d.setEnt .aud 0 i e).setAud i { region := r, depth := aeMin e, gain := g, gainWas := g }
      (0, (if aeClient e then d else d.useCadence (aeFlock e) (relCad t 6) t.cost).assignChan i)

/-- An entry written over a live one: a new BROOD_ID is a switch, a new FLOCK_ID a join (R239); another codec, mode, queue or
template admits it afresh. D comes into the new range (assumption 121). -/
def Dev.rewriteAud (d : Dev) (i : Nat) (e : Entry) : Nat × Dev :=
  let old := d.audEnt i
  let join := aeFlock e != aeFlock old
  if !audEntOk e then (4, d)
  else if aeCodec e ≠ aeCodec old ∨ aeClient e ≠ aeClient old ∨ aeQueue e ≠ aeQueue old ∨ e.f 3 31 24 ≠ old.f 3 31 24 then
    let (c, d') := (d.releaseAud i).admitAud i e
    if c = 0 then (0, d') else (c, d)
  else
    let d := if join then
        (match d.entChan i with | some (k, c) => if c.talking then d.talkEnd k d.beat else d | none => d)
      else d
    let rel := match d.audio i with | some s => d.audRel s.region e | none => (6, 0)
    let d := if join && !aeClient e then (d.dropCadence (aeFlock old) rel.1 rel.2).useCadence (aeFlock e) rel.1 rel.2 else d
    let d := (d.setEnt .aud 0 i e).modAud i (fun s => { s with depth := max (aeMin e) (min (aeMax e) s.depth) })
    let d := if join then d.moveAud i (d.flockRegion (aeFlock e)) else d
    let d := if join || aeBrood e != aeBrood old then
        (match d.entChan i with
         | some (k, c) =>
           let c := { c with chain := {}, since := none }
           d.setChan k (if join then { c with talking := false, startAt := none, endAt := none, silentFrom := d.beat } else c)
         | none => d)
      else d
    (0, d)

/-- A mix entry admitted, or written over a live one. -/
def Dev.admitMix (d : Dev) (f : Nat) (e : Entry) : Nat × Dev :=
  let r := ((d.mix f).map (·.region)).getD (d.flockRegion f)
  let cells := d.cellsUp r 2 8
  let old := match d.mix f with | some _ => (mixCharge (d.mixEnt f), 1) | none => (0, 0)
  if !mixEntOk e || !keepsR51 (d.stdTemplate r Kd.mix) 6 none then (4, d)
  else if 256 * 8 * cells < d.audEncLoad r - old.1 + mixCharge e ∨ 128 * cells < d.audMixes r - old.2 + 1 then (1, d)
  else
    match d.mix f with
    | some _ => (0, d.setEnt .aud 1 f e)
    | none =>
      let rel := d.mixRel r
      let (b0, d) := d.drawBelow (2 ^ 32)
      let (b1, d) := d.drawBelow (2 ^ 32)
      let (b2, d) := d.drawBelow (2 ^ 32)
      let (b3, d) := d.drawBelow (2 ^ 32)
      let d := (d.setEnt .aud 1 f e).setMix f { region := r, tsBase := [b0, b1, b2, b3] }
      (0, (d.useCadence f rel.1 rel.2).useCadence f 12 0)

def audTabWrite (v : Word) (d : Dev) : Dev :=
  let d := d.tabCmd Reg.AUD_TAB_CMD v
  let t := d.fld Reg.AUD_TAB_CMD 27 24
  let i := d.fld Reg.AUD_TAB_ADDR 13 0
  let n := d.dataEntry Reg.AUD_TAB_DATA
  let out := fun (c : Nat × Dev) => c.2.tabErr Reg.AUD_TAB_CMD c.1
  if audTabSize t ≤ i then out (4, d)
  else if t = 0 then
    let e : Entry := Entry.legal (d.audEnt i)
      { d0 := n.d0 &&& 0xFFF0FFFF, d1 := n.d1 &&& 0xFFF3FFFF, d2 := n.d2 &&& 0xFFFFFF80, d3 := n.d3 &&& 0xFF00FF7F }
      [(0, 30, 28, [(0, 3)]), (0, 27, 26, [(0, 1)])]
    if !e.b 0 31 then out (0, (d.releaseAud i).setEnt .aud 0 i e)
    else match d.audio i with
      | some _ => out (d.rewriteAud i e)
      | none => out (d.admitAud i e)
  else
    let e : Entry := Entry.legal (d.mixEnt i) { d0 := n.d0 &&& 0xF8FFFFFF, d1 := n.d1, d2 := n.d2, d3 := n.d3 &&& 0xFF000000 }
      [(1, 30, 28, [(0, 3)]), (1, 14, 12, [(0, 3)]), (2, 30, 28, [(0, 3)]), (2, 14, 12, [(0, 3)])]
    if !e.b 0 31 then out (0, (d.releaseMixEnt i).setEnt .aud 1 i e) else out (d.admitMix i e)

def fltTabSize (t : Nat) : Nat := match t with | 0 => 16384 | 1 => 8 | _ => 0

def Dev.fltView (d : Dev) (t i : Nat) : Entry :=
  match t with
  | 0 =>
    match d.chan i with
    | none => {}
    | some c =>
      let p := d.chanProfile c
      let n := d.beat
      let blocking := !aeClient (d.audEnt c.ent) && (match c.since with | some a => decide (n ≤ a + 3) | none => true)
      let preset := if blocking then 3 else p.preset
      { d0 := BitVec.ofNat 32 (2 ^ 31 + preset * 2 ^ 29 + (blocking || p.preset == 3).toNat * 2 ^ 28 + c.talking.toNat * 2 ^ 27 + c.ent),
        d1 := BitVec.ofNat 32 c.level }
  | _ => d.ent .flt 1 i

def fltTabRead (v : Word) (d : Dev) : Dev :=
  tabReadOp Reg.FLT_TAB_CMD Reg.FLT_TAB_ADDR Reg.FLT_TAB_DATA 8 13 (pastEnd fltTabSize) Dev.fltView 4 v d

/-- A profile keeps Table 11.12, and START_LVL lies at least 3 dB above END_LVL (R240). -/
def profileOk (e : Entry) : Bool :=
  let ms := fun v => decide (10 ≤ v) && decide (v ≤ 5000)
  decide (e.f 0 26 18 + 12 ≤ e.f 0 17 9) &&
  ms (e.f 1 31 16) && ms (e.f 1 15 0) && decide (1 ≤ e.f 2 31 16) && decide (e.f 2 31 16 ≤ 3600) &&
  decide (50 ≤ e.f 2 15 0) && decide (e.f 2 15 0 ≤ 2000) && decide (e.f 3 7 0 ≤ 32)

def fltTabWrite (v : Word) (d : Dev) : Dev :=
  let d := d.tabCmd Reg.FLT_TAB_CMD v
  let t := d.fld Reg.FLT_TAB_CMD 27 24
  let i := d.fld Reg.FLT_TAB_ADDR 13 0
  let n := d.dataEntry Reg.FLT_TAB_DATA
  let e : Entry := { d0 := n.d0 &&& 0xC7FFFFFF, d1 := n.d1, d2 := n.d2, d3 := n.d3 &&& 0xFF }
  if pastEnd fltTabSize t i then d.tabErr Reg.FLT_TAB_CMD 4
  else if t ≠ 1 then d.tabErr Reg.FLT_TAB_CMD 5
  else if profileOk e = false then d.tabErr Reg.FLT_TAB_CMD 4
  else (d.setEnt .flt 1 i e).tabErr Reg.FLT_TAB_CMD 0

/-! ### Views -/

def Dev.audStatus (d : Dev) : Nat := d.aud.mixes.length * 65536 + d.aud.ents.length
def Dev.audRegionLoad (d : Dev) (r : Nat) : Nat := ceilDiv (d.audDecLoad r) 8 * 65536 + ceilDiv (d.audEncLoad r) 8
def Dev.audCellStat (d : Dev) (r c : Nat) : Nat :=
  let code := cellCode 2 (r * 8 + c)
  let job := (d.cell code).job.bind d.task
  (d.cell code).out.toNat * 2 ^ 30 + job.isSome.toNat * 2 ^ 29 +
  (match job with
   | some x => x.kind * 2 ^ 24 + (if x.kind = Kd.adecode then aeBrood (d.audEnt x.entry) else x.flock)
   | none => 0)
def Dev.fltStatus (d : Dev) : Nat := d.aud.chans.length
def Dev.fltCellStat (d : Dev) (r c : Nat) : Nat :=
  let code := cellCode 3 (r * 2 + c)
  (d.cell code).out.toNat * 2 ^ 30 + (d.cell code).job.isSome.toNat * 2 ^ 29 +
  (d.aud.chans.filter (fun x => x.1 / filterChannels == r && x.1 % filterChannels / 2048 == c)).length % 4096

end Sys2Proof.Machine
end

