-- ==== Sys2Proof/Machine/Cipher.lean ====
section
/-! DEFINITION. Mode programs of the cipher cells (R98 to R100), the end of a program and of the key wait, and the slot loads
(R102, R107, R110, R113). -/

namespace Sys2Proof.Machine
open Sys2Proof

/-! ### Programs -/

/-- Programs of a MODE_PROGRAMS payload: id and steps. -/
def programsOf (b : List Byte) : List (Nat × List Nat) :=
  let rec go : List Byte → Nat → List (Nat × List Nat)
    | _, 0 => []
    | b, n + 1 =>
      let k := byteAt b 1
      (byteAt b 0, (List.range k).map (fun i => le32 b (4 + 4 * i))) :: go (b.drop (4 + 4 * k)) n
  go (b.drop 4) (le32 b 0)

def stOp (s : Nat) : Nat := s / 2 ^ 26
def stDst (s : Nat) : Nat := s / 2 ^ 22 % 16
def stSrc (s : Nat) : Nat := s / 2 ^ 18 % 16
def stImm (s : Nat) : Nat := s % 2 ^ 18

/-- The checks of R99 on one program. -/
def programOk (p : List Nat) : Bool :=
  decide (p.length ≤ 64) && ((p.getLast?).map stOp == some 0) && p.all (fun s => decide (stOp s ≤ 16)) &&
  (List.range p.length).all (fun i => stOp (p.getD i 0) != 15 || decide (i + 1 + stImm (p.getD i 0) % 64 < p.length))

/-- A MODE_PROGRAMS payload is accepted: at most 16 programs, no id twice, custom ids only where custom programs are
allowed (R99, R100). -/
def programsOk (custom : Bool) (b : List Byte) : Bool :=
  let ps := programsOf b
  decide (le32 b 0 ≤ 16) && decide ((ps.map (·.1)).eraseDups.length = ps.length) && ps.all (fun p => programOk p.2) &&
  (custom || ps.all (fun p => decide (p.1 < 16)))

/-- The standard program of a profile for SRTP or SRTCP (Table 5.4). -/
def programOf (profile : Nat) (rtcp : Bool) : Nat :=
  match profile, rtcp with
  | 1, false => 1 | 1, true => 3 | 2, false => 2 | 2, true => 4
  | 3, false => 5 | 4, false => 6 | 3, true => 7 | 4, true => 7
  | _, _ => 0

/-- A packet as a program sees it: direction, keys (key, salt, authentication key, for SRTP then SRTCP), header, payload, received
tag, SSRC, index, and the bytes HFEED takes. -/
structure Job where
  enc : Bool
  keys : List (List Byte)
  head : List Byte
  body : List Byte
  tag : List Byte
  ssrc : Nat
  index : Nat
  word : Nat := 0

/-- The sequencer: working registers, key selected, GHASH state and what it has been fed, hash-lane bytes, payload in and out,
tag written, and the tag check's result (none: no check yet; PROG_SHORT kept apart). -/
structure Seqr where
  w : List Nat := List.replicate 16 0
  rtcp : Bool := false
  gh : Nat := 0
  aad : Nat := 0
  fed : Nat := 0
  lane : List Byte := []
  rest : List Byte := []
  out : List Byte := []
  put : List Byte := []
  check : Option Bool := none
  short : Bool := false

def Seqr.reg (s : Seqr) (k : Nat) : Nat := s.w.getD k 0
def Seqr.setW (s : Seqr) (k v : Nat) : Seqr := { s with w := s.w.set k v }

/-- 16-byte blocks of a byte list, the last padded with zeros, as numbers. -/
def blocksOf : List Byte → Nat → List Nat
  | _, 0 => []
  | bs, n + 1 => if bs.isEmpty then [] else beNat ((bs.take 16) ++ List.replicate (16 - (bs.take 16).length) 0) :: blocksOf (bs.drop 16) n

def jobKey (j : Job) (s : Seqr) (k : Nat) : List Byte := j.keys.getD ((if s.rtcp then 3 else 0) + k) []

/-- Feed blocks to GHASH under the subkey AES(key, 0). -/
def Seqr.ghash (s : Seqr) (j : Job) (bs : List Byte) : Seqr :=
  let h := Config.aes (jobKey j s 0) 0
  { s with gh := (blocksOf bs bs.length).foldl (fun y x => Config.ghashMul (y ^^^ x) h) s.gh }

def inc32 (v : Nat) : Nat := v / 2 ^ 32 * 2 ^ 32 + (v + 1) % 2 ^ 32

/-- Counter mode over the rest of the payload: output and the counter after it. -/
def ctrx (key : List Byte) : List Byte → Nat → Nat → List Byte × Nat
  | _, c, 0 => ([], c)
  | bs, c, n + 1 =>
    if bs.isEmpty then ([], c)
    else
      let ks := toBe 16 (Config.aes key c)
      let o := (bs.take 16).zipWith (fun a b => a ^^^ b) ks
      let r := ctrx key (bs.drop 16) (inc32 c) n
      (o ++ r.1, r.2)

/-- One step other than END and JMPENC (Table 5.3). -/
def Seqr.step (j : Job) (st : Nat) (s : Seqr) : Seqr :=
  let dst := stDst st
  let src := stSrc st
  let imm := stImm st
  match stOp st with
  | 0x01 => { s with rtcp := decide (imm % 4 = 1) }
  | 0x02 => s.setW dst (Config.ivBlock (imm % 4) (jobKey j s 1) j.ssrc j.index)
  | 0x03 => s.setW dst (Config.aes (jobKey j s 0) (s.reg src))
  | 0x04 => s.setW dst (inc32 (s.reg dst))
  | 0x05 =>
    let s := if imm.testBit 0 then { s.ghash j j.head with aad := s.aad + j.head.length } else s
    if imm.testBit 1 then { s with lane := s.lane ++ j.head } else s
  | 0x06 =>
    let r := ctrx (jobKey j s 0) s.rest (s.reg dst) s.rest.length
    let feed := if imm.testBit 2 then s.rest else r.1
    let s' := { (s.setW dst r.2) with out := s.out ++ r.1, rest := [] }
    let s' := if imm.testBit 0 then { s'.ghash j feed with fed := s.fed + feed.length } else s'
    if imm.testBit 1 then { s' with lane := s.lane ++ feed } else s'
  | 0x07 => s.ghash j (toBe 8 (8 * s.aad) ++ toBe 8 (8 * s.fed))
  | 0x08 => s.setW dst s.gh
  | 0x09 => s.setW dst (s.reg dst ^^^ s.reg src)
  | 0x0A => { s with lane := [] }
  | 0x0B => { s with lane := s.lane ++ (if imm.testBit 0 then toBe 4 j.word else toBe 4 (j.index / 65536)) }
  | 0x0C => s.setW dst (Config.hmacSha1 (jobKey j s 2) s.lane / 2 ^ 32 % 2 ^ 128)
  | 0x0D =>
    let n := imm % 32
    if j.tag.length < n ∨ j.tag.isEmpty then { s with check := some false, short := true }
    else { s with check := some (decide (j.tag.take n = (toBe 16 (s.reg dst)).take n)) }
  | 0x0E => { s with put := (toBe 16 (s.reg dst)).take (imm % 32) }
  | 0x10 =>
    let v := Config.aes (jobKey j s 0) (beNat ((s.rest.take 16) ++ List.replicate (16 - (s.rest.take 16).length) 0))
    { (s.setW dst v) with out := s.out ++ toBe 16 v, rest := s.rest.drop 16 }
  | _ => s

/-- Run a program: jumps run only forward, so its length bounds it; a tag too short ends it (R99). -/
def runProgram (j : Job) : List Nat → Nat → Seqr → Seqr
  | _, 0, s => s
  | [], _, s => s
  | st :: rest, n + 1, s =>
    if stOp st = 0 ∨ s.short then s
    else if stOp st = 15 then runProgram j (if j.enc then rest.drop (stImm st % 64) else rest) n s
    else runProgram j rest n (s.step j st)

/-! ### Packets -/

/-- The program a leg's packets run: the standard one of the profile, or what they select beside it, the ECB test or a custom program
that is loaded (R100). -/
def Dev.programFor (d : Dev) (n profile leg : Nat) (rtcp : Bool) : Nat :=
  match Config.altProgram leg rtcp with
  | some id => if id = 0 ∨ (16 ≤ id ∧ (programsOf (d.regionOf n).sec.programs).any (fun p => p.1 == id)) then id else programOf profile rtcp
  | none => programOf profile rtcp

/-- The job of an ingress pass under its slot: SRTP, or SRTCP with its E flag and index (R101, R102). -/
def Dev.passJob (d : Dev) (p : Pass) (k : PenSlot) : Job :=
  let pkt := slice p.bytes p.md.rtpOfs p.rtpLen
  if p.md.demux = 1 then
    let gcm := decide (k.profile ≤ 2)
    let tag := if gcm then 16 else 10
    let wordAt := if gcm then p.rtpLen - 4 else p.rtpLen - 4 - tag
    let word := be32 pkt wordAt
    let on := decide (2 ^ 31 ≤ word)
    let tagAt := if gcm then p.rtpLen - 4 - tag else p.rtpLen - tag
    let body := slice pkt 8 (p.rtpLen - 12 - tag)
    let head := pkt.take 8 ++ (if on then [] else body)
    { enc := false, keys := k.keys, head := if gcm then head ++ slice pkt wordAt 4 else head, body := if on then body else [],
      tag := if p.rtpLen < 12 + tag then [] else slice pkt tagAt tag, ssrc := p.md.ssrc, index := word % 2 ^ 31, word := word }
  else
    let h := headBytes p
    { enc := false, keys := k.keys, head := pkt.take h, body := slice pkt h (p.rtpLen - h - p.tagLen),
      tag := if p.rtpLen < h + p.tagLen then [] else pkt.drop (p.rtpLen - p.tagLen), ssrc := p.md.ssrc,
      index := estIndex (d.ctx p.md.leg false) p.md.seq }

def runJob (steps : List Nat) (j : Job) : Seqr := runProgram j steps (steps.length + 1) { rest := j.body }

/-- The steps of a program in a plane's region. -/
def Dev.stepsOf (d : Dev) (n id : Nat) : List Nat :=
  (((programsOf (d.regionOf n).sec.programs).find? (fun p => p.1 == id)).map (·.2)).getD []

/-- The plaintext of a pass in its buffer cells: its frame with the payload replaced and the tag gone. -/
def plainBytes (p : Pass) (j : Job) (s : Seqr) : List Byte :=
  let enc := p.md.demux = 1 ∧ 2 ^ 31 ≤ j.word ∨ p.md.demux ≠ 1
  let h := if p.md.demux = 1 then 8 else headBytes p
  if enc then p.bytes.take (p.md.rtpOfs + h) ++ s.out else p.bytes.take (p.md.rtpOfs + p.rtpLen - p.tagLen)

/-- What becomes of a pass in a cell: its job, its program, and the sequencer at END. -/
def Dev.decryptPass (d : Dev) (n : Nat) (p : Pass) : Option (PenSlot × Nat × Job × Seqr) :=
  match p.slot.bind d.penSlot with
  | none => none
  | some k =>
    let id := d.programFor n k.profile p.md.leg (p.md.demux == 1)
    let j := d.passJob p k
    some (k, id, j, runJob (d.stepsOf n id) j)

/-- Plaintext is in the buffer cells: the reorder entry is ready with auth_state PENDING (R113), and the VP8 layer indication can be
read (R76). -/
def Dev.plaintextReady (d : Dev) (n id : Nat) (p : Pass) : Dev :=
  match d.decryptPass n p with
  | none => d
  | some (_, _, j, s) =>
    let plain := plainBytes p j s
    (d.setPayloadBytes p.uid plain).setPass n id { d.vp8Layer p plain with ready := true }

/-- CIPHER_PLAINTEXT_RELEASE. -/
def cipherPlaintextRelease (n cell : Nat) (d : Dev) : Dev :=
  match tabFind (d.plane n).jobs cell with
  | some (.pass id, _) =>
    match d.passOf n id with
    | some p => if p.ready then d else d.plaintextReady n id p
    | none => d
  | _ => d

/-- Why a packet is FAIL (R377), by the model's index of the reason: its tag, PROG_SHORT, REPLAY, AUTH_TIMEOUT, PROG_MODE. -/
def failTag : Nat := 20
def failShort : Nat := 21
def failReplay : Nat := 22
def failTimeout : Nat := 23
def failMode : Nat := 24

/-- auth_state of a pass leaves PENDING (R102, R113): none is PASS; a FAIL, by its reason, is counted once against its plane; what
waits for it goes on. -/
def Dev.resolvePass (d : Dev) (n id : Nat) (p : Pass) (fail : Option Nat) : Dev :=
  let pass := fail.isNone
  let a := if pass then 2 else 3
  let d := d.setAuth p.uid a
  let d := match fail with
    | none => d
    | some why => (d.cipCount n 0 1).raiseOnce Src.AUTH_FAIL n (Config.code why)
  let p := { p with auth := a, ready := true }
  let d := if p.released then d.dropPass n id else d.setPass n id p
  d.push (.resolved p.uid pass)

/-- A pass's program has ended: the tag's verdict, with the replay check made again at resolution (R102). -/
def Dev.endPass (d : Dev) (n id : Nat) (p : Pass) : Dev :=
  match d.decryptPass n p with
  | none => d
  | some (k, prog, j, s) =>
    let d := if p.ready then d else d.plaintextReady n id p
    let p := (d.passOf n id).getD p
    let d := match p.slot with | some x => d.endUse x | none => d
    if prog = 0 ∧ d.mode ≠ .test then
      (d.cipCount n 4 1).resolvePass n id { p with drop := true } (some failMode)
    else
      let d := if s.short then d.cipCount n 3 1 else d
      match s.check with
      | none => if (d.stepsOf n prog).isEmpty then d.resolvePass n id p (some failTag) else d
      | some false => d.resolvePass n id p (some (if s.short then failShort else failTag))
      | some true =>
        let c := d.inCtx k.leg (p.md.demux == 1)
        if isReplay c j.index then d.resolvePass n id p (some failReplay)
        else (d.setInCtx k.leg (p.md.demux == 1) (c.accept j.index)).resolvePass n id p none

/-- A frame's program has ended: its bytes are protected, and it may enter its transmit FIFO. -/
def Dev.endFrame (d : Dev) (n port id : Nat) : Dev :=
  let pt := d.egPort port
  match pt.sel.find? (fun f => f.id == id) with
  | none => d
  | some f =>
    match f.slot.bind d.penSlot with
    | none => d
    | some k =>
      let pay := f.item.rtpLen
      let heads := f.bytes.take (f.bytes.length - pay)
      let pkt := f.bytes.drop (f.bytes.length - pay)
      let rtcp := f.isRtcp
      let c := d.ctx k.leg true
      let on := !rtcp || k.flags.testBit 1
      let word := (if on then 2 ^ 31 else 0) + c.rtcp % 2 ^ 31
      let gcm := decide (k.profile ≤ 2)
      let h := rtpHead rtcp pkt
      let clear := pkt.take h ++ (if on then [] else pkt.drop h)
      let j : Job := { enc := true, keys := k.keys, head := if rtcp && gcm then clear ++ toBe 4 word else clear,
                       body := if on then pkt.drop h else [], tag := [], ssrc := be32 pkt (if rtcp then 4 else 8),
                       index := if rtcp then c.rtcp % 2 ^ 31 else estIndex c f.item.outSeq, word := word }
      let prog := d.programFor n k.profile k.leg rtcp
      let s := runJob (d.stepsOf n prog) j
      let body := clear ++ s.out
      let tail := if !rtcp then s.put else if gcm then s.put ++ toBe 4 word else toBe 4 word ++ s.put
      let c := if rtcp then { c with rtcp := c.rtcp + 1 } else c.accept j.index
      let d := d.setCtx k.leg true c
      if prog = 0 ∧ d.mode ≠ .test then
        let d := (d.cipCount n 4 1).setEgPort port { pt with sel := pt.sel.filter (fun x => x.id != id) }
        ((match f.slot with | some x => d.endUse x | none => d).frameGone port f).advancePort port
      else
      let d := d.setEgPort port { pt with sel := pt.sel.map (fun x =>
        if x.id = id then { x with bytes := heads ++ body ++ tail, inHerd := false } else x) }
      (match f.slot with | some x => d.endUse x | none => d).advancePort port

/-- CIPHER_PROGRAM_END (R92, R97): the cell is free for the next packet. -/
def cipherProgramEnd (n cell : Nat) (d : Dev) : Dev :=
  match tabFind (d.plane n).jobs cell with
  | none => d
  | some (.pass id, _) =>
    let d := match d.passOf n id with | some p => d.endPass n id p | none => d
    d.herdFree n cell
  | some (.frame port id, _) => (d.endFrame n port id).herdFree n cell

/-- AUTH_TIMEOUT: the packet, named by its payload, is still PENDING 32,768 FCLK after its release. -/
def authTimeout (uid : Nat) (d : Dev) : Dev :=
  match (List.range 2).flatMap (fun n => ((d.plane n).passes.filter (fun x => x.2.uid == uid)).map (fun x => (n, x.1, x.2))) with
  | (n, id, p) :: _ =>
    match p.relAt with
    | some r =>
      if p.auth ≠ 1 then d
      else
        d.atNow (r + 32768) fun d =>
          let d := match p.slot with | some k => d.endUse k | none => d
          (d.cipCount n 2 1).resolvePass n id { p with slot := none } (some failTimeout)
    | none => d
  | [] => d

/-! ### Slot loads and the key wait -/

/-- SLOT_LOAD_DONE: one of the two lanes finishes the load served next. -/
def slotLoadDone (lane : Nat) (d : Dev) : Dev := if 2 ≤ lane then d else d.loadDone

/-- A leg's ingress slot is ready: its waiting packets go back to the herd in order, each holding the slot, and take fresh reorder
entries; where the load failed they are dropped as KEY_BAD (R92, R107, R110). -/
def Dev.ingressReady (d : Dev) (leg : Nat) (ok : Bool) : Dev :=
  foldDev [0, 1] (fun n d =>
    let pl := d.plane n
    let mine := pl.kw.filter (fun w => match d.passOf n w.1 with | some p => p.md.leg == leg | none => true)
    let d := d.setPlane n { pl with kw := pl.kw.filter (fun w => !mine.contains w) }
    let d := foldDev mine (fun w d =>
      match d.passOf n w.1 with
      | none => d
      | some p =>
        match ok, d.slotFor leg false with
        | true, some k =>
          let d := (d.useSlot k).setPass n w.1 { p with returned := true, slot := some k }
          d.setPlane n { d.plane n with back := (d.plane n).back ++ [w.1] }
        | _, _ => ((d.dropPass n w.1).derefPayload p.uid).vltCount 6 1) d
    d.entriesFreed n) d

/-- The leg direction whose key a piece of the herd's work runs under, and the slot it was assigned. -/
def Dev.workSlot (d : Dev) (n : Nat) : HerdRef → Option (Nat × Bool × Nat)
  | .pass id => match d.passOf n id with | some p => p.slot.map (fun k => (p.md.leg, false, k)) | none => none
  | .frame port id => match (d.egPort port).sel.find? (fun f => f.id == id) with
    | some f => f.leg.bind (fun l => f.slot.map (fun k => (l, true, k)))
    | none => none

/-- Work changes its slot before its program starts: its tag is that of the new slot's profile. -/
def Dev.reslot (d : Dev) (n k : Nat) : HerdRef → Dev
  | .pass id =>
    match d.passOf n id, d.penSlot k with
    | some p, some s => d.setPass n id { p with slot := some k, tagLen := tagBytes s.profile (p.md.demux == 1) }
    | _, _ => d
  | .frame port id =>
    match d.penSlot k with
    | none => d
    | some s =>
      let pt := d.egPort port
      d.setEgPort port { pt with sel := pt.sel.map (fun f => if f.id = id then f.under k (tagBytes s.profile f.isRtcp) else f) }

/-- A program starts: it runs under the handle now bound (R109). Work whose slot is of another handle goes over to that handle's slot;
where that is not resident a pass leaves for the key-wait queue, and a frame waits for its load. -/
def Dev.startProgram (d : Dev) (n : Nat) (ref : HerdRef) : Dev :=
  match d.workSlot n ref with
  | none => d
  | some (leg, egress, k) =>
    if ((d.penSlot k).map (·.handle)) = some (d.boundHandle leg egress) then d
    else
      let d := d.endUse k
      match d.slotFor leg egress with
      | some k' => (d.useSlot k').reslot n k' ref
      | none =>
        let d := match d.cellOf n ref with | some c => d.herdFree n c | none => d
        match ref with
        | .pass id =>
          match d.passOf n id with
          | some p => (d.keyWait n id { p with auth := 0, slot := none, order := none }).entriesFreed n
          | none => d
        | .frame port id =>
          let pt := d.egPort port
          let pay := ((pt.sel.find? (fun f => f.id == id)).map (·.item.rtpLen)).getD 0
          let pl := d.plane n
          ((d.setEgPort port { pt with sel := pt.sel.map (fun f => if f.id = id then { f with slot := none } else f) }).setPlane n
            { pl with herdWait := pl.herdWait ++ [{ ref := ref, cost := herdCost 2 pay, lane := laneCost 3 pay, key := true }] }).askGroup leg true 3

/-- Frames that wait for a slot of their leg's new handle: it is loaded, or its load failed (R107, R109). -/
def Dev.framesReady (d : Dev) (leg : Nat) (ok : Bool) : Dev :=
  foldDev [0, 1] (fun n d =>
    let pl := d.plane n
    let legOf := fun (w : HerdWait) => match w.ref with
      | .frame port id => ((d.egPort port).sel.find? (fun f => f.id == id)).bind (·.leg)
      | .pass _ => none
    let mine := pl.herdWait.filter (fun w => w.key && legOf w == some leg)
    let d := d.setPlane n { pl with herdWait := pl.herdWait.filter (fun w => !(w.key && legOf w == some leg)) }
    foldDev mine (fun w d =>
      match w.ref, ok, d.slotFor leg true with
      | .frame port id, true, some k => ((d.useSlot k).reslot n k (.frame port id)).herdTry n { w with key := false, cell := none }
      | .frame port id, _, _ =>
        let pt := d.egPort port
        match pt.sel.find? (fun f => f.id == id) with
        | some f => (((d.setEgPort port { pt with sel := pt.sel.filter (fun x => x.id != id) }).frameGone port f).vltCount 6 1).advancePort port
        | none => d
      | _, _, _ => d) d) d

/-- KEY_WAIT_TIMEOUT: still waiting 4 beats after its arrival. -/
def keyWaitTimeout (n id : Nat) (d : Dev) : Dev :=
  let pl := d.plane n
  match pl.kw.find? (fun w => w.1 == id) with
  | none => d
  | some w =>
    if d.beat < w.2 + 4 then d
    else
      let d := (d.setPlane n { pl with kw := pl.kw.erase w }).vltCount 3 1
      match d.passOf n id with
      | some p => (d.dropPass n id).derefPayload p.uid
      | none => d

/-- VLT_KW_FILL. -/
def Dev.kwFill (d : Dev) : Nat := (d.plane 1).kw.length * 65536 + (d.plane 0).kw.length

/-- CIP_PROGS: the standard programs loaded. -/
def Dev.cipProgs (d : Dev) (n : Nat) : Nat :=
  ((programsOf (d.regionOf n).sec.programs).map (fun p => if p.1 < 16 then 2 ^ p.1 else 0)).foldl (· ||| ·) 0

/-- Packets in the key-wait queues and the herds are dropped (R114). -/
def Dev.dropHerds (d : Dev) : Dev :=
  foldDev [0, 1] (fun n d =>
    let pl := d.plane n
    let busy := pl.jobs.filterMap (fun j => match j.2.1 with | .pass id => some id | .frame _ _ => none)
    let wait := pl.herdWait.filterMap (fun w => match w.ref with | .pass id => some id | .frame _ _ => none)
    let ids := pl.kw.map (·.1) ++ pl.back ++ busy ++ wait
    let d := foldDev ids (fun id d =>
      match d.passOf n id with
      | some p => let d := d.dropPass n id; if p.released then d else d.derefPayload p.uid
      | none => d) d
    d.setPlane n { d.plane n with jobs := [], herdWait := [], kw := [], back := [] }) d

end Sys2Proof.Machine
end

