-- ==== Sys2Proof/Machine/MuleIn.lean ====
section
/-! DEFINITION. What arrives over the Mule links: election, the Rooster and its standby, the directory, and each type of frame, on a
direct link or out of a tunnel's datagram (R312 to R321, R324, R325). -/

namespace Sys2Proof.Machine
open Sys2Proof

/-! ### Election (R317) -/

def Dev.pairOf (d : Dev) : Nat × Nat := (d.fld Reg.MUL_ROOSTER 2 0, d.reg64 Reg.MUL_SERIAL_LO Reg.MUL_SERIAL_HI)

def pairBelow (a b : Nat × Nat) : Bool := decide (a.1 < b.1) || (a.1 == b.1 && decide (a.2 < b.2))

/-- The highest-ranked of some devices. -/
def bestPair (ps : List (Nat × Nat × Nat × Bool)) : Option Nat :=
  (ps.foldl (fun a p => match a with
    | none => some p
    | some q => if pairBelow (q.2.1, q.2.2.1) (p.2.1, p.2.2.1) then some p else some q) (none : Option (Nat × Nat × Nat × Bool))).map (·.1)

def Dev.standbyReady (d : Dev) : Bool := d.flag Reg.MUL_STATUS 22

/-- A standby is chosen: the highest-ranked other eligible device that is reached without a tunnel, or else the highest-ranked
eligible one. It becomes READY once it reports so. -/
def Dev.chooseStandby (d : Dev) : Dev :=
  let able := d.mul.peers.filter (fun p => p.2.1 != 0 && d.reaches p.1)
  let pick := match bestPair (able.filter (fun p => p.2.2.2)) with | some m => some m | none => bestPair able
  let d := d.setFlag Reg.MUL_STATUS 22 false
  match pick with
  | some m => d.setFld Reg.MUL_STATUS 25 23 m
  | none => d.setFld Reg.MUL_STATUS 25 23 d.devId

/-- The own directory write that waits for the Rooster is lost with it: NO_ROOSTER. -/
def Dev.loseWrite (d : Dev) : Dev :=
  match d.mul.ownWrite with
  | none => d
  | some _ => ({ d with mul := { d.mul with ownWrite := none } }.setFlag Reg.MUL_TAB_CMD 0 false).tabErr Reg.MUL_TAB_CMD 1

/-- The Rooster role moved: counted, raised; a directory write that the Rooster had not broadcast is lost. -/
def Dev.roosterMoved (d : Dev) (m : Nat) : Dev :=
  (((d.setFld Reg.MUL_STATUS 28 26 m).mulCount 6 1).raise Src.ROOSTER_CHANGED noDetail m).loseWrite

/-! ### The directory (R319) -/

def entWords (e : Entry) : List Nat := (List.range 8).map (fun k => (Entry.word e k).toNat)
def entOf (ws : List Nat) : Entry := (List.range 8).foldl (fun e k => Entry.put e k (BitVec.ofNat 32 (ws.getD k 0))) {}

/-- Numbers of a DIRECTORY frame: 0 write, 1 copy, 2 acknowledgement, 3 commit; index, writing device, words. -/
def dirNums (op idx dev : Nat) (e : Entry) : List Nat := op :: idx :: dev :: entWords e

/-- The entry is committed: it is kept with its EFFECTIVE and GEN until that beat, and the own host's command ends. -/
def Dev.takeCommit (d : Dev) (idx dev : Nat) (e : Entry) : Dev :=
  let d := d.setEnt .mul 0 idx e
  let eff := (posNear d.beat (e.f 6 31 0)).toNat
  let d := { d with mul := { d.mul with commits := d.mul.commits ++ [(idx, e, eff)], writes := d.mul.writes.filter (fun w => w.idx != idx) } }
  if dev = d.devId ∧ (d.mul.ownWrite.map (·.1)) = some idx then
    ({ d with mul := { d.mul with ownWrite := none } }.setFlag Reg.MUL_TAB_CMD 0 false).tabErr Reg.MUL_TAB_CMD 0
  else d

/-- The Rooster commits a write: EFFECTIVE is two beats on, GEN advances, and the entry is broadcast. -/
def Dev.commitWrite (d : Dev) (w : DirWrite) : Dev :=
  let rest := d.mul.writes.erase w
  let e := (w.ent.setF 6 31 0 ((d.beat + 2) % 2 ^ 32)).put 7 (BitVec.ofNat 32 (((d.ent .mul 0 w.idx).f 7 31 16 + 1) % 65536 * 65536))
  let d := ((d.takeCommit w.idx w.dev e).mulCount 5 1)
  let d := { d with mul := { d.mul with writes := rest } }
  d.muleAll muleDirectory 0 0 0 d.beat (Config.muleBytes muleDirectory (dirNums 3 w.idx w.dev e))

/-- A write has reached the Rooster: its copy goes to a READY standby, else it is committed at once. -/
def Dev.roosterWrite (d : Dev) (idx dev : Nat) (e : Entry) : Dev :=
  let w : DirWrite := { idx := idx, ent := e, dev := dev, sent := some d.beat }
  if d.standbyReady then
    ({ d with mul := { d.mul with writes := d.mul.writes ++ [w] } }).muleTo d.standbyId muleDirectory 0 0 0 d.beat
      (Config.muleBytes muleDirectory (dirNums 1 idx dev e))
  else d.commitWrite w

/-- STANDBY_ACK_TIMEOUT (R319): six beats without an acknowledgement; the standby is taken as not READY, the write committed, and a
standby chosen again. -/
def standbyAckTimeout (idx : Nat) (d : Dev) : Dev :=
  match d.mul.writes.find? (fun w => w.idx == idx) with
  | none => d
  | some w =>
    if d.isRooster && (match w.sent with | some b => decide (b + 6 ≤ d.beat) | none => false) then
      ((d.setFlag Reg.MUL_STATUS 22 false).commitWrite w).chooseStandby
    else d

/-- Entries whose EFFECTIVE has come apply. -/
def Dev.applyDir (d : Dev) (p : Nat → Bool) : Dev :=
  let due := d.mul.commits.filter (fun c => decide (c.2.2 ≤ d.beat) && p c.1)
  let t := due.foldl (fun t c => if (c.2.1).b 0 31 then recSet t c.1 c.2.1 else tabErase t c.1) d.mul.applied
  { d with mul := { d.mul with commits := d.mul.commits.filter (fun c => !(decide (c.2.2 ≤ d.beat) && p c.1)), applied := t } }

/-! ### Roles (R317, R324, R325) -/

/-- The role is taken: what this device holds as the old Rooster's standby is committed, and a new standby chosen. -/
def Dev.becomeRooster (d : Dev) : Dev :=
  let held := d.mul.writes
  let own := d.mul.ownWrite
  let d := { d with mul := { d.mul with taking := false, roosterBeat := d.beat } }.setMulState 3
  let d := foldDev held (fun w d => d.commitWrite w) d
  let d := match own with
    | some (i, _) => if held.any (fun w => w.idx == i && w.dev == d.devId) then { d with mul := { d.mul with ownWrite := none } } else d
    | none => d
  (d.roosterMoved d.devId).chooseStandby

/-- The device becomes ISOLATED: its directory is frozen, and a write of its own that waits is lost (assumption 69). -/
def Dev.isolate (d : Dev) : Dev :=
  if d.mulState = 5 then d
  else (({ d with mul := { d.mul with taking := false, handing := false } }.setMulState 5).raise Src.CASCADE_ISOLATED).loseWrite

/-- STACK_SIZE as a count. -/
def Dev.stackSize (d : Dev) : Nat := d.fld Reg.MUL_CFG 30 28 + 1

/-- HEARTBEAT_TIMEOUT: the Rooster's heartbeat is missing on a path; `seen` are the devices whose heartbeats did come. -/
def heartbeatTimeout (seen : List Nat) (d : Dev) : Dev :=
  if !d.inStack then d
  else
    let others := (d.others.filter (fun m => seen.contains m))
    let d := d.setFld Reg.MUL_STATUS 7 0 ((d.devId :: others).map (2 ^ ·)).sum
    let reached := others.length + 1
    if d.isRooster then (if 2 * reached < d.stackSize then d.isolate else d)
    else
      let d := d.mulCount 0 1
      let reported := others.any (fun m => decide (d.beat ≤ (tabFind d.mul.reports m).getD 0 + (d.mulLink ((d.linkTo m).getD 0)).lag + 1))
      if others.contains d.roosterId ∨ reported = true then d
      else if d.mulState = 4 ∧ d.stackSize < 2 * reached then { d with mul := { d.mul with taking := true } }
      else if d.mulState = 2 ∧ others.contains d.standbyId = true ∧ d.stackSize < 2 * reached then d
      else d.isolate

/-- A heartbeat's numbers: whether its sender is the Rooster, the last Rooster beat it has seen, whether it is ready as a standby,
the standby's id (8: none) and readiness, the member bitmap, the device the role passes to (8: none), and its TIM_BEAT_OFFSET. -/
def Dev.heartbeatNums (d : Dev) (dst : Nat) : List Nat :=
  [d.isRooster.toNat, d.mul.roosterBeat, (d.locked).toNat, d.standbyId, d.standbyReady.toNat, d.fld Reg.MUL_STATUS 15 8, dst,
   d.fld Reg.TIM_BEAT_OFFSET 20 0]

/-- What a device does on hearing from a Rooster: among the rest its TIM_BEAT_OFFSET becomes the Rooster's (R18). -/
def Dev.heardRooster (d : Dev) (src beat : Nat) (ns : List Nat) : Dev :=
  let d := { d with mul := { d.mul with roosterBeat := max d.mul.roosterBeat beat } }
  let d := if d.inStack && !d.isRooster then d.setFld Reg.TIM_BEAT_OFFSET 20 0 (min 1666666 (ns.getD 7 0)) else d
  if d.mulState = 5 then
    if d.mode = .service ∧ d.pwr.want.isNone then { d with pwr := { d.pwr with want := some (.join, d.beat) } } else d
  else if d.mulState ≠ 2 ∧ d.mulState ≠ 4 then d
  else
    let d := if d.roosterId = src then d else d.roosterMoved src
    let d := (d.setFld Reg.MUL_STATUS 25 23 (ns.getD 3 8)).setFlag Reg.MUL_STATUS 22 (ns.getD 4 0 == 1)
    let d := d.setFld Reg.MUL_STATUS 15 8 (ns.getD 5 0)
    let d := d.setMulState (if ns.getD 3 8 = d.devId then 4 else 2)
    if ns.getD 6 8 = d.devId then { d with mul := { d.mul with taking := true } } else d

/-! ### Frames in (R314 to R316) -/

/-- Missing numbers after a gap on a tunnel. -/
def gapNumbers (last seqn : Nat) : List Nat :=
  let n := toField 16 ((seqn : Int) - last - 1)
  if n < 32768 then (List.range n).map (fun i => (last + 1 + i) % 65536) else []

def Dev.sendNak (d : Dev) (k : Nat) (ns : List Nat) : Dev :=
  (d.muleOut k muleTunNak { cls := 0, src := d.devId, dst := (d.peerOf k).getD 0, beat := d.beat % 2 ^ 32,
                            payload := Config.muleBytes muleTunNak ns }).mulCount 3 1

/-- The number of a tunnel frame: a gap is asked for at once; an old number that is not missing is a copy. -/
def Dev.tunnelSeq (d : Dev) (k seqn : Nat) : Bool × Dev :=
  let l := d.mulLink k
  match l.inSeq with
  | none => (true, d.setMulLink k { l with inSeq := some seqn })
  | some last =>
    if l.missing.any (fun m => m.1 == seqn) then (true, d.setMulLink k { l with missing := l.missing.filter (fun m => m.1 != seqn) })
    else if 32768 ≤ toField 16 ((seqn : Int) - last - 1) then (false, d)
    else
      let gap := gapNumbers last seqn
      let d := d.setMulLink k { l with inSeq := some seqn, missing := l.missing ++ gap.map (fun n => (n, 1, d.now)) }
      (true, if gap.isEmpty then d else d.sendNak k gap)

/-- A frame passes on toward devices that still need it: in a ring onward in its direction, a heartbeat all the way round, any
other broadcast half way (the rising half on a tie). -/
def Dev.relayOn (d : Dev) (k kind : Nat) (f : MuleFrame) : Dev :=
  let n := d.others.length + 1
  let up := decide (2 ≤ k)
  let limit := if kind = muleHeartbeat then n - 1 else if up then n / 2 else (n - 1) / 2
  if d.mesh ∨ (f.bcast = true ∧ limit ≤ f.hops + 1) ∨ (f.bcast = false ∧ f.dst = d.devId) then d
  else
    match (if up then [0, 1] else [2, 3]).find? (fun j => d.linkOk j) with
    | none => d
    | some j => (d.muleOut j kind { f with hops := f.hops + 1 }).mulCount 1 1

/-- A frame arrives on a link: dropped with a bad CRC, its number taken, its credit given back, and passed on; answers whether it is
for this device. -/
def Dev.muleIn (d : Dev) (k kind : Nat) (f : MuleFrame) : Bool × Dev :=
  if !d.linkOk k then (false, d)
  else if !f.crcOk then (false, d.mulCount 7 1)
  else if f.src = d.devId then (false, d)
  else
    let d := if kind = muleCredit then d else d.giveCredit k f.cls (muleCells f)
    let (fresh, d) := if d.tunnel k && f.cls != 0 then d.tunnelSeq k f.seqn else (true, d)
    if !fresh then (false, d)
    else (f.bcast || f.dst == d.devId, d.relayOn k kind f)

/-! ### What each type carries -/

/-- MEDIA (R320): a relayed packet joins its brood's history and input where the brood is relayed over this link, on its way too. -/
def muleMediaIn (k : Nat) (f : MuleFrame) (d : Dev) : Dev :=
  let (_, d) := d.muleIn k muleMedia f
  let be := d.broodEnt f.brood
  if !d.linkOk k ∨ !f.crcOk ∨ f.src = d.devId ∨ !be.b 0 31 ∨ d.relayLink (be.f 0 13 0) ≠ some k ∨ !d.mode.carries then d
  else
    let bs := f.payload
    let ns := Config.muleRead muleMedia bs
    let d := { d with mul := { d.mul with sources := recSet d.mul.sources f.brood f.src } }
    let (u, d) := d.newPayload bs bs.length
    let m : Meta := { brood := f.brood, leg := be.f 0 13 0, stream := ns.getD 0 0, kind := 2, seq := be16 bs 2, ts := be32 bs 4,
                      ssrc := be32 bs 8, layer := ns.getD 1 0, flen := bs.length, beat := d.beat,
                      pic := if ns.getD 2 0 = 0 then none else some (ns.getD 2 0 - 1, max 1 (ns.getD 3 0)),
                      tl0 := if ns.getD 4 0 = 0 then none else some (ns.getD 4 0 - 1) }
    let it : Item := { desc := pktDesc 1 m 0 0 bs.length d.dtNs false, uid := u, md := m, rtpLen := bs.length,
                       dd := ((ns.drop 5).take 256).map (BitVec.ofNat 8 ·) }
    let q := (d.historyQueue f.brood m.stream).getD (Config.broodQueue f.brood m.stream)
    ((d.refPayload u).push (.enqueue q it)).push (.packet it)

/-- PARTIAL (R322): an AFRAME operand for the final mix; under DEEPEN it also goes on with this member's part. -/
def mulePartialIn (k : Nat) (f : MuleFrame) (d : Dev) : Dev :=
  let (mine, d) := d.muleIn k mulePartial f
  if !mine then d
  else
    match d.wide f.flock with
    | none => d
    | some e =>
      let media := (posNear d.beat f.beat).toNat
      let stereo := (d.mixEnt f.flock).b 0 30
      let sides := partSides stereo f.payload
      let tag := mkTag f.flock f.brood Cl.aframe (media % 2 ^ 32)
      let fr : AFrame := { media := media, left := sides.getD 0 [], right := if stereo then sides.getD 1 [] else [], quality := 0 }
      let d := { d with aud := { d.aud with partials := recSet d.aud.partials tag fr } }
      let d := d.push (.arrive tag (2 ^ 38 + f.src) 0)
      if dirSpread e ≠ 2 then d
      else if d.chain e 0 == some f.src then d.takeRunning e f.flock media 0 sides
      else if d.chain e 1 == some f.src then d.takeRunning e f.flock media 1 sides
      else d

/-- Pairs of a list of numbers. -/
def pairsOf : List Nat → List (Nat × Nat)
  | a :: b :: r => (a, b) :: pairsOf r
  | _ => []

/-- TALKERS (R321): a member's candidates at HOME, or HOME's selection at a member. -/
def muleTalkersIn (k : Nat) (f : MuleFrame) (d : Dev) : Dev :=
  let (mine, d) := d.muleIn k muleTalkers f
  if !mine then d
  else
    match d.wide f.flock with
    | none => d
    | some e =>
      let ns := Config.muleRead muleTalkers f.payload
      if dirHome e = d.devId then
        { d with mul := { d.mul with cands := recSet d.mul.cands (dirIdx d.devId f.flock * 8 + f.src) (pairsOf ns) } }
      else if f.src = dirHome e then
        let places := (List.range 8).map (fun i => let b := ns.getD i 65536; if b < 65536 then some b else none)
        d.postTalkers f.flock (posNear d.beat f.beat).toNat places (ns.drop 8)
      else d

/-- A member's demand for a brood: one that rises is in force at once; one that falls, to a lower point or to none, waits for the
next picture (a spatial id of 8 stands for none). -/
def Dev.takeDemand (d : Dev) (key : Nat) (pt : Option (Nat × Nat)) : Dev :=
  match tabFind d.mul.demands key, pt with
  | none, none => d
  | none, some p => { d with mul := { d.mul with demands := recSet d.mul.demands key (p, none) } }
  | some (cur, _), none => { d with mul := { d.mul with demands := recSet d.mul.demands key (cur, some (8, 0)) } }
  | some (cur, _), some p =>
    let v := if cur.1 ≤ p.1 ∧ cur.2 ≤ p.2 then (p, none) else ((max cur.1 p.1, max cur.2 p.2), some p)
    { d with mul := { d.mul with demands := recSet d.mul.demands key v } }

/-- DEMAND (R320): numbers 0, brood, spatial (8: none) and temporal id of the point, and an encoding whose key is asked for plus 1 (0: none);
or 1 with a NACK for a relayed brood. A demand that rises is in force at once; one that falls waits for the next picture. -/
def muleDemandIn (k : Nat) (f : MuleFrame) (d : Dev) : Dev :=
  let (mine, d) := d.muleIn k muleDemand f
  if !mine then d
  else
    let ns := Config.muleRead muleDemand f.payload
    let b := ns.getD 1 0 % 65536
    if ns.getD 0 0 = 1 then
      match d.wide ((d.broodEnt b).f 1 11 0), (d.historyQueue b (ns.getD 2 0)) with
      | some e, some q =>
        match d.searchHistory q (ns.getD 3 0) 4 (toField 16 ((ns.getD 3 0 : Int) - (((d.queue q).items.head?).map (fun i => i.md.seq)).getD 0)) with
        | (some it, d) =>
          if d.itemAuth it ≠ 2 then d
          else
            let bytes := ((d.payload it.uid).map (·.bytes)).getD []
            d.muleTo f.src muleMedia 2 (dirFlock e f.src) b d.beat (slice bytes it.md.rtpOfs it.rtpLen)
        | (none, d) => d
      | _, _ => d
    else
      let d := d.takeDemand (b * 8 + f.src) (if 4 ≤ ns.getD 2 0 then none else some (ns.getD 2 0, ns.getD 3 0 % 8))
      let enc := ns.getD 4 0
      if enc = 0 then d else d.keyRequest b (enc - 1) true

/-- Clocks that take MULE samples of a link: PRIV0 the first link toward the Rooster, PRIV1 the next one where there is one, the
others as PRIV0. -/
def Dev.timeLink (d : Dev) (dom : Nat) : Option Nat :=
  let ls := ((if d.mesh then (d.linksTo d.roosterId ++ List.range 4) else d.linksTo d.roosterId).filter (fun k => d.linkOk k)).eraseDups
  if dom = 5 then (match ls with | _ :: b :: _ => some b | [a] => some a | [] => none) else ls.head?

/-- TIME (R318): stamped at the medium; with the peer's stamps it gives a sample to each clock that takes this link, and the
link's round trip. Numbers: the peer's stamp of this frame and its stamp of this end's last, in 250 ps. -/
def muleTimeIn (k : Nat) (f : MuleFrame) (d : Dev) : Dev :=
  let (mine, d) := d.muleIn k muleTime f
  if !mine then d
  else
    let ns := Config.muleRead muleTime f.payload
    let now := d.stampNow
    let l := d.mulLink k
    let d := d.setMulLink k { l with t2 := some now }
    match l.t1, ns with
    | some sent, [out, back] =>
      let q := nsUnit / 4
      let asym := signed 32 (d.reg (Reg.MUL_LINK_ASYM + mulOfs k)).toNat
      let trip : Int := ((now.dt : Int) / q - out) + ((back : Int) - (sent.dt : Int) / q)
      let us := trip.toNat / 4000
      let d := d.setFld (Reg.MUL_LINK_STAT + mulOfs k) 19 0 us
      let d := d.setMulLink k { d.mulLink k with lag := max 1 (ceilDiv (us * 3) 10000) }
      if d.isRooster then d
      else foldDev ((List.range 6).filter (fun i => d.timeLink i == some k)) (fun i d =>
        let here : Int := ((now.doms.getD i 0 : Nat) : Int) / q
        let there : Int := ((sent.doms.getD i 0 : Nat) : Int) / q
        let two : Int := (here - out) - ((back : Int) - there)
        timDomSample i .mule (roundOpen ((two : Rat) * 8192 - (asym : Rat) * 16384)) d) d
    | _, _ => d

/-- HEARTBEAT (R324). -/
def muleHeartbeatIn (k : Nat) (f : MuleFrame) (d : Dev) : Dev :=
  let (mine, d) := d.muleIn k muleHeartbeat f
  if !mine then d
  else
    let ns := Config.muleRead muleHeartbeat f.payload
    let beat := (posNear d.beat f.beat).toNat
    let seenBy := ns.getD 1 0
    let d := { d with mul := { d.mul with reports := recSet d.mul.reports f.src seenBy } }
    let d := d.setFld Reg.MUL_STATUS 7 0 (d.fld Reg.MUL_STATUS 7 0 ||| 2 ^ (f.src % 8))
    let d := if d.isRooster && d.others.contains f.src then d.setFld Reg.MUL_STATUS 15 8 (d.fld Reg.MUL_STATUS 15 8 ||| 2 ^ (f.src % 8)) else d
    let d := if d.isRooster && f.src == d.standbyId && !d.standbyReady && ns.getD 2 0 == 1 then d.setFlag Reg.MUL_STATUS 22 true else d
    if ns.getD 0 0 = 1 then d.heardRooster f.src beat ns else d

/-- DIRECTORY (R319). -/
def muleDirectoryIn (k : Nat) (f : MuleFrame) (d : Dev) : Dev :=
  let (mine, d) := d.muleIn k muleDirectory f
  if !mine ∨ d.mulState = 5 then d
  else
    let ns := Config.muleRead muleDirectory f.payload
    let idx := ns.getD 1 0 % 32768
    let dev := ns.getD 2 0 % 8
    let e := entOf (ns.drop 3)
    match ns.getD 0 4 with
    | 0 => if d.isRooster then d.roosterWrite idx dev e else d
    | 1 =>
      if d.mulState = 4 then
        let w : DirWrite := { idx := idx, ent := e, dev := dev }
        let d := { d with mul := { d.mul with writes := d.mul.writes ++ [w] } }
        d.muleTo f.src muleDirectory 0 0 0 d.beat (Config.muleBytes muleDirectory (dirNums 2 idx dev e))
      else d
    | 2 =>
      match d.mul.writes.find? (fun w => w.idx == idx) with
      | some w => if d.isRooster then d.commitWrite w else d
      | none => d
    | 3 => d.takeCommit idx dev e
    | _ => d

/-- CREDIT (R312): cells granted back; frames that waited leave. -/
def muleCreditIn (k : Nat) (f : MuleFrame) (d : Dev) : Dev :=
  let (mine, d) := d.muleIn k muleCredit f
  if !mine ∨ d.tunnel k then d
  else
    let ns := pairsOf (Config.muleRead muleCredit f.payload)
    let d := foldDev ns (fun g d =>
      let l := d.mulLink k
      d.setMulLink k { l with used := recSet l.used (g.1 % 4) ((tabFind l.used (g.1 % 4)).getD 0 - g.2) }) d
    d.muleDrain k (d.mulLink k).wait.length

/-- TUN_NAK (R316): the frames still kept are sent again under their numbers. -/
def muleTunNakIn (k : Nat) (f : MuleFrame) (d : Dev) : Dev :=
  let (mine, d) := d.muleIn k muleTunNak f
  if !mine then d
  else
    let ns := Config.muleRead muleTunNak f.payload
    let kept := (d.mulLink k).hist.filter (fun h => ns.contains h.1 && decide (d.beat ≤ h.2.2.1 + d.tunHist k))
    foldDev kept (fun h d => d.tunnelOut k h.2.1 h.2.2.2) d

/-- TUN_NAK_RETRY (R316): one round trip after a request, a second one; after that the frame is lost. -/
def tunNakRetry (k seqn : Nat) (d : Dev) : Dev :=
  let l := d.mulLink k
  match l.missing.find? (fun m => m.1 == seqn) with
  | none => d
  | some (n, sent, at_) =>
    let trip := d.fld (Reg.MUL_LINK_STAT + mulOfs k) 19 0 * 1500
    if d.now < at_ + trip then d
    else if sent < 2 then
      (d.setMulLink k { l with missing := l.missing.map (fun m => if m.1 == n then (n, 2, d.now) else m) }).sendNak k [n]
    else ((d.setMulLink k { l with missing := l.missing.filter (fun m => m.1 != n) }).mulCount 4 1).raiseOnce Src.TUNNEL_LOSS k

/-- MULE_TIME_EXCHANGE (R318): every TIME_DIV beats a TIME frame leaves on each link, stamped, with the stamp of the peer's last. -/
def muleTimeExchange (d : Dev) : Dev :=
  if !d.inStack && d.mulState ≠ 1 then d
  else
    let due := match d.mul.timeAt with | some b => decide (b + d.fld Reg.MUL_CFG 7 0 ≤ d.beat) | none => true
    if !due then d
    else
      let q := nsUnit / 4
      foldDev ((List.range 4).filter (fun k => d.linkOk k)) (fun k d =>
        let now := d.stampNow
        let l := d.mulLink k
        let back := match l.t2 with | some s => s.dt / q | none => 0
        let bs := Config.muleBytes muleTime [now.dt / q, back]
        let f : MuleFrame := { src := d.devId, dst := (d.peerOf k).getD 0, beat := d.beat % 2 ^ 32, payload := bs }
        (d.setMulLink k { l with t1 := some now }).muleOut k muleTime f)
        ({ d with mul := { d.mul with timeAt := some d.beat } } : Dev)

/-! ### Tunnels (R315) -/

/-- The Mule frame at the front of a tunnel's datagram (Table 15.2), its TYPE first; none: too short, or not of version 1. -/
def muleFrameOf (bs : List Byte) : Option (Nat × MuleFrame) :=
  let len := net16 bs 4
  let b := fun (i : Nat) => (byteAt bs i)
  if bs.length < 20 + len ∨ b 0 / 16 ≠ 1 then none
  else some (b 0 % 16,
    { crcOk := crc32 (bs.take (16 + len)) == be32 bs (16 + len), cls := b 1 / 64, src := b 1 / 8 % 8, dst := b 1 % 8, bcast := b 2 / 128 == 1,
      hops := b 2 / 16 % 8, flock := net16 bs 6, brood := net16 bs 8, seqn := net16 bs 10, beat := be32 bs 12, payload := slice bs 16 len })

/-- The second pass of a tunnel's datagram gives its frame to the Mule links, as a frame of the link that the tunnel carries. A receiver that
has no room drops it (R315); what room there is stands open (assumption 123). -/
def Dev.muleDatagram (d : Dev) (k : Nat) (bs : List Byte) : Dev :=
  match muleFrameOf bs with
  | none => d
  | some (kind, f) =>
    let (room, d) := d.drawBelow 2
    if room = 0 then (d.mulCount 4 1).raiseOnce Src.TUNNEL_LOSS k
    else
    match kind with
    | 1 => muleMediaIn k f d
    | 2 => mulePartialIn k f d
    | 3 => muleTalkersIn k f d
    | 4 => muleDemandIn k f d
    | 5 => muleTimeIn k f d
    | 6 => muleHeartbeatIn k f d
    | 7 => muleDirectoryIn k f d
    | 8 => muleCreditIn k f d
    | 9 => muleTunNakIn k f d
    | _ => d

end Sys2Proof.Machine
end

