-- ==== Sys2Proof/Machine/Kinds.lean ====
section
/-! DEFINITION. What each kind of task does at its freeze, its retirement, its end and its fill; the work one unit hands another
within a step; the flock entry and TSK_TAB (R52 to R54, R71, R72, R405). -/

namespace Sys2Proof.Machine
open Sys2Proof

/-! ### Freeze, retirement, end, fill -/

/-- A task's operand set has frozen. -/
def Dev.onFreeze (d : Dev) (t : Nat) : Dev :=
  match d.task t with
  | none => d
  | some x =>
    if x.kind = Kd.compose then d.freezeCompose t x
    else if x.kind = Kd.encode then d.freezeEncode t x
    else if x.kind = Kd.adecode then d.freezeAdecode x
    else d

/-- A decoder or an encoder of a flock that has moved follows at the end of a task (R166, R53). -/
def Dev.follow (d : Dev) (x : Task) : Dev :=
  if x.kind = Kd.decode then d.moveDec x.entry (d.flockRegion x.flock)
  else if x.kind = Kd.encode then d.moveEnc x.entry (d.flockRegion x.flock)
  else d

/-- A composite that shows nothing leaves its chain a skip picture for each entry (R215). -/
def Dev.chainSkips (d : Dev) (x : Task) : Dev := foldDev (d.encsOf x.entry) (fun e d => d.queueSkip e x.media) d

/-- A task has terminated. -/
def Dev.onEnd (d : Dev) (t : Nat) : Dev :=
  match d.task t with
  | none => d
  | some x =>
    if x.kind = Kd.decode then (d.endDecode t x).follow x
    else if x.kind = Kd.compose then
      let d := d.endCompose t x
      if x.ending = 1 then d
      else if x.st = St.complete then d.chainEncode x
      else if x.st = St.expired then (match d.task t with | some y => if y.filling then d else d.chainSkips x | none => d)
      else d.chainSkips x
    else if x.kind = Kd.encode then (d.endEncode t x).follow x
    else if x.kind = Kd.adecode then (d.endAdecode x).followAud x
    else if x.kind = Kd.mix then
      (if x.st = St.complete ∨ x.st = St.expired then d.publishMix x else d.mixLost x).followAud x
    else if x.kind = Kd.aencode then
      (if x.st = St.complete then d else d.encodeFrame x none).followAud x
    else if x.kind = Kd.filter then
      if x.st = St.complete then d else d.filterGroup x.entry x.media none
    else d

/-- The final job of a task retires on its cell. -/
def Dev.onRetire (d : Dev) (t : Nat) (x : Task) (cell : Nat) (res : JobResult) : Dev :=
  if x.kind = Kd.decode then d.retireDecode t x cell res.pic
  else if x.kind = Kd.compose then d.retireCompose t x
  else if x.kind = Kd.encode then d.retireEncode t x res
  else if x.kind = Kd.adecode then d.retireAdecode t x res
  else if x.kind = Kd.aencode then (d.complete t).encodeFrame x ((res.packets.head?).map (·.2))
  else if x.kind = Kd.filter then (d.complete t).filterGroup x.entry x.media res.ctxErr
  else d.complete t

/-- JOB_RETIRE (R25, R65): the job of a cell retires; a gang retires with its lead cell. A retirement at or after the end of the
grace finds its task settled, and one after the FCLK in which its cells accepted an abort finds its job stopped (R69). -/
def jobRetire (cell : Nat) (res : JobResult) (d : Dev) : Dev :=
  match (d.cell cell).job with
  | none => d
  | some t =>
    match d.task t with
    | none => d
    | some x =>
      if x.st = St.running ∧ x.cells.head? = some cell then
        if d.accepted x then d.terminate t St.aborted else d.onRetire t x cell res
      else d

/-- FILL_ENGINE_DONE (R181, R200, R223). -/
def fillEngineDone (t : Nat) (d : Dev) : Dev :=
  match d.task t with
  | none => d
  | some x =>
    if !x.filling then d
    else
      let d :=
        if x.kind = Kd.decode then d.fillDecode t x
        else if x.kind = Kd.compose then (let d := d.fillCompose t x; if x.ending = 1 then d else d.chainEncode x)
        else if x.kind = Kd.encode then d.fillEncode t x
        else d
      match d.task t with
      | some y => (d.setTask t { y with endNow := d.now }).follow y
      | none => d

/-! ### RTCP from a leg (R154) -/

/-- An RTCP packet whose authentication is settled: its parts are acted on, and it is punted if it holds another type. -/
def Dev.actRtcp (d : Dev) (it : Item) : Dev :=
  let bs := slice (((d.payload it.uid).map (·.bytes)).getD []) it.md.rtpOfs it.rtpLen
  let ((other, mine), d) := d.rtcpParts it.md.leg it.md.brood bs bs.length
  if other then
    let d := (d.fwdCount 6 1).raiseOnce Src.RTCP_PUNTED it.md.leg
    (d.refPayload it.uid).puntItem (d.fld Reg.PCI_PUNT_SEL 7 4) { it with punt := some { reason := 3, partialRtcp := mine } }
  else d

/-- A released RTCP packet: PENDING waits, FAIL is dropped whole. -/
def Dev.rtcpPacket (d : Dev) (it : Item) : Dev :=
  match d.itemAuth it with
  | 1 => { d.refPayload it.uid with fwd := { d.fwd with rtcp := d.fwd.rtcp ++ [it] } }
  | 3 => d
  | _ => d.actRtcp it

/-- A retransmission from a source leg: PENDING waits, FAIL is dropped; its packet goes to the units that use it. -/
def Dev.rtxPacket (d : Dev) (it : Item) : Dev :=
  match d.itemAuth it with
  | 1 => { d.refPayload it.uid with fwd := { d.fwd with rtcp := d.fwd.rtcp ++ [it] } }
  | 3 => d
  | _ => let (it, d) := d.rtxArrived it; d.decPacket it

/-- RTCP packets and retransmissions that waited for a payload's resolution. -/
def Dev.rtcpResolved (d : Dev) (uid : Nat) : Dev :=
  let mine := d.fwd.rtcp.filter (fun i => i.uid == uid)
  let d := { d with fwd := { d.fwd with rtcp := d.fwd.rtcp.filter (fun i => i.uid != uid) } }
  foldDev mine (fun it d => (if it.md.demux = 1 then d.rtcpPacket it else d.rtxPacket it).derefPayload it.uid) d

/-! ### Work handed over within a step -/

/-- A region's scrub begins (R15): REGION_SCRUB is raised. One needed less than 10 s after the last was needed, the last still running
or not, is a second scrub (assumption 97). -/
def Dev.startScrub (d : Dev) (r : Nat) (detail : Nat) : Dev :=
  let g := d.regionOf r
  let near := match g.lastScrub with | some t => decide (d.now < t + 15000000000) | none => false
  { d.raise (srcRegion r 1) detail with
    regions := recSet d.regions r { g with scrubbing := true, lastScrub := some d.now, again := (g.scrubbing && g.again) || near } }

/-- The units that take a packet: decoders, jitter queues, and the forwarding unit. -/
def Dev.unitsTake (d : Dev) (it : Item) : Dev :=
  if it.md.demux = 0 then ((d.decPacket it).audPacket it).offerForward it else d

/-- A packet for its queue: once accepted there, the units take it; a queue of kind GENERAL is read by them at once (R126). -/
def Dev.deliver (d : Dev) (q : Nat) (it : Item) : Dev :=
  let d := (d.refPayload it.uid).enqueue q it
  if (d.queue q).items.any (fun x => x.uid == it.uid) then
    let d := d.unitsTake it
    let d := if d.queueKind q = some 0 then (d.readItem q).2 else d
    d.derefPayload it.uid
  else d.derefPayload it.uid

/-- One piece of work. -/
def Dev.runAct (d : Dev) : Act → Dev
  | .arrive tag ref q =>
    let (ok, d) := d.arrive tag ref q
    if ok && tagClass tag == Cl.au then d.injectedAu tag ref
    else if ok then d else d.tapFreeBuf tag
  | .ended t => d.onEnd t
  | .frozen t => d.onFreeze t
  | .keyReq b enc need => d.encRequest b enc need
  | .cellOut code => d.startScrub (cellRegion code) code
  | .slotReady leg egress ok => if egress then (d.runSlotReady leg ok).framesReady leg ok else d.ingressReady leg ok
  | .loadRetry => d.loadRetry
  | .enqueue q it => d.enqueue q it
  | .deliver q it => d.deliver q it
  | .started n ref => d.startProgram n ref
  | .mule k bs => d.muleDatagram k bs
  | .packet it => (if it.md.demux = 1 then d.rtcpPacket it else if it.md.kind = 3 then d.rtxPacket it else d.unitsTake it).derefPayload it.uid
  | .resolved uid pass =>
    let d := ((d.decResolved uid pass).audResolved uid pass).rtcpResolved uid
    foldDev ((d.fwd.broods.filter (fun b => b.2.hold.any (fun i => i.uid == uid))).map (·.1)) (fun b d => d.drainHold b) d

/-- All work handed over, in order of handing, until none is left. -/
def Dev.drain (d : Dev) : Nat → Dev
  | 0 => d
  | n + 1 =>
    match d.tsk.todo with
    | [] => d
    | a :: rest => Dev.drain (({ d with tsk := { d.tsk with todo := rest } } : Dev).runAct a) n

/-! ### Moves between regions (R42, R71) -/

/-- The dispatcher gives a flock a media region: each of its entries moves to it, and the flock's new tasks are released
there. -/
def Dev.moveFlock (d : Dev) (f r : Nat) : Dev :=
  if d.flockRegion f = r then d
  else
    let d := d.setEnt .tsk 0 f ((d.flockEnt f).setF 0 27 26 r)
    let d := foldDev ((d.vdc.decs.filter (fun x => deFlock (d.decEnt x.1) == f)).map (·.1)) (fun e d => d.moveDec e r) d
    let d := foldDev ((d.cmp.lays.filter (fun x => laFlock (d.layEnt x.1) == f)).map (·.1)) (fun l d => d.moveLay l r) d
    let d := foldDev ((d.ven.encs.filter (fun x => enFlock (d.encEnt x.1) == f)).map (·.1)) (fun e d => d.moveEnc e r) d
    let d := foldDev ((d.aud.ents.filter (fun x => aeFlock (d.audEnt x.1) == f)).map (·.1)) (fun e d => d.moveAud e r) d
    if (d.mix f).isSome then d.moveMix f r else d

/-! ### TSK_TAB (R72, R405) -/

def tskTabSize (t : Nat) : Nat := match t with | 0 => 4096 | 1 => 4 * 256 | 2 => 131072 | 3 => 65536 | _ => 0

/-- Beyond a table, or a template id of 255 (R404). -/
def tskBeyond (t i : Nat) : Bool := pastEnd tskTabSize t i || (t == 1 && i % 256 == 255)

/-- A template's 32 bytes as eight words (Table 3.2). -/
def Template.words (t : Template) : Entry :=
  { d0 := BitVec.ofNat 32 (t.id + 256 * (t.kind * 16 + t.rel * 4 + t.notify.toNat * 2) + 65536 * t.cadence + 2 ^ 24 * t.deadlineOfs),
    d1 := BitVec.ofNat 32 (t.waitLimit + 256 * t.nOperands + 65536 * t.chainNext + 2 ^ 24 * t.priority),
    d2 := BitVec.ofNat 32 (t.cost + 65536 * t.classes), d3 := BitVec.ofNat 32 t.param }

def Dev.taskView (d : Dev) (i : Nat) : Entry :=
  match d.task i with
  | none => { d0 := BitVec.ofNat 32 (d.genOf i * 2 ^ 17) }
  | some x =>
    let cell := if x.st = St.running ∨ x.st = St.parked then x.cells.headD 0xFFFF else 0xFFFF
    { d0 := BitVec.ofNat 32 (x.st * 2 ^ 28 + x.kind * 2 ^ 24 + d.genOf i * 2 ^ 17 + x.region * 2 ^ 15 + x.tmpl),
      d1 := BitVec.ofNat 32 (x.flock * 2 ^ 20 + x.entry), d2 := BitVec.ofNat 32 x.release, d3 := BitVec.ofNat 32 x.deadline,
      d4 := BitVec.ofNat 32 x.media,
      d5 := BitVec.ofNat 32 (x.ops.length * 256 + (x.ops.filter (fun o => o.st == 1)).length),
      d6 := BitVec.ofNat 32 ((decide (1 < x.gang)).toNat * 2 ^ 31 + cell) }

def Dev.slotView (d : Dev) (i : Nat) : Entry :=
  match d.slotOf i with
  | none => {}
  | some s =>
    { d0 := BitVec.ofNat 32 (2 ^ 31 + s.arrived.toNat * 2 ^ 30 + s.quality * 2 ^ 28 + (!s.hostWaits.isEmpty).toNat * 2 ^ 27 +
              s.frozenWithout.toNat * 2 ^ 26 + min 255 (s.tasks.length + s.hostWaits.length)),
      d1 := BitVec.ofNat 32 s.tag, d2 := BitVec.ofNat 32 (s.tag / 2 ^ 32),
      d3 := BitVec.ofNat 32 s.ref, d4 := BitVec.ofNat 32 (s.ref / 2 ^ 32), d5 := BitVec.ofNat 32 s.holdUntil }

def Dev.tskView (d : Dev) (t i : Nat) : Entry :=
  match t with
  | 0 => d.flockEnt i
  | 1 => (((d.templates (i / 256)).find? (fun x => x.id == i % 256)).map Template.words).getD {}
  | 2 => d.taskView i
  | _ => d.slotView i

def tskTabRead (v : Word) (d : Dev) : Dev :=
  tabReadOp Reg.TSK_TAB_CMD Reg.TSK_TAB_ADDR Reg.TSK_TAB_DATA 8 16 tskBeyond Dev.tskView 1 v d

/-- A media region offers its cells to the dispatcher: ACTIVE (R41). -/
def Dev.regionOffers (d : Dev) (r : Nat) : Bool := decide (d.regionState (r + 2) = 0)

/-- The dispatcher places a new flock that is not pinned on one of the regions on offer; which one is left open (assumption 104). -/
def Dev.chooseRegion (d : Dev) (f : Nat) : Dev :=
  let rs := (List.range 4).filter (fun r => d.regionOffers r)
  if rs.isEmpty then d
  else
    let (k, d) := d.drawBelow rs.length
    d.moveFlock f (rs.getD k 0)

/-- The entry of a flock is written (R71): VALID, PRIORITY, REGION under PIN_REGION, PIN_REGION and the cadence slots. A flock pinned
to a region that is not on offer goes there once it is (R41). -/
def Dev.writeFlock (d : Dev) (f : Nat) (n : Entry) : Dev :=
  let old := d.flockEnt f
  let e := ((old.setB 0 31 (n.b 0 31)).setF 0 30 28 (n.f 0 30 28)).setB 0 24 (n.b 0 24)
  let d := d.setEnt .tsk 0 f e
  let d := foldDev (List.range 4) (fun k d => d.writeCadSlot f k (cadSlot n k)) d
  let r := n.f 0 27 26
  let st := d.regionState (r + 2)
  let held := n.b 0 24 && st != 0 && st != 8
  let d := { d with cfg := { d.cfg with pinned := tabErase d.cfg.pinned f } }
  let d := if n.b 0 24 && !held then d.moveFlock f r else if n.b 0 31 && !old.b 0 31 then d.chooseRegion f else d
  let d := if held then { d with cfg := { d.cfg with pinned := recSet d.cfg.pinned f r } } else d
  if old.b 0 31 && !n.b 0 31 then d.abortTasks (fun x => x.flock == f && x.kind != Kd.filter) else d

/-- TSK_TAB_WRITE: flock entries only. -/
def tskTabWrite (v : Word) (d : Dev) : Dev :=
  let d := d.tabCmd Reg.TSK_TAB_CMD v
  let t := d.fld Reg.TSK_TAB_CMD 27 24
  let i := d.fld Reg.TSK_TAB_ADDR 16 0
  if t ≠ 0 ∨ 4096 ≤ i then d.tabErr Reg.TSK_TAB_CMD 1
  else (d.writeFlock i (d.dataEntry Reg.TSK_TAB_DATA)).tabErr Reg.TSK_TAB_CMD 0

/-! ### Releases of a beat (R22, R52, R340, R341) -/

/-- A flock's audio is decoded and mixed: not where it found no room at S3 (R340), nor while its mix's region does not offer. -/
def Dev.audioServed (d : Dev) (f : Nat) : Bool :=
  !d.pwr.loud.contains f && (match d.mix f with | some s => d.regionOffers s.region | none => true)

/-- Ingress legs of the talkers selected (R111). -/
def Dev.talkerLegs (d : Dev) (f : Nat) : List Nat :=
  match d.mix f with
  | none => []
  | some s => ((s.places.filterMap id).map (fun b => (d.broodEnt b).f 0 13 0)).eraseDups

/-- Under stage S2 and deeper a layout composes on every second of its positions (R341). -/
def Dev.composeNow (d : Dev) (f c : Nat) : Bool :=
  decide (d.stage < 2) || decide (d.beat % (2 * c) = d.phaseOf f c)

/-- Release cadences: of a layout, of an encode entry that no layout feeds, of an audio entry and of a mix (R52). -/
def Dev.layCadence (d : Dev) (l : Nat) : Nat := match d.lay l with | some s => (d.layRel s.region (d.layEnt l)).1 | none => laCad (d.layEnt l)
def Dev.encCadence (d : Dev) (e : Nat) : Nat := match d.enc e with | some s => (d.encRel s.region (d.encEnt e)).1 | none => enCad (d.encEnt e)
def Dev.audCadence (d : Dev) (e : Nat) : Nat := match d.audio e with | some s => (d.audRel s.region (d.audEnt e)).1 | none => 6
def Dev.mixCadence (d : Dev) (f : Nat) : Nat := match d.mix f with | some s => (d.mixRel s.region).1 | none => 6

/-- Every release that falls on this beat. -/
def Dev.releases (d : Dev) : Dev :=
  let video := decide (d.stage < 4)
  let mixes := decide (d.stage < 6)
  let d := foldDev ((d.cmp.lays.map (·.1))) (fun l d =>
    let e := d.layEnt l
    let f := laFlock e
    let c := d.layCadence l
    if !d.phaseDue f c || !d.flockValid f then d
    else if !video || d.composeStopped f || !d.regionOffers (d.flockRegion f) then d
    else if d.composeNow f c then
      let before := d.tsk.nextOrder
      let d := d.releaseCompose l
      if d.tsk.nextOrder = before then foldDev (d.encsOf l) (fun e d => d.queueSkip e d.beat) d else d
    else foldDev (d.encsOf l) (fun e d => d.idlePosition e) d) d
  let d := foldDev ((d.ven.encs.map (·.1))) (fun e d =>
    let ent := d.encEnt e
    let f := enFlock ent
    if enSrc ent = 0 ∨ !d.phaseDue f (d.encCadence e) ∨ !d.flockValid f ∨ !video ∨ d.composeStopped f ∨ !d.regionOffers (d.flockRegion f) then d
    else d.releaseEncode e) d
  let d := foldDev ((d.aud.ents.map (·.1))) (fun e d =>
    let ent := d.audEnt e
    if aeClient ent || !d.phaseDue (aeFlock ent) (d.audCadence e) || !d.flockValid (aeFlock ent) || !d.audioServed (aeFlock ent) then d
    else d.releaseAdecode e) d
  let d := foldDev ((d.aud.mixes.map (·.1))) (fun f d =>
    let c := d.mixCadence f
    let d := if d.phaseDue f c && d.flockValid f && d.audioServed f then
        let d := d.selectTalkers f d.beat
        let d := d.autoPinFlock f (d.talkerLegs f)
        if mixes then d.releaseMix f else d
      else d
    let d := if d.phaseDue f c && d.flockValid f && d.loudFlock f then d.loudMissed f else d
    let lag := d.fld Reg.MUL_CFG 23 16
    if mixes && (d.wide f).isSome && decide (lag ≤ d.beat) && decide ((d.beat - lag) % c = d.phaseOf f c % c) &&
        d.flockValid f && d.audioServed f then d.releaseFinal f (d.beat - lag)
    else d) d
  let d := foldDev (List.range 4) (fun r d =>
    if d.regionOffers r then foldDev (d.filterGroups r) (fun g d => d.releaseFilter r g) d else d) d
  d.clientEnds

end Sys2Proof.Machine
end

