-- ==== Sys2Proof/Machine/Memory.lean ====
section
/-! DEFINITION. The DRAM subsystem (chapter 14): ECC and scrubbing, refresh, retraining, set points, the spare channel, failure,
fold and what each owner of lost bulk data does; bytes of memory. -/

namespace Sys2Proof.Machine
open Sys2Proof

/-! ### Bytes of a memory: an unlisted byte reads zero (assumption 30) -/

def zeroByte (_ : Nat) : Byte := 0

def memByte (m : List Host.Cell) (a : Nat) : Byte := tabGet zeroByte m a

def memBytes (m : List Host.Cell) (a n : Nat) : List Byte := (List.range n).map (fun i => memByte m (a + i))

/-- Write bytes from an address on; addresses at or past the limit ignore the write. -/
def memPut (limit : Nat) (m : List Host.Cell) (a : Nat) (bs : List Byte) : List Host.Cell :=
  match bs with
  | [] => m
  | b :: rest => memPut limit (if a < limit then tabSet zeroByte m a b else m) (a + 1) rest

/-- Bytes the host has stored in its own memory; addresses have 64 bits. -/
def hostPut (m : List Host.Cell) (hw : HostWrites) : List Host.Cell :=
  hw.foldl (fun m w => if w.1 < 2 ^ 64 then tabSet zeroByte m w.1 w.2 else m) m

/-! ### Blocks lost -/

/-- Whether the block of an address went with the loss of channel l from one of its blocks on. -/
def Dev.lostWith (d : Dev) (l : Nat × Nat) (a : Nat) : Bool :=
  (l.1 == logicalOf a || l.1 == d.homeOf a) && decide (l.2 ≤ a / 2048)

/-- Whether a block reads POISONED (R295, R307). -/
def Dev.poisoned (d : Dev) (a : Nat) : Bool :=
  !d.mem.rewritten.contains (a / 128) && !d.criticalAt a &&
  (d.mem.poison.contains (a / 128) || d.mem.lost.any (fun l => d.lostWith l a))

/-- The bulk blocks of a channel are lost, from one of its blocks on; those rewritten since an earlier loss with them. -/
def Dev.loseBlocks (d : Dev) (l kept : Nat) : Dev :=
  { d with mem := { d.mem with lost := (l, kept) :: d.mem.lost
                               rewritten := d.mem.rewritten.filter (fun b => !d.lostWith (l, kept) (b * 128)) } }

/-- Modes in which channels retrain, and those in which commands other than a set point are taken. -/
def Mode.trains (m : Mode) : Bool := match m with | .train | .test | .zeroize => false | _ => true
def Mode.memCmd (m : Mode) : Bool := match m with | .service | .reload | .shed | .sprint | .join => true | _ => false

/-! ### Chip level (R15, R352) -/

/-- HANDOVER, where a standby is READY (R317). -/
def Dev.handOver (d : Dev) : Dev :=
  if d.fld Reg.MUL_STATUS 21 19 = 3 ∧ d.flag Reg.MUL_STATUS 22 then { d with mul := { d.mul with handing := true } } else d

/-- CHIP_FAULT: the MC acts under MGT_POLICY (R352). A second one in RECOVERY changes nothing. -/
def Dev.chipFault (d : Dev) (detail : Nat) : Dev :=
  let d := d.raise Src.CHIP_FAULT detail
  if d.mode = .recovery then d
  else
    let d := if d.flag Reg.MGT_POLICY 30 then d.handOver else d
    if d.flag Reg.MGT_POLICY 31 then { d with pwr := { d.pwr with fault := some (d.pwr.fault.getD d.beat) } }
    else { d with pwr := { d.pwr with toRecovery := true } }

/-! ### Bulk data lost (R307, R308, Table 14.7) -/

/-- Items of a queue whose cells, or whose descriptors in a spill segment, lie in DRAM: its owner takes the whole allocation as
affected (R307). -/
def Dev.lostItems (d : Dev) (q : Queue) : List Nat :=
  (q.items.zipIdx.filter (fun x => (q.spilled && decide (4 ≤ x.2) && decide (x.2 + 4 < q.items.length)) ||
    ((d.payload x.1.uid).map (·.dram)).getD false)).map (·.2)

/-- A queue is released to the end of its last lost item; the lost ones and those not yet read count RELEASED_UNREAD (R137). -/
def Dev.truncateQueue (d : Dev) (qid : Nat) : Dev :=
  let q := d.queue qid
  let lost := d.lostItems q
  match lost.getLast? with
  | none => d
  | some k =>
    let unread := (List.range (k + 1)).filter (fun i => lost.contains i || decide (q.read ≤ q.release + i))
    (d.releaseOldest qid (k + 1) false).queCount 5 unread.length

def Dev.truncateQueues (d : Dev) : Dev :=
  let hurt := (d.que.queues.filter (fun q => !(d.lostItems q.2).isEmpty)).map (·.1)
  let d := foldDev hurt (fun q d => d.truncateQueue q) d
  if hurt.isEmpty then d else d.raise Src.QUEUE_TRUNCATED

/-- Decode pools: every buffer DAMAGED, pictures then decoding CONCEALED, one key-picture request a brood. -/
def Dev.damagePools (d : Dev) : Dev :=
  foldDev (d.vdc.decs.map (·.1)) (fun e d =>
    let live := (d.decTasks e).filter (fun t => t.2.st == St.running || t.2.st == St.parked)
    let refs := live.filterMap (fun t => t.2.ops.head?.map (·.ref))
    let d := d.modDec e (fun s => { s with
      bufs := s.bufs.map (fun b => if b.mark = 0 then b else { b with mark := 4, quality := max b.quality 2 })
      aus := s.aus.map (fun a => if refs.contains a.ref then { a with hurt := true } else a) })
    d.decKeyReq e (((d.dec e).map (·.cur.1)).getD 0)) d

/-- Encode pools and rate-control models: the next picture is a key picture at every layer; each model restarts with
O := B − D. -/
def Dev.damageEncodes (d : Dev) : Dev :=
  foldDev (d.ven.encs.map (·.1)) (fun e d =>
    let cad := enCad (d.encEnt e)
    d.modEnc e (fun s => { s with restart := true, models := s.models.map (fun m => { m with occ := m.size - m.drain cad }) })) d

/-- Everything a lost channel's bulk blocks carry. -/
def Dev.bulkLost (d : Dev) : Dev :=
  let d := d.damagePools.damageEncodes.truncateQueues
  let d := { d with cmp := { d.cmp with bufs := [] }
                    fwd := { d.fwd with subs := tabMap (fun _ => {}) (fun _ s => { s with points := [] }) d.fwd.subs }
                    aud := { d.aud with ents := d.aud.ents.map (fun a => (a.1, { a.2 with anchor := none, lost := true })) } }
  d

/-- MiB of an allocation use that lie at or past a bound. -/
def Dev.overlapMib (d : Dev) (use bound : Nat) : Nat :=
  ((d.mem.allocs.filter (fun a => a.use == use)).map (fun a => a.base + a.size - max a.base (min bound (a.base + a.size)))).sum

/-- Pools with a block in the top sixteenth are withdrawn; where a region's pools lie in FRAME_POOLS the spec leaves to the
image, so which of them are is open. -/
def Dev.withdraw (d : Dev) (bound : Nat) : Dev :=
  let d := { d with que := { d.que with histPool := d.que.histPool - d.overlapMib 0x11 bound * 4096,
                                        spillPool := d.que.spillPool - d.overlapMib 0x12 bound * 4096 } }
  if d.overlapMib 0x10 bound = 0 then d
  else
    let pick (d : Dev) : Bool × Dev := let (n, d) := d.drawBelow 2; (n == 1, d)
    let d := foldDev (d.vdc.decs.map (·.1)) (fun e d =>
      let (w, d) := pick d
      if w then d.modDec e (fun s => { s with bufs := s.bufs.map (fun _ => {}), slots := s.slots.map (fun _ => none) }) else d) d
    let d := foldDev (d.cmp.lays.map (·.1)) (fun l d =>
      let (w, d) := pick d
      match d.lay l with
      | some s => if w then { d with cmp := { d.cmp with bufs := d.cmp.bufs.filter (fun b => b.1 / 32 != s.pool) } } else d
      | none => d) d
    foldDev (d.ven.encs.map (·.1)) (fun e d =>
      let (w, d) := pick d
      if w then d.modEnc e (fun s => { s with restart := true }) else d) d

/-! ### Migration, failure and fold (R303, R306 to R309) -/

def Dev.setMig (d : Dev) (v : Nat) : Dev := d.setFld Reg.MEM_STATUS 27 26 v

/-- Copying of logical channel l to the spare begins. -/
def Dev.startMigration (d : Dev) (l : Nat) : Dev :=
  let d := ((d.setChState (d.chanOf l) 2).setChState d.spare 3).setMig 1
  { d with mem := { d.mem with mig := l } }

/-- An abandoned migration leaves its source in place. -/
def Dev.dropMigration (d : Dev) : Dev := (d.setChState (d.chanOf d.mem.mig) 0).setMig 0

/-- The channel is FAILED for good. -/
def Dev.markFailed (d : Dev) (k : Nat) : Dev :=
  let d := ((d.setChState k 5).setChLogical k 0x1F).setMemCh k {}
  let d := if d.spare = k then d.setSpare 0x1F else d
  (d.setFld Reg.MEM_STATUS 4 0 ((List.range 17).filter (fun j => d.chState j == 5)).length).memCount 6 1

/-- The spare takes logical channel l and rebuilds its critical blocks; of the bulk blocks, those already copied are kept. -/
def Dev.restoreTo (d : Dev) (l spare kept : Nat) : Dev :=
  let d := (((d.setFld (Reg.MEM_CHAN_MAP + 4 * l) 4 0 spare).setChState spare 4).setChLogical spare l).setMig 2
  let d := d.setSpare 0x1F
  ({ d with mem := { d.mem with mig := l } }.loseBlocks l kept).bulkLost

/-- No spare is left: the top sixteenth ceases to exist and takes the failed channel's blocks (R308). -/
def Dev.foldMap (d : Dev) (l : Nat) : Dev :=
  let bound := topMib (d.fld Reg.MEM_CFG 31 30)
  let d := ((d.setFlag Reg.MEM_STATUS 28 true).setFld Reg.MEM_CAP 17 0 bound)
  let d := { d with mem := { d.mem with fold := some l } }.loseBlocks l 0
  (d.bulkLost.withdraw bound).raise Src.MEM_CAPACITY_REDUCED l

/-- A channel finds no setting any more. -/
def Dev.loseChannel (d : Dev) (k : Nat) : Dev :=
  let st := d.chState k
  let l := d.chLogical k
  let sp := d.spare
  let mig := d.fld Reg.MEM_STATUS 27 26
  if st = 5 then d
  else
    let d := (d.markFailed k).raise Src.MEM_CHANNEL_FAILED k
    let d := if st = 4 then d.setMig 0 else d
    if st = 1 ∨ st = 6 ∨ st = 7 then d
    else if st = 3 then d.dropMigration
    else if st = 2 then
      let (kept, d) := d.drawBelow (classMib (d.fld Reg.MEM_CFG 31 30) * 512)
      d.restoreTo l sp kept
    else if mig = 1 then (d.dropMigration.setChState sp 1).restoreTo l sp 0
    else if sp ≠ 0x1F ∧ d.chState sp = 1 then d.restoreTo l sp 0
    else if d.mem.fold.isNone then d.foldMap l
    else
      let d := { d with mem := { d.mem with single := l :: d.mem.single } }.loseBlocks l 0
      d.bulkLost.chipFault k

/-- The requests a channel held go to where their blocks lie now. -/
def Dev.replace (d : Dev) (c : MemCh) : Dev :=
  foldDev c.writes (fun r d => d.askCh (d.chanOf (d.homeOf (r.block * 128))) true r.port r.block)
    (foldDev c.reads (fun r d => d.readBlock r.port r.block) d)

/-- The channel is FAILED; the requests it held go on. -/
def Dev.failChannel (d : Dev) (k : Nat) : Dev := (d.loseChannel k).replace (d.memCh k)

/-- MIGRATION_DONE (R306). -/
def migrationDone (d : Dev) : Dev :=
  if d.fld Reg.MEM_STATUS 27 26 ≠ 1 then d
  else
    let l := d.mem.mig
    let src := d.chanOf l
    let sp := d.spare
    let d := ((d.setFld (Reg.MEM_CHAN_MAP + 4 * l) 4 0 sp).setChState sp 0).setChLogical sp l
    let d := ((d.setChState src 6).setChLogical src 0x1F).setSpare 0x1F
    ((d.setMig 0).memCount 5 1).raise Src.MEM_MIGRATE_DONE l

/-- RESTORE_DONE (R307). -/
def restoreDone (d : Dev) : Dev :=
  if d.fld Reg.MEM_STATUS 27 26 ≠ 2 then d else (d.setChState (d.chanOf d.mem.mig) 0).setMig 0

/-! ### ECC and scrubbing (R295, R296) -/

/-- Whether the other copy of a critical block can be read: its channel has one copy only, or is still being rebuilt, when how far
the rebuild has come is open. -/
def Dev.otherCopy (d : Dev) (a : Nat) : Bool × Dev :=
  let o := d.homeOf (copyOf a)
  if d.mem.single.contains o then (false, d)
  else if d.chState (d.chanOf o) = 4 then let (n, d) := d.drawBelow 2; (n == 1, d)
  else (true, d)

def Dev.ueAddr (d : Dev) (k a : Nat) : Dev :=
  d.setReg64 (Reg.MEM_CH_UE_ADDR_LO + memOfs k) (Reg.MEM_CH_UE_ADDR_HI + memOfs k) a

/-- An uncorrectable block was read: repaired from its copy, or POISONED. -/
def Dev.uncorrectable (d : Dev) (k a : Nat) : Dev :=
  let d := (d.chCount k 1 1).ueAddr k a
  if d.criticalAt a then
    let (ok, d) := d.otherCopy a
    if ok then
      let other := d.chanOf (if d.chanOf (d.homeOf a) = k then d.homeOf (copyOf a) else d.homeOf a)
      ((d.memCount 1 1).askCh other false 8 (a / 128)).askCh k true 8 (a / 128)
    else (d.raiseMem Src.MEM_CRIT_LOST k 0 a).chipFault k
  else
    let d := { d with mem := { d.mem with poison := a / 128 :: d.mem.poison.filter (fun b => b != a / 128)
                                          rewritten := d.mem.rewritten.filter (fun b => b != a / 128) } }
    let d := d.memCount 2 1
    if d.evt.once.contains Src.MEM_UE_BULK then d else (d.noteOnce Src.MEM_UE_BULK).raiseMem Src.MEM_UE_BULK k 0 a

/-- SCRUB_READ: the scrubber of an ACTIVE channel reads the block at DRAM address a; a corrected block is written back, a write of the block in
the queue standing for it (R296, R298). -/
def scrubRead (k a : Nat) (ecc : Ecc) (d : Dev) : Dev :=
  if 17 ≤ k ∨ d.chState k ≠ 0 ∨ d.chLogical k ≠ d.homeOf a ∨ d.noMemory a then d
  else
    if (d.memCh k).writes.any (fun r => r.block == a / 128) then d
    else match ecc with
    | .clean => d
    | .corrected => ((d.memCount 0 1).chCount k 0 1).askCh k true 8 (a / 128)
    | .uncorrectable => d.uncorrectable k (a / 128 * 128)

/-! ### Refresh and retraining (R300 to R304) -/

/-- REFRESH: the next bank in rotation is refreshed, for one tRC. -/
def refresh (k : Nat) (d : Dev) : Dev :=
  if 17 ≤ k then d
  else
    let c := d.memCh k
    d.setMemCh k { c with bank := (c.bank + 1) % 16, tRC := recSet c.tRC c.bank (d.now + tRcFclk) }

/-- The runs of consecutive ok offsets of a mask over offsets lo on: (first, last). -/
def okRuns (mask lo n : Nat) : List (Int × Int) :=
  ((List.range n).foldl (fun (r : List (Int × Int)) i =>
    let o : Int := ((lo : Nat) : Int) * (-1) + ((i : Nat) : Int)
    if mask.testBit i then
      (match r with
       | (a, b) :: t => if b + 1 = o then (a, o) :: t else (o, o) :: r
       | [] => [(o, o)])
    else r) []).reverse

/-- How near a run lies to offset 0. -/
def runDistance (r : Int × Int) : Nat := if r.1 ≤ 0 ∧ 0 ≤ r.2 then 0 else min r.1.natAbs r.2.natAbs

/-- The longest run, ties to the run nearer 0. -/
def bestRun (rs : List (Int × Int)) : Option (Int × Int) :=
  rs.foldl (fun (b : Option (Int × Int)) r =>
    match b with
    | none => some r
    | some x =>
      if x.2 - x.1 < r.2 - r.1 ∨ (x.2 - x.1 = r.2 - r.1 ∧ runDistance r < runDistance x) then some r else some x) none

/-- Centre of a run, rounded toward 0, and the margin of its nearer edge. -/
def runCentre (r : Int × Int) : Int := (r.1 + r.2).tdiv 2
def runMargin (r : Int × Int) : Nat := (min (runCentre r - r.1) (r.2 - runCentre r)).toNat

/-- Runs of every lane of a direction; none where some lane has no run. -/
def laneRuns (masks : List Nat) (lo n : Nat) : Option (List (Int × Int)) :=
  masks.foldr (fun m acc => match acc, bestRun (okRuns m lo n) with | some l, some r => some (r :: l) | _, _ => none) (some [])

/-- Apply centres to the delays of a direction. -/
def MemCh.apply (c : MemCh) (fsp : Nat) (write : Bool) (rs : List (Int × Int)) : MemCh :=
  let base := fsp * 144 + (if write then 72 else 0)
  { c with delays := (rs.mapIdx (fun i r => (i, r))).foldl (fun t x =>
      tabSet (fun _ => 0) t (base + x.1) (tabGet (fun _ => 0) t (base + x.1) + runCentre x.2)) c.delays }

def Dev.setMargin (d : Dev) (k m : Nat) : Dev :=
  let d := d.setFld (Reg.MEM_CH_STAT + memOfs k) 7 0 m
  if d.fsp = 1 then d.setFld (Reg.MEM_CH_MARGIN + memOfs k) 15 8 m else d.setFld (Reg.MEM_CH_MARGIN + memOfs k) 7 0 m

def Dev.memResult (d : Dev) (done : Bool) (code : Nat) : Dev := d.setReg Reg.MEM_RESULT (BitVec.ofNat 32 (done.toNat * 2 ^ 31 + code))

/-- A command in progress on channel k ends. -/
def Dev.endMemCmd (d : Dev) (kind k : Nat) : Dev :=
  if d.mem.cmd = some (kind, k) then { d with mem := { d.mem with cmd := none } }.memResult true 0 else d

/-- A second low margin in a row (R303). -/
def Dev.lowMargin (d : Dev) (k : Nat) : Dev :=
  let c := d.memCh k
  let low := if d.chState k = 0 ∧ d.fld (Reg.MEM_CH_STAT + memOfs k) 7 0 < d.fld Reg.MEM_CFG 7 0 then c.low + 1 else 0
  let d := d.setMemCh k { c with low := low }
  if low ≠ 2 then d
  else
    let d := d.raise Src.MEM_MARGIN_LOW k
    if d.flag Reg.MEM_CFG 24 ∧ d.spare ≠ 0x1F ∧ d.chState d.spare = 1 ∧ d.fld Reg.MEM_STATUS 27 26 = 0 then
      d.startMigration (d.chLogical k)
    else d

/-- RETRAIN_PASS: what nine pauses found, a mask of 32 offsets (bit o + 16) for each of the 72 lanes of both directions. -/
def retrainPass (k : Nat) (rd wr : List Nat) (d : Dev) : Dev :=
  if 17 ≤ k ∨ !d.mode.trains then d
  else if d.chState k = 5 ∨ d.chState k = 6 ∨ d.chState k = 7 then d.endMemCmd 2 k
  else
    let d := ((d.memCount 3 1).chCount k 2 1).setFld (Reg.MEM_CH_STAT + memOfs k) 23 22 0
    let c := d.memCh k
    let d := match laneRuns rd 16 32, laneRuns wr 16 32 with
      | some r, some w =>
        let moved := (r ++ w).any (fun x => runCentre x != 0)
        let margin := ((r ++ w).map runMargin).foldl min 16
        let d := d.setMemCh k { (c.apply d.fsp false r).apply d.fsp true w with retry := none }
        let d := if moved then d.chCount k 3 1 else d
        (d.setMargin k margin).lowMargin k
      | none, _ => d.setMemCh k { c with retry := some false, low := 0 }
      | _, none => d.setMemCh k { c with retry := some true, low := 0 }
    d.endMemCmd 2 k

/-- RETRAIN_RETRY: one burst of offsets −4 to +3 (bit o + 4) in the failing direction. -/
def retrainRetry (k : Nat) (oks : List Nat) (d : Dev) : Dev :=
  let c := d.memCh k
  match c.retry with
  | none => d
  | some write =>
    if !d.mode.trains then d
    else
      let n := d.fld (Reg.MEM_CH_STAT + memOfs k) 23 22 + 1
      let d := (d.memCount 4 1).setFld (Reg.MEM_CH_STAT + memOfs k) 23 22 n
      match laneRuns oks 4 8 with
      | some r => d.setMemCh k { c.apply d.fsp write r with retry := none }
      | none => if 3 ≤ n then d.failChannel k else d

/-! ### Set points (R305) -/

/-- The set point that should be in force. -/
def Dev.fspWanted (d : Dev) : Nat := if 3 ≤ d.stage then 1 else d.fld Reg.MEM_FSP 0 0

/-- A change to a set point begins: partial passes and retries are given up. -/
def Dev.startFsp (d : Dev) (dst : Nat) (cmd : Bool) : Dev :=
  let d := { d with mem := { d.mem with fspTo := dst, fspCmd := cmd
                                        chans := tabMap (fun _ => {}) (fun _ c => { c with retry := none }) d.mem.chans } }
  let d := foldDev (List.range 17) (fun k d => d.setFld (Reg.MEM_CH_STAT + memOfs k) 23 22 0) d
  d.setFlag Reg.MEM_STATUS 29 true

/-- The set point follows the stage and the target, outside initial training. -/
def Dev.fspFollow (d : Dev) : Dev :=
  if d.flag Reg.MEM_STATUS 31 && !d.flag Reg.MEM_STATUS 29 && d.mode != .train && d.fspWanted != d.fsp then
    d.startFsp d.fspWanted false
  else d

/-- MEM_FSP_WRITE (Table 14.6). -/
def memFspWrite (v : Word) (d : Dev) : Dev :=
  if d.mode = .train ∨ d.flag Reg.MEM_STATUS 29 ∨ d.mem.cmd.isSome then d.memResult true 1
  else
    let d := d.writeReg Reg.MEM_FSP v
    let t := bits v 0 0
    if t = d.fsp then d.memResult true 5
    else if t = 0 ∧ 3 ≤ d.stage then d.memResult true 4
    else (d.memResult false 0).startFsp t true

/-- FSP_CHANGE_DONE. -/
def fspChangeDone (d : Dev) : Dev :=
  if !d.flag Reg.MEM_STATUS 29 then d
  else
    let d := ((d.setFlag Reg.MEM_STATUS 29 false).setFld Reg.MEM_STATUS 30 30 d.mem.fspTo).memCount 7 1
    let d := d.raise Src.MEM_FSP_SWITCH
    let d := if d.mem.fspCmd then d.memResult true 0 else d
    ({ d with mem := { d.mem with fspCmd := false } } : Dev).fspFollow

/-! ### MEM_CTRL (R310) -/

/-- One command bit of MEM_CTRL, after its fields are written. -/
def Dev.memCommand (d : Dev) (go : Dev → Dev) : Dev :=
  if d.mem.cmd.isSome ∨ d.flag Reg.MEM_STATUS 29 then d.memResult true 1
  else if !d.mode.memCmd then d.memResult true 6
  else go d

def Dev.memPch (d : Dev) : Nat := d.fld Reg.MEM_CTRL 12 8
def Dev.memFields (d : Dev) (v : Word) : Dev := d.writeReg Reg.MEM_CTRL (v &&& 0x1FFFFFFF)

/-- MEM_MIGRATE: its outcome is final when the copy begins. -/
def memMigrate (v : Word) (d : Dev) : Dev :=
  let d := d.memFields v
  if !bit v 31 then d
  else d.memCommand (fun d =>
    let l := d.fld Reg.MEM_CTRL 3 0
    if d.spare = 0x1F ∨ d.chState d.spare ≠ 1 then d.memResult true 2
    else if d.chState (d.chanOf l) ≠ 0 then d.memResult true 3
    else (d.startMigration l).memResult true 0)

/-- MEM_RETEST (R309). -/
def memRetest (v : Word) (d : Dev) : Dev :=
  let d := d.memFields v
  if !bit v 30 then d
  else d.memCommand (fun d =>
    if d.chState d.memPch ≠ 6 then d.memResult true 3
    else { (d.setChState d.memPch 7) with mem := { d.mem with cmd := some (1, d.memPch) } }.memResult false 0)

/-- RETEST_DONE: the margins found at FSP0 and FSP1. -/
def retestDone (k m0 m1 : Nat) (d : Dev) : Dev :=
  if d.mem.cmd ≠ some (1, k) then d
  else
    let d := d.setReg (Reg.MEM_CH_MARGIN + memOfs k) (BitVec.ofNat 32 (m1 % 256 * 256 + m0 % 256))
    let warn := d.fld Reg.MEM_CFG 7 0
    let d := if warn ≤ m0 ∧ warn ≤ m1 then (d.setChState k 1).setSpare k else d.setChState k 6
    d.endMemCmd 1 k

/-- MEM_RETRAIN: a pass on PCH at its next pause. -/
def memRetrain (v : Word) (d : Dev) : Dev :=
  let d := d.memFields v
  if !bit v 29 then d
  else d.memCommand (fun d => { d with mem := { d.mem with cmd := some (2, d.memPch) } }.memResult false 0)

/-! ### TRAIN (R301, R309) -/

/-- TRAIN begins: every channel that is neither FAILED nor RETIRED is UNTRAINED, and nothing is being moved (Table 14.11). -/
def Dev.beginTrain (d : Dev) : Dev :=
  foldDev (List.range 17) (fun k d => if d.chState k = 5 ∨ d.chState k = 6 then d else d.setChState k 7) (d.setMig 0)

/-- Training of the channels ends; answers whether sixteen logical channels are mapped. A channel that fails in TRAIN is replaced
by the spare; a second folds the map. -/
def Dev.trainChannels (d : Dev) (chans : List TrainChan) : Dev :=
  let ch (k : Nat) : TrainChan := chans.getD k {}
  let d := foldDev (List.range 17) (fun k d =>
    let c := ch k
    if !c.ok then (d.markFailed k).raise Src.MEM_CHANNEL_FAILED k
    else
      let d := if d.chState k = 5 ∨ d.chState k = 6 then d else d.setChState k (if d.chLogical k = 0x1F then 1 else 0)
      d.setReg (Reg.MEM_CH_MARGIN + memOfs k) (BitVec.ofNat 32 ((c.rd ++ c.wr).getD 1 0 % 256 * 256 + (c.rd ++ c.wr).getD 0 0 % 256))) d
  foldDev (List.range 16) (fun l d =>
    let k := d.chanOf l
    if d.chState k ≠ 5 then d
    else if d.spare ≠ 0x1F ∧ d.chState d.spare = 1 then
      let sp := d.spare
      (((d.setFld (Reg.MEM_CHAN_MAP + 4 * l) 4 0 sp).setChState sp 0).setChLogical sp l).setSpare 0x1F
    else if d.mem.fold.isNone then
      let bound := topMib (d.fld Reg.MEM_CFG 31 30)
      let d := (d.setFlag Reg.MEM_STATUS 28 true).setFld Reg.MEM_CAP 17 0 bound
      { d with mem := { d.mem with fold := some l } }.raise Src.MEM_CAPACITY_REDUCED l
    else d) d

/-- Whether every logical channel is mapped, by itself, the spare or the fold. -/
def Dev.mapped (d : Dev) : Bool :=
  (List.range 16).all (fun l => d.chState (d.chanOf l) == 0 || d.mem.fold == some l)

/-! ### Bytes written by the device -/

/-- Blocks that a write of n bytes at a covers whole. -/
def wholeBlocks (a n : Nat) : List Nat :=
  (List.range (ceilDiv n 128 + 1)).filterMap (fun k =>
    let b := a / 128 + k
    if a ≤ b * 128 ∧ b * 128 + 128 ≤ a + n then some b else none)

/-- Bytes are written to DRAM through a QoS port; a block rewritten whole is POISONED no longer. -/
def Dev.dramWrite (d : Dev) (port a : Nat) (bs : List Byte) : Dev :=
  let d := d.writeBlocks port a bs.length
  let fresh := (wholeBlocks a bs.length).filter (fun b => d.poisoned (b * 128))
  { d with pci := { d.pci with dramWrites := d.pci.dramWrites ++ [(a, bs)] }
           mem := { d.mem with rewritten := fresh ++ d.mem.rewritten, poison := d.mem.poison.filter (fun b => !fresh.contains b) } }

end Sys2Proof.Machine
end

