-- ==== Sys2Proof/Machine/Modes.lean ====
section
/-! DEFINITION. Modes, shed stages, heat and SPRINT (R328 to R351), and what a chip reset keeps (R335, R395 to R397). -/

namespace Sys2Proof.Machine
open Sys2Proof

/-! ### TOP_MODE (R328) -/

def Mode.code (m : Mode) : Nat :=
  match m with
  | .reset => 0 | .boot => 1 | .configure => 2 | .train => 3 | .service => 4 | .reload => 5
  | .shed => 6 | .sprint => 7 | .join => 8 | .recovery => 9 | .test => 10 | .zeroize => 11

def modeOf (c : Nat) : Option Mode :=
  match c with
  | 0 => some .reset | 1 => some .boot | 2 => some .configure | 3 => some .train | 4 => some .service | 5 => some .reload
  | 6 => some .shed | 7 => some .sprint | 8 => some .join | 9 => some .recovery | 10 => some .test | 11 => some .zeroize
  | _ => none

def Dev.pwrCount (d : Dev) (c n : Nat) : Dev := d.cnt Reg.PWR_CNT_LO c n

/-- TOP_MODE changes: MODE_CHANGE is raised, and a read that stalls ends where the new mode returns IDLE (R130). -/
def Dev.setMode (d : Dev) (m : Mode) : Dev :=
  if d.mode = m then d
  else ((({ d with mode := m }).setFld Reg.TOP_MODE 3 0 m.code).raise Src.MODE_CHANGE noDetail m.code).endStall

/-! ### Rails and pins (R336, R337) -/

/-- Nominal of a rail in mV (Table 16.3). -/
def railNominal (r : Nat) : Nat := [750, 720, 850, 800, 900, 1200, 1200, 1800].getD r 1

/-- The stage a rail's mean causes: stage s from (s + 2) percent below its nominal (Table 16.4). -/
def railStage (r mean : Nat) : Nat :=
  ((List.range 6).filter (fun s => decide ((s + 3) * railNominal r ≤ (railNominal r - mean) * 100))).length

/-- The mean of a rail last reported; nominal before a report. -/
def Dev.railMean (d : Dev) (r : Nat) : Nat :=
  let m := d.fld (Reg.PWR_RAIL + 4 * r) 31 16
  if m = 0 then railNominal r else m

/-- Every rail stands above the lift level of a stage: d below (stage + 1) percent. -/
def Dev.railsAbove (d : Dev) (stage : Nat) : Bool :=
  (List.range 8).all (fun r => decide ((railNominal r - d.railMean r) * 100 < (stage + 1) * railNominal r))

/-- The stage a level of SAG_N requests (R337). -/
def pinStage (lvl : Nat) : Nat := match lvl with | 0 => 6 | 1 => 4 | 2 => 2 | _ => 0

def Dev.pinStageNow (d : Dev) : Nat := if d.flag Reg.PWR_CFG 31 then pinStage d.pwr.sag else 0

/-- The deepest of the monitored, the pin and the thermal stage. -/
def Dev.wantedStage (d : Dev) : Nat :=
  max (d.fld Reg.PWR_STATUS 28 26) (max d.pinStageNow (d.fld Reg.PWR_STATUS 22 20))

/-- Every rail stands above the lift level of a stage, d below (stage + 1) percent, and the pins do not request it (R343). -/
def Dev.calm (d : Dev) (stage : Nat) : Bool := d.railsAbove stage && decide (d.pinStageNow < stage)

/-- The levels of this moment count for the whole beat: the deepest stage they call for (R339), and that the stage held may not lift
(R343). -/
def Dev.noteStage (d : Dev) : Dev :=
  if d.mode = .reset then d
  else { d with pwr := { d.pwr with deep := max d.pwr.deep d.wantedStage, dip := d.pwr.dip || !d.calm d.stage } }

/-! ### SPRINT (R349 to R351) -/

def sprintMax : Nat := 72000
def windowBeats : Nat := 360000
def lifeBeats : Nat := 4320000000
def lowBeats : Nat := 4104000000
def bitBeats : Nat := 216000

def Dev.sprinting (d : Dev) : Bool := d.flag Reg.PWR_STATUS 19

/-- Sprint beats in the last 360,000 beats, full after an always-on reset. -/
def Dev.sprintWindow (d : Dev) : Nat :=
  let now := d.pwr.beats
  if now < d.pwr.fullUntil then sprintMax
  else (d.pwr.runs.map (fun r => (r.2.getD now) - max r.1 (now - windowBeats))).sum

/-- The next lifetime bit is burnt whenever the residue is not below the time charged. -/
def Dev.sprintBurn (d : Dev) : Dev :=
  if d.pwr.burnt * bitBeats ≤ d.pwr.residue ∧ d.pwr.burnt < 20000 then { d with pwr := { d.pwr with burnt := d.pwr.burnt + 1 } } else d

/-- The first condition of R349 that fails, as REFUSE names it; 0: none. -/
def Dev.sprintRefusal (d : Dev) : Nat :=
  if !d.flag Reg.PWR_CFG 30 then 1
  else if d.mode ≠ .service then 2
  else if 0 < d.stage then 3
  else if d.pwr.throttled ∨ (d.pwr.sampled = true ∧ 95 ≤ d.pwr.tj) then 4
  else if sprintMax ≤ d.sprintWindow then 5
  else if lifeBeats ≤ d.pwr.residue then 6
  else 0

def Dev.sprintRefuse (d : Dev) (code : Nat) : Dev := (d.setFld Reg.PWR_SPRINT_STAT 30 28 code).pwrCount 4 1

/-- A request: answers the REFUSE code. -/
def Dev.sprintAsk (d : Dev) : Nat × Dev :=
  let c := d.sprintRefusal
  if c = 0 then (0, { d.setFld Reg.PWR_SPRINT_STAT 30 28 0 with pwr := { d.pwr with sprintReq := true } })
  else (c, d.sprintRefuse c)

/-- An END: SPRINT ends at the next boundary. -/
def Dev.sprintEndAsk (d : Dev) : Dev := if d.sprinting then { d with pwr := { d.pwr with sprintEnd := true } } else d

/-- PWR_SPRINT_CTRL: REQ, END, or both. -/
def sprintCtrl (v : Word) (d : Dev) : Dev :=
  let d := if bit v 31 then d.sprintAsk.2 else d
  if bit v 30 then d.sprintEndAsk else d

/-- SPRINT is entered at a boundary, its conditions judged once more (R351). -/
def Dev.sprintBegin (d : Dev) : Dev :=
  if !d.pwr.sprintReq then d
  else
    let d := { d with pwr := { d.pwr with sprintReq := false } }
    let c := d.sprintRefusal
    if c ≠ 0 then d.sprintRefuse c
    else
      let d := { d with pwr := { d.pwr with sprintHot := false, sprintEnd := false, runs := d.pwr.runs ++ [(d.pwr.beats, none)] } }
      (((d.sprintBurn.setFlag Reg.PWR_STATUS 19 true).setFlag Reg.PWR_SPRINT_STAT 31 true).pwrCount 3 1).setMode .sprint

/-- SPRINT ends, for any cause; the mode is left to its cause. -/
def Dev.sprintStop (d : Dev) : Dev :=
  if !d.sprinting then d
  else
    let runs := d.pwr.runs.map (fun r => if r.2.isNone then (r.1, some d.pwr.beats) else r)
    let d := { d with pwr := { d.pwr with runs := runs, sprintEnd := false, sprintHot := false } }
    ((d.setFlag Reg.PWR_STATUS 19 false).setFlag Reg.PWR_SPRINT_STAT 31 false).raise Src.SPRINT_END

/-- The conditions of R350 that end it without a request or a stage. -/
def Dev.sprintOver (d : Dev) : Bool :=
  d.pwr.sprintEnd || d.pwr.sprintHot || decide (sprintMax ≤ d.sprintWindow) || decide (lifeBeats ≤ d.pwr.residue)

/-- At a boundary: SPRINT ends where one of R350's conditions holds. -/
def Dev.sprintFinish (d : Dev) : Dev :=
  if d.sprinting && d.sprintOver then
    let d := d.sprintStop
    if d.mode = .sprint then d.setMode .service else d
  else d

/-- The monitors' means, in mV. -/
def Dev.setRails (d : Dev) (rails : List Nat) : Dev :=
  if d.mode = .reset then d
  else
    let d := foldDev (rails.zipIdx.take 8) (fun x d =>
      d.setReg (Reg.PWR_RAIL + 4 * x.2) (BitVec.ofNat 32 (x.1 % 65536 * 65536 + railStage x.2 x.1))) d
    (d.setFld Reg.PWR_STATUS 28 26 (((List.range 8).map (fun r => railStage r (d.railMean r))).foldl max 0)).noteStage

/-- SAG_PIN_CHANGE: a level of SAG_N has held for four samples. -/
def sagPinChange (lvl : Nat) (d : Dev) : Dev :=
  let d := { d with pwr := { d.pwr with sag := lvl % 4 } }
  if d.mode = .reset then d else (d.setFld Reg.PWR_STATUS 25 23 d.pinStageNow).noteStage

/-- A write of PWR_CFG: SAG_EN honours the pins from then on, or no longer (R337). -/
def pwrCfgWrite (v : Word) (d : Dev) : Dev := (d.writeReg Reg.PWR_CFG v).noteStage

/-! ### Heat (R346 to R348) -/

/-- k of R346. -/
def throttleK (tj : Int) : Nat := min 8 (max 1 (tj - 100 + 1)).toNat

/-- A sample of the sensors: Tj, the sprint limit, throttling, the emergency and the trip. -/
def Dev.thermSample (d : Dev) (temps : List Int) : Dev :=
  if d.mode = .reset ∨ temps.isEmpty then d
  else
    let temps := temps.take 24
    let tj := temps.foldl max (-128)
    let low := temps.foldl min 127
    let hot := (temps.findIdx? (· == tj)).getD 0
    let d := foldDev temps.zipIdx (fun x d => d.setReg (Reg.PWR_SENSOR + 4 * x.2) (BitVec.ofNat 32 (toField 8 x.1))) d
    let d := d.setReg Reg.PWR_THERM (BitVec.ofNat 32 (toField 8 tj * 2 ^ 24 + hot * 65536 + toField 8 low))
    let d := { d with pwr := { d.pwr with sampled := true, tj := tj, sprintHot := d.pwr.sprintHot || (d.sprinting && decide (95 ≤ tj))
                                          cool := if tj < 105 then some (d.pwr.cool.getD d.beat) else none } }
    let d := if 100 ≤ tj ∧ d.pwr.throttled = false then
        ({ d with pwr := { d.pwr with throttled := true } }.setFld Reg.PWR_STATUS 17 14 (throttleK tj)).raise Src.THERM_THROTTLE
      else if tj < 98 then { d with pwr := { d.pwr with throttled := false } }.setFld Reg.PWR_STATUS 17 14 0
      else d
    let d := if 110 ≤ tj ∧ d.fld Reg.PWR_STATUS 22 20 = 0 then (d.setFld Reg.PWR_STATUS 22 20 4).raise Src.THERM_EMERGENCY else d
    let d := if 120 ≤ tj ∧ d.flag Reg.PWR_STATUS 18 = false then
        (((d.setFld Reg.PWR_STATUS 22 20 6).setFlag Reg.PWR_STATUS 18 true).emit (.pin 4 0)).raise Src.THERM_TRIP
      else d
    d.noteStage

/-! ### Stages: the actions (Table 16.4, R340 to R342) -/

/-- Tasks a stage stops are settled EXPIRED at the end of the grace. -/
def Dev.stopTasks (d : Dev) (p : Task → Bool) : Dev :=
  foldDev ((d.tsk.tasks.filter (fun x => decide (x.2.st < 5) && p x.2)).map (·.1)) (fun t d =>
    match d.task t with | some x => d.setTask t { x with ending := 1 } | none => d) d

/-- Flocks with a layout. -/
def Dev.composingFlocks (d : Dev) : List Nat := ((d.cmp.lays.map (fun x => laFlock (d.layEnt x.1)))).eraseDups

/-- Flocks whose composing is stopped fall back to forwarding. -/
def Dev.fallBack (d : Dev) : Dev :=
  foldDev d.composingFlocks (fun f d => if d.composeStopped f then d.setFallback f true else d) d

/-- Audio of flocks served by a region, in descending flock priority. -/
def Dev.audioFlocks (d : Dev) (r : Nat) : List Nat :=
  let fs := ((d.aud.mixes.filter (fun x => x.2.home == r)).map (·.1) ++
    (d.aud.ents.filter (fun x => x.2.home == r)).map (fun x => aeFlock (d.audEnt x.1))).eraseDups
  sortBy (fun a b => decide (d.flockPrio b ≤ d.flockPrio a)) fs

/-- The audio charge of a flock: decode weights, encode weights, mixes, channels. -/
def Dev.audioCharge (d : Dev) (f : Nat) : Nat × Nat × Nat × Nat :=
  let es := d.aud.ents.filter (fun x => aeFlock (d.audEnt x.1) == f)
  let own := es.filter (fun x => !aeClient (d.audEnt x.1))
  let m := (d.mix f).isSome
  ((own.map (fun x => decWeight (aeCodec (d.audEnt x.1)))).sum, if m then mixCharge (d.mixEnt f) else 0, m.toNat, es.length)

/-- Whether a region has room for an audio charge (R230). -/
def Dev.audioFits (d : Dev) (r : Nat) (c : Nat × Nat × Nat × Nat) : Bool :=
  let cells := d.cellsUp r 2 8
  decide (d.audDecLoad r + c.1 ≤ 512 * 8 * cells) && decide (d.audEncLoad r + c.2.1 ≤ 256 * 8 * cells) &&
  decide (d.audMixes r + c.2.2.1 ≤ 128 * cells) &&
  decide ((d.aud.chans.filter (fun x => x.1 / filterChannels == r)).length + (d.aud.ents.filter (fun x => x.2.moveTo == some r)).length + c.2.2.2
    ≤ filterChannels)

/-- The audio of a region's flocks moves to the given regions as a switch; a flock for which none has room is served by
loudest-talker forwarding. -/
def Dev.moveAudio (d : Dev) (r : Nat) (dst : List Nat) : Dev :=
  foldDev (d.audioFlocks r) (fun f d =>
    match dst.find? (fun q => d.audioFits q (d.audioCharge f)) with
    | some q =>
      let d := foldDev ((d.aud.ents.filter (fun x => aeFlock (d.audEnt x.1) == f)).map (·.1)) (fun e d => d.moveAud e q) d
      d.moveMix f q
    | none => if (d.mix f).isSome && !d.pwr.loud.contains f then { d with pwr := { d.pwr with loud := d.pwr.loud ++ [f] } } else d) d

/-- A region is gated, or its gating lifts. -/
def Dev.setRegionState (d : Dev) (n st : Nat) : Dev := d.setFld (Reg.CFG_REGION_STAT + 4 * n) 11 8 st

/-- Entry of stages old + 1 to new at a boundary. -/
def Dev.stageActions (d : Dev) (old new : Nat) : Dev :=
  let on (k : Nat) : Bool := decide (old < k) && decide (k ≤ new)
  let work := d.mode.carries || d.mode == .test || d.mode == .recovery
  let d := if on 1 && work then d.sprintStop.tapStopVideo else d
  let d := if on 2 && work then
      foldDev (d.ven.encs.map (·.1)) (fun e d => if 1 < enLayers (d.encEnt e) then d.modEnc e (fun s => { s with dropped := true }) else d) d
    else d
  let d := if on 3 && work then
      let d := d.stopTasks (fun x => decide (2 ≤ x.region))
      let d := foldDev [4, 5] (fun n d => if d.regionState n = 0 then d.setRegionState n 6 else d) d
      ((d.moveAudio 2 [0, 1]).moveAudio 3 [0, 1]).fspFollow
    else d
  let d := if on 4 && work then d.stopTasks (fun x => decide (x.kind ≤ Kd.compose)) else d
  let d := if on 6 && work then d.stopTasks (fun x => x.kind == Kd.mix || x.kind == Kd.aencode) else d
  if (on 3 || on 4) && work then d.fallBack else d

/-- At a boundary: every stage up to the deepest that some moment since the last boundary called for is entered (R339). -/
def Dev.enterStages (d : Dev) : Dev :=
  let old := d.stage
  let new := max d.pwr.deep d.wantedStage
  let d := { d with pwr := { d.pwr with deep := 0 } }
  if d.mode = .reset ∨ new ≤ old then d
  else
    let d := foldDev (List.range (new - old)) (fun k d => (d.pwrCount 0 1).raise Src.SHED_ENTER noDetail (old + k + 1)) d
    let d := { (d.setFld Reg.PWR_STATUS 31 29 new).setFld Reg.PWR_STATUS 4 0 0 with pwr := { d.pwr with dip := false } }
    let d := d.stageActions old new
    if d.mode.carries && d.mode != .shed then
      let b : Mode := if d.mode = Mode.sprint then Mode.service else d.mode
      ({ d with before := b } : Dev).setMode .shed
    else d

/-! ### Stages: the lift (R343) -/

/-- Built-in checks of cells: one that fails is marked OUT, one that passes is OUT no longer. -/
def Dev.testCells (d : Dev) (cells bad : List Nat) : Dev :=
  foldDev cells (fun c d =>
    if bad.contains c then d.markOut c
    else if (d.cell c).out then d.setCell c { d.cell c with out := false } else d) d

/-- The video entries of regions whose gating lifts: decoders ask for a key picture, encoders restart with one. -/
def Dev.wakeVideo (d : Dev) (p : Nat → Bool) : Dev :=
  let d := foldDev ((d.vdc.decs.filter (fun x => p x.2.region)).map (·.1)) (fun e d =>
    d.decKeyReq e (((d.dec e).map (·.cur.1)).getD 0) true) d
  foldDev ((d.ven.encs.filter (fun x => p x.2.region)).map (·.1)) (fun e d => d.modEnc e (fun s => { s with restart := true })) d

/-- The rails, the pins and the heat (R347) have left a stage. -/
def Dev.liftOk (d : Dev) (stage : Nat) : Bool := d.calm stage && decide (d.fld Reg.PWR_STATUS 22 20 < stage)

/-- What waited for a media region comes back once the region is on offer: flocks pinned to it, and flocks that its reload demoted, which
return to it with their compose and encode load (R41, R42; assumption 101). -/
def Dev.regionBack (d : Dev) (r : Nat) : Dev :=
  if d.regionState (r + 2) ≠ 0 then d
  else
    let mine (t : Tab Nat) : List Nat := (t.filter (fun p => p.2 == r)).map (·.1)
    let dem := mine d.cfg.demoted
    let back := mine d.cfg.pinned ++ dem
    let d := { d with cfg := { d.cfg with pinned := d.cfg.pinned.filter (fun p => p.2 != r), demoted := d.cfg.demoted.filter (fun p => p.2 != r) } }
    let d := foldDev back (fun f d => d.moveFlock f r) d
    let d := foldDev ((d.vdc.decs.filter (fun x => dem.contains (deFlock (d.decEnt x.1)))).map (·.1)) (fun e d =>
      d.decKeyReq e (((d.dec e).map (·.cur.1)).getD 0) true) d
    foldDev ((d.ven.encs.filter (fun x => dem.contains (enFlock (d.encEnt x.1)))).map (·.1)) (fun e d =>
      d.modEnc e (fun s => { s with restart := true })) d

/-- The mode that TOP_MODE returns to when the last stage lifts (R329). -/
def Dev.afterShed (d : Dev) : Mode :=
  match d.before with
  | .reload => if d.cfg.reload.isSome then .reload else .service
  | .join => if d.mul.step ≠ 0 then .join else d.mul.joinFrom
  | _ => .service

/-- The stage held lifts, where its conditions hold and its dwell of 30 beats, which begins anew when it is entered or the next deeper one
lifts, is met. -/
def Dev.liftStage (d : Dev) (bad : List Nat) : Dev :=
  let s := d.stage
  if d.mode = .reset ∨ s = 0 ∨ d.liftOk s = false ∨ d.fld Reg.PWR_STATUS 4 0 < 30 then d
  else
    let d := { (d.setFld Reg.PWR_STATUS 31 29 (s - 1)).setFld Reg.PWR_STATUS 4 0 0 with pwr := { d.pwr with dip := false } }
    let d := d.raise Src.SHED_LIFT noDetail s
    if d.mode = .zeroize then d else
    match s with
    | 1 =>
      let d := { d with tap := { d.tap with stopped := false } }
      if d.mode = .shed then d.setMode d.afterShed else d
    | 3 =>
      let d := foldDev [4, 5] (fun n d =>
        if d.regionState n = 6 then (d.testCells (regionCells n) bad).setRegionState n 0 else d) d
      let d := { d.wakeVideo (fun r => decide (2 ≤ r)) with pwr := { d.pwr with loud := [] } }
      ((d.regionBack 2).regionBack 3).fspFollow
    | 4 =>
      let codec := (List.range 2).flatMap (fun r => (regionCells (r + 2)).filter (fun c => decide (cellType c ≤ 1)))
      (d.testCells codec bad).wakeVideo (fun r => decide (r < 2))
    | _ => d

/-! ### The beat's power work -/

/-- Dwell, the emergency's end, k, the sprint's accounts (R343, R346, R347, R350). -/
def Dev.powerBeat (d : Dev) : Dev :=
  let d := { d with pwr := { d.pwr with beats := d.pwr.beats + 1 } }
  let d := if d.sprinting then
      let d := { d with pwr := { d.pwr with residue := d.pwr.residue + 1 } }.sprintBurn
      if lowBeats ≤ d.pwr.residue ∧ d.pwr.lowSaid = false then
        { d with pwr := { d.pwr with lowSaid := true } }.raise Src.SPRINT_BUDGET_LOW
      else d
    else d
  let d := if d.pwr.throttled then (d.setFld Reg.PWR_STATUS 17 14 (throttleK d.pwr.tj)).pwrCount 5 1 else d
  let d := if d.fld Reg.PWR_STATUS 22 20 = 4 then
      match d.pwr.cool with
      | some b => if b + 30 ≤ d.beat then d.setFld Reg.PWR_STATUS 22 20 0 else d
      | none => d
    else d
  if d.mode = .reset then d
  else
    let d := d.setFld Reg.PWR_STATUS 25 23 d.pinStageNow
    let dwell := if 0 < d.stage ∧ d.calm d.stage = true ∧ d.pwr.dip = false then min 30 (d.fld Reg.PWR_STATUS 4 0 + 1) else 0
    { d.setFld Reg.PWR_STATUS 4 0 dwell with pwr := { d.pwr with dip := false } }

/-! ### Requests (R330, R331) -/

def modeResult (d : Dev) (code : Nat) : Dev := d.setReg Reg.TOP_MODE_RESULT (BitVec.ofNat 32 (2 ^ 31 + code))

/-- A CFG_CTRL command in progress. -/
def Dev.cfgBusy (d : Dev) : Bool := d.fld Reg.CFG_STATUS 7 0 == 1

/-- Transitions of Table 16.1 that a request may ask for. -/
def mayAsk (cur m : Mode) : Bool :=
  match m with
  | .service => cur == .configure || cur == .join || cur == .recovery || cur == .reload || cur == .shed || cur == .sprint
  | .join => cur == .configure || cur == .service
  | .recovery => cur.carries
  | .test => cur == .configure
  | _ => false

/-- The judgement of R330: 0 OK, 1 BUSY, 2 ILLEGAL, 3 NOT_READY. -/
def Dev.judgeMode (d : Dev) (target : Nat) (free : Bool) : Nat :=
  if d.pwr.want.isSome ∨ d.pwr.toRecovery ∨ d.cfgBusy ∨ d.mul.step ≠ 0 then 1
  else
    match modeOf target with
    | none => 2
    | some m =>
      if !mayAsk d.mode m then 2
      else if (m = .service ∨ m = .join) ∧ 0 < d.stage then 3
      else if m = .service ∧ d.mode = .configure ∧
          (!d.flag Reg.MEM_STATUS 31 || (List.range 6).any (fun n => d.regionState n != 0) || !(d.locked || free)) then 3
      else 0

/-- JOIN begins: its first step. -/
def Dev.beginJoin (d : Dev) : Dev :=
  let d := { d with mul := { d.mul with step := 1, joinFrom := d.mode, joinState := d.fld Reg.MUL_STATUS 21 19, stepAt := d.now, stepBeat := d.beat } }
  ((d.setFld Reg.MUL_STATUS 21 19 1).setReg Reg.MUL_RESULT 0).setMode .join

/-- Service is taken up again after RECOVERY (R331): decoders ask for key pictures, encoders are asked for one at every layer. -/
def Dev.afterRecovery (d : Dev) : Dev :=
  let d := foldDev (d.vdc.decs.map (·.1)) (fun e d => d.decKeyReq e (((d.dec e).map (·.cur.1)).getD 0) true) d
  foldDev (d.ven.encs.map (·.1)) (fun e d =>
    d.modEnc e (fun s => { s with req := some (List.range (enLayers (d.encEnt e)), true, d.tsk.nextOrder, false) })) d

/-- The change of mode itself. RECOVERY ends a JOIN under way, with MODE; a reload under way goes on there and leaves TOP_MODE as it stands
(assumption 102). -/
def Dev.changeMode (d : Dev) (m : Mode) : Dev :=
  let old := d.mode
  match m with
  | .join => d.beginJoin
  | .recovery =>
    let d := if d.mul.step ≠ 0 then
        ({ d with mul := { d.mul with step := 0 } }.setFld Reg.MUL_STATUS 21 19 0).setReg Reg.MUL_RESULT (BitVec.ofNat 32 (2 ^ 31 + 9))
      else d
    d.sprintStop.setMode .recovery
  | .service =>
    let d := d.sprintStop.setMode .service
    if old = .recovery then d.afterRecovery else d
  | .reload => (if d.mode = .sprint then d.sprintStop.setMode .service else d).setMode .reload
  | .test => let d := d.setMode .test; d.stageActions 0 d.stage
  | m => d.setMode m

/-- A change asked for, or owed to a CHIP_FAULT, is made. -/
def Dev.makeChange (d : Dev) : Dev :=
  if d.pwr.toRecovery then
    let d := { d with pwr := { d.pwr with toRecovery := false, want := none } }
    if d.mode.carries then d.changeMode .recovery else d
  else
    match d.pwr.want with
    | some (m, _) => { d with pwr := { d.pwr with want := none } }.changeMode m
    | none => d

/-- A request: judged, and answered; a transition that is not between traffic modes and not into RECOVERY is made at once. -/
def Dev.askMode (d : Dev) (target : Nat) (free : Bool) : Nat × Dev :=
  let c := d.judgeMode target free
  let d := modeResult d c
  match c, modeOf target with
  | 0, some m =>
    let d := if m = .recovery then { d with pwr := { d.pwr with fault := none } } else d
    if d.mode.carries then (0, { d with pwr := { d.pwr with want := some (m, d.beat) } }) else (0, d.changeMode m)
  | _, _ => (c, d)

/-- TOP_MODE_REQ. -/
def topModeReq (v : Word) (d : Dev) : Dev := (d.askMode (bits v 3 0) (bit v 31)).2

/-! ### Chip reset (R335, R395 to R397) -/

/-- Bits of TOP_RESET_CAUSE. -/
def causeMc : Nat := 0
def causeClk : Nat := 1
def causeBrown : Nat := 2
def causePin : Nat := 3
def causeAux : Nat := 4

/-- Everything but what the always-on domain, the fuses, the OTP and the flash hold returns to its reset value. -/
def Dev.resetChip (d : Dev) : Dev :=
  let fresh : Dev := {}
  let p := d.sprintStop.pwr
  { fresh with
    now := d.now
    free := d.free
    out := d.out
    regs := ([Reg.VLT_ALARM_CAUSE, Reg.VLT_ALARM_EN, Reg.TOP_RESET_CAUSE, Reg.CFG_ROLLBACK, Reg.TOP_ID].foldl (fun t o => tabSet regReset t o (d.reg o)) [])
    evt := { fresh.evt with log := [] }
    cfg := { fresh.cfg with otp := d.cfg.otp }
    lmd := { fresh.lmd with recs := d.lmd.recs }
    vlt := { fresh.vlt with fails := d.vlt.fails, erasing := d.vlt.erasing, kem := d.vlt.kem }
    pwr := { fresh.pwr with beats := p.beats, runs := p.runs, fullUntil := p.fullUntil, residue := p.residue, burnt := p.burnt,
                            lowSaid := p.lowSaid, fw := p.fw, fwOk := p.fwOk, sag := p.sag, waitRails := p.waitRails, waitClk := p.waitClk } }

/-- A chip reset with a cause. The vault's fused state and THERM_TRIP_N stay as they stood; in RESET already, the cause is
recorded and the reset goes on. -/
def Dev.chipReset (d : Dev) (cause : Nat) : Dev :=
  let d := d.setFlag Reg.TOP_RESET_CAUSE cause true
  if d.mode = .reset then d
  else
    let d := d.setMode .reset
    let vs := d.reg Reg.VLT_STATUS
    let trip := d.flag Reg.PWR_STATUS 18
    let e := d.resetChip
    let e := e.setReg Reg.VLT_STATUS (setBits vs 20 16 0)
    let e := if trip then (e.setFlag Reg.PWR_STATUS 18 true).setFld Reg.PWR_STATUS 22 20 6 else e
    { e with mode := .reset }

/-- An always-on reset: the alarm causes, the failure window and the sprint window's count are lost; the window reads full for
600 s, and the residue is taken as the time charged. -/
def Dev.auxReset (d : Dev) : Dev :=
  let d := (d.chipReset causeAux).setReg Reg.TOP_RESET_CAUSE (BitVec.ofNat 32 16)
  let d := (((d.setReg Reg.VLT_ALARM_CAUSE 0).setReg Reg.VLT_ALARM_EN 0).setFlag Reg.PWR_STATUS 18 false).setFld Reg.PWR_STATUS 22 20 0
  { d with vlt := { d.vlt with fails := [] }
           pwr := { d.pwr with runs := [], fullUntil := d.pwr.beats + windowBeats, residue := d.pwr.burnt * bitBeats,
                               lowSaid := decide (lowBeats ≤ d.pwr.burnt * bitBeats) } }

end Sys2Proof.Machine
end

