-- ==== Sys2Proof/Machine/Cascade.lean ====
section
/-! DEFINITION. The cascade: its links, MUL_TAB, JOIN, handover, and the beat's work (R312, R317, R319 to R321, R323 to R326). -/

namespace Sys2Proof.Machine
open Sys2Proof

/-! ### Links (R312) -/

def muleLinkUp (k : Nat) (d : Dev) : Dev :=
  if 4 ≤ k then d
  else
    let d := match d.peerOf k with | some m => d.setFld (Reg.MUL_LINK_STAT + mulOfs k) 29 27 m | none => d
    if d.linkSt k = 3 then (d.setLinkSt k 2).setMulLink k { d.mulLink k with lanes := 2 }
    else (d.setLinkSt k 2).setMulLink k { lag := (d.mulLink k).lag, withheld := (d.mulLink k).withheld }

/-- Frames on a link that goes DOWN are lost. -/
def muleLinkDown (k : Nat) (d : Dev) : Dev :=
  if 4 ≤ k ∨ d.linkSt k = 0 then d
  else
    let l := d.mulLink k
    ((d.setLinkSt k 0).setMulLink k { l with lanes := 0, wait := [], missing := [], hist := [], used := [], owed := [], t1 := none, t2 := none }).raise
      Src.MULE_LINK_DOWN k

def muleLaneLoss (k : Nat) (d : Dev) : Dev :=
  if 4 ≤ k ∨ d.linkSt k < 2 then d
  else if d.linkSt k = 2 then ((d.setLinkSt k 3).setMulLink k { d.mulLink k with lanes := 1 }).raise Src.MULE_LINK_DEGRADED k
  else muleLinkDown k d

/-! ### MUL_TAB (R326) -/

def mulTabSize (t : Nat) : Nat := match t with | 0 => 32768 | 1 => 4 | _ => 0

/-- READ: table 1 shows TUN_HIST_MS 100 where nothing was written. -/
def Dev.mulView (d : Dev) (t i : Nat) : Entry :=
  let e := d.ent .mul t i
  if t = 1 ∧ e.f 5 15 0 = 0 then e.setF 5 15 0 100 else e

def mulTabRead (v : Word) (d : Dev) : Dev := tabReadOp Reg.MUL_TAB_CMD Reg.MUL_TAB_ADDR Reg.MUL_TAB_DATA 8 14 (pastEnd mulTabSize) Dev.mulView 5 v d

/-- A directory entry that names its HOME among its members, and its index by HOME's flock. -/
def dirOk (idx : Nat) (e : Entry) : Bool :=
  !e.b 0 31 || (dirMember e (dirHome e) && decide (dirIdx (dirHome e) (dirFlock e (dirHome e)) = idx))

/-- The fields of an entry as written: SPREAD's reserved encoding keeps the field (R9), others write 0, EFFECTIVE and GEN are the
device's. -/
def dirEntry (old n : Entry) : Entry :=
  let e : Entry := { d0 := n.d0 &&& 0xFFFC0000, d1 := n.d1 &&& 0x0FFF0FFF, d2 := n.d2 &&& 0x0FFF0FFF, d3 := n.d3 &&& 0x0FFF0FFF,
                     d4 := n.d4 &&& 0x0FFF0FFF, d5 := n.d5 &&& 0xFFFF }
  Entry.legal old e [(0, 30, 29, [(0, 2)])]

/-- MUL_TAB_WRITE: a directory entry goes to the Rooster, BUSY until it is committed; a tunnel entry is written at once. -/
def mulTabWrite (v : Word) (d : Dev) : Dev :=
  if d.flag Reg.MUL_TAB_CMD 0 then d
  else
    let d := d.tabCmd Reg.MUL_TAB_CMD v
    let t := d.fld Reg.MUL_TAB_CMD 27 24
    let i := d.fld Reg.MUL_TAB_ADDR 14 0
    let n := d.dataEntry Reg.MUL_TAB_DATA
    if mulTabSize t ≤ i then d.tabErr Reg.MUL_TAB_CMD 5
    else if t = 1 then
      let ms := n.f 5 15 0
      if ms < 16 ∨ 2000 < ms then d.tabErr Reg.MUL_TAB_CMD 5
      else (d.setEnt .mul 1 i { n with d5 := n.d5 &&& 0x7800FFFF, d6 := 0, d7 := 0 }).tabErr Reg.MUL_TAB_CMD 0
    else if !dirOk i n then d.tabErr Reg.MUL_TAB_CMD 5
    else if !d.inStack then d.tabErr Reg.MUL_TAB_CMD 1
    else
      let e := dirEntry (d.ent .mul 0 i) n
      let d := { d.setFlag Reg.MUL_TAB_CMD 0 true with mul := { d.mul with ownWrite := some (i, e) } }.tabErr Reg.MUL_TAB_CMD 0
      if d.isRooster then d.roosterWrite i d.devId e
      else d.muleTo d.roosterId muleDirectory 0 0 0 d.beat (Config.muleBytes muleDirectory (dirNums 0 i d.devId e))

/-! ### MUL_CTRL and JOIN (R323) -/

def Dev.mulResult (d : Dev) (code : Nat) : Dev := d.setReg Reg.MUL_RESULT (BitVec.ofNat 32 (2 ^ 31 + code))

/-- JOIN from SERVICE: the mode changes at the next boundary. -/
def Dev.joinAsk (d : Dev) : Dev :=
  if d.mul.step ≠ 0 ∨ d.pwr.want.isSome = true ∨ d.pwr.toRecovery = true ∨ d.cfgBusy = true then d.mulResult 1
  else if d.mode ≠ .service then d.mulResult 9
  else { d.setReg Reg.MUL_RESULT 0 with pwr := { d.pwr with want := some (.join, d.beat) } }

/-- LEAVE: the device stands alone; what it held of the stack is dropped. -/
def Dev.leaveStack (d : Dev) : Dev :=
  if d.mul.step ≠ 0 then d.mulResult 1
  else
    let m := { d.mul with peers := [], handing := false, taking := false, ownWrite := none, writes := [], commits := [], applied := [],
                          demands := [], asks := [], sources := [], cands := [], parts := [], sums := [], reports := [] }
    let d := if d.flag Reg.MUL_TAB_CMD 0 then (d.setFlag Reg.MUL_TAB_CMD 0 false).tabErr Reg.MUL_TAB_CMD 1 else d
    let st := setBits (setBits (setBits (d.reg Reg.MUL_STATUS) 28 19 0) 15 8 0) 7 0 0
    ({ d with mul := m }.setReg Reg.MUL_STATUS st).mulResult 0

/-- HANDOVER: the Rooster passes the role to a READY standby at the next boundary. -/
def Dev.handAsk (d : Dev) : Dev :=
  if !d.isRooster then d.mulResult 7
  else if d.mul.handing then d.mulResult 1
  else if !d.standbyReady then d.mulResult 8
  else { d.setReg Reg.MUL_RESULT 0 with mul := { d.mul with handing := true } }

/-- MUL_CTRL. -/
def mulCtrl (v : Word) (d : Dev) : Dev :=
  let d := if bit v 31 then d.joinAsk else d
  let d := if bit v 30 then d.leaveStack else d
  if bit v 29 then d.handAsk else d

/-- The mode changes between traffic modes at a boundary, and else at once (R328). -/
def Dev.turn (d : Dev) (m : Mode) : Dev :=
  if d.mode = .shed then { d with before := m }
  else if d.mode.carries && m.carries && d.fclk != 0 then { d with pwr := { d.pwr with want := some (m, d.beat) } }
  else d.changeMode m

/-- A step fails: the mode before JOIN returns, and an ISOLATED device is ISOLATED again. -/
def Dev.joinFail (d : Dev) (code : Nat) : Dev :=
  let m := d.mul.joinFrom
  (({ d with mul := { d.mul with step := 0 } }.setMulState (if d.mul.joinState = 5 then 5 else 0)).mulResult code).turn m

/-- JOIN is complete. -/
def Dev.joinDone (d : Dev) (state : Nat) : Dev :=
  (({ d with mul := { d.mul with step := 0, roosterBeat := d.beat } }.setMulState state).mulResult 0).turn .service |>.raise Src.CASCADE_JOINED

def Dev.joinStep (d : Dev) (n : Nat) : Dev := { d with mul := { d.mul with step := n, stepAt := d.now, stepBeat := d.beat } }

def memberBits (ids : List Nat) : Nat := (ids.eraseDups.map (fun m => 2 ^ (m % 8))).sum

/-- JOIN_HELLO_DONE: ids, pairs, topology and size exchanged. A device that finds no Rooster and is the highest-ranked eligible one
becomes it. A device of the stack that meets a joining one takes the devices met as its peers (assumption 69). -/
def joinHelloDone (h : Hello) (d : Dev) : Dev :=
  if d.mul.step = 0 ∧ d.inStack = true ∧ h.up = true then
    let ids := h.devices.map (·.1)
    if ids.contains d.devId ∨ ids.eraseDups.length ≠ ids.length ∨ h.badTopology = true ∨ d.stackSize < ids.length + 1 then d
    else { d with mul := { d.mul with peers := h.devices } }
  else if d.mul.step ≠ 1 ∨ !h.up then d
  else
    let ids := h.devices.map (·.1)
    if ids.contains d.devId ∨ ids.eraseDups.length ≠ ids.length then d.joinFail 2
    else if h.badTopology ∨ (d.mesh = true ∧ 5 < ids.length + 1) then d.joinFail 3
    else if d.stackSize < ids.length + 1 ∨ 8 < ids.length + 1 then d.joinFail 4
    else
      let d := { d with mul := { d.mul with peers := h.devices } }
      let all := memberBits (d.devId :: ids)
      let d := (d.setFld Reg.MUL_STATUS 15 8 all).setFld Reg.MUL_STATUS 7 0 all
      let d := foldDev (List.range 4) (fun k d =>
        match d.peerOf k with | some m => d.setFld (Reg.MUL_LINK_STAT + mulOfs k) 29 27 m | none => d) d
      let me : Nat × Nat × Nat × Bool := (d.devId, d.pairOf.1, d.pairOf.2, true)
      match h.rooster with
      | some r => (d.setFld Reg.MUL_STATUS 28 26 r).joinStep 2
      | none =>
        match bestPair ((me :: h.devices).filter (fun p => p.2.1 != 0)) with
        | some r =>
          let d := d.setFld Reg.MUL_STATUS 28 26 r
          if r = d.devId then (d.joinDone 3).chooseStandby else d.joinStep 2
        | none => d.joinStep 2

/-- JOIN_TIME_LOCKED: both members on REF = MULE are LOCKED. -/
def joinTimeLocked (d : Dev) : Dev :=
  if d.mul.step = 2 ∧ [4, 5].all (fun k => (d.dom k).st == 3 && d.fld (Reg.TIM_DOM_CFG + domOfs k) 30 28 == 3) = true then d.joinStep 3 else d

/-- JOIN_ALIGN: DT and the beat number are loaded; a device with live tasks that joined from SERVICE slews instead. -/
def joinAlign (d : Dev) : Dev :=
  if d.mul.step ≠ 3 then d
  else
    let live := d.mul.joinFrom == .service && d.tsk.tasks.any (fun x => decide (x.2.st < 5))
    if !live then (({ d with tim := { d.tim with dt := (d.dom d.active).clock } }).reloadBeat.checkApart).joinStep 4
    else if d.jumpLimit < d.dtErr.natAbs then d.joinFail 6
    else if d.dtErr.natAbs ≤ nsUnit / 4 then d.joinStep 4
    else d

/-- JOIN_DIRECTORY_DONE: the whole directory is here, and in force. -/
def joinDirectoryDone (ents : List DirEnt) (d : Dev) : Dev :=
  if d.mul.step ≠ 4 then d
  else
    let d := d.clearTab .mul 0
    let d := { d with mul := { d.mul with applied := [], commits := [] } }
    let d := foldDev ents (fun x d =>
      let d := d.setEnt .mul 0 (x.idx % 32768) x.d
      if x.d.b 0 31 then { d with mul := { d.mul with applied := recSet d.mul.applied (x.idx % 32768) x.d } } else d) d
    d.joinDone 2

/-- A device that finds no Rooster and may be one is the Rooster of a stack of one. -/
def Dev.joinAlone (d : Dev) : Dev :=
  let me := memberBits [d.devId]
  let d := { d with mul := { d.mul with peers := [] } }
  let d := ((d.setFld Reg.MUL_STATUS 15 8 me).setFld Reg.MUL_STATUS 7 0 me).setFld Reg.MUL_STATUS 28 26 d.devId
  (d.joinDone 3).chooseStandby

/-- JOIN_STEP_TIMEOUT: the limits of Table 15.4. -/
def joinStepTimeout (d : Dev) : Dev :=
  match d.mul.step with
  | 1 => if d.mul.stepBeat + 6 ≤ d.beat then (if d.pairOf.1 ≠ 0 then d.joinAlone else d.joinFail 3) else d
  | 2 => if d.mul.stepAt + 15000000000 ≤ d.now then d.joinFail 5 else d
  | 3 => if d.mul.joinFrom ≠ .service ∧ d.mul.stepBeat + 1 < d.beat then d.joinFail 6 else d
  | 4 => if d.mul.stepBeat + 60 ≤ d.beat then d.joinFail 7 else d
  | _ => d

/-! ### The beat's work -/

/-- DEMAND of a relayed brood: the highest point that its subscriptions target (spatial id 8: none), and a key request. -/
def Dev.sendDemand (d : Dev) (b k : Nat) : Dev :=
  let subs := (tabKeys d.fwd.subs).filter (fun s => d.subBrood s == b && ((d.sub s).st == 1 || (d.sub s).st == 2 || (d.sub s).st == 3))
  let pt := (subs.map (fun s => (d.sub s).tgt)).foldl (fun a p => (max a.1 p.1, max a.2 p.2)) (0, 0)
  let dst := match tabFind d.mul.sources b with
    | some m => m
    | none => match d.wide ((d.broodEnt b).f 1 11 0) with | some e => dirHome e | none => (d.peerOf k).getD 0
  let key := match tabFind d.mul.asks b with | some enc => enc + 1 | none => 0
  let d := { d with mul := { d.mul with asks := tabErase d.mul.asks b } }
  d.muleTo dst muleDemand 3 0 b d.beat (Config.muleBytes muleDemand [0, b, if subs.isEmpty then 8 else pt.1, pt.2, key])

/-- The Rooster hands its role over, if the standby is still READY. -/
def Dev.passRole (d : Dev) : Dev :=
  let d := { d with mul := { d.mul with handing := false } }
  if d.isRooster && d.standbyReady then
    let d := d.muleAll muleHeartbeat 0 0 0 d.beat (Config.muleBytes muleHeartbeat (d.heartbeatNums d.standbyId))
    (d.setMulState 2).roosterMoved d.standbyId |>.mulResult 0
  else d.mulResult 8

/-- At a boundary: entries due apply, roles move, and heartbeats, demands and candidate lists leave. -/
def Dev.cascadeBeat (d : Dev) : Dev :=
  let d := d.applyDir (fun _ => true)
  let d := if d.mul.taking then d.becomeRooster else if d.mul.handing then d.passRole else d
  if !d.inStack && d.mulState ≠ 5 then d
  else
    let d := if d.isRooster then
        let d := { d with mul := { d.mul with roosterBeat := d.beat } }
        if d.standbyId = d.devId ∨ d.reaches d.standbyId = false then d.chooseStandby else d
      else d
    let d := d.muleAll muleHeartbeat 0 0 0 d.beat (Config.muleBytes muleHeartbeat (d.heartbeatNums 8))
    let relayed := (d.entries .fwd 0).filterMap (fun p =>
      if p.2.b 0 31 then (d.relayLink (p.2.f 0 13 0)).map (fun k => (p.1, k)) else none)
    let d := foldDev relayed (fun x d => d.sendDemand x.1 x.2) d
    foldDev (d.aud.mixes.map (·.1)) (fun f d =>
      match d.wide f with
      | none => d
      | some e =>
        if dirHome e = d.devId then d
        else
          let best := (d.talkersOf f d.beat).take (mixN (d.mixEnt f))
          d.muleTo (dirHome e) muleTalkers 1 (dirFlock e (dirHome e)) 0 d.beat
            (Config.muleBytes muleTalkers (best.flatMap (fun t => [t.1, t.2])))) d

end Sys2Proof.Machine
end

