-- ==== Sys2Proof/Machine/Boundary.lean ====
section
/-! DEFINITION. The beat boundary: what the device does at FCLK 0 of a beat, in its order (R22, R24, R63, R97, R147, R155, R266, R328,
R339), and the commands that fall there. -/

namespace Sys2Proof.Machine
open Sys2Proof

/-- Every busy cell is asked to yield (R24). -/
def Dev.yieldRequests (d : Dev) : Dev :=
  foldDev ((d.tsk.cells.filter (fun c => c.2.job.isSome)).map (·.1)) (fun c d => d.setCell c { d.cell c with yielding := true }) d

/-- Reservations of cells for gangs left unfilled are dropped (R63). -/
def Dev.dropReservations (d : Dev) : Dev :=
  foldDev ((d.tsk.cells.filter (fun c => c.2.reserved.isSome && c.2.job.isNone)).map (·.1)) (fun c d => d.setCell c { d.cell c with reserved := none }) d

/-- Layouts and decoders of a flock that moved follow once their tasks have ended (R204, R166), encoders once their picture in progress has
(R211). -/
def Dev.settleMoves (d : Dev) : Dev :=
  let d := foldDev ((d.vdc.decs.filter (fun x => x.2.region != d.flockRegion (deFlock (d.decEnt x.1)))).map (·.1))
    (fun e d => d.moveDec e (d.flockRegion (deFlock (d.decEnt e)))) d
  let d := foldDev ((d.cmp.lays.filter (fun x => x.2.region != d.flockRegion (laFlock (d.layEnt x.1)))).map (·.1))
    (fun l d => d.moveLay l (d.flockRegion (laFlock (d.layEnt l)))) d
  foldDev ((d.ven.encs.filter (fun x => x.2.pic.isNone && x.2.region != d.flockRegion (enFlock (d.encEnt x.1)))).map (·.1))
    (fun e d => d.moveEnc e (d.flockRegion (enFlock (d.encEnt e)))) d

/-- A new RUN_INTERVAL applies from this beat and closes the open runs (R112, R285); between interval starts deferred runs are
tried again. -/
def Dev.runBeat (d : Dev) : Dev :=
  let i := d.fld Reg.VLT_RUN_CFG 2 0
  let d := if i ≠ d.egs.interval ∧ 0 < i then { d with egs := { d.egs with interval := i, n0 := d.beat } }.endInterval else d
  if (d.beat - d.egs.n0) % max 1 d.egs.interval = 0 then d else d.retryDeferred

/-- The legs' governors and the forwarding unit's evaluation (R155, R157, R140), and the decoders' pending switches (R170): tokens are refilled at the rate that ends here. -/
def Dev.legBeat (d : Dev) : Dev :=
  let d := foldDev d.egsLegs (fun l d => d.refillLeg l) d
  let d := foldDev d.legs (fun l d => d.govUpdate l) d
  let d := foldDev d.legs (fun l d => (d.evalLeg l).rrBeat l) d
  foldDev (d.vdc.decs.map (·.1)) (fun e d => d.decPending e) d

/-- The device's work of a boundary once the mode, the stages and the roles are settled. -/
def Dev.beatWork (d : Dev) : Dev :=
  let d := d.yieldRequests.dropReservations.settleMoves
  let d := foldDev (tabKeys d.fwd.subs) (fun s d => d.adoptEval s) d
  let d := foldDev (List.range 8) (fun p d => d.countHeld p) d
  let d := (d.runBeat.legBeat.herdBoundary 0).herdBoundary 1
  let d := if d.dispatches 0 then d.releases else d
  d.tapBeat.checkApart

/-! ### Region sections written at CONFIGURE (R38, R39) -/

def Dev.cfgStep (d : Dev) (step : Nat) : Dev := d.setFld Reg.CFG_STATUS 26 24 step
def Dev.cfgRegion (d : Dev) (n : Nat) : Dev := d.setFld Reg.CFG_STATUS 18 16 n

/-- A section (0 chip, 1 to 6 the regions) is copied to the stored-image area. -/
def Dev.storeImage (d : Dev) (i : Nat) (raw : List Byte) : Dev :=
  match d.mem.allocs.find? (fun a => a.use == 6) with
  | some a => d.dramWrite 7 (a.base * 1048576 + Config.imageOfs i) raw
  | none => d

/-- A region runs a section, which is its stored image. -/
def Dev.runSection (d : Dev) (n : Nat) (s : Section) : Dev :=
  let d := { d with regions := recSet d.regions n { d.regionOf n with sec := s, stored := s, pend := none } }
  let d := d.storeImage (n + 1) s.raw
  if n < 2 then d.setFld (Reg.CFG_REGION_STAT + 4 * n) 31 16 (s.schema % 65536)
  else d.setReg (Reg.CFG_PERSONALITY + 4 * (n - 2))
    (BitVec.ofNat 32 ((s.pers.zipIdx.map (fun x => if x.1 = 2 then 2 ^ x.2 else 0)).sum))

/-- The section that CFG_STATUS.REGION names has been written, and its region is ACTIVE; the next section's turn comes. -/
def Dev.writeSection (d : Dev) : Dev :=
  let n := d.fld Reg.CFG_STATUS 18 16
  let d := (d.runSection n (d.cfg.staged.getD n {})).setRegionState n 0
  if n < 5 then d.cfgRegion (n + 1) else d

/-- CONFIGURE_LOAD is writing region sections. -/
def Dev.writing (d : Dev) : Bool := decide (d.mode = .configure) && decide (d.fld Reg.CFG_STATUS 26 24 = 3) && d.cfgBusy

/-- At a boundary the section being written may be done, which is left open; the end of the last is CONFIGURE_SECTIONS_DONE
(assumption 99). -/
def Dev.configureBeat (d : Dev) : Dev :=
  if d.writing && decide (d.fld Reg.CFG_STATUS 18 16 < 5) then
    let (k, d) := d.drawBelow 2
    if k = 0 then d else d.writeSection
  else d

/-- The next beat boundary, with what a command does at it (`pre`) after the changes of mode that are due. -/
def Dev.boundary (d : Dev) (pre : Dev → Dev) : Dev :=
  let d := d.toBoundary.powerBeat
  if d.mode = .reset then pre d
  else
    let d := (pre d.makeChange).enterStages
    (d.sprintFinish.sprintBegin).configureBeat.cascadeBeat.beatWork

/-- BEAT_BOUNDARY (R266). -/
def beatBoundary (d : Dev) : Dev := d.boundary id

/-- A command that falls at a beat boundary: at once in FCLK 0 of a beat, else at the next boundary. -/
def Dev.atBoundary (d : Dev) (f : Dev → Dev) : Dev := if d.fclk = 0 then f d else d.boundary f

/-! ### Commands at a boundary -/

/-- MODE_TRANSITION (R328): a change asked for is made. -/
def modeTransition (d : Dev) : Dev :=
  if d.pwr.want.isNone && !d.pwr.toRecovery then d else d.atBoundary Dev.makeChange

/-- SHED_STAGE_ENTER (R338, R339): the rails' means, and the stages they call for. -/
def shedStageEnter (rails : List Nat) (d : Dev) : Dev := d.atBoundary (fun d => (d.setRails rails).enterStages)

/-- SHED_STAGE_LIFT (R343): the rails' means, and the stage held lifts where they allow it; `bad` are the cells that fail their
built-in check. -/
def shedStageLift (rails bad : List Nat) (d : Dev) : Dev := d.atBoundary (fun d => (d.setRails rails).liftStage bad)

/-- SPRINT_ENTER (R349, R351). -/
def sprintEnter (d : Dev) : Dev := if d.pwr.sprintReq then d.atBoundary Dev.sprintBegin else d

/-- SPRINT_AUTO_END (R350). -/
def sprintAutoEnd (d : Dev) : Dev := if d.sprinting && d.sprintOver then d.atBoundary Dev.sprintFinish else d

/-- DIRECTORY_APPLY (R319): at beat EFFECTIVE. -/
def directoryApply (idx : Nat) (d : Dev) : Dev :=
  if d.mul.commits.any (fun c => c.1 == idx && decide (c.2.2 ≤ d.beat)) then d.applyDir (· == idx)
  else if d.mul.commits.any (fun c => c.1 == idx && decide (c.2.2 ≤ d.beat + 1)) then d.boundary id
  else d

end Sys2Proof.Machine
end

