-- ==== Sys2Proof/Machine/Load.lean ====
section
/-! DEFINITION. The configuration bit-stream (chapter 2): the header's and the sections' checks, CONFIGURE_LOAD, the in-service reload
and its steps, and the escalation from a region on (R15, R353). -/

namespace Sys2Proof.Machine
open Sys2Proof

/-! ### The image (R30 to R33) -/

/-- A reader of the staged image: offset and length. -/
abbrev Image := Nat → Nat → List Byte

def cfgSrc (d : Dev) : Nat := d.reg64 Reg.CFG_SRC_LO Reg.CFG_SRC_HI

/-- Bytes at an address of host memory or DRAM. -/
def stagedBytes (host dram : List Host.Cell) (fromHost : Bool) (a n : Nat) : List Byte := memBytes (if fromHost then host else dram) a n

/-- The image that CFG_SRC and CFG_SRC_LEN name; bytes past its length are not there. -/
def imageOf (host dram : List Host.Cell) (d : Dev) : Image := fun ofs n =>
  let len := (d.reg Reg.CFG_SRC_LEN).toNat
  stagedBytes host dram (d.flag Reg.CFG_CTRL 0) (cfgSrc d + ofs) (min n (len - ofs))

structure Manifest where
  ofs : Nat
  len : Nat
  schema : Nat
  hash : List Byte

def manifestEntry (im : Image) (i : Nat) : Manifest :=
  let b := im (0x20 + 48 * i) 48
  ⟨le32 b 4, le32 b 8, le32 b 12, slice b 16 32⟩

/-- KIND, INDEX, the zero bytes and the place of a section (Table 2.2): any multiple of 4,096 from 0x2000 on, within the image
(assumption 98). -/
def manifestOk (im : Image) (len i : Nat) : Bool :=
  let b := im (0x20 + 48 * i) 48
  let kind := if i = 0 then 0 else if i ≤ 2 then 1 else 2
  let idx := if i = 0 then 0 else if i ≤ 2 then i - 1 else i - 3
  let m := manifestEntry im i
  byteAt b 0 == kind && byteAt b 1 == idx && le16 b 2 == 0 && decide (m.ofs % 4096 = 0) && decide (0x2000 ≤ m.ofs) &&
  decide (m.ofs + m.len ≤ len) && (kind == 1 || m.schema == 0)

def allZero (bs : List Byte) : Bool := bs.all (· == 0)

/-- Where the operator signature ends; one of an algorithm the format does not name takes the longer of the two places. -/
def sigEnd (im : Image) : Nat := 0xAE8 + (match le32 (im 0xAE4 4) 0 with | 0 => 0 | 1 => 2420 | _ => 3309)

def manifestDigest (im : Image) : List Byte := Config.sha3 (im 0 0x170)

/-- Checks 1 to 5; 0: all pass. The zero bytes of the header and of the manifest, and its entries' form, belong to check 1 (assumption 98).
An OPSIG_ALG other than that of the OTP's operator key is OPERATOR_SIG, and without such a key it is not judged (R31). -/
def headerCheck (d : Dev) (im : Image) : Nat :=
  let len := (d.reg Reg.CFG_SRC_LEN).toNat
  let h := im 0 0x170
  let alg := le32 (im 0xAE4 4) 0
  if len < 0x2000 ∨ be32 h 0 ≠ 0x4F444253 ∨ le16 h 4 ≠ 1 ∨ le16 h 6 ≠ 0x170 ∨ byteAt h 0xB ≠ 0 ∨
      allZero (slice h 0x18 8) = false ∨ allZero (im (sigEnd im) (0x2000 - sigEnd im)) = false ∨
      (List.range 7).all (manifestOk im len) = false then 2
  else if le16 h 8 ≠ 0x4816 ∨ d.fld Reg.TOP_ID 11 8 < byteAt h 0xA then 3
  else if le32 h 0xC < (d.reg Reg.CFG_ROLLBACK).toNat then 4
  else if !Config.vendorSigOk (manifestDigest im) (im 0x170 2420) then 5
  else
    match d.cfg.otp.opKey with
    | none => 0
    | some (a, key) =>
      if alg = a ∧ Config.operatorSigOk a key (manifestDigest im) (im 0xAE8 (sigEnd im - 0xAE8)) = true then 0 else 6

def sectionBytes (im : Image) (i : Nat) : List Byte := let m := manifestEntry im i; im m.ofs m.len

/-- Check 6 on one section. -/
def hashOk (im : Image) (i : Nat) : Bool := decide (Config.sha3 (sectionBytes im i) = (manifestEntry im i).hash)

/-- TYPEs of a section's records (Table 2.3). -/
def recordTypes (i : Nat) : List Nat :=
  if i = 0 then [1, 2, 3, 4, 5] else if i ≤ 2 then [0x101, 0x102, 0x103, 0x104] else [0x201, 0x202, 0x203, 0x204]

/-- The payloads of a section's records, or the position of the record that is missing, unknown or malformed (R33). -/
def records : List Nat → Nat → List Byte → Nat ⊕ List (List Byte)
  | [], pos, bs => if bs.isEmpty then .inr [] else .inl pos
  | ty :: tys, pos, bs =>
    let n := le32 bs 4
    let room := (n + 7) / 8 * 8
    if bs.length < 8 + room ∨ le16 bs 0 ≠ ty ∨ byteAt bs 3 ≠ 0 ∨ allZero (slice bs (8 + n) (room - n)) = false then .inl pos
    else
      match records tys (pos + 1) (bs.drop (8 + room)) with
      | .inl p => .inl p
      | .inr l => .inr (slice bs 8 n :: l)

def recAt (rs : List (List Byte)) (k : Nat) : List Byte := rs.getD k []

/-- The index of the first element that fails. -/
def firstBad (n : Nat) (ok : Nat → Bool) : Option Nat := (List.range n).find? (fun i => !ok i)

/-- Two findings: the first that there is. -/
def orElse (a b : Option Nat) : Option Nat := match a with | some x => some x | none => b

/-- A condition of a record as a whole, its item 0. -/
def whole (ok : Bool) : Option Nat := if ok then none else some 0

def entryBytes (bs : List Byte) (ofs n : Nat) : Entry :=
  (List.range n).foldl (fun e k => Entry.put e k (BitVec.ofNat 32 (le32 bs (ofs + 4 * k)))) {}

/-- A word holds only legal encodings in a register's fields, and zero elsewhere. -/
def wordLegal (off : Nat) (w : Word) : Bool :=
  match regDesc off with
  | some r => r.fields.all (fun f => f.legal (bits w f.hi f.lo)) && (r.fields.foldl (fun v f => setBits v f.hi f.lo 0) w == 0)
  | none => false

/-! ### QUEUE_LAYOUT (R134) -/

def layGroup (p : List Byte) (i : Nat) : Entry := entryBytes p (8 + 32 * i) 8
def layOutput (p : List Byte) (i : Nat) : Entry := entryBytes p (2056 + 8 * i) 2

def groupZeros (e : Entry) : Bool :=
  e.f 0 31 18 == 0 && e.f 1 31 19 == 0 && e.f 2 31 24 == 0 && e.f 3 31 28 == 0 && e.f 4 31 28 == 0 && e.f 5 22 0 == 0 &&
  e.f 6 31 24 == 0 && e.f 7 31 0 == 0

def groupOk (p : List Byte) (i : Nat) : Bool :=
  let e := layGroup p i
  let lo := e.f 0 17 0
  let n := e.f 1 18 0
  if n = 0 then true
  else
    decide (lo + n ≤ 262144) && decide (e.f 4 27 0 < e.f 3 27 0) && decide (e.f 5 31 28 ≤ 5) && groupZeros e &&
    (!e.b 5 23 || (layOutput p (e.f 5 27 24)).f 0 31 28 != 0) &&
    (List.range i).all (fun j =>
      let g := layGroup p j
      decide (g.f 1 18 0 = 0) || decide (g.f 0 17 0 + g.f 1 18 0 ≤ lo) || decide (lo + n ≤ g.f 0 17 0))

def outputOk (p : List Byte) (i : Nat) : Bool :=
  let e := layOutput p i
  let k := e.f 0 31 28
  decide (k ≤ 6) && !e.b 0 27 && e.f 1 31 0 == 0 && (decide (k ≠ 1 ∧ k ≠ 2) || e.f 0 15 0 != 0) &&
  (decide (k < 4) || (List.range i).all (fun j => (layOutput p j).f 0 31 28 != k))

def queueLayoutBad (p : List Byte) : Option Nat :=
  if p.length ≠ 2192 ∨ le32 p 0 ≠ 64 ∨ le32 p 4 ≠ 0 ∨ 65536 < le32 p 2184 ∨ le32 p 2188 ≠ 0 then some 0
  else orElse (firstBad 64 (groupOk p)) (firstBad 16 (outputOk p))

def queueLayoutSize (p : List Byte) : Option Nat :=
  firstBad 64 (fun i => let e := layGroup p i; decide (e.f 1 18 0 = 0) || decide (36 ≤ e.f 2 23 0))

/-! ### DRAM_CLASSES (R294) -/

def dramAlloc (p : List Byte) (i : Nat) : Alloc :=
  let b := slice p (36 + 16 * i) 16
  { id := byteAt b 0, critical := byteAt b 1 == 0, use := byteAt b 2, base := le32 b 4, size := le32 b 8 }

def dramAllocs (p : List Byte) : List Alloc := (List.range (le16 p 2)).map (dramAlloc p)

def criticalUses : List Nat := [1, 2, 3, 4, 5, 6]
def bulkUses : List Nat := [0x10, 0x11, 0x12, 0x13, 0x14]

def allocOk (p : List Byte) (i : Nat) : Bool :=
  let b := slice p (36 + 16 * i) 16
  let a := dramAlloc p i
  let cls := byteAt p 0
  let critUse := criticalUses.contains a.use
  decide (byteAt b 1 ≤ 1) && byteAt b 3 == 0 && le32 b 12 == 0 && (critUse || bulkUses.contains a.use || a.use == 0x20) &&
  (!critUse || a.critical) && (!bulkUses.contains a.use || !a.critical) && decide (a.base + a.size ≤ classMib cls) &&
  (!a.critical || (decide (a.base + a.size ≤ topMib cls) && decide (a.size % 2 = 0))) &&
  (List.range i).all (fun j =>
    let o := dramAlloc p j
    o.id != a.id && (decide (a.base + a.size ≤ o.base) || decide (o.base + o.size ≤ a.base)))

/-- Of a port's entry, what its MODE uses has legal values. -/
def portOk (p : List Byte) (i : Nat) : Bool :=
  let w : Word := BitVec.ofNat 32 (le32 p (4 + 4 * i))
  bits w 30 24 == 0 && (if bit w 31 then decide (1 ≤ bits w 23 16) && decide (bits w 23 16 ≤ 100) else decide (20 ≤ bits w 15 0))

def dramClassesBad (p : List Byte) : Option Nat :=
  let n := le16 p 2
  if p.length ≠ 36 + 16 * n ∨ n = 0 ∨ 256 < n ∨ 2 < byteAt p 0 ∨ 1 < byteAt p 1 then some 0
  else
    orElse (firstBad 8 (portOk p)) (orElse (firstBad n (allocOk p))
      (whole ((criticalUses ++ bulkUses).all (fun u => (dramAllocs p).any (fun a => a.use == u)))))

/-! ### The other chip records -/

def eventWord (p : List Byte) (i : Nat) : Word := BitVec.ofNat 32 (le32 p (4 * i))

def eventRoutesBad (p : List Byte) : Option Nat :=
  if p.length ≠ 2560 then some 0
  else firstBad 640 (fun i => let w := eventWord p i; bits w 30 29 == 0 && wordLegal (Reg.EVT_SRC_CFG + 4 * i) w)

/-- VAULT_POLICY is in range and loosens nothing (R117). -/
def vaultPolicyBad (otp : Otp) (p : List Byte) : Option Nat :=
  whole (p.length == 40 && (byteAt p 0 &&& otp.profiles) == byteAt p 0 && decide (byteAt p 1 < 4) &&
    !((byteAt p 1).testBit 1 && otp.noCustom) && (otp.svcKey.isEmpty || ((byteAt p 1).testBit 0 &&
      (allZero (slice p 4 32) || slice p 4 32 == otp.svcKey))) && decide (1 ≤ le16 p 2) && decide (le16 p 2 ≤ 1440) &&
    decide (1 ≤ byteAt p 36) && decide (byteAt p 36 ≤ 6) && allZero (slice p 37 3))

def chipBad (otp : Otp) (rs : List (List Byte)) : Option (Nat × Nat) :=
  (List.range 5).findSome? (fun k =>
    let p := recAt rs k
    let r := match k with
      | 0 => queueLayoutBad p | 1 => dramClassesBad p | 2 => eventRoutesBad p | 3 => vaultPolicyBad otp p
      | _ => whole (Config.fabricOk p)
    r.map (fun i => (k, i)))

/-! ### Region records -/

/-- Weights of a region's cells, one byte each, 1 to 15. -/
def weightsBad (r : Nat) (p : List Byte) : Option Nat :=
  if p.length ≠ (regionCells r).length then some 0 else firstBad p.length (fun i => decide (1 ≤ byteAt p i) && decide (byteAt p i ≤ 15))

def graphBad (p : List Byte) : Option Nat :=
  if graphOk p then none else some ((firstBad (graphNodes p) (fun i => nodeOk p (graphNode p i))).getD 0)

/-- MODE_PROGRAMS: `custom` whether ids from 16 on are allowed. -/
def programsBad (custom : Bool) (p : List Byte) : Option Nat :=
  let ps := programsOf p
  if p.length ≠ 4 + (ps.map (fun x => 4 + 4 * x.2.length)).sum ∨ 16 < le32 p 0 then some 0
  else if programsOk custom p then none
  else some ((firstBad ps.length (fun i =>
    let x := ps.getD i (0, [])
    programOk x.2 && (custom || decide (x.1 < 16)) && !(ps.take i).any (fun y => y.1 == x.1))).getD 0)

def personalityBad (p : List Byte) : Option Nat :=
  if p.length ≠ 16 then some 0 else firstBad 16 (fun i => byteAt p i == 1 || byteAt p i == 2)

def templateList (p : List Byte) : List Template := (List.range (le32 p 0)).map (fun i => templateOf (slice p (4 + 32 * i) 32))

/-- Reserved bits of a template entry are zero. -/
def templateZeros (b : List Byte) : Bool := byteAt b 1 % 2 == 0 && decide (byteAt b 7 < 8) && allZero (slice b 16 16)

def templatesBad (p : List Byte) : Option Nat :=
  let ts := templateList p
  if 255 < le32 p 0 ∨ p.length ≠ 4 + 32 * le32 p 0 then some 0
  else
    orElse (firstBad ts.length (fun i => templateZeros (slice p (4 + 32 * i) 32) &&
        ((ts[i]?).map (fun t => templateOk ts t && !(ts.take i).any (fun x => x.id == t.id))).getD true))
      (whole (templatesOk ts))

def decClassOf (l : List Nat) : DecClass := ⟨l.getD 0 0, l.getD 1 0, l.getD 2 0 != 0, l.getD 3 0, l.getD 4 0⟩
def cmpClassOf (l : List Nat) : CmpClass := ⟨l.getD 0 0, l.getD 1 0, l.getD 2 0 != 0, l.getD 3 0, l.getD 4 0⟩
def encClassOf (l : List Nat) : EncClass := ⟨l.getD 0 0, l.getD 1 0, l.getD 2 0, l.getD 3 0⟩

/-- ITEM of BUFFER_SIZES: list and entry (R35). -/
def bufItem (list : Nat) (o : Option Nat) : Option Nat := o.map (fun i => list * 4096 + i)

def bufferSizesBad (p : List Byte) : Option Nat :=
  match Config.bufferSizes p with
  | none => some 0
  | some ls =>
    let at_ (k : Nat) : List (List Nat) := ls.getD k []
    orElse (bufItem 0 (firstBad (at_ 0).length (fun i => decide (i < 16) && (decClassOf ((at_ 0).getD i [])).ok)))
      (orElse (bufItem 1 (firstBad (at_ 1).length (fun i => decide (i < 8) && (cmpClassOf ((at_ 1).getD i [])).ok)))
        (orElse (bufItem 2 (firstBad (at_ 2).length (fun i => decide (i < 8) && (encClassOf ((at_ 2).getD i [])).ok)))
          (bufItem 4 (firstBad (at_ 4).length (fun i =>
            let j := (at_ 4).getD i []
            decide (20 ≤ j.getD 0 0) && decide (j.getD 0 0 ≤ j.getD 1 0) && decide (j.getD 1 0 ≤ 400))))))

def bufferSizesSmall (p : List Byte) : Option Nat :=
  match Config.bufferSizes p with
  | none => none
  | some ls =>
    let at_ (k : Nat) : List (List Nat) := ls.getD k []
    orElse (bufItem 0 (firstBad (at_ 0).length (fun i => decide (2 ≤ (decClassOf ((at_ 0).getD i [])).poolSize))))
      (orElse (bufItem 1 (firstBad (at_ 1).length (fun i => decide (2 ≤ (cmpClassOf ((at_ 1).getD i [])).bufs))))
        (orElse (bufItem 2 (firstBad (at_ 2).length (fun i => decide (2 ≤ (encClassOf ((at_ 2).getD i [])).refs))))
          (bufItem 4 (firstBad (at_ 4).length (fun i => decide (120 ≤ ((at_ 4).getD i []).getD 1 0))))))

/-- Check 7 on a section's records: the position and the item that fail. `custom`: whether custom programs are allowed. -/
def sectionBad (otp : Otp) (custom : Bool) (i : Nat) (rs : List (List Byte)) : Option (Nat × Nat) :=
  if i = 0 then chipBad otp rs
  else
    (List.range 4).findSome? (fun k =>
      let p := recAt rs k
      let r :=
        if i ≤ 2 then
          (match k with
            | 0 => graphBad p | 1 => whole (Config.matchLayoutOk p) | 2 => programsBad custom p | _ => weightsBad (i - 1) p)
        else (match k with | 0 => personalityBad p | 1 => weightsBad (i - 1) p | 2 => templatesBad p | _ => bufferSizesBad p)
      r.map (fun x => (k, x)))

/-- An allocation for spill holds a segment, 2 KiB (Table 2.6). -/
def spillSize (p : List Byte) : Option Nat := firstBad (le16 p 2) (fun i => let a := dramAlloc p i; a.use != 0x12 || decide (1 ≤ a.size))

/-- Check 8 (R35). -/
def sectionSmall (i : Nat) (rs : List (List Byte)) : Option (Nat × Nat) :=
  if i = 0 then
    match queueLayoutSize (recAt rs 0) with
    | some x => some (0, x)
    | none => (spillSize (recAt rs 1)).map (fun x => (1, x))
  else if i ≤ 2 then none
  else (bufferSizesSmall (recAt rs 3)).map (fun x => (3, x))

/-- CFG_ERR_DETAIL of a failure. -/
def errDetail (sec rec_ item : Nat) : Nat := sec * 2 ^ 29 + rec_ * 65536 + item

/-- The records of section i of an image. -/
def recordsOf (i : Nat) (raw : List Byte) : List (List Byte) :=
  match records (recordTypes i) 0 raw with | .inr l => l | .inl _ => []

/-- Checks 7 on one section: its CFG_ERR_DETAIL where it fails. -/
def badDetail (otp : Otp) (custom : Bool) (i : Nat) (raw : List Byte) : Option Nat :=
  match records (recordTypes i) 0 raw with
  | .inl pos => some (errDetail i pos 0)
  | .inr l => (sectionBad otp custom i l).map (fun x => errDetail i x.1 x.2)

def smallDetail (i : Nat) (raw : List Byte) : Option Nat := (sectionSmall i (recordsOf i raw)).map (fun x => errDetail i x.1 x.2)

/-- Checks 6 to 8, one check at a time over the sections: `hashed` and `full` name the sections whose hash and whose records are
checked. Answers CODE (0: all pass) and CFG_ERR_DETAIL. -/
def sectionChecks (otp : Otp) (custom : Bool) (im : Image) (hashed full : List Nat) : Nat × Nat :=
  if hashed.any (fun i => !hashOk im i) then (7, 0)
  else
    match full.findSome? (fun i => badDetail otp custom i (sectionBytes im i)) with
    | some x => (8, x)
    | none =>
      match full.findSome? (fun i => smallDetail i (sectionBytes im i)) with
      | some x => (9, x)
      | none => (0, 0)

/-! ### Sections -/

/-- A region section as the device runs it. -/
def sectionOf (i : Nat) (m : Manifest) (raw : List Byte) : Section :=
  let rs := recordsOf i raw
  if i ≤ 2 then
    { raw := raw, schema := m.schema, hash := m.hash, graph := recAt rs 0, matchLayout := recAt rs 1, programs := recAt rs 2,
      weights := (recAt rs 3).map (·.toNat) }
  else
    let ls := (Config.bufferSizes (recAt rs 3)).getD []
    let j := (ls.getD 4 []).headD [20, 400]
    { raw := raw, schema := m.schema, hash := m.hash, pers := (recAt rs 0).map (·.toNat), weights := (recAt rs 1).map (·.toNat),
      templates := templateList (recAt rs 2), decCls := (ls.getD 0 []).map decClassOf, cmpCls := (ls.getD 1 []).map cmpClassOf,
      encCls := (ls.getD 2 []).map encClassOf, lineParts := (ls.getD 3 []).map (fun l => l.headD 0), jitter := (j.getD 0 20, j.getD 1 400) }

/-- A write of an EVT_SRC_CFG word: SEVERITY stays, and a FATAL source's EN, TO_MC and TO_PIN read 1 (R374). The word of a number that no
event has is not written and reads 0 (assumption 95). -/
def Dev.setRoute (d : Dev) (src : Nat) (w : Word) : Dev :=
  let off := Reg.EVT_SRC_CFG + 4 * src
  match evtSeverity src with
  | none => d
  | some 3 => d.writeReg off (setBit (setBit (setBit w 31 true) 27 true) 26 true)
  | some _ => d.writeReg off w

/-- The chip section is applied (R36 to R38). -/
def Dev.applyChip (d : Dev) (m : Manifest) (secVer : Nat) (raw : List Byte) : Dev :=
  let rs := recordsOf 0 raw
  let q := recAt rs 0
  let mem := recAt rs 1
  let d := foldDev (List.range 64) (fun i d => d.setEnt .que 1 i (layGroup q i)) d
  let d := foldDev (List.range 16) (fun i d => d.setEnt .que 2 i (layOutput q i)) d
  let d := d.setFld Reg.QUE_BURST_CFG 17 0 (le32 q 2184)
  let al := dramAllocs mem
  let cells (use : Nat) : Nat := ((al.filter (fun a => a.use == use)).map (·.size)).sum * 4096
  let d := foldDev (List.range 8) (fun i d => d.setReg (Reg.MEM_PORT_CFG + 4 * i) (BitVec.ofNat 32 (le32 mem (4 + 4 * i)))) d
  let d := d.setFld Reg.MEM_FSP 0 0 (byteAt mem 1)
  let d := foldDev (List.range 640) (fun i d => d.setRoute i (eventWord (recAt rs 2) i)) d
  let pol := recAt rs 3
  let d := d.setFld Reg.VLT_RUN_CFG 2 0 (byteAt pol 36)
  let steer := (List.range 8).map (fun p => Config.fabricSteer (recAt rs 4) p % 2)
  let d := foldDev (List.range 6) (fun n d => d.setReg (Reg.CFG_REGION_STAT + 4 * n) 0x800) d
  let d : Dev := { d with
    que := { d.que with histPool := cells 0x11, spillPool := cells 0x12 }
    mem := { d.mem with allocs := al }
    vlt := { d.vlt with policy := pol }
    mac := { d.mac with steer := steer, want := steer }
    regions := []
    cfg := { d.cfg with chip := m.hash, chipRaw := raw, secVer := secVer, fspStart := byteAt mem 1, cls := byteAt mem 0, fabric := steer } }
  d.storeImage 0 raw

/-! ### CFG_STATUS -/

/-- A command's result is final. -/
def Dev.cfgEnd (d : Dev) (code detail : Nat) : Dev :=
  ({ (d.cfgStep 0).setFld Reg.CFG_STATUS 7 0 code with cfg := { d.cfg with reload := none } } : Dev).setReg Reg.CFG_ERR_DETAIL
    (BitVec.ofNat 32 detail)

/-- A command begins: BUSY. FALLBACK goes on telling of the last reload. -/
def Dev.cfgBegin (d : Dev) (n : Nat) : Dev := (((d.cfgRegion n).cfgStep 1).setFld Reg.CFG_STATUS 7 0 1).setReg Reg.CFG_ERR_DETAIL 0

/-! ### CONFIGURE_LOAD (R36 to R38, R333, R334) -/

/-- Whether the policy a chip section carries, under the OTP's, allows custom programs (R117). -/
def customOk (otp : Otp) (policy : List Byte) : Bool := !otp.noCustom && (byteAt policy 1).testBit 1

def Dev.configureLoad (d : Dev) (im : Image) : Dev :=
  let d := d.cfgBegin (d.fld Reg.CFG_CTRL 10 8)
  let h := headerCheck d im
  if h ≠ 0 then d.cfgEnd h 0
  else
    let raw0 := sectionBytes im 0
    let (c, det) := sectionChecks d.cfg.otp (customOk d.cfg.otp (recAt (recordsOf 0 raw0) 3)) im (List.range 7) (List.range 7)
    if c ≠ 0 then d.cfgEnd c det
    else
      let d := (d.applyChip (manifestEntry im 0) (le32 (im 0xC 4) 0) raw0).cfgRegion 7
      let secs := (List.range 6).map (fun n => sectionOf (n + 1) (manifestEntry im (n + 1)) (sectionBytes im (n + 1)))
      let d := { d with cfg := { d.cfg with staged := secs } }
      ((d.setFlag Reg.MEM_STATUS 31 false).cfgStep 6).beginTrain.setMode .train

/-- TRAIN_DONE: the channels' training ends, the set point is entered, and check 9 runs (R294, R301, R344). -/
def trainDone (chans : List TrainChan) (d : Dev) : Dev :=
  if d.mode ≠ .train then d
  else
    let cls := Config.dramClass % 3
    let d := (d.setFld Reg.MEM_CFG 31 30 cls).setFld Reg.MEM_CAP 17 0 (if d.mem.fold.isSome then topMib cls else classMib cls)
    let d := d.trainChannels chans
    let fsp := if 3 ≤ d.stage then 1 else d.cfg.fspStart
    let d := (d.setFld Reg.MEM_STATUS 30 30 fsp).setFlag Reg.MEM_STATUS 31 d.mapped
    let d := (d.setMode .configure).cfgStep 1
    let cap := d.fld Reg.MEM_CAP 17 0
    if !d.mapped ∨ cls ≠ d.cfg.cls ∨ d.mem.allocs.any (fun a => decide (cap < a.base + a.size)) = true then
      { d with cfg := { d.cfg with staged := [] } }.cfgEnd 10 0
    else (d.cfgStep 3).cfgRegion 0

/-- CONFIGURE_SECTIONS_DONE: the region sections that remain are loaded and copied to the stored-image area. Their SCHEMA_TAGs are not
compared with each other here: no check of Table 2.7 does (assumption 106). -/
def configureSectionsDone (d : Dev) : Dev :=
  if !d.writing then d
  else
    let d := foldDev (List.range (6 - d.fld Reg.CFG_STATUS 18 16)) (fun _ d => d.writeSection) d
    ({ d with cfg := { d.cfg with staged := [] } }.cfgRegion 5).cfgEnd 0 0

/-! ### In service: check and drain (R40 to R43) -/

/-- Loads of a flock (or of all) on a media region, by kind: decode, compose, encode, and the four of audio (R230). -/
def Dev.mediaLoads (d : Dev) (r : Nat) : List Nat :=
  [d.decAdmitted r, d.cmpAdmitted r, d.encAdmitted r, d.audDecLoad r, d.audEncLoad r, d.audMixes r,
   (d.aud.chans.filter (fun x => x.1 / filterChannels == r)).length]

def Dev.mediaCaps (d : Dev) (r : Nat) : List Nat :=
  let cells := d.cellsUp r 2 8
  [d.decCapacity r, d.cmpCapacity r, d.encCapacity r, 512 * 8 * cells, 256 * 8 * cells, 128 * cells, filterChannels]

def Dev.flockLoads (d : Dev) (f : Nat) : List Nat :=
  let (a, b, c, e) := d.audioCharge f
  [((d.vdc.decs.filter (fun x => deFlock (d.decEnt x.1) == f)).map (·.2.load)).sum,
   ((d.cmp.lays.filter (fun x => laFlock (d.layEnt x.1) == f)).map (·.2.load)).sum,
   ((d.ven.encs.filter (fun x => enFlock (d.encEnt x.1) == f)).map (·.2.load)).sum, a, b, c, e]

/-- The other media regions that are ACTIVE. -/
def Dev.otherRegions (d : Dev) (r : Nat) : List Nat := (List.range 4).filter (fun q => q != r && d.regionState (q + 2) == 0)

def sumLoads (ls : List (List Nat)) : List Nat := (List.range 7).map (fun k => (ls.map (fun l => l.getD k 0)).sum)

/-- Check 11: for each kind of load, what all regions carry fits what the others can (R42); a packet region needs the other plane. -/
def Dev.hasRoom (d : Dev) (n : Nat) : Bool :=
  if n < 2 then d.regionState (1 - n) == 0
  else
    let r := n - 2
    let loads := sumLoads (((List.range 4).filter (fun q => q == r || d.regionState (q + 2) == 0)).map d.mediaLoads)
    let caps := sumLoads ((d.otherRegions r).map d.mediaCaps)
    (List.range 7).all (fun k => decide (loads.getD k 0 ≤ caps.getD k 0))

/-- What a region has left, by kind. -/
def Dev.roomLeft (d : Dev) (r : Nat) : List Nat :=
  let l := d.mediaLoads r
  let c := d.mediaCaps r
  (List.range 7).map (fun k => c.getD k 0 - l.getD k 0)

def Dev.fitsIn (d : Dev) (r : Nat) (loads : List Nat) : Bool :=
  (List.range 7).all (fun k => decide (loads.getD k 0 = 0) || decide (loads.getD k 0 ≤ (d.roomLeft r).getD k 0))

/-- The region with the most room (decode, compose and encode together), the lowest of equals. -/
def Dev.mostRoom (d : Dev) (rs : List Nat) : Option Nat :=
  rs.foldl (fun a r =>
    match a with
    | none => some r
    | some b => if ((d.roomLeft b).take 3).sum < ((d.roomLeft r).take 3).sum then some r else some b) none

/-- A flock of the draining region is placed on another: a pinned flock's region is kept; where loads are judged (`short`), a composing
flock that does not fit falls back to forwarding. -/
def Dev.placeFlock (d : Dev) (r : Nat) (short : Bool) (f : Nat) : Dev :=
  let rs := d.otherRegions r
  let loads := d.flockLoads f
  let fit (l : List Nat) : Option Nat := d.mostRoom (rs.filter (fun q => d.fitsIn q l))
  let pin (d : Dev) : Dev :=
    if (d.flockEnt f).b 0 24 then { d with cfg := { d.cfg with pinned := recSet d.cfg.pinned f r } } else d
  let go (o : Option Nat) (d : Dev) : Dev :=
    match o with
    | some q => (pin d).moveFlock f q
    | none => match d.mostRoom rs with | some q => (pin d).moveFlock f q | none => d
  match fit loads with
  | some q => go (some q) d
  | none =>
    if short && (loads.getD 1 0 != 0 || loads.getD 2 0 != 0) then
      let dst := fit (loads.zipIdx.map (fun x => if x.2 = 1 ∨ x.2 = 2 then 0 else x.1))
      let d := { d with cfg := { d.cfg with demoted := recSet d.cfg.demoted f r } }.setFallback f true
      go dst d
    else go none d

/-- Every flock of a media region, in descending flock priority, is placed elsewhere. -/
def Dev.placeFlocks (d : Dev) (r : Nat) (short : Bool) : Dev :=
  let fs := ((d.entries .tsk 0).filter (fun p => p.2.b 0 31 && p.2.f 0 27 26 == r)).map (·.1)
  foldDev (sortBy (fun a b => decide (d.flockPrio b ≤ d.flockPrio a)) fs) (fun f d => d.placeFlock r short f) d

/-- Ports of a plane are to be steered to the other one, where that is ACTIVE: an AWAITING plane carries no traffic (R48), and the
ports' frames wait. -/
def Dev.steerAway (d : Dev) (n : Nat) : Dev :=
  if d.regionState (1 - n) = 0 then { d with mac := { d.mac with want := d.mac.want.map (fun _ => 1 - n) } } else d

/-- RELOAD_REGION and CHECK_ONLY: the checks of Table 2.7, judged as they begin; their outcome stands until RELOAD_CHECK_DONE. The chip
section is judged by its hash alone, so the allocations of check 9 are the running ones (R36, R308; assumption 107). -/
def Dev.reloadStart (d : Dev) (im : Image) (only : Bool) : Dev :=
  let n := d.fld Reg.CFG_CTRL 10 8
  let force := d.flag Reg.CFG_CTRL 4
  let d := d.cfgBegin n
  let h := headerCheck d im
  let m := manifestEntry im (n + 1)
  let (c, det) := if h ≠ 0 then (h, 0) else sectionChecks d.cfg.otp (customOk d.cfg.otp d.vlt.policy) im [0, n + 1] [n + 1]
  let room := d.hasRoom n
  let cap := d.fld Reg.MEM_CAP 17 0
  let code := if c ≠ 0 then c
    else if d.mem.allocs.any (fun a => decide (cap < a.base + a.size)) then 10
    else if (manifestEntry im 0).hash ≠ d.cfg.chip then 14
    else if !room && !force then 12 else 0
  let r : Reload := { region := n, only := only, force := force, host := d.flag Reg.CFG_CTRL 0, addr := cfgSrc d + m.ofs, len := m.len,
                      hash := m.hash, schema := m.schema, code := code, detail := det, short := !room }
  { d with cfg := { d.cfg with reload := some r } }

/-- A region is being reloaded, by a command that is past its checks or from its stored image: one at a time (R41). -/
def Dev.reloading (d : Dev) : Bool :=
  (d.cfg.reload.isSome && decide (2 ≤ d.fld Reg.CFG_STATUS 26 24)) || (List.range 6).any (fun n => (d.regionOf n).auto)

/-- RELOAD_CHECK_DONE: the result of the checks; a reload begins to drain (R41), once no other region is reloading. TOP_MODE turns from
SERVICE; a stage or RECOVERY entered since keeps it (R46; assumption 102). -/
def reloadCheckDone (d : Dev) : Dev :=
  match d.cfg.reload with
  | none => d
  | some x =>
    if d.fld Reg.CFG_STATUS 26 24 ≠ 1 then d
    else if x.code ≠ 0 ∨ x.only = true then d.cfgEnd x.code x.detail
    else if d.reloading then d
    else
      let d := (d.setRegionState x.region 1).cfgStep 2
      let d := { d.setFlag Reg.CFG_STATUS 8 false with cfg := { d.cfg with reload := some { x with began := d.now } } }
      let d := if x.region < 2 then d.steerAway x.region else d.placeFlocks (x.region - 2) x.short
      if d.mode.carries then d.turn .reload else d

/-- A region's tasks that have not ended. -/
def Dev.tasksIn (d : Dev) (r : Nat) : List (Nat × Task) := d.tsk.tasks.filter (fun x => decide (x.2.st < 5) && x.2.region == r)

/-- RELOAD_DRAIN_LIMIT: at the first boundary 200 ms or more after the drain began, what is left is ended LATE, a RUNNING task once
it has yielded (R43); one that retires first is COMPLETE and is not counted. -/
def reloadDrainLimit (d : Dev) : Dev :=
  match d.cfg.reload with
  | none => d
  | some x =>
    let at_ := if d.fclk = 0 then d.now else d.now + d.fclkToBoundary
    if d.fld Reg.CFG_STATUS 26 24 ≠ 2 ∨ x.limited = true ∨ at_ < x.began + 300000000 then d
    else
      d.atBoundary (fun d =>
        let left := if x.region < 2 then [] else d.tasksIn (x.region - 2)
        let d := { d with cfg := { d.cfg with reload := some { x with limited := true } } }
        let d := d.countForced (left.filter (fun t => t.2.st != St.running)).length
        foldDev left (fun t d => if t.2.st = St.running then d.setTask t.1 { t.2 with ending := 2 } else d.terminate t.1 St.late) d)

/-- PORT_STEER: a port switches planes once its old plane holds none of its frames; those that waited go in, in order (R47). -/
def portSteer (port : Nat) (d : Dev) : Dev :=
  let old := d.planeOf port
  let new := d.mac.want.getD port old
  let pl := d.plane old
  if 8 ≤ port ∨ old = new ∨ pl.passes.any (fun p => p.2.md.port == port) = true ∨ pl.waiting.any (fun p => p.md.port == port) = true then d
  else
    let mine := d.mac.parked.filter (fun p => p.md.port == port)
    let d := { d with mac := { d.mac with steer := d.mac.steer.set port new, parked := d.mac.parked.filter (fun p => p.md.port != port) } }
    foldDev mine (fun p d => d.toPlane new p) d

/-- The region holds nothing more of its work. -/
def Dev.drained (d : Dev) (n : Nat) : Bool :=
  if n < 2 then
    (d.plane n).passes.isEmpty && (d.plane n).waiting.isEmpty && (List.range 8).all (fun p => d.planeOf p != n || d.mac.want.getD p n == n)
  else (d.tasksIn (n - 2)).isEmpty

/-- RELOAD_DRAIN_DONE: the section is read again, from the bytes given, and written. -/
def reloadDrainDone (bytes : Reload → List Byte) (d : Dev) : Dev :=
  match d.cfg.reload with
  | none => d
  | some x =>
    if d.fld Reg.CFG_STATUS 26 24 ≠ 2 ∨ x.cancelled = true ∨ d.drained x.region = false then d
    else { (d.setRegionState x.region 2).cfgStep 3 with cfg := { d.cfg with reload := some { x with raw := bytes x } } }

/-- RELOAD_WRITE_DONE. -/
def reloadWriteDone (d : Dev) : Dev :=
  match d.cfg.reload with
  | none => d
  | some x => if d.fld Reg.CFG_STATUS 26 24 ≠ 3 then d else (d.setRegionState x.region 3).cfgStep 4

/-! ### Failure and rejoin (R15, R44 to R48, R353) -/

/-- A region is FAILED: its capacity is removed, and the chip level acts. -/
def Dev.failRegion (d : Dev) (n : Nat) : Dev :=
  let d := d.setRegionState n 7
  let d := { d with regions := recSet d.regions n { d.regionOf n with failed := true, pend := none, scrubbing := false, auto := false, due := false } }
  let d := d.raise (srcRegion n 3)
  let d := if n < 2 then d.steerAway n
    else (d.moveAudio (n - 2) (d.otherRegions (n - 2))).fallBack
  d.chipFault n

/-- TOP_MODE leaves RELOAD. -/
def Dev.leaveReload (d : Dev) : Dev :=
  match d.pwr.want with
  | some (.reload, _) => { d with pwr := { d.pwr with want := none } }
  | some _ => d
  | none => if d.mode = .reload ∨ (d.mode = .shed ∧ d.before = .reload) then d.turn .service else d

/-- A region's reload is over: its errors are forgotten. -/
def Dev.freshRegion (d : Dev) (n : Nat) : Dev :=
  { d with regions := recSet d.regions n { d.regionOf n with failed := false, verifyFails := 0, auto := false } }

/-- A media region rejoins: GATED where a stage gates it, else every cell that is not gated takes its built-in check (R46). -/
def Dev.rejoinMedia (d : Dev) (n : Nat) (bad : List Nat) : Dev :=
  let d := d.freshRegion n
  let d := if 4 ≤ n ∧ 3 ≤ d.stage then d.setRegionState n 6
    else (d.testCells ((regionCells n).filter (fun c => !d.gated c)) bad).setRegionState n 0
  d.regionBack (n - 2)

/-- Frames that waited for a plane go in, in order. -/
def Dev.unpark (d : Dev) (n : Nat) : Dev :=
  let mine := d.mac.parked.filter (fun p => d.takes n p.md.port)
  foldDev mine (fun p d => d.toPlane n p) { d with mac := { d.mac with parked := d.mac.parked.filter (fun p => !d.takes n p.md.port) } }

/-- A packet region rejoins: with the other plane where that is ACTIVE and the schemas agree; else it takes every port, and a plane of
another schema waits (R48). Answers whether no schema differs. -/
def Dev.rejoinPacket (d : Dev) (n : Nat) (bad : List Nat) : Bool × Dev :=
  let d := ((d.freshRegion n).testCells (regionCells n) bad).setRegionState n 0
  let o := 1 - n
  let same := decide ((d.regionOf n).sec.schema = (d.regionOf o).sec.schema)
  if d.regionState o = 0 && same then (true, { d with mac := { d.mac with want := d.cfg.fabric } }.unpark n)
  else if d.regionState o = 0 then (false, ((d.setRegionState o 5).steerAway o).unpark n)
  else (same || d.regionState o != 5, (d.steerAway o).unpark n)

def Dev.rejoin (d : Dev) (n : Nat) (bad : List Nat) : Bool × Dev :=
  let d := match (d.regionOf n).pend with
    | some s => let d := d.runSection n s; { d with regions := recSet d.regions n { d.regionOf n with due := false } }
    | none => d
  if n < 2 then d.rejoinPacket n bad else (true, d.rejoinMedia n bad)

/-- The stored image is loaded on the device's own account: the region leaves service at once, and its tasks end LATE. -/
def Dev.autoStart (d : Dev) (n : Nat) : Dev :=
  let d := { d.setRegionState n 2 with regions := recSet d.regions n { d.regionOf n with auto := true, due := false } }
  if n < 2 then d.steerAway n
  else
    let d := d.placeFlocks (n - 2) true
    foldDev (d.tasksIn (n - 2)) (fun t d => d.terminate t.1 St.late) d

/-- A region in service, or AWAITING or GATED, may be reloaded from its stored image. -/
def Dev.mayReload (d : Dev) (n : Nat) : Bool := d.mode != .zeroize && [0, 5, 6].contains (d.regionState n)

/-- A reload that waited for another region's begins (assumption 97). -/
def Dev.nextAuto (d : Dev) : Dev :=
  if d.reloading then d
  else match (List.range 6).find? (fun n => (d.regionOf n).due && d.mayReload n) with
    | some n => d.autoStart n
    | none => d

/-- An error escalates to a reload from the stored image (R15): at once, or when no other region reloads any more (R41). A region in the
course of its own reload is written anew by it; should that be cancelled, the reload follows. -/
def Dev.autoReload (d : Dev) (n : Nat) : Dev :=
  if (d.regionOf n).auto then d
  else
    let d := d.raise (srcRegion n 2)
    ({ d with regions := recSet d.regions n { d.regionOf n with due := true } } : Dev).nextAuto

/-- RELOAD_VERIFY_DONE: the readback against the manifest entry; on a failure the stored image, which verifies or not. -/
def reloadVerifyDone (storedOk : Bool) (d : Dev) : Dev :=
  match d.cfg.reload with
  | none => d
  | some x =>
    if d.fld Reg.CFG_STATUS 26 24 ≠ 4 then d
    else
      let go (d : Dev) (s : Section) : Dev :=
        let d := { d with regions := recSet d.regions x.region { d.regionOf x.region with pend := some s } }
        (d.setRegionState x.region 4).cfgStep 5
      if Config.sha3 x.raw = x.hash then go d (sectionOf (x.region + 1) ⟨0, x.len, x.schema, x.hash⟩ x.raw)
      else
        let d := (d.setFlag Reg.CFG_STATUS 8 true).raise (srcRegion x.region 5)
        if storedOk then
          let d := go d (d.regionOf x.region).stored
          { d with cfg := { d.cfg with reload := some { x with fell := some 7 } } }
        else ((d.failRegion x.region).cfgEnd 7 0).leaveReload.nextAuto

/-- RELOAD_REJOIN_DONE. -/
def reloadRejoinDone (bad : List Nat) (d : Dev) : Dev :=
  match d.cfg.reload with
  | none => d
  | some x =>
    if d.fld Reg.CFG_STATUS 26 24 ≠ 5 then d
    else
      let (same, d) := d.rejoin x.region bad
      let code := match x.fell with | some c => c | none => if x.cancelled then 15 else if same then 0 else 11
      (d.cfgEnd code 0).leaveReload.nextAuto

/-- CANCEL (R45): without effect once the drain is complete. -/
def Dev.cancelLoad (d : Dev) : Dev :=
  match d.cfg.reload with
  | none => d
  | some x =>
    match d.fld Reg.CFG_STATUS 26 24 with
    | 1 => d.cfgEnd 15 0
    | 2 =>
      if d.drained x.region then d else
      let d := { d with cfg := { d.cfg with reload := some { x with cancelled := true } } }
      (d.setRegionState x.region 4).cfgStep 5
    | _ => d

/-! ### CFG_CTRL -/

/-- A write of CFG_CTRL: its plain fields, and the command CMD starts (R39, R40). -/
def cfgCtrl (host dram : List Host.Cell) (v : Word) (d : Dev) : Dev :=
  let d := d.writeReg Reg.CFG_CTRL v
  let cmd := cmdField Reg.CFG_CTRL 31 28 v
  let im := imageOf host dram d
  if cmd = 0 then d
  else if cmd = 3 then d.cancelLoad
  else if d.cfgBusy then d
  else if (cmd = 1 ∧ d.mode ≠ .configure) ∨ (cmd ≠ 1 ∧ d.mode ≠ .service) then
    (((d.cfgRegion (d.fld Reg.CFG_CTRL 10 8)).cfgStep 0).setFld Reg.CFG_STATUS 7 0 13).setReg Reg.CFG_ERR_DETAIL 0
  else if cmd = 1 then d.configureLoad im
  else d.reloadStart im (cmd == 4)

/-! ### Escalation from a region (R15) -/

/-- CACHE_UNCORRECTABLE_ERROR: each report starts a scrub. -/
def cacheUncorrectableError (region block : Nat) (d : Dev) : Dev :=
  let n := region % 6
  if d.regionState n = 7 ∨ d.regionState n = 8 then d else d.startScrub n block

/-- REGION_SCRUB_DONE: what it could not correct, or a second scrub needed within 10 s of the one before, measured between the moments at
which the two were needed (assumption 97), leads to a reload from the stored image. -/
def regionScrubDone (region : Nat) (corrected : Bool) (d : Dev) : Dev :=
  let n := region % 6
  let r := d.regionOf n
  if !r.scrubbing then d
  else
    let d := { d with regions := recSet d.regions n { r with scrubbing := false, again := false } }
    let st := d.regionState n
    if (!corrected || r.again) && st != 7 && st != 8 then d.autoReload n else d

/-- REGION_AUTO_RELOAD_DONE: the reload from the stored image ends its verification; one that fails is made again, and a second
failure leaves the region FAILED. -/
def regionAutoReloadDone (region : Nat) (verified : Bool) (bad : List Nat) (d : Dev) : Dev :=
  let n := region % 6
  if !(d.regionOf n).auto then d
  else if verified then
    let s := (d.regionOf n).stored
    (({ d with regions := recSet d.regions n { d.regionOf n with pend := some s } } : Dev).rejoin n bad).2.nextAuto
  else
    let k := (d.regionOf n).verifyFails + 1
    let d := { d with regions := recSet d.regions n { d.regionOf n with verifyFails := k } }
    if 2 ≤ k then (d.failRegion n).nextAuto else d

end Sys2Proof.Machine
end

