-- ==== Sys2Proof/Machine/Host.lean ====
section
/-! DEFINITION. The host over PCIe (chapter 17): the BAR2 window, the punt, inject and completion rings, the link and a function-level
reset. -/

namespace Sys2Proof.Machine
open Sys2Proof

/-! ### BAR2 (R362) -/

/-- Base of the window. -/
def Dev.winBase (d : Dev) : Nat := d.fld Reg.PCI_WIN_BASE 8 0 * 2 ^ 28

/-- Byte of the event log at the end of the COUNTERS allocation (R293, R377): each 2 KiB stripe holds 1 KiB of data and its copy. -/
def Dev.logByte (d : Dev) (end_ a : Nat) : Option Byte :=
  let first := end_ - 2 * 4096 * 32
  if a < first then none
  else
    let k := a - first
    let ofs := k / 2048 * 1024 + k % 1024
    some (match tabFind d.evt.log (ofs / 32) with | some r => r.bytes.getD (ofs % 32) 0 | none => 0)

/-- A byte as the window returns it: nothing beyond the capacity, zero in the vault area, the log, what the host stored, and an open
value in what an allocation of the device's own holds or a POISONED block. -/
def Dev.winByte (d : Dev) (dram : List Host.Cell) (i a : Nat) : Byte :=
  if d.noMemory a then 0
  else
    let own : Byte := BitVec.ofNat 8 (Config.freeNat (d.free + i))
    match d.allocAt a with
    | none => if d.poisoned a then own else memByte dram a
    | some x =>
      if x.use = 5 then 0
      else if x.use = 3 then (d.logByte ((x.base + x.size) * 2 ^ 20) a).getD own
      else if x.use = 0x20 ∧ d.poisoned a = false then memByte dram a
      else own

/-- BAR2_READ: the blocks are read through the HOST port; a POISONED one is an uncorrectable read of bulk data (R295). -/
def bar2Read (dram : List Host.Cell) (ofs len : Nat) (d : Dev) : Dev :=
  let a := d.winBase + ofs % 2 ^ 32
  let data := (List.range len).map (fun i => d.winByte dram i (a + i))
  let bad := (touchedBlocks a len).filter (fun b => !d.noMemory (b * 128) && d.poisoned (b * 128))
  let d := foldDev bad (fun b d => d.uncorrectable (d.chanOf (d.homeOf (b * 128))) (b * 128)) (d.readBlocks 7 a len)
  ({ d with free := d.free + len }).emit (.bar2 data !bad.isEmpty)

/-- A write by the window reaches a byte: not in a critical allocation, nor beyond the capacity. -/
def Dev.winWrites (d : Dev) (a : Nat) : Bool := !d.noMemory a && !d.criticalAt a

/-- BAR2_WRITE. -/
def bar2Write (ofs : Nat) (data : List Byte) (d : Dev) : Dev :=
  let a := d.winBase + ofs % 2 ^ 32
  let refused := (List.range data.length).any (fun i => !d.noMemory (a + i) && d.criticalAt (a + i))
  let d := if refused then (d.cnt Reg.PCI_CNT_LO 1 1).raiseOnce Src.WIN_REFUSED else d
  if (List.range data.length).all (fun i => d.winWrites (a + i)) then d.dramWrite 7 a data
  else foldDev data.zipIdx (fun x d => if d.winWrites (a + x.2) then d.dramWrite 7 (a + x.2) [x.1] else d) d

/-! ### Punt rings (R364, R365) -/

/-- Descriptors after HEAD that the device owns, at most n. -/
def Dev.ringOwned (d : Dev) (host : List Host.Cell) (ring n : Nat) : Nat :=
  ((List.range (min n (d.ringPosted ring))).takeWhile (fun k => 128 ≤ (memByte host (d.ringSlot ring k + 11)).toNat)).length

/-- A punt descriptor from its byte 8 on (Table 17.1): buffer k of n, its bytes in this buffer. -/
def puntDesc (it : Item) (auth itemLen k n len : Nat) (lost : Bool) : List Byte :=
  let p := it.punt.getD { reason := 1 }
  let flags := (k == 0).toNat * 64 + (k + 1 == n).toNat * 32 + p.partialRtcp.toNat * 16 + p.sampled.toNat * 8 + lost.toNat * 4 + auth
  [0, 0] ++ toLe 1 p.reason ++ toLe 1 flags ++ toLe 2 len ++ toLe 2 it.md.leg ++ toLe 4 (it.desc.f 6 31 0) ++ toLe 4 it.md.beat ++
    toLe 2 itemLen ++ toLe 1 (it.md.demux * 16 + it.md.port) ++ toLe 1 (p.mal * 16 + p.pair) ++ toLe 2 it.md.action ++ toLe 2 it.md.brood

/-- PUNT_DELIVER: the next item of the ring's queue fills descriptors from HEAD, where the device owns enough of them. -/
def puntDeliver (host : List Host.Cell) (ring : Nat) (d : Dev) : Dev :=
  if 16 ≤ ring ∨ d.ringOn ring = false then d
  else
    match d.hostQueue ring with
    | none => d
    | some q =>
      match (d.queue q).front with
      | none => d
      | some it =>
        let bytes := ((d.payload it.uid).map (·.bytes)).getD []
        let item := bytes.take (bytes.length - 4)
        let size := d.fld (Reg.RING_CFG + ringOfs ring) 6 0 * 256
        let n := max 1 (ceilDiv item.length size)
        if d.ringOwned host ring n < n then d
        else
          let lost := (d.ringRec ring).lost
          let auth := d.itemAuth it
          let d := foldDev (List.range n) (fun k d =>
            let part := slice item (k * size) size
            let a := d.ringSlot ring k
            (d.hostWrite (leNat (memBytes host a 8)) part).hostWrite (a + 8)
              (puntDesc it auth item.length k n part.length (lost && k == 0))) d
          let d := d.setRing ring { d.ringRec ring with lost := false }
          ((d.readItem q).2).ringDone ring n

/-! ### Inject rings (R364, R366) -/

/-- An inject descriptor. -/
structure InjDesc where
  addr : Nat
  len : Nat
  kind : Nat
  flags : Nat
  leg : Nat
  cls : Nat
  port : Nat
  launch : Nat
deriving DecidableEq, Repr

def injDesc (host : List Host.Cell) (a : Nat) : InjDesc :=
  let b := memBytes host a 32
  ⟨leNat (slice b 0 8), le16 b 8, byteAt b 10, byteAt b 11, le16 b 12 % 16384, byteAt b 14 / 32, byteAt b 14 % 8, le32 b 16⟩

def InjDesc.sop (x : InjDesc) : Bool := x.flags.testBit 6
def InjDesc.eop (x : InjDesc) : Bool := x.flags.testBit 5

/-- The next item: descriptors up to the first EOP, and whether their marks are consistent; none while it is not complete. -/
def injItem : List InjDesc → List InjDesc → Option (List InjDesc × Bool)
  | [], _ => none
  | x :: xs, acc =>
    if acc.isEmpty && !x.sop then some ([x], false)
    else if !acc.isEmpty && x.sop then some (acc, false)
    else if x.eop then some (acc ++ [x], true)
    else injItem xs (acc ++ [x])

/-- A frame at the head of a class of a port (RAW_PORT). -/
def Dev.injectRaw (d : Dev) (x : InjDesc) (uid : Nat) (bytes : List Byte) : Dev :=
  let port := d.egPort x.port
  let it : Item := { desc := { d0 := BitVec.ofNat 32 (4 * 2 ^ 28 + cellsFor bytes.length * 2 ^ 14 + bytes.length) }, uid := uid }
  let f : EgFrame := { item := it, cls := x.cls, len := bytes.length + 4, bytes := bytes,
                       launch := if x.flags.testBit 3 then some x.launch else none }
  d.setEgPort x.port { port with raw := port.raw ++ [f] }

/-- A payload on a leg's CTRL stream (LEG_CTRL); a queue that does not take it drops it. -/
def Dev.injectCtrl (d : Dev) (x : InjDesc) (uid : Nat) (bytes : List Byte) : Dev :=
  match d.streamQueue ((d.egsLeg x.leg).f 1 17 0) with
  | none => d.derefPayload uid
  | some q =>
    let launch := x.flags.testBit 3
    let desc : Entry := ({ d0 := BitVec.ofNat 32 (4 * 2 ^ 28 + launch.toNat * 2 ^ 22 + cellsFor bytes.length * 2 ^ 14 + bytes.length),
                           d6 := BitVec.ofNat 32 x.launch } : Entry).setF 2 13 0 x.leg
    d.enqueue q { desc := desc, uid := uid, sub := (d.egsLeg x.leg).f 1 17 0, protect := x.flags.testBit 4,
                  md := { demux := (x.flags.testBit 4).toNat } }

/-- A frame parsed as if received on its port (REPARSE), stamped now. -/
def Dev.injectFrame (d : Dev) (x : InjDesc) (bytes : List Byte) : Dev := d.ingress x.port (bytes ++ toLe 4 (crc32 bytes)) d.dtNs []

/-- The next item of an inject ring, where its KIND is the given one (or no legal one): taken, judged, and sent on its way. -/
def injectItem (host : List Host.Cell) (kind ring : Nat) (d : Dev) : Dev :=
  let w := 16 + ring
  if 16 ≤ ring ∨ d.ringOn w = false then d
  else
    let taken := (d.ringRec w).taken
    let left := d.ringPosted w - taken
    let own := (List.range left).map (fun k => injDesc host (d.ringSlot w (taken + k)))
    match injItem (own.takeWhile (fun x => 128 ≤ x.flags)) [] with
    | none => d
    | some (xs, marks) =>
      let x := xs.headD ⟨0, 0, 0, 0, 0, 0, 0, 0⟩
      if x.kind ≠ kind ∧ 1 ≤ x.kind ∧ x.kind ≤ 3 then d
      else
        let first := (d.ringHead w + taken) % d.ringSize w
        let flags := xs.map (fun y => (BitVec.ofNat 8 y.flags : Byte))
        let bytes := xs.flatMap (fun y => memBytes host y.addr y.len)
        let d := d.setRing w { d.ringRec w with taken := taken + xs.length }
        let done (d : Dev) (status : Nat) : Dev :=
          (d.putStatus w first flags status (if status = 0 then d.dtNs else 0)).ringAdvance w
        if !marks || decide (9216 < bytes.length) || decide (x.kind ≠ kind) then done d 1
        else if d.mode = .reset ∨ d.mode = .boot ∨ d.mode = .zeroize then done d 4
        else if kind = 2 ∧ (d.egsLeg x.leg).b 0 31 = false then done d 2
        else if kind = 3 then
          if !d.traffic && d.mode != .test then done d 3 else done (d.injectFrame x bytes) 0
        else
          let (u, d) := d.newPayload bytes bytes.length
          let it : InjItem := ⟨u, w, first, flags⟩
          let d := { d with pci := { d.pci with inFlight := d.pci.inFlight ++ [it] } }
          if kind = 1 then d.injectRaw x u bytes else d.injectCtrl x u bytes

/-- RING_COAL_TIMER: COAL_US after the first completion not yet signalled. -/
def ringCoalTimer (ring : Nat) (d : Dev) : Dev :=
  match (d.ringRec ring).firstAt with
  | none => d
  | some t =>
    d.atNow (t + d.fld (Reg.RING_IRQ + ringOfs ring) 23 16 * 1500) fun d => d.ringSignal ring

/-! ### Completion ring (R367) -/

def completionRec (h : Nat) (x : Task) : List Byte :=
  toLe 4 (h % 2 ^ 24 + x.kind * 2 ^ 24 + (x.st - 5) * 2 ^ 28) ++ toLe 1 x.tmpl ++ toLe 1 x.region ++ toLe 2 x.flock ++ toLe 4 x.media ++
    toLe 4 x.ended ++ toLe 1 x.quality ++ List.replicate 15 0

/-- COMPLETION_RECORD_WRITE: the record of a task that has ended, and its entry is free. -/
def completionRecordWrite (t : Nat) (d : Dev) : Dev :=
  match d.task t with
  | none => d
  | some x =>
    if x.st < 5 ∨ x.notify = false ∨ x.filling = true ∨ d.ringOn 32 = false ∨ d.ringPosted 32 = 0 then d
    else
      let d := (d.hostWrite (d.ringSlot 32 0) (completionRec (d.handle t) x)).ringDone 32 1
      { d with tsk := { d.tsk with tasks := tabErase d.tsk.tasks t } }

/-! ### The link (R361, R363) -/

def pcieLinkDown (d : Dev) : Dev :=
  if d.flag Reg.PCI_STATUS 31 then (d.setFlag Reg.PCI_STATUS 31 false).raise Src.PCIE_LINK_DOWN else d

/-- The link trains: its width and rate are what the far end allows. -/
def pcieLinkUp (d : Dev) : Dev :=
  if d.mode = .reset ∨ d.flag Reg.PCI_STATUS 31 = true then d
  else
    let (w, d) := d.drawBelow 4
    let (r, d) := d.drawBelow 5
    ((d.setFlag Reg.PCI_STATUS 31 true).setFld Reg.PCI_STATUS 27 24 (2 ^ w)).setFld Reg.PCI_STATUS 19 16 (r + 1)

/-- Every register of the rings' windows and of the MSI-X table returns to its reset value. -/
def Dev.clearHostRegs (d : Dev) : Dev :=
  { d with regs := d.regs.filter (fun r => !(decide (Reg.RING_BASE_LO ≤ r.1) && decide (r.1 < Reg.RING_BASE_LO + 0x840)) &&
                                           !(decide (Reg.MSIX_ADDR_LO ≤ r.1) && decide (r.1 < Reg.MSIX_PBA + 8))) }

/-- FUNCTION_LEVEL_RESET: rings, mailbox and MSI-X table are cleared; a command in progress writes no response. -/
def functionLevelReset (d : Dev) : Dev :=
  let n := d.fld Reg.PCI_STATUS 7 0
  let mbx : Mbx := { busy := d.pci.mbx.busy.map (fun b => (b.1, b.2.1, b.2.2.1, true)) }
  let d := { d.clearHostRegs with pci := { d.pci with rings := [], inFlight := [], mbx := mbx } }
  (d.setFld Reg.PCI_STATUS 7 0 (min 255 (n + 1))).raise Src.FLR_DONE

end Sys2Proof.Machine
end

