-- ==== Sys2Proof/Machine/Mail.lean ====
section
/-! DEFINITION. The mailbox (R369 to R372, R406), the vault's imports, alarms, provisioning and attestation (R103 to R106, R114 to
R116), and the MC's firmware. -/

namespace Sys2Proof.Machine
open Sys2Proof

/-! ### GO and the response (R369, R370) -/

/-- STATUS of a command-specific result: 0 is OK. -/
def mbxResult (c : Nat) : Nat := if c = 0 then 0 else 0x100 + c

def Dev.setMbx (d : Dev) (m : Mbx) : Dev := { d with pci := { d.pci with mbx := m } }

/-- The command in progress ends: BUSY clears, and unless a function-level reset has silenced it the response is written, DONE is
set and MBX_DONE raised. -/
def Dev.mbxEnd (d : Dev) (status : Nat) (data : List Byte) : Dev :=
  match d.pci.mbx.busy with
  | none => d
  | some (_, _, _, true) => d.setMbx { d.pci.mbx with busy := none }
  | some (op, seq, _, false) =>
    ((d.setMbx { d.pci.mbx with busy := none, done := true, resp := some (op, seq, status, data) }).emit (.mailbox status data)).raise
      Src.MBX_DONE noDetail status

/-- Modes in which a command is accepted (Table 17.4). -/
def mbxMode (op : Nat) (m : Mode) : Bool :=
  match op with
  | 1 | 2 | 10 => m != .reset
  | 3 | 12 | 14 => m == .configure || m == .service
  | 4 | 8 | 13 => m != .reset && m != .boot
  | 5 => m != .reset && m != .boot && m != .test && m != .zeroize
  | 6 | 11 => m != .reset && m != .boot && m != .zeroize
  | 7 => m == .service || m == .sprint
  | 9 => m == .zeroize
  | _ => false

/-- With neither firmware copy running, boot ROM takes GET_INFO and FW_WRITE alone (R333). -/
def Dev.mbxTakes (d : Dev) (op : Nat) : Bool := mbxMode op d.mode && (!d.flag Reg.TOP_STATUS 31 || op == 1 || op == 10)

/-- GO with a request: `run` answers the command's STATUS and payload, or none where it ends later. -/
def Dev.mailbox (d : Dev) (op seq : Nat) (run : Dev → Option (Nat × List Byte) × Dev) : Dev :=
  if d.mode = .reset then d
  else if d.pci.mbx.busy.isSome then d.setMbx { d.pci.mbx with refused := true }
  else
    let d := d.setMbx { d.pci.mbx with busy := some (op, seq, d.now, false) }
    if !d.mbxTakes op then d.mbxEnd 4 []
    else
      match run d with
      | (some (status, data), d) => d.mbxEnd status data
      | (none, d) => d

/-- A write of MBX_CTRL's DONE and REFUSED (W1C). -/
def Dev.mbxCtrl (d : Dev) (v : Word) : Dev :=
  d.setMbx { d.pci.mbx with done := d.pci.mbx.done && !bit v 29, refused := d.pci.mbx.refused && !bit v 28 }

def le4 (n : Nat) : List Byte := toLe 4 n

/-! ### GET_INFO, MODE_SET, LOAD_REGION, SPRINT_REQ, EVENT_LOG, PORT_READ, ROLLBACK_SET -/

def fwCopy (d : Dev) : Nat := d.fld Reg.TOP_STATUS 30 30

/-- The OTP vault policy, its fields in the order of R406: the operator key's algorithm, the key, the key service's digest, the
profiles and whether custom programs are forbidden. -/
def Otp.bytes (o : Otp) : List Byte :=
  (match o.opKey with | none => toLe 4 0 | some (a, k) => toLe 4 a ++ k) ++
  (if o.svcKey.isEmpty then List.replicate 32 0 else o.svcKey) ++ [BitVec.ofNat 8 o.profiles, BitVec.ofNat 8 o.noCustom.toNat]

def Dev.fwChunks (d : Dev) (copy : Nat) : List (Nat × List Byte) := d.pwr.fw.getD copy []

def Dev.infoBytes (d : Dev) : List Byte :=
  le4 (d.reg Reg.TOP_ID).toNat ++ le4 d.mode.code ++ Config.fwInfo (d.fwChunks 0) ++ Config.fwInfo (d.fwChunks 1) ++
  le4 (fwCopy d) ++ le4 (d.reg Reg.CFG_ROLLBACK).toNat ++ toLe 8 (d.reg64 Reg.MUL_SERIAL_LO Reg.MUL_SERIAL_HI) ++
  Config.identityPublic ++ Config.kemPublic d.vlt.kem ++ d.cfg.otp.bytes

def getInfo (seq : Nat) (d : Dev) : Dev := d.mailbox 1 seq (fun d => (some (0, d.infoBytes), d))

def modeSet (seq target : Nat) (free : Bool) (d : Dev) : Dev :=
  d.mailbox 2 seq (fun d => let (c, d) := d.askMode (target % 16) free; (some (mbxResult c, []), d))

/-- LOAD_REGION: the CFG registers are written and the command starts; a command refused because another runs returns BUSY (R40).
CANCEL is judged with the command it cancels. -/
def loadRegion (host dram : List Host.Cell) (seq : Nat) (v : Word) (addr len : Nat) (d : Dev) : Dev :=
  d.mailbox 3 seq (fun d =>
    if d.cfgBusy && cmdField Reg.CFG_CTRL 31 28 v != 3 then (some (mbxResult 1, []), d)
    else
      let d := (d.setReg64 Reg.CFG_SRC_LO Reg.CFG_SRC_HI addr).setReg Reg.CFG_SRC_LEN (BitVec.ofNat 32 len)
      (none, cfgCtrl host dram v d))

def sprintReq (seq op : Nat) (d : Dev) : Dev :=
  d.mailbox 7 seq (fun d =>
    if op = 1 then
      let (c, d) := d.sprintAsk
      if c = 0 then (none, d) else (some (mbxResult c, []), d)
    else if op = 2 then (some (0, []), d.sprintEndAsk)
    else (some (3, []), d))

/-- The log's ring, from a record on. -/
def Dev.logBytes (d : Dev) (first count : Nat) : List Byte :=
  (List.range count).flatMap (fun k =>
    match tabFind d.evt.log ((first + k) % 4096) with | some r => r.bytes | none => List.replicate 32 0)

def eventLog (seq first count : Nat) (d : Dev) : Dev :=
  d.mailbox 8 seq (fun d => if count = 0 ∨ 1024 < count then (some (3, []), d) else (some (0, d.logBytes first count), d))

/-- Port state and MAC counters; the code word counts of the RS-FEC are open values. -/
def portRead (seq port : Nat) (d : Dev) : Dev :=
  d.mailbox 13 seq (fun d =>
    if 8 ≤ port then (some (3, []), d)
    else
      let (fec, d) := d.drawBytes 16
      let m := d.macPort port
      let cs := [m.rxFrames, m.rxBytes, m.fcsErr, m.runt, m.oversize, m.txFrames, m.txBytes, m.pauseTx, m.pfcTx]
      (some (0, le4 m.up.toNat ++ le4 (Config.portMode port) ++ fec ++ cs.flatMap (toLe 8)), d))

def rollbackSet (seq floor : Nat) (d : Dev) : Dev :=
  d.mailbox 12 seq (fun d =>
    let f := floor % 2 ^ 32
    let held := (d.reg Reg.CFG_ROLLBACK).toNat
    if f < held ∨ d.cfg.secVer < f then (some (5, le4 held), d)
    else (some (0, le4 f), d.setReg Reg.CFG_ROLLBACK (BitVec.ofNat 32 f)))

/-- LM_READ: the bytes are the module's; an absent module does not answer within the limit. -/
def lmRead (seq m len : Nat) (data : List Byte) (d : Dev) : Dev :=
  d.mailbox 6 seq (fun d =>
    if len = 0 ∨ 128 < len ∨ 8 ≤ m then (some (3, []), d)
    else if d.flag (Reg.LMD_MOD_STAT + 0x100 * m) 31 = false then (some (6, []), d)
    else (some (0, (List.range len).map (fun k => data.getD k 0)), d))

/-! ### POLICY_SET (R406) -/

/-- The policy after a request: none where a length or a field is not legal, and whether it would loosen the policy. -/
def Otp.tighten (o : Otp) (req : List Byte) : Option (Bool × Otp) :=
  let val := req.drop 4
  let alg := byteAt req 1
  match byteAt req 0 with
  | 1 =>
    if (alg = 1 ∧ val.length = 1312) ∨ (alg = 2 ∧ val.length = 1952) then some (o.opKey.isSome, { o with opKey := some (alg, val) }) else none
  | 2 => if val.length = 32 then some (!o.svcKey.isEmpty, { o with svcKey := val }) else none
  | 3 =>
    match val with
    | [b] => some (decide (b.toNat &&& o.profiles ≠ b.toNat), { o with profiles := b.toNat })
    | _ => none
  | 4 => some (false, { o with noCustom := true })
  | _ => none

def policySet (seq : Nat) (req : List Byte) (d : Dev) : Dev :=
  d.mailbox 14 seq (fun d =>
    match d.cfg.otp.tighten req with
    | none => (some (3, []), d)
    | some (true, _) => (some (5, d.cfg.otp.bytes), d)
    | some (false, o) => (some (0, o.bytes), { d with cfg := { d.cfg with otp := o } }))

/-! ### Firmware (R333, R371) -/

/-- FW_WRITE: a chunk of the copy that is not running; the copy verifies again only at its LAST chunk. -/
def fwWrite (seq copy ofs : Nat) (data : List Byte) (last : Bool) (d : Dev) : Dev :=
  d.mailbox 10 seq (fun d =>
    if 2 ≤ copy ∨ 32000 < data.length then (some (3, []), d)
    else if copy = fwCopy d ∧ d.flag Reg.TOP_STATUS 31 = false then (some (5, []), d)
    else
      let chunks := (ofs, data) :: d.fwChunks copy
      let ok := last && Config.fwSigOk chunks
      let d := { d with pwr := { d.pwr with fw := d.pwr.fw.set copy chunks, fwOk := d.pwr.fwOk.set copy ok } }
      (some (if last then mbxResult (!ok).toNat else 0, []), d))

/-- FW_SWITCH: the MC restarts on the other copy, if that copy verifies; the response is written after the restart. -/
def fwSwitch (seq : Nat) (d : Dev) : Dev :=
  d.mailbox 11 seq (fun d =>
    let other := 1 - fwCopy d
    if d.pwr.fwOk.getD other false = false then (some (mbxResult 1, []), d)
    else (none, { d with pwr := { d.pwr with fwTo := some other }, evt := { d.evt with mcDown := true } }))

/-- The command in progress is of the given opcode. -/
def Dev.mbxRuns (d : Dev) (op : Nat) : Bool := d.pci.mbx.busy.any (fun b => b.1 == op)

/-- MC_RESTART: the MC is up; events that waited are taken up, and FW_SWITCH is answered. -/
def mcRestart (d : Dev) : Dev :=
  if !d.evt.mcDown then d
  else
    let wait := d.evt.mcWait
    let d := match d.pwr.fwTo with | some c => d.setFld Reg.TOP_STATUS 30 30 c | none => d
    let d : Dev := { d with pwr := { d.pwr with fwTo := none }, evt := { d.evt with mcDown := false, mcWait := [] } }
    let d := (foldDev wait (fun s d => d.emit (.mcEvent s)) d).raise Src.MC_RESTART
    if d.mbxRuns 11 then d.mbxEnd 0 [] else d

/-! ### Commands that end later -/

/-- LOAD_REGION and SPRINT_REQ are answered once their result is final. -/
def Dev.mailPoll (d : Dev) : Dev :=
  if d.mbxRuns 3 && !d.cfgBusy then
    d.mbxEnd (mbxResult (d.fld Reg.CFG_STATUS 7 0)) (le4 (d.reg Reg.CFG_ERR_DETAIL).toNat)
  else if d.mbxRuns 7 && !d.pwr.sprintReq then d.mbxEnd (mbxResult (d.fld Reg.PWR_SPRINT_STAT 30 28)) []
  else d

/-- Limit of a command that may take long, in FCLK (Table 17.4). -/
def mbxLimit (op : Nat) : Nat := match op with | 3 => 1500000000 | 7 => 5000000 | _ => 150000000

/-- MAILBOX_COMMAND_TIMEOUT: the command's limit has passed. -/
def mailboxCommandTimeout (d : Dev) : Dev :=
  match d.pci.mbx.busy with
  | none => d
  | some (op, _, at_, _) =>
    d.atNow (at_ + mbxLimit op) fun d => d.mbxEnd 6 []

/-! ### Alarms (R114, R115, R396) -/

/-- The vault's keys are gone: slots, loads and import sessions; packets in the key-wait queues and in the herds are dropped. -/
def Dev.eraseKeys (d : Dev) : Dev :=
  let d := { d with vlt := { d.vlt with slots := [], loads := [], sessions := [] } }.dropHerds
  { d with egs := { d.egs with ports := d.egs.ports.map (fun p => (p.1, { p.2 with sel := p.2.sel.filter (fun f => !f.inHerd), fifo := p.2.fifo.filter (fun f => !f.inHerd) })) } }

/-- Frames on their way out, in the planes and before them are gone: no payload of before the alarm can be read (R131). -/
def Dev.dropFrames (d : Dev) : Dev :=
  { d with
    egs := { d.egs with
      ports := tabMap (fun _ => {}) (fun _ p => { p with sel := [], fifo := [], raw := [] }) d.egs.ports
      legs := tabMap (fun _ => {}) (fun _ l => { l with inFlight := 0 }) d.egs.legs }
    pkt := { d.pkt with planes := d.pkt.planes.map (fun p => { p with passes := [], waiting := [], fills := [] }) }
    mac := { d.mac with parked := [] }
    fwd := { d.fwd with rtcp := [], broods := tabMap (fun _ => {}) (fun _ b => { b with hold := [] }) d.fwd.broods } }

/-- TOP_MODE reads ZEROIZE: what was under way is given up, and every queue is flushed (R131). -/
def Dev.enterZeroize (d : Dev) : Dev :=
  let d := if d.cfgBusy then d.cfgEnd 15 0 else d
  let d : Dev := { d with pwr := { d.pwr with want := none, toRecovery := false, sprintReq := false }
                          mul := { d.mul with step := 0 }
                          regions := tabMap (fun _ => {}) (fun _ g => { g with scrubbing := false, auto := false, due := false }) d.regions }
  (d.sprintStop.setMode .zeroize).flushAll.dropFrames

/-- An alarm source trips. -/
def vaultAlarm (src : Nat) (d : Dev) : Dev :=
  if 8 ≤ src ∨ (src < 2 ∧ d.flag Reg.VLT_ALARM_EN src = false) then d
  else if d.vlt.erasing ∨ d.mode = .zeroize then d.setFlag Reg.VLT_ALARM_CAUSE src true
  else
    let d := d.setReg Reg.VLT_ALARM_CAUSE (BitVec.ofNat 32 (2 ^ src))
    let d := ({ d with vlt := { d.vlt with erasing := true } } : Dev).eraseKeys.setFlag Reg.VLT_STATUS 9 false
    let d := if d.mode = .reset then d else d.enterZeroize
    d.raise Src.VAULT_ALARM noDetail src

/-- ZEROIZE_ERASURE_DONE: the keys are erased and the mark is burnt. -/
def zeroizeErasureDone (d : Dev) : Dev :=
  if !d.vlt.erasing then d
  else
    let d : Dev := { d with vlt := { d.vlt with erasing := false } }
    let d := d.setFlag Reg.VLT_STATUS 8 true
    if d.epoch = 63 then d.setFlag Reg.VLT_STATUS 7 true else d

/-- PROVISION (R115). -/
def provision (seq : Nat) (d : Dev) : Dev :=
  d.mailbox 9 seq (fun d =>
    if d.vlt.erasing then (some (1, []), d)
    else if d.flag Reg.VLT_STATUS 8 = false then (some (0, le4 d.epoch ++ Config.kemPublic d.vlt.kem), d)
    else if d.flag Reg.VLT_STATUS 7 then (some (mbxResult 1, []), d)
    else
      let e := d.epoch + 1
      let d := ((d.setFld Reg.VLT_STATUS 5 0 e).setFlag Reg.VLT_STATUS 8 false).setFlag Reg.VLT_STATUS 9 true
      let d : Dev := { d with vlt := { d.vlt with kem := e } }
      let d := if 57 ≤ e then d.raise Src.EPOCH_LOW noDetail e else d
      (some (0, le4 e ++ Config.kemPublic e), d))

/-! ### Imports (R103 to R106, R371) -/

/-- ACLK cycles between two FCLK counts: ACLK is not disciplined, so the count is open within the 10 % of 200 MHz that the monitor
tolerates (R106, Table 5.7). -/
def aclkBetween (a b : Nat) : Nat := ceilDiv ((b - a) * 180) 1500 + Config.aclkSlip a b % ((b - a) * 40 / 1500 + 1)

/-- A failed import authentication: counted over the last 200,000,000 ACLK cycles; the 32nd is an alarm (R106). -/
def Dev.importFail (d : Dev) : Dev :=
  let fails := d.vlt.fails.filter (fun t => decide (aclkBetween t d.now < 200000000)) ++ [d.now]
  let d := (({ d with vlt := { d.vlt with fails := fails } } : Dev).vltCount 7 1).raiseOnce Src.IMPORT_AUTH_FAIL
  if 32 ≤ fails.length then vaultAlarm 7 d else d

/-- Digest of the key-service key the policy names: the OTP's, or else VAULT_POLICY's. -/
def Dev.svcKey (d : Dev) : List Byte := if d.cfg.otp.svcKey.isEmpty then slice d.vlt.policy 4 32 else d.cfg.otp.svcKey

def Dev.sigRequired (d : Dev) : Bool :=
  !d.cfg.otp.svcKey.isEmpty || !allZero (slice d.vlt.policy 4 32) || (byteAt d.vlt.policy 1).testBit 0

def importMagic : List Byte := [0x4F, 0x44, 0x54, 0x55, 0x4D, 0x2D, 0x49, 0x4D, 0x50, 0x4F, 0x52, 0x54, 0x2D, 0x31]

/-- OPEN. -/
def importOpen (seq : Nat) (ct sig : List Byte) (d : Dev) : Dev :=
  d.mailbox 5 seq (fun d =>
    if ct.length ≠ 1088 then (some (3, []), d)
    else if d.sigRequired && (sig.length != 3309 || !Config.serviceSigOk d.svcKey ct sig) then (some (5, []), d.importFail)
    else
      match freeKey d.vlt.sessions 16 with
      | none => (some (mbxResult 1, []), d)
      | some n =>
        let key := Config.sha3 (importMagic ++ Config.kemDecap d.vlt.kem ct ++ Config.sha3 ct)
        let s : Session := { opened := d.tim.dt, key := key }
        (some (0, le4 n), { d with vlt := { d.vlt with sessions := recSet d.vlt.sessions n s } }))

/-- The fields of a key record that is imported (Table 5.5, R101, R117). -/
def Dev.recordOk (d : Dev) (r : List Byte) : Bool :=
  let p := byteAt r 2
  let fromImage := if d.vlt.policy.isEmpty then 15 else byteAt d.vlt.policy 0
  decide (1 ≤ p) && decide (p ≤ 4) && (d.cfg.otp.profiles &&& fromImage).testBit (p - 1) && decide (byteAt r 3 < 4) &&
  decide (le16 r 4 < 16384) && allZero (slice r 6 2) && (p == 2 || allZero (slice r 24 16)) &&
  (3 ≤ p || allZero (slice r 52 2)) && allZero (slice r 54 10)

/-- One record of a WRAP: its result. -/
def Dev.wrapRecord (d : Dev) (key r : List Byte) : Byte × Dev :=
  match Config.kwUnwrap key r with
  | none => (1, d.importFail)
  | some rec =>
    if !d.recordOk rec then (2, d)
    else
      let h := le16 rec 0
      let gen := (d.handleGen h + 1) % 256
      let (nonce, d) := d.drawBytes 12
      (0, d.replaceHandle h (blobBytes d.epoch gen rec nonce) gen)

/-- The records in order; an alarm on the way ends the rest unopened. -/
def Dev.wrapAll (d : Dev) (key : List Byte) : List (List Byte) → List Byte × Dev
  | [] => ([], d)
  | r :: rs =>
    let (b, d) := if d.vlt.erasing then ((1 : Byte), d) else d.wrapRecord key r
    let (bs, d) := d.wrapAll key rs
    (b :: bs, d)

/-- WRAP. -/
def importWrap (seq session : Nat) (recs : List (List Byte)) (d : Dev) : Dev :=
  d.mailbox 5 seq (fun d =>
    if recs.isEmpty || decide (64 < recs.length) || recs.any (fun r => r.length != 72) then (some (3, []), d)
    else
      match tabFind d.vlt.sessions session with
      | none => (some (mbxResult 1, []), d)
      | some s => let (bs, d) := d.wrapAll s.key recs; (some (0, bs), d))

def Dev.closeSession (d : Dev) (n : Nat) : Dev := { d with vlt := { d.vlt with sessions := tabErase d.vlt.sessions n } }

/-- CLOSE. -/
def importClose (seq session : Nat) (d : Dev) : Dev :=
  d.mailbox 5 seq (fun d =>
    if (tabFind d.vlt.sessions session).isNone then (some (mbxResult 1, []), d) else (some (0, []), d.closeSession session))

def Dev.sessionLife (d : Dev) : Nat := let m := le16 d.vlt.policy 2; if m = 0 then 1440 else m

/-- IMPORT_SESSION_EXPIRY. -/
def importSessionExpiry (session : Nat) (d : Dev) : Dev :=
  match tabFind d.vlt.sessions session with
  | none => d
  | some s =>
    d.atDt (s.opened + d.sessionLife * 60000000000 * nsUnit) fun d => d.closeSession session

/-- A handle's blob; zero where nothing has been sealed. -/
def Dev.blob (d : Dev) (h : Nat) : List Byte := (tabFind d.vlt.blobs h).getD (List.replicate 128 0)

/-- BLOB_GET. -/
def blobGet (seq first count : Nat) (d : Dev) : Dev :=
  d.mailbox 5 seq (fun d =>
    if count = 0 ∨ 255 < count ∨ 65536 < first + count then (some (3, []), d)
    else (some (0, (List.range count).flatMap (fun k => d.blob (first + k))), d))

/-- What is wrong with a blob that is put back at a handle: 0 nothing, 3 BAD_TAG, 4 BAD_EPOCH. -/
def Dev.blobCheck (d : Dev) (h : Nat) (b : List Byte) : Nat :=
  if byteAt b 3 ≠ d.epoch ∨ d.flag Reg.VLT_STATUS 8 then 4
  else if le16 b 0 ≠ 0x5642 ∨ byteAt b 2 ≠ 1 ∨ le16 b 4 ≠ h ∨
      (Config.gcmOpen (Config.storageKey d.epoch) (slice b 12 12) (slice b 0 24) (slice b 24 64) (slice b 88 16)).isNone then 3
  else 0

/-- BLOB_PUT. -/
def blobPut (seq first count : Nat) (blobs : List (List Byte)) (d : Dev) : Dev :=
  d.mailbox 5 seq (fun d =>
    if count = 0 ∨ 253 < count ∨ 65536 < first + count ∨ blobs.length ≠ count ∨ blobs.any (fun b => b.length != 128) = true then (some (3, []), d)
    else
      let res := blobs.zipIdx.map (fun x => (d.blobCheck (first + x.2) x.1, x.1, first + x.2))
      let d := foldDev (res.filter (fun r => r.1 == 0)) (fun r d => d.replaceHandle r.2.2 r.2.1 (byteAt r.2.1 6)) d
      (some (0, res.map (fun r => BitVec.ofNat 8 r.1)), d))

/-! ### ATTEST (R116) -/

/-- Bytes 0 to 343 of the report. -/
def Dev.report (d : Dev) (nonce : List Byte) : List Byte :=
  le4 0x41545354 ++ toLe 2 1 ++ [BitVec.ofNat 8 d.epoch, BitVec.ofNat 8 d.mode.code] ++ toLe 8 d.beat ++ nonce ++ Config.romDigest ++
  Config.fwDigest (d.fwChunks (fwCopy d)) ++
  (List.range 6).flatMap (fun n => let h := (d.regionOf n).sec.hash; if h.isEmpty then List.replicate 32 0 else h) ++
  Config.sha3 d.vlt.policy ++ le4 d.cfg.secVer ++ toLe 4 0

def attest (seq : Nat) (nonce : List Byte) (d : Dev) : Dev :=
  d.mailbox 4 seq (fun d =>
    if nonce.length ≠ 32 then (some (3, []), d)
    else
      let r := d.report nonce
      (some (0, r ++ Config.identitySign (Config.sha3 r)), d))

end Sys2Proof.Machine
end

