-- ==== Sys2Proof/Machine/Pins.lean ====
section
/-! DEFINITION. Line modules and their wear records (R354 to R359, R400), links of ports, reference clocks (R390), and reset, boot and
the rails (R333, R335, R345, R387, R392 to R397). -/

namespace Sys2Proof.Machine
open Sys2Proof

/-! ### Ports (R276) -/

def portLinkUp (p : Nat) (d : Dev) : Dev :=
  if 8 ≤ p ∨ d.mode = .reset then d else d.setMacPort p { d.macPort p with up := true }

def portLinkDown (p : Nat) (d : Dev) : Dev :=
  if 8 ≤ p ∨ !(d.macPort p).up then d
  else (d.setMacPort p { d.macPort p with up := false }).raise (Src.PORT_LINK_DOWN + p) p

/-- Every frame in flight on a port is dropped. -/
def Dev.dropInFlight (d : Dev) (p : Nat) : Dev :=
  let fs := (d.egPort p).fifo ++ (d.egPort p).sel
  let d := d.setEgPort p { d.egPort p with sel := [] }
  foldDev fs (fun f d => d.frameGone p f) d

/-! ### Module registers (Table 16.10) -/

def modStat (m : Nat) : Nat := Reg.LMD_MOD_STAT + 0x100 * m
def modCtrl (m : Nat) : Nat := Reg.LMD_MOD_CTRL + 0x100 * m

def Dev.modFlag (d : Dev) (m i : Nat) (b : Bool) : Dev := d.setFlag (modStat m) i b
def Dev.modPresent (d : Dev) (m : Nat) : Bool := d.flag (modStat m) 31
def Dev.drainedMod (d : Dev) (m : Nat) : Bool := d.flag (modStat m) 28

/-- DT's seconds. -/
def Dev.dtSec (d : Dev) : Nat := clkSec d.tim.dt

def Dev.setWear (d : Dev) (k : Nat) (w : Wear) : Dev := { d with lmd := { d.lmd with recs := recSet d.lmd.recs k w } }

/-! ### Insertion and removal (R354, R355) -/

/-- LM_PRESENT_FALL. -/
def lmPresentFall (m : Nat) (d : Dev) : Dev :=
  if 8 ≤ m ∨ d.mode = .reset then d
  else
    let d := (d.modFlag m 31 true).setFlag Reg.LMD_STATUS (8 + m) true
    { d with lmd := { d.lmd with fell := recSet d.lmd.fell m d.now } }

/-- The record a module takes: its own, a free one, or the one least recently seen of those whose module is away. -/
def Dev.wearSlot (d : Dev) (key : List Byte) : Nat :=
  match d.lmd.recs.find? (fun r => r.2.key == key) with
  | some r => r.1
  | none =>
    match freeKey d.lmd.recs 128 with
    | some k => k
    | none =>
      let held := (tabKeys d.lmd.hourAt).map (fun m => d.fld (modStat m) 6 0)
      match (d.lmd.recs.filter (fun r => !held.contains r.1)).foldl (fun (a : Option (Nat × Nat)) r =>
          match a with
          | none => some (r.1, r.2.lastSeen)
          | some b => if r.2.lastSeen < b.2 then some (r.1, r.2.lastSeen) else some b) none with
      | some b => b.1
      | none => 0

/-- LM_INSERT_DELAY: identification, the wear record, ModuleReady. A module that cannot be read stays as it is and is tried again. -/
def lmInsertDelay (m : Nat) (id : ModuleId) (d : Dev) : Dev :=
  match tabFind d.lmd.fell m with
  | none => d
  | some t =>
    d.atNow (t + 3000000000) fun d =>
      if !id.ok then d
      else
      let key := id.vendor ++ id.serial
      let k := d.wearSlot key
      let own := ((tabFind d.lmd.recs k).filter (fun w => w.key == key)).getD { key := key }
      let d := d.setWear k { own with lastPort := m, lastSeen := d.dtSec, serial := id.serial }
      let d := { d with lmd := { d.lmd with fell := tabErase d.lmd.fell m, hourAt := recSet d.lmd.hourAt m d.now } }
      let d := ((d.setFld (modStat m) 6 0 k).modFlag m 30 id.suits).modFlag m 29 (!id.suits)
      let d := (d.setFld (modStat m) 27 24 (if id.suits then 3 else id.cmis)).setFlag Reg.LMD_STATUS (16 + m) own.eol
      d.raise Src.LM_INSERTED m

/-- LM_PRESENT_RISE: without a drain, what is in flight on the port is dropped (R357). -/
def lmPresentRise (m : Nat) (d : Dev) : Dev :=
  if 8 ≤ m ∨ d.mode = .reset ∨ d.modPresent m = false then d
  else
    let drained := d.drainedMod m
    let d := portLinkDown m d
    let d := if drained then d else d.dropInFlight m
    let d := { d with lmd := { d.lmd with fell := tabErase d.lmd.fell m, hourAt := tabErase d.lmd.hourAt m } }
    let d := (d.setReg (modStat m) 0).modFlag m 28 drained
    (((d.setFlag Reg.LMD_STATUS (16 + m) false).setFlag Reg.LMD_STATUS (8 + m) false).setFlag Reg.LMD_STATUS m false).raise Src.LM_REMOVED m

/-! ### Monitors -/

/-- A module's monitors as read. -/
def Dev.readMonitor (d : Dev) (m : Nat) (mon : ModuleMon) : Dev :=
  if (tabFind d.lmd.hourAt m).isNone then d
  else
    let d := ((d.setFld (modStat m) 15 8 (toField 8 mon.temp)).setFld (modStat m) 27 24 mon.cmis)
    let was := d.flag Reg.LMD_STATUS m
    let d := d.setFlag Reg.LMD_STATUS m mon.alarm
    if mon.alarm && !was then d.raise Src.LM_ALARM m else d

/-- LM_POLL. -/
def lmPoll (m : Nat) (mon : ModuleMon) (d : Dev) : Dev := d.readMonitor m mon

/-- LM_INT: every module is read, the n-th reading being module n's. -/
def lmInt (mons : List ModuleMon) (d : Dev) : Dev := foldDev (mons.zipIdx.take 8) (fun x d => d.readMonitor x.2 x.1) d

/-! ### Wear (R355, R356) -/

/-- The trend of a lane, in percent of its baseline: 100 until the baseline is set. -/
def laneTrend (w : Wear) (lane : Nat) : Rat :=
  let base := w.baseSum.getD lane 0
  let n := w.hours.length
  if w.baseHours < 100 ∨ base = 0 ∨ n = 0 then 100
  else (((w.hours.map (fun h => h.getD lane 0)).sum * 100 * 100 : Nat) : Rat) / ((base * n : Nat) : Rat)

/-- One hour goes into a record. -/
def Wear.hour (w : Wear) (h : WearHour) (m now : Nat) : Wear :=
  let more := h.laser && decide (w.baseHours < 100)
  let w := { w with
    lastPort := m, lastSeen := now
    laserHours := min (2 ^ 20 - 1) (w.laserHours + h.laser.toNat)
    excHours := min 65535 (w.excHours + h.hot.toNat), excursions := min 65535 (w.excursions + h.rises)
    maxTemp := max w.maxTemp h.maxTemp
    hours := if h.laser then (h.bias :: w.hours).take 720 else w.hours
    baseHours := w.baseHours + more.toNat
    baseSum := if more then (List.range (max w.baseSum.length h.bias.length)).map (fun i => w.baseSum.getD i 0 + h.bias.getD i 0) else w.baseSum }
  { w with trend := min 65535 (((List.range w.baseSum.length).map (laneTrend w)).foldl (fun a t => max a (roundOpen t).toNat) 0) }

/-- WEAR_RECORD_UPDATE. -/
def wearRecordUpdate (m : Nat) (h : WearHour) (d : Dev) : Dev :=
  match tabFind d.lmd.hourAt m with
  | none => d
  | some t =>
    d.atNow (t + 5400000000000) fun d =>
      let k := d.fld (modStat m) 6 0
      match tabFind d.lmd.recs k with
      | none => d
      | some w =>
      let w' := w.hour h m d.dtSec
      let limit : Rat := ((100 + d.fld Reg.LMD_CFG 23 16 : Nat) : Rat)
      let excess := (List.range w'.baseSum.length).any (fun i => decide (limit ≤ laneTrend w' i))
      let d := { d with lmd := { d.lmd with hourAt := recSet d.lmd.hourAt m d.now } }
      let d := d.setWear k { w' with eol := w.eol || excess }
      if excess && !w.eol then (d.setFlag Reg.LMD_STATUS (16 + m) true).raise Src.LM_END_OF_LIFE m else d

/-- A record's entry (Table 16.9). -/
def wearEntry (w : Wear) : Entry :=
  let s := (w.serial ++ List.replicate 16 0).take 16
  { d0 := BitVec.ofNat 32 (le32 s 0), d1 := BitVec.ofNat 32 (le32 s 4), d2 := BitVec.ofNat 32 (le32 s 8), d3 := BitVec.ofNat 32 (le32 s 12)
    d4 := BitVec.ofNat 32 (2 ^ 31 + w.eol.toNat * 2 ^ 30 + w.lastPort * 2 ^ 27 + w.laserHours)
    d5 := BitVec.ofNat 32 (w.trend * 65536 + w.excHours)
    d6 := BitVec.ofNat 32 (w.excursions * 65536 + toField 8 w.maxTemp)
    d7 := BitVec.ofNat 32 w.lastSeen }

/-- LMD_TAB_READ. -/
def lmdTabRead (v : Word) (d : Dev) : Dev :=
  tabReadOp Reg.LMD_TAB_CMD Reg.LMD_TAB_ADDR Reg.LMD_TAB_DATA 8 6 (pastEnd fun t => if t = 0 then 128 else 0)
    (fun d _ i => match tabFind d.lmd.recs i with | some w => wearEntry w | none => {}) 5 v d

/-! ### LMD_MOD_CTRL (R357, R386) -/

/-- A write of LMD_MOD_CTRL[m]: DRAIN stops the port and puts the module in low power, its end brings the module back; RESET drives
the module's select and reset low. -/
def modCtrlWrite (m : Nat) (v : Word) (d : Dev) : Dev :=
  if 8 ≤ m then d
  else
    let was := d.flag (modCtrl m) 31
    let d := d.setFlag (modCtrl m) 31 (bit v 31)
    let d := if bit v 31 && !was then
        (((d.setFlag (Reg.EGS_PORT_CFG + portOfs m) 31 false).modFlag m 28 true).modFlag m 30 false).setFld (modStat m) 27 24
          (if d.modPresent m then 1 else 0)
      else if was && !bit v 31 then
        let d := d.modFlag m 28 false
        if d.modPresent m && !d.flag (modStat m) 29 then (d.modFlag m 30 true).setFld (modStat m) 27 24 3 else d
      else d
    if bit v 30 then (d.emit (.pin (8 + m) 0)).emit (.pin (8 + m) 1) else d

def lmdDrain (m : Nat) (v : Word) (d : Dev) : Dev := modCtrlWrite m (v ||| 0x80000000) d
def lmdModReset (m : Nat) (v : Word) (d : Dev) : Dev := modCtrlWrite m (v ||| 0x40000000) d

/-- LM_BUS_STUCK (R400): nine clocks free the bus, and it is used again. -/
def lmBusStuck (bus : Nat) (d : Dev) : Dev := if 4 ≤ bus ∨ d.mode = .reset then d else d.emit (.pin (16 + bus) 9)

/-! ### Reference clocks (R390) -/

/-- A reference stops. SYNTON and PPS_IN samples then simply do not come; the integral term stays. -/
def referenceClockLost (r : RefClk) (d : Dev) : Dev :=
  if d.mode = .reset then d
  else
    match r with
    | .eth n => if n < 2 then foldDev (List.range 4) (fun k d => portLinkDown (4 * n + k) d) d else d
    | .mule => foldDev (List.range 4) (fun k d => muleLinkDown k d) d
    | .pcie => pcieLinkDown d
    | .tap => foldDev (List.range 6) (fun k d => tapLaneDown k d) d
    | .freqIn => d
    | .ppsIn => d

/-! ### Reset and boot -/

/-- RESET_N_ASSERT: a low of at least 1 µs resets the chip, one of at most 0.5 µs does not, and between them either may happen. -/
def resetNAssert (lowNs : Nat) (d : Dev) : Dev :=
  if lowNs ≤ 500 then d
  else if 1000 ≤ lowNs then d.chipReset causePin
  else
    let (r, d) := d.drawBelow 2
    if r = 0 then d else d.chipReset causePin

/-- RESET_RELEASE: with the rails good and SYS_REFCLK present the straps are sampled and the device enters BOOT. -/
def resetRelease (cascId pri : Nat) (d : Dev) : Dev :=
  if d.mode ≠ .reset ∨ d.pwr.waitRails ∨ d.pwr.waitClk then d
  else ((d.setFld Reg.MUL_STATUS 31 29 cascId).setFld Reg.MUL_ROOSTER 2 0 pri).setMode .boot

/-- BOOT_FW_VERIFIED: the ROM's checks of the copies; the MC starts on the first that verifies. -/
def bootFwVerified (aOk bOk : Bool) (d : Dev) : Dev :=
  if d.mode ≠ .boot ∨ d.flag Reg.TOP_STATUS 31 = true then d
  else
    let a := aOk && d.pwr.fwOk.getD 0 true
    let b := bOk && d.pwr.fwOk.getD 1 true
    let d := { d with pwr := { d.pwr with fwOk := [a, b] } }
    if !a && !b then d.setFlag Reg.TOP_STATUS 31 true
    else
      let d := if a then d else (d.setFlag Reg.TOP_STATUS 30 true).raise Src.BOOT_FALLBACK
      if d.vlt.erasing ∨ d.flag Reg.VLT_STATUS 8 = true then d.setMode .zeroize else d.setMode .configure

/-- CHIP_FAULT_RESET_TIMER: 600 beats after CHIP_FAULT, the reset not cancelled (R352). -/
def chipFaultResetTimer (d : Dev) : Dev :=
  match d.pwr.fault with
  | some b => if b + 600 ≤ d.beat then d.chipReset causeMc else d
  | none => d

/-- BROWN_OUT: of VDD_AUX (rail 3) it resets the always-on domain as well. -/
def brownOut (rail : Nat) (d : Dev) : Dev :=
  if 8 ≤ rail then d
  else
    let d := d.raise Src.BROWN_OUT rail
    let d := if rail = 3 then d.auxReset else d.chipReset causeBrown
    { d with pwr := { d.pwr with waitRails := true } }

def railsGood (d : Dev) : Dev := { d with pwr := { d.pwr with waitRails := false } }

/-- AUX_POWER_ON: VDD_AUX rises, the first rail of the power-up. -/
def auxPowerOn (d : Dev) : Dev :=
  let d := d.auxReset
  { d with pwr := { d.pwr with waitRails := true } }

def sysRefclkLost (d : Dev) : Dev :=
  let d := d.chipReset causeClk
  { d with pwr := { d.pwr with waitClk := true } }

def refclkReturn (d : Dev) : Dev := { d with pwr := { d.pwr with waitClk := false } }

end Sys2Proof.Machine
end

