-- ==== Sys2Proof/Machine/Registers.lean ====
section
/-! DEFINITION. Register accesses (R6 to R11): what every register reads, the halves of 64-bit quantities, read-to-clear counters,
and writes of registers that have no row of their own. -/

namespace Sys2Proof.Machine
open Sys2Proof

/-! ### Registers that show the state of a unit -/

def bitsOf (l : List Nat) : Nat := (l.map (2 ^ ·)).foldl (· ||| ·) 0

/-- TIM_STATUS: CAPTURED is stored; SOURCE, SLEWING (|e| above 250 ps), APART and the clocks' states. -/
def Dev.timStatus (d : Dev) : Nat :=
  (d.reg Reg.TIM_STATUS).toNat / 2 ^ 31 * 2 ^ 31 + d.tim.source * 2 ^ 30 +
  (if d.mode.live && decide (nsUnit / 4 < d.dtErr.natAbs) then 2 ^ 29 else 0) + d.tim.apart.toNat * 2 ^ 28 +
  ((List.range 6).map (fun k => (d.dom k).st * 2 ^ (3 * k))).sum

/-- TIM_BEAT_STAT (Table 1.7): SLEWING of the offset or of DT, RELOADED (stored), SOURCE, LOCKED. -/
def Dev.beatStat (d : Dev) : Nat :=
  (d.ofsSlewing || d.slewing).toNat * 8 + d.fld Reg.TIM_BEAT_STAT 2 2 * 4 + d.tim.source * 2 + d.locked.toNat

/-- TIM_DOM_STAT: STATE, JUMP_REFUSED (stored), ACTIVE. -/
def Dev.domStat (d : Dev) (k : Nat) : Nat :=
  (d.dom k).st * 2 ^ 29 + d.fld (Reg.TIM_DOM_STAT + domOfs k) 28 28 * 2 ^ 28 + (if k = d.active then 2 ^ 27 else 0)

def Dev.cellsOut (d : Dev) (n : Nat) : Nat :=
  ((regionCells n).filter (fun c => cellType c == 0 && (d.cell c).out)).length

def Dev.groupsHigh (d : Dev) (k : Nat) : Nat := bitsOf ((d.que.high.filter (fun g => g / 32 == k)).map (· % 32))
def Dev.vecWord (d : Dev) (k : Nat) : Nat := bitsOf ((d.vecPending.filter (fun v => v / 32 == k)).map (· % 32))

/-- What a register whose content is a view reads, by the base of its family and the offset from it; none: the stored word. -/
def Dev.viewOf (d : Dev) (base k : Nat) : Option Nat :=
  let n := k / 0x40000
  let cell := k % 0x40000 / 0x1000
  if base = Reg.CFG_REGION_STAT then
    if 8 ≤ k then some ((d.reg (base + k)).toNat / 32 * 32 + d.cellsOut (k / 4)) else none
  else if base = Reg.TSK_STATUS then some d.liveEntries
  else if base = Reg.TSK_MS_FILL then some d.tsk.slots.length
  else if base = Reg.PRS_STATUS then some (d.reorderUsed n)
  else if base = Reg.MAT_EPOCH_INFLIGHT then some (min 65535 (d.inFlight (d.fld Reg.MAT_EPOCH 7 4)))
  else if base = Reg.VLT_STATUS then some (d.vlt.sessions.length * 65536 + (d.reg base).toNat % 65536)
  else if base = Reg.VLT_PEN_FILL then some d.penFill.toNat
  else if base = Reg.VLT_KW_FILL then some d.kwFill
  else if base = Reg.CIP_STATUS then some (d.cipStatus n)
  else if base = Reg.CIP_PROGS then some (d.cipProgs n)
  else if base = Reg.QUE_STATUS then
    some ((decide (d.mode ≠ .reset ∧ d.mode ≠ .boot)).toNat * 2 ^ 31 + (d.que.queues.filter (fun q => q.2.spilled)).length)
  else if base = Reg.QUE_BURST_FREE then some d.burstFree
  else if base = Reg.QUE_GRP_HIGH_LO then some (d.groupsHigh 0)
  else if base = Reg.QUE_GRP_HIGH_HI then some (d.groupsHigh 1)
  else if base = Reg.FWD_STATUS then some d.fwdStatus
  else if base = Reg.LEG_STATUS then some d.legStatus
  else if base = Reg.VDC_STATUS then some d.vdcStatus
  else if base = Reg.VDC_REGION_LOAD then some (d.vdcRegionLoad n)
  else if base = Reg.VDC_CELL_STAT then some (d.vdcCellStat n cell)
  else if base = Reg.CMP_STATUS then some d.cmpStatus
  else if base = Reg.CMP_REGION_LOAD then some (d.cmpRegionLoad n)
  else if base = Reg.CMP_CELL_STAT then some (d.cmpCellStat n cell)
  else if base = Reg.VEN_STATUS then some d.venStatus
  else if base = Reg.VEN_REGION_LOAD then some (d.venRegionLoad n)
  else if base = Reg.VEN_CELL_STAT then some (d.venCellStat n cell)
  else if base = Reg.AUD_STATUS then some d.audStatus
  else if base = Reg.AUD_REGION_LOAD then some (d.audRegionLoad n)
  else if base = Reg.AUD_REGION_MIX then some (d.audMixes n)
  else if base = Reg.AUD_CELL_STAT then some (d.audCellStat n cell)
  else if base = Reg.FLT_STATUS then some d.fltStatus
  else if base = Reg.FLT_CELL_STAT then some (d.fltCellStat n cell)
  else if base = Reg.TIM_STATUS then some d.timStatus
  else if base = Reg.TIM_BEAT_LO then some d.beat
  else if base = Reg.TIM_BEAT_HI then some (d.beat / 2 ^ 32)
  else if base = Reg.TIM_BEAT_STAT then some d.beatStat
  else if base = Reg.TIM_DOM_STAT then some (d.domStat (k / 0x100))
  else if base = Reg.TIM_DOM_ADJ then some (toField 32 (d.dom (k / 0x100)).adj)
  else if base = Reg.TIM_DOM_INTEG then let t := d.dom (k / 0x100); some (toField 32 (t.integWr.getD t.integ))
  else if base = Reg.GAT_STATE then let g := d.gatesNow (k / 0x100); some (g.1 * 65536 + g.2)
  else if base = Reg.EGS_STATUS then some d.egsStatus
  else if base = Reg.EGS_PORT_HOLD then some (d.portHold (k / 0x100))
  else if base = Reg.EGS_TXQ_FILL then some (d.txqFill (k / 0x100))
  else if base = Reg.PWR_SPRINT_STAT then some ((d.reg base).toNat / 2 ^ 28 * 2 ^ 28 + d.sprintWindow / 60)
  else if base = Reg.PWR_SPRINT_LIFE then some (d.pwr.burnt * 360)
  else if base = Reg.EVT_SUMMARY then some d.evtSummary
  else if base = Reg.EVT_REGION_SUM then some (d.regionSum (k / 4))
  else if base = Reg.EVT_VEC_PEND_LO then some (d.vecWord 0)
  else if base = Reg.EVT_VEC_PEND_HI then some (d.vecWord 1)
  else if base = Reg.TAP_STATUS then some d.tapStatus
  else none

/-- The word a register holds for a reader; 0 where no register lies (R8). -/
def Dev.readReg (d : Dev) (off : Nat) : Word :=
  match regDesc off with
  | none => 0
  | some r => match d.viewOf r.base (off - r.base) with
    | some v => BitVec.ofNat 32 v
    | none => d.reg off

/-! ### Halves (R11) -/

/-- Families of _LO halves; the _HI half of each follows it. -/
def loFamilies : List Nat :=
  [Reg.CFG_SRC_LO, Reg.TSK_POST_TAG_LO, Reg.TSK_POST_REF_LO, Reg.TSK_CNT_LO, Reg.TSK_HWAIT_TAG_LO, Reg.PRS_MAL_CNT_LO, Reg.PRS_LENC_CNT_LO,
   Reg.PRS_CNT_LO, Reg.MAT_CNT_LO, Reg.TRE_ROOT_LO, Reg.VLT_CNT_LO, Reg.CIP_CNT_LO, Reg.QUE_GRP_HIGH_LO, Reg.QUE_CNT_LO] ++
  [Reg.FWD_CNT_LO, Reg.LEG_CNT_LO, Reg.VDC_CNT_LO, Reg.CMP_CNT_LO, Reg.VEN_CNT_LO, Reg.AUD_CNT_LO, Reg.FLT_CNT_LO, Reg.TIM_BEAT_LO,
   Reg.TIM_CAP_SEC_LO, Reg.TIM_CNT_LO, Reg.TIM_DOM_OFS_LO, Reg.TIM_DOM_LAST_LO, Reg.GAT_BASE_SEC_LO, Reg.GAT_START_SEC_LO] ++
  [Reg.GAT_CNT_LO, Reg.EGS_CNT_LO, Reg.MEM_CNT_LO, Reg.MEM_CH_UE_ADDR_LO, Reg.MEM_CH_CNT_LO, Reg.MUL_SERIAL_LO, Reg.MUL_CNT_LO,
   Reg.PWR_CNT_LO, Reg.PCI_CNT_LO, Reg.RING_BASE_LO, Reg.EVT_VEC_PEND_LO, Reg.EVT_CNT_LO, Reg.TAP_CNT_LO, Reg.MSIX_ADDR_LO]

def isLo (off : Nat) : Bool :=
  match regDesc off with
  | some r => loFamilies.contains r.base
  | none => false

/-- A _HI half: the register after a _LO half. -/
def isHi (off : Nat) : Bool := decide (4 ≤ off) && isLo (off - 4)

/-- A read of a _HI half: the value latched on the path, or the live one where no _LO half has been read on it (R11; assumption 16). -/
def Dev.readHi (d : Dev) (p : Path) (off : Nat) : Word := (d.latched p).getD (d.readReg off)

/-- Fields of a register that a read clears. -/
def rcMask (fs : List RegField) : Nat := ((fs.filter (fun f => f.acc == .rc)).map (fun f => (2 ^ (f.hi + 1 - f.lo) - 1) * 2 ^ f.lo)).sum

/-- RC_READ (R6, R10): the value before the clock's increment; the register or pair is left holding that increment. -/
def rcRead (p : Path) (off inc : Nat) (d : Dev) : Dev :=
  match regDesc off with
  | none => d.emit (.readData 0)
  | some r =>
    let w := d.readReg off
    let m := rcMask r.fields
    if m = 0 then d.emit (.readData w)
    else if isLo off then (((d.latchHi p (d.reg (off + 4))).setReg64 off (off + 4) inc).emit (.readData w))
    else
      let kept := (d.reg off).toNat - ((d.reg off).toNat &&& m)
      (d.setReg off (BitVec.ofNat 32 (if m = 2 ^ 32 - 1 then inc else kept + (if inc = 0 then 0 else m)))).emit (.readData w)

/-- READ_LO_LATCH: the _LO half is returned and the _HI half latched for the path; of a _HI half, what the path has latched. A read of
TIM_BEAT_LO clears RELOADED. -/
def readLoLatch (p : Path) (off : Nat) (d : Dev) : Dev :=
  match regDesc off with
  | none => d.emit (.readData 0)
  | some r =>
    if !isLo off then d.emit (.readData (if isHi off then d.readHi p off else d.readReg off))
    else if rcMask r.fields ≠ 0 then rcRead p off 0 d
    else
      let d := (d.latchHi p (d.readReg (off + 4))).emit (.readData (if r.base = Reg.TIM_DOM_OFS_LO then 0 else d.readReg off))
      if off = Reg.TIM_BEAT_LO then d.setFlag Reg.TIM_BEAT_STAT 2 false else d

/-- WRITE_LO_HOLD. -/
def writeLoHold (p : Path) (off : Nat) (v : Word) (d : Dev) : Dev := if isLo off then d.hold p v else d

/-- TRE_CTRL's bits and roots of the shadow bank, the one the next epoch uses. -/
def Dev.shadowBank (d : Dev) : Nat := 1 - d.epochNow % 2

/-- Rule content of a bank is writable: the shadow bank's, once the epoch before the running one is RECLAIMED (R90). -/
def Dev.bankOpen (d : Dev) (b : Nat) : Bool := decide (b = d.shadowBank) && d.flag Reg.MAT_EPOCH 30

/-- WRITE_HI_COMMIT: both halves take their values in one clock; a commit of TSK_POST_TAG or TIM_DOM_OFS acts as R67 and R260 say, and
a tree root is written in a bank that is open alone. -/
def writeHiCommit (p : Path) (off : Nat) (v : Word) (d : Dev) : Dev :=
  let lo := off - 4
  if off < 4 ∨ isLo lo = false then d
  else
    let w := d.heldLo p
    if lo = Reg.TSK_POST_TAG_LO then tskPost p v d
    else
      let d := d.hold p 0
      let base := ((regDesc lo).map (·.base)).getD 0
      if base = Reg.TIM_DOM_OFS_LO then timDomSample ((lo - base) / 0x100) .host (signed 64 (w.toNat + 2 ^ 32 * v.toNat)) d
      else if base = Reg.TRE_ROOT_LO ∧ d.bankOpen ((lo - base) / 16) = false then d
      else (d.writeReg lo w).writeReg off v

/-! ### Writes with an effect of their own -/

/-- TIM_DOM_CFG: EN takes the clock out of OFF and back into it (Table 12.5). -/
def Dev.domCfgWrite (d : Dev) (k : Nat) (v : Word) : Dev :=
  let was := d.flag (Reg.TIM_DOM_CFG + domOfs k) 31
  let d := d.writeReg (Reg.TIM_DOM_CFG + domOfs k) v
  if bit v 31 = was then d
  else if bit v 31 then d.setDom k { d.dom k with st := 1, adj := 0, last := none, good := 0 }
  else (d.setDomState k 0).setDom k { (d.setDomState k 0).dom k with adj := 0, last := none, good := 0 }

/-- RING_CFG: a write while EN is 1 is ignored, except the write that clears EN. -/
def Dev.ringCfgWrite (d : Dev) (w : Nat) (v : Word) : Dev :=
  let off := Reg.RING_CFG + ringOfs w
  if d.flag off 31 && bit v 31 then d
  else
    let d := d.writeReg off v
    if bit v 31 then d
    else { d.setRing w {} with pci := { (d.setRing w {}).pci with inFlight := d.pci.inFlight.filter (fun x => x.ring != w) } }

/-- PCI_WIN_BASE: a base beyond the capacity is reserved. -/
def Dev.winBaseWrite (d : Dev) (v : Word) : Dev :=
  if bits v 8 0 = 0 ∨ bits v 8 0 * 256 < d.fld Reg.MEM_CAP 17 0 then d.writeReg Reg.PCI_WIN_BASE v else d

/-- TRE_CTRL: the enables of a bank that is open alone are writable. -/
def Dev.treCtrlWrite (d : Dev) (v : Word) : Dev :=
  let b := d.shadowBank
  if !d.bankOpen b then d else d.setFld Reg.TRE_CTRL (2 * b + 1) (2 * b) (bits v (2 * b + 1) (2 * b))

/-- Bits that start something and read 0, by the base of a register's family. -/
def startBits (base : Nat) : Word :=
  if base = Reg.TIM_CTRL ∨ base = Reg.TIM_DOM_CTRL ∨ base = Reg.MUL_CTRL ∨ base = Reg.PWR_SPRINT_CTRL ∨ base = Reg.MEM_CTRL then 0xE0000000
  else if base = Reg.GAT_CTRL then 0x60000000
  else if base = Reg.MAT_EPOCH then 0x80000000
  else if base = Reg.LMD_MOD_CTRL ∨ base = Reg.TSK_HWAIT_CTRL then 0x40000000
  else 0

/-- BAR4 follows BAR0 in the model's numbering of host accesses: MBX_CTRL. -/
def mbxCtrlOff : Nat := 2 ^ 32 + 0x40

/-- A host write of one register (R6, R7, R9). -/
def registerWrite (host dram : List Host.Cell) (p : Path) (off : Nat) (v : Word) (d : Dev) : Dev :=
  if off = mbxCtrlOff then (if p = .pcie then d.mbxCtrl v else d)
  else
    match regDesc off with
    | none => d
    | some r =>
      let k := off - r.base
      let b := r.base
      if isLo off then writeLoHold p off v d
      else if isHi off then writeHiCommit p off v d
      else if b = Reg.EVT_SRC_CFG then d.setRoute (k / 4) v
      else if b = Reg.EVT_STAT then evtStatWrite (k / 4) v 0 d
      else if b = Reg.CFG_CTRL then cfgCtrl host dram v d
      else if b = Reg.TOP_MODE_REQ then topModeReq v d
      else if b = Reg.MUL_CTRL then mulCtrl v d
      else if b = Reg.PWR_SPRINT_CTRL then sprintCtrl v d
      else if b = Reg.LMD_MOD_CTRL then modCtrlWrite (k / 0x100) v d
      else if b = Reg.TIM_CTRL then timCtrlWrite v d
      else if b = Reg.TIM_BEAT_OFFSET then timBeatOffsetWrite v d
      else if b = Reg.TIM_DOM_CFG then d.domCfgWrite (k / 0x100) v
      else if b = Reg.TIM_DOM_CTRL then timRestart (k / 0x100) v (timAcceptJump (k / 0x100) v d)
      else if b = Reg.TIM_DOM_INTEG then d.setDom (k / 0x100) { d.dom (k / 0x100) with integWr := some (signed 32 v.toNat) }
      else if b = Reg.TSK_HWAIT_CTRL then hwaitArm (k / 16) v d
      else if b = Reg.MEM_FSP then memFspWrite v d
      else if b = Reg.RING_TAIL then ringDoorbell (k / 0x40) (bits v 15 0) d
      else if b = Reg.TAP_CFG then tapCfgWrite v d
      else if b = Reg.RING_CFG then d.ringCfgWrite (k / 0x40) v
      else if b = Reg.PCI_WIN_BASE then d.winBaseWrite v
      else if b = Reg.TRE_CTRL then d.treCtrlWrite v
      else if b = Reg.PWR_CFG then pwrCfgWrite v d
      else if b = Reg.MSIX_CTRL then (if bit v 0 then d.writeReg off v else msixUnmask (k / 16) d)
      else d.writeReg off (v &&& ~~~(startBits b))

end Sys2Proof.Machine
end

