-- ==== Sys2Proof/Machine/Commands.lean ====
section
/-! DEFINITION. The meaning of every command: the unit's operation on the device, the work it hands on, the mailbox responses that
become final with it, and the writes it makes to host memory and to DRAM. -/

namespace Sys2Proof.Machine
open Sys2Proof

/-- Pieces of work one command may hand on; no chain is longer. -/
def drainFuel : Nat := 1000000000

/-- A device command and everything that follows from it in the same step. -/
def Dev.settle (f : Dev → Dev) (d : Dev) : Dev := (Dev.drain (f d) drainFuel).mailPoll

/-- Writes to a memory, in order. -/
def putAll (limit : Nat) (m : List Host.Cell) (ws : List (Nat × List Byte)) : List Host.Cell :=
  ws.foldl (fun m w => memPut limit m w.1 w.2) m

/-- Host memory is addressed by 64 bits; DRAM by the 36 bits of its 64 GiB. -/
def hostLimit : Nat := 2 ^ 64
def dramLimit : Nat := 2 ^ 36

/-- The device's writes of a step go to the memories; DRAM is not kept in RESET (R335). -/
def State.commit (s : State) (d : Dev) : State :=
  { s with hostMem := putAll hostLimit s.hostMem d.pci.writes
           dram := if d.mode = .reset then [] else putAll dramLimit s.dram d.pci.dramWrites
           dev := { d with pci := { d.pci with writes := [], dramWrites := [] } } }

/-- The next state of a command that does f to the device. -/
def onDev (f : Dev → Dev) (s : State) : Host.Outcome State Fault Refusal := .next (s.commit (s.dev.settle f))

/-- The same for a command before which the host has stored bytes in its own memory. -/
def onDevWith (hw : HostWrites) (f : State → Dev → Dev) (s : State) : Host.Outcome State Fault Refusal :=
  let t : State := { s with hostMem := hostPut s.hostMem hw }
  onDev (f t) t

/-- A tick, what a step does on an empty queue (assumption 2): one FCLK passes; where that FCLK is the first of a beat,
the beat boundary is the next command. -/
def tick (s : State) : State :=
  if s.dev.fclkToBoundary ≤ 1 then { s with pending := [.beatBoundary] }
  else { s with dev := s.dev.advance 1 }

/-- REGISTER_WRITE (R6): A host write to a register that has no row of its own sets or ignores its fields by their access codes and reserved-encoding rules. -/
def execRegisterWrite (p : Path) (off : Nat) (v : Word) (s : State) : Host.Outcome State Fault Refusal :=
  onDev (registerWrite s.hostMem s.dram p off v) s

/-- READ_LO_LATCH (R11): A read of the _LO half of a 64-bit quantity returns it and latches the simultaneous _HI half for the access path. -/
def execReadLoLatch (p : Path) (off : Nat) (s : State) : Host.Outcome State Fault Refusal :=
  onDev (readLoLatch p off) s

/-- WRITE_LO_HOLD (R11): A write of the _LO half is held for the path, replacing any earlier held value. -/
def execWriteLoHold (p : Path) (off : Nat) (v : Word) (s : State) : Host.Outcome State Fault Refusal :=
  onDev (writeLoHold p off v) s

/-- WRITE_HI_COMMIT (R11): A write of the _HI half commits both halves in one clock and clears the held low value. -/
def execWriteHiCommit (p : Path) (off : Nat) (v : Word) (s : State) : Host.Outcome State Fault Refusal :=
  onDev (writeHiCommit p off v) s

/-- RC_READ (R10): A read of an RC counter returns its value and clears it, keeping an increment that falls in the same clock. -/
def execRcRead (p : Path) (off : Nat) (inc : Nat) (s : State) : Host.Outcome State Fault Refusal :=
  onDev (rcRead p off inc) s

/-- BEAT_BOUNDARY (R266): DT crosses a beat boundary: the beat number advances and the per-beat work of the device begins. -/
def execBeatBoundary (s : State) : Host.Outcome State Fault Refusal :=
  onDev beatBoundary s

/-- CELL_YIELDED (R24): A cell reaches its safe point, saves its context and reports yielded, so the dispatcher can issue it the new beat's job. -/
def execCellYielded (cell : Nat) (s : State) : Host.Outcome State Fault Refusal :=
  onDev (cellYielded cell) s

/-- YIELD_GRACE_EXPIRY (R24): At 3,000 FCLK after the boundary every cell that has not yielded is stopped and reset and its task ended LATE. -/
def execYieldGraceExpiry (s : State) : Host.Outcome State Fault Refusal :=
  onDev yieldGraceExpiry s

/-- CELL_RESET_DONE (R24): A stopped cell becomes available for new jobs after its reset. -/
def execCellResetDone (code : Nat) (s : State) : Host.Outcome State Fault Refusal :=
  onDev (cellResetDone code) s

/-- JOB_RETIRE (R24): A job completes its task, the task terminates and its outputs are published. -/
def execJobRetire (cell : Nat) (res : JobResult) (s : State) : Host.Outcome State Fault Refusal :=
  onDev (jobRetire cell res) s

/-- JOB_ISSUE (R63): The dispatcher issues a job to an asking cell (or all cells of a gang) for the best ready or parked task. -/
def execJobIssue (cell : Nat) (s : State) : Host.Outcome State Fault Refusal :=
  onDev (jobIssue cell) s

/-- DEADLINE_SETTLE (R25): At the end of the grace after a task's deadline beat its unfinished work is settled under its kind's rule. -/
def execDeadlineSettle (task : Nat) (s : State) : Host.Outcome State Fault Refusal :=
  onDev (deadlineSettle task) s

/-- TASK_WAIT_LIMIT (R64): At beat release plus WAIT_LIMIT a WAITING task becomes READY with missing operands marked MISSING. -/
def execTaskWaitLimit (t : Nat) (s : State) : Host.Outcome State Fault Refusal :=
  onDev (taskWaitLimit t) s

/-- MS_SLOT_HOLD_EXPIRY (R57): A matching-store slot whose hold has passed and whose consumers are done is freed, counting UNCLAIMED if never consumed. -/
def execMsSlotHoldExpiry (k : Nat) (s : State) : Host.Outcome State Fault Refusal :=
  onDev (msSlotHoldExpiry k) s

/-- CELL_PARITY_ERROR (R13): A cell's parity or ECC error is retried, and a repeated failure escalates to the block. -/
def execCellParityError (cell : Nat) (again : Bool) (s : State) : Host.Outcome State Fault Refusal :=
  onDev (cellParityError cell again) s

/-- CACHE_UNCORRECTABLE_ERROR (R15): A block's shared cache reports an uncorrectable error, starting a region scrub. -/
def execCacheUncorrectableError (region : Nat) (block : Nat) (s : State) : Host.Outcome State Fault Refusal :=
  onDev (cacheUncorrectableError region block) s

/-- REGION_SCRUB_DONE (R15): A region scrub ends, escalating to a reload from the stored image if it could not correct or was the second within 10 s. -/
def execRegionScrubDone (region : Nat) (corrected : Bool) (s : State) : Host.Outcome State Fault Refusal :=
  onDev (regionScrubDone region corrected) s

/-- REGION_AUTO_RELOAD_DONE (R15): An automatic region reload ends its verification, rejoining or escalating after a second failure. -/
def execRegionAutoReloadDone (region : Nat) (verified : Bool) (bad : List Nat) (s : State) : Host.Outcome State Fault Refusal :=
  onDev (regionAutoReloadDone region verified bad) s

/-- CHIP_FAULT_RESET_TIMER (R352): 600 beats after CHIP_FAULT with CHIP_RESET_EN the MC resets the chip unless a RECOVERY request was accepted. -/
def execChipFaultResetTimer (s : State) : Host.Outcome State Fault Refusal :=
  onDev chipFaultResetTimer s

/-- TIM_BEAT_OFFSET_WRITE (R18): A write of TIM_BEAT_OFFSET takes effect at the next boundary or is slewed, and is ignored on a non-Rooster. -/
def execTimBeatOffsetWrite (_p : Path) (v : Word) (s : State) : Host.Outcome State Fault Refusal :=
  onDev (timBeatOffsetWrite v) s

/-- DT_LOAD (R264): In BOOT, CONFIGURE, TRAIN, TEST or RECOVERY DT is loaded from the active privileged member when their difference exceeds TIM_STEP_THRESH. -/
def execDtLoad (s : State) : Host.Outcome State Fault Refusal :=
  onDev dtLoad s

/-- CONFIGURE_LOAD (R36): CFG_CTRL command that runs checks 1 to 8 on all sections, applies the chip section and enters TRAIN. -/
def execConfigureLoad (_p : Path) (v : Word) (hw : HostWrites) (s : State) : Host.Outcome State Fault Refusal :=
  onDevWith hw (fun s => (cfgCtrl s.hostMem s.dram (v &&& 0x0FFFFFFF ||| 0x10000000))) s

/-- RELOAD_REGION (R41): CFG_CTRL command that starts an in-service reload of the named region with its CHECK step. -/
def execReloadRegion (_p : Path) (v : Word) (hw : HostWrites) (s : State) : Host.Outcome State Fault Refusal :=
  onDevWith hw (fun s => (cfgCtrl s.hostMem s.dram (v &&& 0x0FFFFFFF ||| 0x20000000))) s

/-- CANCEL (R45): CFG_CTRL command that ends a reload during CHECK or makes a draining region rejoin with its running image. -/
def execCancel (_p : Path) (v : Word) (s : State) : Host.Outcome State Fault Refusal :=
  onDev (cfgCtrl s.hostMem s.dram (v &&& 0x0FFFFFFF ||| 0x30000000)) s

/-- CHECK_ONLY (R40): CFG_CTRL command that runs the load checks on the named region and stops. -/
def execCheckOnly (_p : Path) (v : Word) (hw : HostWrites) (s : State) : Host.Outcome State Fault Refusal :=
  onDevWith hw (fun s => (cfgCtrl s.hostMem s.dram (v &&& 0x0FFFFFFF ||| 0x40000000))) s

/-- LOAD_REGION (R39): Mailbox command that performs a configuration command through the CFG registers. -/
def execLoadRegion (seq : Nat) (v : Word) (addr : Nat) (len : Nat) (hw : HostWrites) (s : State) : Host.Outcome State Fault Refusal :=
  onDevWith hw (fun s => (loadRegion s.hostMem s.dram seq v addr len)) s

/-- RELOAD_CHECK_DONE (R41): The checks of a reload complete and the region begins to DRAIN, TOP_MODE reading RELOAD. -/
def execReloadCheckDone (s : State) : Host.Outcome State Fault Refusal :=
  onDev reloadCheckDone s

/-- RELOAD_DRAIN_DONE (R41): The region's last task leaves it (or its plane's in-flight count reaches zero) and the RELOAD step begins. -/
def execReloadDrainDone (hw : HostWrites) (s : State) : Host.Outcome State Fault Refusal :=
  onDevWith hw (fun s => (reloadDrainDone (fun x => stagedBytes s.hostMem s.dram x.host x.addr x.len))) s

/-- RELOAD_DRAIN_LIMIT (R43): At the first boundary 200 ms after the drain began the remaining tasks are ended and counted in CFG_DRAIN_FORCED. -/
def execReloadDrainLimit (s : State) : Host.Outcome State Fault Refusal :=
  onDev reloadDrainLimit s

/-- PORT_STEER (R47): In a packet-region drain an ingress port switches to the other plane once its last reorder entry is released. -/
def execPortSteer (port : Nat) (s : State) : Host.Outcome State Fault Refusal :=
  onDev (portSteer port) s

/-- RELOAD_WRITE_DONE (R44): The section has been written into configuration memory and the pending stored image, and VERIFY begins. -/
def execReloadWriteDone (s : State) : Host.Outcome State Fault Refusal :=
  onDev reloadWriteDone s

/-- RELOAD_VERIFY_DONE (R44): The readback hash is compared with the manifest entry; on failure the region falls back to its stored image. -/
def execReloadVerifyDone (storedOk : Bool) (s : State) : Host.Outcome State Fault Refusal :=
  onDev (reloadVerifyDone storedOk) s

/-- RELOAD_REJOIN_DONE (R41): After the built-in check the pending image becomes stored and the region is offered to the dispatcher. -/
def execReloadRejoinDone (bad : List Nat) (s : State) : Host.Outcome State Fault Refusal :=
  onDev (reloadRejoinDone bad) s

/-- TRAIN_DONE (R301): DRAM and SerDes training ends, TRAINED is set or not, and check 9 runs before the region sections. -/
def execTrainDone (chans : List TrainChan) (s : State) : Host.Outcome State Fault Refusal :=
  onDev (trainDone chans) s

/-- CONFIGURE_SECTIONS_DONE (R38): The region sections are loaded and copied to the stored-image area and CFG_STATUS reads OK. -/
def execConfigureSectionsDone (s : State) : Host.Outcome State Fault Refusal :=
  onDev configureSectionsDone s

/-- TSK_TAB_READ (R72): Table access READ of a flock, template, task or slot entry through TSK_TAB_CMD. -/
def execTskTabRead (_p : Path) (v : Word) (s : State) : Host.Outcome State Fault Refusal :=
  onDev (tskTabRead v) s

/-- TSK_TAB_WRITE (R71): Table access WRITE of a flock dispatcher entry, including phase slots and clearing VALID. -/
def execTskTabWrite (_p : Path) (v : Word) (s : State) : Host.Outcome State Fault Refusal :=
  onDev (tskTabWrite v) s

/-- TSK_ABORT (R69): A write of a task handle to TSK_ABORT starts an abort judged by the task's state. -/
def execTskAbort (_p : Path) (v : Word) (s : State) : Host.Outcome State Fault Refusal :=
  onDev (tskAbort v) s

/-- ABORT_RESOLVED (R69): An abort reaches its outcome, TSK_ABORT_RESULT.DONE is set and ABORT_DONE raised. -/
def execAbortResolved (s : State) : Host.Outcome State Fault Refusal :=
  onDev abortResolved s

/-- ABORT_STOP_TIMEOUT (R69): An aborted cell not stopped within 3,000 FCLK is reset and CELL_OVERRUN raised, the task staying ABORTED. -/
def execAbortStopTimeout (s : State) : Host.Outcome State Fault Refusal :=
  onDev abortStopTimeout s

/-- TSK_POST (R67): The commit of TSK_POST_TAG_HI posts a HOST operand with the latest committed reference. -/
def execTskPost (p : Path) (v : Word) (s : State) : Host.Outcome State Fault Refusal :=
  onDev (tskPost p v) s

/-- HWAIT_ARM (R66): A write arming a host wait on a tag or task handle, or clearing ARM of a live wait. -/
def execHwaitArm (_p : Path) (n : Nat) (v : Word) (s : State) : Host.Outcome State Fault Refusal :=
  onDev (hwaitArm n v) s

/-- HWAIT_CANCEL (R66): A write of CANCEL ends a host wait CANCELLED and raises HWAIT_DONE. -/
def execHwaitCancel (_p : Path) (n : Nat) (v : Word) (s : State) : Host.Outcome State Fault Refusal :=
  onDev (hwaitCancel n (v ||| 0x40000000)) s

/-- HWAIT_TIMEOUT (R66): A host wait whose limit passes ends TIMEOUT and raises HWAIT_DONE. -/
def execHwaitTimeout (n : Nat) (s : State) : Host.Outcome State Fault Refusal :=
  onDev (hwaitTimeout n) s

/-- STALL_TIMEOUT (R68): A stalled empty-queue read reaches TSK_STALL_TIMEOUT and returns TIMEOUT. -/
def execStallTimeout (s : State) : Host.Outcome State Fault Refusal :=
  onDev stallTimeout s

/-- COMPLETION_RECORD_WRITE (R367): A terminated HOST_NOTIFY task's record is written to the completion ring when it has room and the task entry is freed. -/
def execCompletionRecordWrite (task : Nat) (s : State) : Host.Outcome State Fault Refusal :=
  onDev (completionRecordWrite task) s

/-- FRAME_RECEIVED (R74): A frame arrives at a MAC: it is stamped, FCS or runt failures dropped, its payload stored and its headers parsed. -/
def execFrameReceived (port : Nat) (bytes : List Byte) (ok : Bool) (s : State) : Host.Outcome State Fault Refusal :=
  onDev (frameReceived port bytes ok) s

/-- FLOW_BUCKET_FILL (R82): A flow-table bucket fill from DRAM completes and waiting lookups proceed. -/
def execFlowBucketFill (n : Nat) (b : Nat) (s : State) : Host.Outcome State Fault Refusal :=
  onDev (flowBucketFill n b) s

/-- PASS_DECISION (R81): ST5 decides the pass's action index and the pass takes a reorder entry. -/
def execPassDecision (n : Nat) (id : Nat) (s : State) : Host.Outcome State Fault Refusal :=
  onDev (passDecision n id) s

/-- RECIRC_SECOND_PASS (R91): A RECIRC pass re-enters the parse pipeline with STRIP bytes removed under its first-pass epoch. -/
def execRecircSecondPass (n : Nat) (id : Nat) (s : State) : Host.Outcome State Fault Refusal :=
  onDev (recircSecondPass n id) s

/-- REORDER_RELEASE (R92): A ready reorder entry is released in per-port arrival order and its packet handed on. -/
def execReorderRelease (plane : Nat) (port : Nat) (s : State) : Host.Outcome State Fault Refusal :=
  onDev (reorderRelease plane port) s

/-- FLOW_AGE_SWEEP (R82): The background sweeper removes learned unpinned entries idle for MAT_FLOW_CFG.AGE beats. -/
def execFlowAgeSweep (i : Nat) (s : State) : Host.Outcome State Fault Refusal :=
  onDev (flowAgeSweep i) s

/-- MAT_TAB_READ (R93): MAT_TAB_CMD READ of a match-stage or extmap entry. -/
def execMatTabRead (_p : Path) (v : Word) (s : State) : Host.Outcome State Fault Refusal :=
  onDev (matTabRead v) s

/-- MAT_TAB_WRITE (R90): MAT_TAB_CMD WRITE, allowed to rule-set tables only in the reclaimed shadow bank, committing flow entries atomically. -/
def execMatTabWrite (_p : Path) (v : Word) (s : State) : Host.Outcome State Fault Refusal :=
  onDev (matTabWrite v) s

/-- MAT_TAB_INSERT (R83): MAT_TAB_CMD INSERT of a flow-table entry. -/
def execMatTabInsert (_p : Path) (v : Word) (s : State) : Host.Outcome State Fault Refusal :=
  onDev (matTabInsert v) s

/-- MAT_TAB_DELETE (R83): MAT_TAB_CMD DELETE of a flow-table entry. -/
def execMatTabDelete (_p : Path) (v : Word) (s : State) : Host.Outcome State Fault Refusal :=
  onDev (matTabDelete v) s

/-- MAT_TAB_LOOKUP (R93): MAT_TAB_CMD LOOKUP of ST2 by key. -/
def execMatTabLookup (_p : Path) (v : Word) (s : State) : Host.Outcome State Fault Refusal :=
  onDev (matTabLookup v) s

/-- MAT_TAB_COPY_ACTIVE (R90): MAT_TAB_CMD COPY_ACTIVE copies the active rule-set bank to the shadow bank. -/
def execMatTabCopyActive (_p : Path) (v : Word) (s : State) : Host.Outcome State Fault Refusal :=
  onDev (matTabCopyActive v) s

/-- MAT_EPOCH_COMMIT (R89): A write of MAT_EPOCH.COMMIT advances the epoch in both planes, or is refused when RECLAIMED is 0. -/
def execMatEpochCommit (_p : Path) (v : Word) (s : State) : Host.Outcome State Fault Refusal :=
  onDev (matEpochCommit (v ||| 0x80000000)) s

/-- EPOCH_RECLAIMED (R89): Both planes' in-flight counts of the previous epoch reach zero; its bank becomes the shadow and RECLAIMED is set. -/
def execEpochReclaimed (s : State) : Host.Outcome State Fault Refusal :=
  onDev epochReclaimed s

/-- MET_TAB_READ (R93): MET_TAB_CMD READ of a meter or a coherent counter pair. -/
def execMetTabRead (_p : Path) (v : Word) (s : State) : Host.Outcome State Fault Refusal :=
  onDev (metTabRead v) s

/-- MET_TAB_WRITE (R88): MET_TAB_CMD WRITE of a meter or counter, resetting tokens per TOKEN_INIT. -/
def execMetTabWrite (_p : Path) (v : Word) (s : State) : Host.Outcome State Fault Refusal :=
  onDev (metTabWrite v) s

/-- MET_TAB_READ_CLEAR (R93): MET_TAB_CMD READ_CLEAR returns a counter pair and clears it and its residue. -/
def execMetTabReadClear (_p : Path) (v : Word) (inc : Nat) (s : State) : Host.Outcome State Fault Refusal :=
  onDev (metTabReadClear v inc) s

/-- CIPHER_PLAINTEXT_RELEASE (R113): A cipher cell releases its reorder entry with auth_state PENDING once the first plaintext cell is written. -/
def execCipherPlaintextRelease (plane : Nat) (cell : Nat) (s : State) : Host.Outcome State Fault Refusal :=
  onDev (cipherPlaintextRelease plane cell) s

/-- CIPHER_PROGRAM_END (R113): A cipher cell's mode program ends, the tag is checked and auth_state rewritten PASS or FAIL in place. -/
def execCipherProgramEnd (plane : Nat) (cell : Nat) (s : State) : Host.Outcome State Fault Refusal :=
  onDev (cipherProgramEnd plane cell) s

/-- AUTH_TIMEOUT (R113): A packet still PENDING 32,768 FCLK after release is set FAIL and counted. -/
def execAuthTimeout (pkt : Nat) (s : State) : Host.Outcome State Fault Refusal :=
  onDev (authTimeout pkt) s

/-- SLOT_LOAD_DONE (R107): A vault unwrap lane finishes a slot load, checking the blob and deriving the keys. -/
def execSlotLoadDone (lane : Nat) (s : State) : Host.Outcome State Fault Refusal :=
  onDev (slotLoadDone lane) s

/-- KEY_WAIT_TIMEOUT (R110): A packet still in the key-wait queue 4 beats after arrival is dropped. -/
def execKeyWaitTimeout (plane : Nat) (pkt : Nat) (s : State) : Host.Outcome State Fault Refusal :=
  onDev (keyWaitTimeout plane pkt) s

/-- IMPORT_OPEN (R103): IMPORT_KEYS OPEN decapsulates the ciphertext, derives the import key and returns a session. -/
def execImportOpen (seq : Nat) (ct : List Byte) (sig : List Byte) (s : State) : Host.Outcome State Fault Refusal :=
  onDev (importOpen seq ct sig) s

/-- IMPORT_WRAP (R105): IMPORT_KEYS WRAP unwraps each key record and rewraps valid ones as handle blobs. -/
def execImportWrap (seq : Nat) (session : Nat) (recs : List (List Byte)) (s : State) : Host.Outcome State Fault Refusal :=
  onDev (importWrap seq session recs) s

/-- IMPORT_CLOSE (R103): IMPORT_KEYS CLOSE erases a session's import key. -/
def execImportClose (seq : Nat) (session : Nat) (s : State) : Host.Outcome State Fault Refusal :=
  onDev (importClose seq session) s

/-- BLOB_GET (R371): IMPORT_KEYS BLOB_GET returns up to 255 handle blobs. -/
def execBlobGet (seq : Nat) (first : Nat) (count : Nat) (s : State) : Host.Outcome State Fault Refusal :=
  onDev (blobGet seq first count) s

/-- BLOB_PUT (R371): IMPORT_KEYS BLOB_PUT writes back up to 253 blobs, checking each. -/
def execBlobPut (seq : Nat) (first : Nat) (count : Nat) (blobs : List (List Byte)) (s : State) : Host.Outcome State Fault Refusal :=
  onDev (blobPut seq first count blobs) s

/-- IMPORT_SESSION_EXPIRY (R103): An import session closes itself at the end of its lifetime. -/
def execImportSessionExpiry (session : Nat) (s : State) : Host.Outcome State Fault Refusal :=
  onDev (importSessionExpiry session) s

/-- VAULT_ALARM (R114): An alarm source trips: the vault erases keys, burns the epoch mark and TOP_MODE reads ZEROIZE. -/
def execVaultAlarm (src : Nat) (s : State) : Host.Outcome State Fault Refusal :=
  onDev (vaultAlarm src) s

/-- ZEROIZE_ERASURE_DONE (R114): The keys are erased and the epoch mark burnt, setting VLT_STATUS.ZEROIZED. -/
def execZeroizeErasureDone (s : State) : Host.Outcome State Fault Refusal :=
  onDev zeroizeErasureDone s

/-- PROVISION (R115): Mailbox command that takes the next zeroize epoch, derives a new storage key and key pair, or reports the current one. -/
def execProvision (seq : Nat) (s : State) : Host.Outcome State Fault Refusal :=
  onDev (provision seq) s

/-- ATTEST (R116): Mailbox command that returns a signed attestation report over the supplied nonce. -/
def execAttest (seq : Nat) (nonce : List Byte) (s : State) : Host.Outcome State Fault Refusal :=
  onDev (attest seq nonce) s

/-- VLT_TAB_READ (R118): VLT_TAB_CMD READ of a leg binding, handle state or slot state. -/
def execVltTabRead (_p : Path) (v : Word) (s : State) : Host.Outcome State Fault Refusal :=
  onDev (vltTabRead v) s

/-- VLT_TAB_WRITE (R109): VLT_TAB_CMD WRITE of a leg binding, taking effect for programs started after the commit. -/
def execVltTabWrite (_p : Path) (v : Word) (s : State) : Host.Outcome State Fault Refusal :=
  onDev (vltTabWrite v) s

/-- QUE_READ (R126): Queue operation READ returning the descriptor at READ, releasing it in non-retaining kinds. -/
def execQueRead (_p : Path) (v : Word) (s : State) : Host.Outcome State Fault Refusal :=
  onDev (queRead v) s

/-- QUE_MARK (R126): Queue operation MARK setting MARK to READ. -/
def execQueMark (_p : Path) (v : Word) (s : State) : Host.Outcome State Fault Refusal :=
  onDev (queMark v) s

/-- QUE_REWIND (R126): Queue operation REWIND setting READ to MARK. -/
def execQueRewind (_p : Path) (v : Word) (s : State) : Host.Outcome State Fault Refusal :=
  onDev (queRewind v) s

/-- QUE_SKIP (R126): Queue operation SKIP advancing READ by up to n. -/
def execQueSkip (_p : Path) (v : Word) (s : State) : Host.Outcome State Fault Refusal :=
  onDev (queSkip v) s

/-- QUE_RELEASE (R126): Queue operation RELEASE moving RELEASE to p, discarding unread items passed. -/
def execQueRelease (_p : Path) (v : Word) (s : State) : Host.Outcome State Fault Refusal :=
  onDev (queRelease v) s

/-- QUE_FLUSH (R126): Queue operation FLUSH releasing every item and clearing the mark. -/
def execQueFlush (_p : Path) (v : Word) (s : State) : Host.Outcome State Fault Refusal :=
  onDev (queFlush v) s

/-- QUE_HEAD_REFILL_DONE (R127): A READ that needed the spill chain refills the head and returns its descriptor. -/
def execQueHeadRefillDone (s : State) : Host.Outcome State Fault Refusal :=
  onDev queHeadRefillDone s

/-- SPILL_MOVE_DONE (R121): The spill mover finishes copying an item's payload to DRAM cells and frees its burst-store cells. -/
def execSpillMoveDone (q : Nat) (s : State) : Host.Outcome State Fault Refusal :=
  onDev (spillMoveDone q) s

/-- HISTORY_AGE (R128): At the start of each beat the ager releases history items older than AGE or beyond COUNT. -/
def execHistoryAge (s : State) : Host.Outcome State Fault Refusal :=
  onDev historyAge s

/-- FC_OUTPUT_CHANGE (R133): A flow-control output follows a change of its groups' watermark flags, asserting or releasing pause, PFC, Mule credit or a pin. -/
def execFcOutputChange (o : Nat) (s : State) : Host.Outcome State Fault Refusal :=
  onDev (fcOutputChange o) s

/-- PAUSE_REPEAT (R133): An asserted PAUSE or PFC output repeats its frame each time half its quanta has elapsed. -/
def execPauseRepeat (o : Nat) (s : State) : Host.Outcome State Fault Refusal :=
  onDev (pauseRepeat o) s

/-- QUE_TAB_READ (R135): QUE_TAB_CMD READ of a queue, group or output entry. -/
def execQueTabRead (_p : Path) (v : Word) (s : State) : Host.Outcome State Fault Refusal :=
  onDev (queTabRead v) s

/-- QUE_TAB_WRITE (R135): QUE_TAB_CMD WRITE of the fields writable in service. -/
def execQueTabWrite (_p : Path) (v : Word) (s : State) : Host.Outcome State Fault Refusal :=
  onDev (queTabWrite v) s

/-- KEYREQ_WAIT_EXPIRY (R145): A pending change that found no switching point within KEYREQ_WAIT raises a key-picture request. -/
def execKeyreqWaitExpiry (sub : Nat) (s : State) : Host.Outcome State Fault Refusal :=
  onDev (keyreqWaitExpiry sub) s

/-- KEYREQ_GAP_EXPIRY (R145): At the end of a brood's KEYREQ_GAP a merged request naming a different encoding is sent. -/
def execKeyreqGapExpiry (brood : Nat) (s : State) : Host.Outcome State Fault Refusal :=
  onDev (keyreqGapExpiry brood) s

/-- UPSTREAM_NACK (R153): A gap in a video brood open for NACK_UP beats, or again after RTT, is NACKed to the source leg. -/
def execUpstreamNack (b : Nat) (strm : Nat) (seqn : Nat) (s : State) : Host.Outcome State Fault Refusal :=
  onDev (upstreamNack b strm seqn) s

/-- SR_GENERATE (R154): A sender report is generated per subscription every SR_INTERVAL beats. -/
def execSrGenerate (sub : Nat) (s : State) : Host.Outcome State Fault Refusal :=
  onDev (srGenerate sub) s

/-- TWCC_FEEDBACK_GENERATE (R154): Transport-wide feedback is sent toward TWCC legs every FB_INTERVAL beats. -/
def execTwccFeedbackGenerate (leg : Nat) (s : State) : Host.Outcome State Fault Refusal :=
  onDev (twccFeedbackGenerate leg) s

/-- LEG_FEEDBACK_TIMEOUT (R158): A leg with no feedback for LEG_FB_TIMEOUT beats sets FEEDBACK_LOST and raises LEG_FEEDBACK_LOST. -/
def execLegFeedbackTimeout (leg : Nat) (s : State) : Host.Outcome State Fault Refusal :=
  onDev (legFeedbackTimeout leg) s

/-- FEEDBACK_LOST_HALVE (R158): A FEEDBACK_LOST leg's target halves every 600 beats down to FLOOR. -/
def execFeedbackLostHalve (leg : Nat) (s : State) : Host.Outcome State Fault Refusal :=
  onDev (feedbackLostHalve leg) s

/-- FWD_TAB_READ (R160): FWD_TAB_CMD READ of a brood, subscription, flock, MID or change-point entry. -/
def execFwdTabRead (_p : Path) (v : Word) (s : State) : Host.Outcome State Fault Refusal :=
  onDev (fwdTabRead v) s

/-- FWD_TAB_WRITE (R160): FWD_TAB_CMD WRITE of a forwarding entry. -/
def execFwdTabWrite (_p : Path) (v : Word) (s : State) : Host.Outcome State Fault Refusal :=
  onDev (fwdTabWrite v) s

/-- LEG_TAB_READ (R161): LEG_TAB_CMD READ of a leg entry. -/
def execLegTabRead (_p : Path) (v : Word) (s : State) : Host.Outcome State Fault Refusal :=
  onDev (legTabRead v) s

/-- LEG_TAB_WRITE (R159): LEG_TAB_CMD WRITE of a leg entry, taking effect at the next governor update. -/
def execLegTabWrite (_p : Path) (v : Word) (s : State) : Host.Outcome State Fault Refusal :=
  onDev (legTabWrite v) s

/-- AU_WAIT_EXPIRY (R168): AU_WAIT beats after an AU's first packet the incomplete AU is offered. -/
def execAuWaitExpiry (ent : Nat) (s : State) : Host.Outcome State Fault Refusal :=
  onDev (auWaitExpiry ent) s

/-- DEC_FENCE_HIT (R177): A decode write outside its fence is suppressed, the task ended and settled and DEC_FENCE raised. -/
def execDecFenceHit (cell : Nat) (s : State) : Host.Outcome State Fault Refusal :=
  onDev (fun d => d.decFence cell) s

/-- FILL_ENGINE_DONE (R181): A block fill engine finishes its concealment or floor-row copy and the result is published. -/
def execFillEngineDone (task : Nat) (s : State) : Host.Outcome State Fault Refusal :=
  onDev (fillEngineDone task) s

/-- VDC_TAB_READ (R186): VDC_TAB_CMD READ of a decode entry, class, pool buffer or slot map. -/
def execVdcTabRead (_p : Path) (v : Word) (s : State) : Host.Outcome State Fault Refusal :=
  onDev (vdcTabRead v) s

/-- VDC_TAB_WRITE (R166): VDC_TAB_CMD WRITE of a decode entry, admitting or releasing it. -/
def execVdcTabWrite (_p : Path) (v : Word) (s : State) : Host.Outcome State Fault Refusal :=
  onDev (vdcTabWrite v) s

/-- CMP_TAB_READ (R205): CMP_TAB_CMD READ of a layout, tile, overlay or filter entry. -/
def execCmpTabRead (_p : Path) (v : Word) (s : State) : Host.Outcome State Fault Refusal :=
  onDev (cmpTabRead v) s

/-- CMP_TAB_WRITE (R192): CMP_TAB_CMD WRITE of a compose entry, admitting layouts and checking tiles. -/
def execCmpTabWrite (_p : Path) (v : Word) (s : State) : Host.Outcome State Fault Refusal :=
  onDev (cmpTabWrite v) s

/-- ENC_FENCE_HIT (R226): An encode write outside its fence is suppressed, the picture ended as LATE and ENC_FENCE raised. -/
def execEncFenceHit (cell : Nat) (s : State) : Host.Outcome State Fault Refusal :=
  onDev (fun d => d.encFence cell) s

/-- VEN_TAB_READ (R226): VEN_TAB_CMD READ of an encode entry or model state. -/
def execVenTabRead (_p : Path) (v : Word) (s : State) : Host.Outcome State Fault Refusal :=
  onDev (venTabRead v) s

/-- VEN_TAB_WRITE (R211): VEN_TAB_CMD WRITE of an encode entry, admitting it or raising a key request on a rate change. -/
def execVenTabWrite (_p : Path) (v : Word) (s : State) : Host.Outcome State Fault Refusal :=
  onDev (venTabWrite v) s

/-- AUD_TAB_READ (R251): AUD_TAB_CMD READ of an audio or mix entry. -/
def execAudTabRead (_p : Path) (v : Word) (s : State) : Host.Outcome State Fault Refusal :=
  onDev (audTabRead v) s

/-- AUD_TAB_WRITE (R230): AUD_TAB_CMD WRITE of an audio or mix entry, admitting it against capacity. -/
def execAudTabWrite (_p : Path) (v : Word) (s : State) : Host.Outcome State Fault Refusal :=
  onDev (audTabWrite v) s

/-- FLT_TAB_READ (R252): FLT_TAB_CMD READ of a channel or profile. -/
def execFltTabRead (_p : Path) (v : Word) (s : State) : Host.Outcome State Fault Refusal :=
  onDev (fltTabRead v) s

/-- FLT_TAB_WRITE (R252): FLT_TAB_CMD WRITE of a filter profile. -/
def execFltTabWrite (_p : Path) (v : Word) (s : State) : Host.Outcome State Fault Refusal :=
  onDev (fltTabWrite v) s

/-- TIM_CAPTURE (R256): TIM_CTRL.CAPTURE latches all seven clocks and sets CAPTURED. -/
def execTimCapture (_p : Path) (v : Word) (s : State) : Host.Outcome State Fault Refusal :=
  onDev (timCtrlWrite (v ||| 0x80000000)) s

/-- TIM_SWITCH (R265): TIM_CTRL.SWITCH exchanges the active privileged member. -/
def execTimSwitch (_p : Path) (v : Word) (s : State) : Host.Outcome State Fault Refusal :=
  onDev (timCtrlWrite (v ||| 0x40000000)) s

/-- TIM_DOM_SAMPLE (R260): An offset sample for a clock runs its servo or is handled as a correction. -/
def execTimDomSample (k : Nat) (src : SampleSrc) (theta : Int) (s : State) : Host.Outcome State Fault Refusal :=
  onDev (timDomSample k src theta) s

/-- PPS_IN_EDGE (R259): A rising PPS_IN edge is stamped in all clocks and gives samples to PPS-referenced clocks. -/
def execPpsInEdge (s : State) : Host.Outcome State Fault Refusal :=
  onDev ppsInEdge s

/-- PPS_OUT_EDGE (R259): PPS_OUT rises at each whole second of the selected clock for WIDTH_US. -/
def execPpsOutEdge (s : State) : Host.Outcome State Fault Refusal :=
  onDev ppsOutEdge s

/-- SYNTON_SECOND (R260): With SYNTON, FREQ_IN counted over a second replaces the integral term. -/
def execSyntonSecond (k : Nat) (err : Int) (s : State) : Host.Outcome State Fault Refusal :=
  onDev (syntonSecond k err) s

/-- CLOCK_HOLDOVER_TIMEOUT (R261): A clock with no sample for HOLD_S seconds enters HOLDOVER. -/
def execClockHoldoverTimeout (k : Nat) (s : State) : Host.Outcome State Fault Refusal :=
  onDev (clockHoldoverTimeout k) s

/-- TIM_ACCEPT_JUMP (R262): ACCEPT_JUMP puts a clock in ACQUIRING so it steps at its next sample. -/
def execTimAcceptJump (_p : Path) (k : Nat) (v : Word) (s : State) : Host.Outcome State Fault Refusal :=
  onDev (timAcceptJump k (v ||| 0x80000000)) s

/-- TIM_RESTART (R261): RESTART puts a clock in ACQUIRING. -/
def execTimRestart (_p : Path) (k : Nat) (v : Word) (s : State) : Host.Outcome State Fault Refusal :=
  onDev (timRestart k (v ||| 0x40000000)) s

/-- LAUNCH_TIME_REACHED (R268): A held launch frame is sent when DT reaches its launch time. -/
def execLaunchTimeReached (port : Nat) (cls : Nat) (s : State) : Host.Outcome State Fault Refusal :=
  onDev (launchTimeReached port cls) s

/-- GATE_COMMIT (R270): GAT_CTRL.COMMIT computes the start time of the shadow list and makes it PENDING. -/
def execGateCommit (_p : Path) (p : Nat) (v : Word) (s : State) : Host.Outcome State Fault Refusal :=
  onDev (gateCommit p (v ||| 0x40000000)) s

/-- GATE_CANCEL (R270): GAT_CTRL.CANCEL withdraws a pending gate list. -/
def execGateCancel (_p : Path) (p : Nat) (v : Word) (s : State) : Host.Outcome State Fault Refusal :=
  onDev (gateCancel p (v ||| 0x20000000)) s

/-- GATE_LIST_START (R270): At its start time a pending list becomes operational and the old list goes to the shadow bank. -/
def execGateListStart (p : Nat) (s : State) : Host.Outcome State Fault Refusal :=
  onDev (gateListStart p) s

/-- GATE_ENTRY_CHANGE (R269): A gate-list interval ends and the next entry's gate states apply. -/
def execGateEntryChange (p : Nat) (s : State) : Host.Outcome State Fault Refusal :=
  onDev (gateEntryChange p) s

/-- GAT_TAB_READ (R273): GAT_TAB_CMD READ of a gate-list entry. -/
def execGatTabRead (_p : Path) (v : Word) (s : State) : Host.Outcome State Fault Refusal :=
  onDev (gatTabRead v) s

/-- GAT_TAB_WRITE (R273): GAT_TAB_CMD WRITE of a shadow gate-list entry. -/
def execGatTabWrite (_p : Path) (v : Word) (s : State) : Host.Outcome State Fault Refusal :=
  onDev (gatTabWrite v) s

/-- EGRESS_SELECT (R276): A port's scheduler selects one frame from an eligible stream through the class, group and leg hierarchy. -/
def execEgressSelect (port : Nat) (s : State) : Host.Outcome State Fault Refusal :=
  onDev (egressSelect port) s

/-- RUN_INTERVAL_START (R279): A run interval begins and waiting legs' run requests are issued in rotated leg order. -/
def execRunIntervalStart (s : State) : Host.Outcome State Fault Refusal :=
  onDev runIntervalStart s

/-- FRAME_TX_START (R276): A frame at the head of its transmit FIFO, clear of launch time, gate and pause, is stamped and sent. -/
def execFrameTxStart (port : Nat) (cls : Nat) (s : State) : Host.Outcome State Fault Refusal :=
  onDev (frameTxStart port cls) s

/-- PAUSE_RECEIVED (R282): A received pause frame holds every FIFO of the port for its quanta. -/
def execPauseReceived (port : Nat) (quanta : Nat) (s : State) : Host.Outcome State Fault Refusal :=
  onDev (pauseReceived port quanta) s

/-- PFC_RECEIVED (R282): A received PFC frame holds the classes of its priorities. -/
def execPfcReceived (port : Nat) (vec : Nat) (quanta : List Nat) (s : State) : Host.Outcome State Fault Refusal :=
  onDev (pfcReceived port vec quanta) s

/-- PAUSE_HOLD_EXPIRY (R282): A pause or PFC hold ends when its quanta elapse. -/
def execPauseHoldExpiry (port : Nat) (cls : Nat) (s : State) : Host.Outcome State Fault Refusal :=
  onDev (pauseHoldExpiry port cls) s

/-- EGRESS_PAUSE_HELD (R290): A class held by pause or PFC for 600 consecutive beats raises EGRESS_PAUSE_HELD. -/
def execEgressPauseHeld (port : Nat) (cls : Nat) (s : State) : Host.Outcome State Fault Refusal :=
  onDev (egressPauseHeld port cls) s

/-- EGRESS_MOVE_DONE (R286): A moving leg's in-flight count reaches zero, MOVING clears and runs may open on the new port. -/
def execEgressMoveDone (leg : Nat) (s : State) : Host.Outcome State Fault Refusal :=
  onDev (egressMoveDone leg) s

/-- EGS_TAB_READ (R289): EGS_TAB_CMD READ of a stream, leg, group or shaper entry. -/
def execEgsTabRead (_p : Path) (v : Word) (s : State) : Host.Outcome State Fault Refusal :=
  onDev (egsTabRead v) s

/-- EGS_TAB_WRITE (R285): EGS_TAB_CMD WRITE of an egress entry, resetting shaper tokens and starting leg moves. -/
def execEgsTabWrite (_p : Path) (v : Word) (s : State) : Host.Outcome State Fault Refusal :=
  onDev (egsTabWrite v) s

/-- SCRUB_READ (R296): The scrubber reads a block of an active channel and corrects it. -/
def execScrubRead (k : Nat) (a : Nat) (ecc : Ecc) (s : State) : Host.Outcome State Fault Refusal :=
  onDev (scrubRead k a ecc) s

/-- REFRESH (R300): A channel issues a refresh command and may begin a pause. -/
def execRefresh (k : Nat) (s : State) : Host.Outcome State Fault Refusal :=
  onDev (refresh k) s

/-- RETRAIN_PASS (R302): A channel's retraining pass sweeps the data-lane eyes and applies new centres. -/
def execRetrainPass (k : Nat) (rd : List Nat) (wr : List Nat) (s : State) : Host.Outcome State Fault Refusal :=
  onDev (retrainPass k rd wr) s

/-- RETRAIN_RETRY (R304): After a pass with result NONE a retry burst sweeps the failing direction at the next pause. -/
def execRetrainRetry (ch : Nat) (oks : List Nat) (s : State) : Host.Outcome State Fault Refusal :=
  onDev (retrainRetry ch oks) s

/-- MEM_FSP_WRITE (R305): A write of MEM_FSP.TARGET starts a set-point change or is refused. -/
def execMemFspWrite (_p : Path) (v : Word) (s : State) : Host.Outcome State Fault Refusal :=
  onDev (memFspWrite v) s

/-- FSP_CHANGE_DONE (R305): A set-point change completes and MEM_FSP_SWITCH is raised. -/
def execFspChangeDone (s : State) : Host.Outcome State Fault Refusal :=
  onDev fspChangeDone s

/-- MEM_MIGRATE (R306): MEM_CTRL.MIGRATE starts copying a logical channel to the spare. -/
def execMemMigrate (_p : Path) (v : Word) (s : State) : Host.Outcome State Fault Refusal :=
  onDev (memMigrate v) s

/-- MIGRATION_DONE (R306): The last block is copied, the spare takes the logical channel and the source becomes RETIRED. -/
def execMigrationDone (s : State) : Host.Outcome State Fault Refusal :=
  onDev migrationDone s

/-- RESTORE_DONE (R307): The spare finishes rebuilding a failed channel's critical blocks and becomes ACTIVE. -/
def execRestoreDone (s : State) : Host.Outcome State Fault Refusal :=
  onDev restoreDone s

/-- MEM_RETEST (R309): MEM_CTRL.RETEST starts retraining a RETIRED channel. -/
def execMemRetest (_p : Path) (v : Word) (s : State) : Host.Outcome State Fault Refusal :=
  onDev (memRetest v) s

/-- RETEST_DONE (R309): A retested channel becomes SPARE if its margins suffice, or RETIRED again. -/
def execRetestDone (k : Nat) (m0 : Nat) (m1 : Nat) (s : State) : Host.Outcome State Fault Refusal :=
  onDev (retestDone k m0 m1) s

/-- MEM_RETRAIN (R310): MEM_CTRL.RETRAIN runs a pass on a channel at its next pause. -/
def execMemRetrain (_p : Path) (v : Word) (s : State) : Host.Outcome State Fault Refusal :=
  onDev (memRetrain v) s

/-- CASCADE_JOIN (R323): MUL_CTRL.JOIN starts the JOIN steps from SERVICE. -/
def execCascadeJoin (_p : Path) (v : Word) (s : State) : Host.Outcome State Fault Refusal :=
  onDev (mulCtrl (v ||| 0x80000000)) s

/-- CASCADE_LEAVE (R326): MUL_CTRL.LEAVE takes the device out of the stack. -/
def execCascadeLeave (_p : Path) (v : Word) (s : State) : Host.Outcome State Fault Refusal :=
  onDev (mulCtrl (v ||| 0x40000000)) s

/-- HANDOVER (R317): MUL_CTRL.HANDOVER passes the Rooster role to a READY standby at the next boundary. -/
def execHandover (_p : Path) (v : Word) (s : State) : Host.Outcome State Fault Refusal :=
  onDev (mulCtrl (v ||| 0x20000000)) s

/-- JOIN_HELLO_DONE (R323): Links are up and ids, pairs and topology exchanged, or JOIN fails with DUP_ID, TOPOLOGY or TOO_MANY. -/
def execJoinHelloDone (hello : Hello) (s : State) : Host.Outcome State Fault Refusal :=
  onDev (joinHelloDone hello) s

/-- JOIN_TIME_LOCKED (R323): Both privileged members on MULE reach LOCKED and ALIGN follows. -/
def execJoinTimeLocked (s : State) : Host.Outcome State Fault Refusal :=
  onDev joinTimeLocked s

/-- JOIN_ALIGN (R323): At the Rooster's boundary DT and the beat are loaded, or slewed for a live device. -/
def execJoinAlign (s : State) : Host.Outcome State Fault Refusal :=
  onDev joinAlign s

/-- JOIN_DIRECTORY_DONE (R323): The whole directory is received and the device enters SERVICE, raising CASCADE_JOINED. -/
def execJoinDirectoryDone (ents : List DirEnt) (s : State) : Host.Outcome State Fault Refusal :=
  onDev (joinDirectoryDone ents) s

/-- JOIN_STEP_TIMEOUT (R323): A JOIN step exceeds its limit and the device returns to its mode before JOIN. -/
def execJoinStepTimeout (s : State) : Host.Outcome State Fault Refusal :=
  onDev joinStepTimeout s

/-- MULE_MEDIA (R320): A MEDIA frame on a Mule link is used locally and relayed onward. -/
def execMuleMedia (link : Nat) (f : MuleFrame) (s : State) : Host.Outcome State Fault Refusal :=
  onDev (muleMediaIn link f) s

/-- MULE_PARTIAL (R322): A PARTIAL frame arrives as an AFRAME operand for the final mix. -/
def execMulePartial (link : Nat) (f : MuleFrame) (s : State) : Host.Outcome State Fault Refusal :=
  onDev (mulePartialIn link f) s

/-- MULE_TALKERS (R321): A TALKERS frame carries candidate lists to HOME or the selection to members. -/
def execMuleTalkers (link : Nat) (f : MuleFrame) (s : State) : Host.Outcome State Fault Refusal :=
  onDev (muleTalkersIn link f) s

/-- MULE_DEMAND (R320): A DEMAND frame sets the layers the source sends for a relayed brood. -/
def execMuleDemand (link : Nat) (f : MuleFrame) (s : State) : Host.Outcome State Fault Refusal :=
  onDev (muleDemandIn link f) s

/-- MULE_TIME (R318): A TIME frame is stamped and gives a MULE sample. -/
def execMuleTime (link : Nat) (f : MuleFrame) (s : State) : Host.Outcome State Fault Refusal :=
  onDev (muleTimeIn link f) s

/-- MULE_HEARTBEAT (R324): A HEARTBEAT frame records the last Rooster beat seen. -/
def execMuleHeartbeat (link : Nat) (f : MuleFrame) (s : State) : Host.Outcome State Fault Refusal :=
  onDev (muleHeartbeatIn link f) s

/-- MULE_DIRECTORY (R319): A DIRECTORY frame carries an entry commit, copy or acknowledgement. -/
def execMuleDirectory (link : Nat) (f : MuleFrame) (s : State) : Host.Outcome State Fault Refusal :=
  onDev (muleDirectoryIn link f) s

/-- MULE_CREDIT (R312): A CREDIT frame grants credit cells for a class. -/
def execMuleCredit (link : Nat) (f : MuleFrame) (s : State) : Host.Outcome State Fault Refusal :=
  onDev (muleCreditIn link f) s

/-- MULE_TUN_NAK (R316): A TUN_NAK frame asks the tunnel sender to resend missing frames from history. -/
def execMuleTunNak (link : Nat) (f : MuleFrame) (s : State) : Host.Outcome State Fault Refusal :=
  onDev (muleTunNakIn link f) s

/-- TUN_NAK_RETRY (R316): After one tunnel round trip a second TUN_NAK is sent or the frame counted TUN_LOST. -/
def execTunNakRetry (link : Nat) (seqn : Nat) (s : State) : Host.Outcome State Fault Refusal :=
  onDev (tunNakRetry link seqn) s

/-- MULE_TIME_EXCHANGE (R318): Every TIME_DIV beats a time exchange runs on each link. -/
def execMuleTimeExchange (s : State) : Host.Outcome State Fault Refusal :=
  onDev muleTimeExchange s

/-- HEARTBEAT_TIMEOUT (R324): An expected Rooster heartbeat is missing, leading to failover or isolation. -/
def execHeartbeatTimeout (seen : List Nat) (s : State) : Host.Outcome State Fault Refusal :=
  onDev (heartbeatTimeout seen) s

/-- MUL_TAB_READ (R326): MUL_TAB_CMD READ of a directory or tunnel entry. -/
def execMulTabRead (_p : Path) (v : Word) (s : State) : Host.Outcome State Fault Refusal :=
  onDev (mulTabRead v) s

/-- MUL_TAB_WRITE (R319): MUL_TAB_CMD WRITE of a directory entry sent to the Rooster, or of a tunnel entry. -/
def execMulTabWrite (_p : Path) (v : Word) (s : State) : Host.Outcome State Fault Refusal :=
  onDev (mulTabWrite v) s

/-- STANDBY_ACK_TIMEOUT (R319): A standby not acknowledging within 6 beats is taken as not READY and the write committed without it. -/
def execStandbyAckTimeout (idx : Nat) (s : State) : Host.Outcome State Fault Refusal :=
  onDev (standbyAckTimeout idx) s

/-- DIRECTORY_APPLY (R319): At beat EFFECTIVE every device applies a committed directory entry. -/
def execDirectoryApply (idx : Nat) (s : State) : Host.Outcome State Fault Refusal :=
  onDev (directoryApply idx) s

/-- MULE_LANE_LOSS (R312): A link losing one lane continues DEGRADED and raises MULE_LINK_DEGRADED. -/
def execMuleLaneLoss (link : Nat) (s : State) : Host.Outcome State Fault Refusal :=
  onDev (muleLaneLoss link) s

/-- MULE_LINK_DOWN (R327): A Mule link goes DOWN and MULE_LINK_DOWN is raised. -/
def execMuleLinkDown (link : Nat) (s : State) : Host.Outcome State Fault Refusal :=
  onDev (muleLinkDown link) s

/-- TOP_MODE_REQ (R330): A write of TOP_MODE_REQ asks for a mode, judged BUSY, ILLEGAL, NOT_READY or OK. -/
def execTopModeReq (_p : Path) (v : Word) (s : State) : Host.Outcome State Fault Refusal :=
  onDev (topModeReq v) s

/-- MODE_SET (R330): Mailbox command that requests a mode through TOP_MODE_REQ. -/
def execModeSet (seq : Nat) (target : Nat) (freeRun : Bool) (s : State) : Host.Outcome State Fault Refusal :=
  onDev (modeSet seq target freeRun) s

/-- MODE_TRANSITION (R328): TOP_MODE changes along a transition of Table 16.1, raising MODE_CHANGE. -/
def execModeTransition (s : State) : Host.Outcome State Fault Refusal :=
  onDev modeTransition s

/-- RESET_N_ASSERT (R395): RESET_N held low for at least 1 µs resets the chip into RESET. -/
def execResetNAssert (lowNs : Nat) (s : State) : Host.Outcome State Fault Refusal :=
  onDev (resetNAssert lowNs) s

/-- RESET_RELEASE (R395): Reset is released, straps are sampled and the device enters BOOT. -/
def execResetRelease (cascId : Nat) (pri : Nat) (s : State) : Host.Outcome State Fault Refusal :=
  onDev (resetRelease cascId pri) s

/-- BOOT_FW_VERIFIED (R333): Boot ROM verifies a firmware copy, or sets BOOT_FAIL, and the MC starts. -/
def execBootFwVerified (aOk : Bool) (bOk : Bool) (s : State) : Host.Outcome State Fault Refusal :=
  onDev (bootFwVerified aOk bOk) s

/-- SHED_STAGE_ENTER (R339): At the first boundary after its condition a shed stage and all shallower ones are entered. -/
def execShedStageEnter (rails : List Nat) (s : State) : Host.Outcome State Fault Refusal :=
  onDev (shedStageEnter rails) s

/-- SHED_STAGE_LIFT (R343): A stage whose dwell of 30 beats is met lifts and its work returns. -/
def execShedStageLift (rails : List Nat) (bad : List Nat) (s : State) : Host.Outcome State Fault Refusal :=
  onDev (shedStageLift rails bad) s

/-- SAG_PIN_CHANGE (R337): A SAG_N level held for 4 samples requests a shed stage. -/
def execSagPinChange (lvl : Nat) (s : State) : Host.Outcome State Fault Refusal :=
  onDev (sagPinChange lvl) s

/-- BROWN_OUT (R345): A rail below 90 % for 10 µs causes a chip reset. -/
def execBrownOut (rail : Nat) (s : State) : Host.Outcome State Fault Refusal :=
  onDev (brownOut rail) s

/-- THERM_THROTTLE (R346): Tj reaching 100 °C starts throttling of the media regions, ending below 98 °C. -/
def execThermThrottle (temps : List Int) (s : State) : Host.Outcome State Fault Refusal :=
  onDev (fun d => d.thermSample temps) s

/-- THERM_EMERGENCY (R347): Tj reaching 110 °C enters S4 and raises THERM_EMERGENCY. -/
def execThermEmergency (temps : List Int) (s : State) : Host.Outcome State Fault Refusal :=
  onDev (fun d => d.thermSample temps) s

/-- THERM_TRIP (R348): Tj reaching 120 °C asserts THERM_TRIP_N and enters S6. -/
def execThermTrip (temps : List Int) (s : State) : Host.Outcome State Fault Refusal :=
  onDev (fun d => d.thermSample temps) s

/-- SPRINT_REQUEST (R349): PWR_SPRINT_CTRL.REQ asks for SPRINT, judged against its conditions. -/
def execSprintRequest (_p : Path) (v : Word) (s : State) : Host.Outcome State Fault Refusal :=
  onDev (sprintCtrl (v ||| 0x80000000)) s

/-- SPRINT_REQ (R349): Mailbox command that requests or ends SPRINT. -/
def execSprintReq (seq : Nat) (op : Nat) (s : State) : Host.Outcome State Fault Refusal :=
  onDev (sprintReq seq op) s

/-- SPRINT_ENTER (R349): At the next boundary MCLK rises to 1.38 GHz. -/
def execSprintEnter (s : State) : Host.Outcome State Fault Refusal :=
  onDev sprintEnter s

/-- SPRINT_END_REQUEST (R350): PWR_SPRINT_CTRL.END ends SPRINT at the next boundary. -/
def execSprintEndRequest (_p : Path) (v : Word) (s : State) : Host.Outcome State Fault Refusal :=
  onDev (sprintCtrl (v ||| 0x40000000)) s

/-- SPRINT_AUTO_END (R350): SPRINT ends on a stage, heat, the window or the lifetime limit. -/
def execSprintAutoEnd (s : State) : Host.Outcome State Fault Refusal :=
  onDev sprintAutoEnd s

/-- LM_PRESENT_FALL (R354): LM_PRESENT_N falls and a 2 s insertion wait begins. -/
def execLmPresentFall (m : Nat) (s : State) : Host.Outcome State Fault Refusal :=
  onDev (lmPresentFall m) s

/-- LM_INSERT_DELAY (R354): After 2 s the module is identified, given its wear record and brought to ModuleReady. -/
def execLmInsertDelay (m : Nat) (id : ModuleId) (s : State) : Host.Outcome State Fault Refusal :=
  onDev (lmInsertDelay m id) s

/-- LM_PRESENT_RISE (R354): LM_PRESENT_N rises, the port's link goes down and LM_REMOVED is raised. -/
def execLmPresentRise (m : Nat) (s : State) : Host.Outcome State Fault Refusal :=
  onDev (lmPresentRise m) s

/-- LM_INT (R354): LM_INT_N falls and module monitors are read at once. -/
def execLmInt (mons : List ModuleMon) (s : State) : Host.Outcome State Fault Refusal :=
  onDev (lmInt mons) s

/-- LM_POLL (R354): Module monitors are read every POLL_S seconds. -/
def execLmPoll (m : Nat) (mon : ModuleMon) (s : State) : Host.Outcome State Fault Refusal :=
  onDev (lmPoll m mon) s

/-- WEAR_RECORD_UPDATE (R355): Each module's wear record is updated every hour. -/
def execWearRecordUpdate (m : Nat) (hour : WearHour) (s : State) : Host.Outcome State Fault Refusal :=
  onDev (wearRecordUpdate m hour) s

/-- LMD_DRAIN (R357): LMD_MOD_CTRL.DRAIN disables the port, puts the module in low power and sets DRAINED. -/
def execLmdDrain (_p : Path) (m : Nat) (v : Word) (s : State) : Host.Outcome State Fault Refusal :=
  onDev (lmdDrain m v) s

/-- LMD_MOD_RESET (R386): LMD_MOD_CTRL.RESET drives the module's select and reset low for 10 µs. -/
def execLmdModReset (_p : Path) (m : Nat) (v : Word) (s : State) : Host.Outcome State Fault Refusal :=
  onDev (lmdModReset m v) s

/-- LMD_TAB_READ (R359): LMD_TAB_CMD READ of a wear record. -/
def execLmdTabRead (_p : Path) (v : Word) (s : State) : Host.Outcome State Fault Refusal :=
  onDev (lmdTabRead v) s

/-- LM_READ (R370): Mailbox command that reads CMIS bytes of a module. -/
def execLmRead (seq : Nat) (m : Nat) (_bank : Nat) (_page : Nat) (_ofs : Nat) (len : Nat) (data : List Byte) (s : State) : Host.Outcome State Fault Refusal :=
  onDev (lmRead seq m len data) s

/-- LM_BUS_STUCK (R400): SDA held low for 35 ms is freed with nine clocks and the bus retried. -/
def execLmBusStuck (bus : Nat) (s : State) : Host.Outcome State Fault Refusal :=
  onDev (lmBusStuck bus) s

/-- FUNCTION_LEVEL_RESET (R363): A function-level reset clears ring, mailbox and MSI-X state without resetting the chip. -/
def execFunctionLevelReset (s : State) : Host.Outcome State Fault Refusal :=
  onDev functionLevelReset s

/-- PCIE_LINK_DOWN (R363): The PCIe link is lost and PCIE_LINK_DOWN raised to the MC and EVENT_N. -/
def execPcieLinkDown (s : State) : Host.Outcome State Fault Refusal :=
  onDev pcieLinkDown s

/-- BAR2_READ (R362): A BAR2 read returns DRAM data through the window, zero for vault or beyond capacity, EP for POISONED. -/
def execBar2Read (ofs : Nat) (len : Nat) (s : State) : Host.Outcome State Fault Refusal :=
  onDev (bar2Read s.dram ofs len) s

/-- BAR2_WRITE (R362): A BAR2 write to DRAM, discarded for critical blocks, the vault or beyond capacity. -/
def execBar2Write (ofs : Nat) (data : List Byte) (s : State) : Host.Outcome State Fault Refusal :=
  onDev (bar2Write ofs data) s

/-- PUNT_RING_DOORBELL (R364): The host advances a punt ring's TAIL, posting empty buffers. -/
def execPuntRingDoorbell (ring : Nat) (tail : Nat) (hw : HostWrites) (s : State) : Host.Outcome State Fault Refusal :=
  onDevWith hw (fun _ => (fun d => d.when (decide (ring < 16)) (ringDoorbell ring tail))) s

/-- INJECT_RING_DOORBELL (R364): The host advances an inject ring's TAIL, posting filled descriptors. -/
def execInjectRingDoorbell (ring : Nat) (tail : Nat) (hw : HostWrites) (s : State) : Host.Outcome State Fault Refusal :=
  onDevWith hw (fun _ => (fun d => d.when (decide (ring < 16)) (ringDoorbell (16 + ring) tail))) s

/-- PUNT_DELIVER (R365): A punted item is written into device-owned punt descriptors and HEAD advanced. -/
def execPuntDeliver (ring : Nat) (s : State) : Host.Outcome State Fault Refusal :=
  onDev (puntDeliver s.hostMem ring) s

/-- INJECT_RAW_PORT (R366): An injected RAW_PORT frame enters its class on its port ahead of legs. -/
def execInjectRawPort (ring : Nat) (s : State) : Host.Outcome State Fault Refusal :=
  onDev (injectItem s.hostMem 1 ring) s

/-- INJECT_LEG_CTRL (R366): An injected LEG_CTRL payload is wrapped in the leg's headers and queued on its CTRL stream. -/
def execInjectLegCtrl (ring : Nat) (s : State) : Host.Outcome State Fault Refusal :=
  onDev (injectItem s.hostMem 2 ring) s

/-- INJECT_REPARSE (R366): An injected REPARSE frame is stamped and parsed as if received on its port. -/
def execInjectReparse (ring : Nat) (s : State) : Host.Outcome State Fault Refusal :=
  onDev (injectItem s.hostMem 3 ring) s

/-- RING_COAL_TIMER (R368): COAL_US after the first unsignalled completion a ring sends its MSI-X message. -/
def execRingCoalTimer (ring : Nat) (s : State) : Host.Outcome State Fault Refusal :=
  onDev (ringCoalTimer ring) s

/-- GET_INFO (R370): Mailbox command that returns identity, mode, firmware, keys and policy. -/
def execGetInfo (seq : Nat) (s : State) : Host.Outcome State Fault Refusal :=
  onDev (getInfo seq) s

/-- EVENT_LOG (R370): Mailbox command that returns event log records. -/
def execEventLog (seq : Nat) (first : Nat) (count : Nat) (s : State) : Host.Outcome State Fault Refusal :=
  onDev (eventLog seq first count) s

/-- FW_WRITE (R371): Mailbox command that writes a chunk of the non-running firmware copy and verifies it on LAST. -/
def execFwWrite (seq : Nat) (copy : Nat) (ofs : Nat) (data : List Byte) (last : Bool) (s : State) : Host.Outcome State Fault Refusal :=
  onDev (fwWrite seq copy ofs data last) s

/-- FW_SWITCH (R371): Mailbox command that restarts the MC on the other firmware copy if it verifies. -/
def execFwSwitch (seq : Nat) (s : State) : Host.Outcome State Fault Refusal :=
  onDev (fwSwitch seq) s

/-- MC_RESTART (R371): The MC comes up after a restart, writes the FW_SWITCH response and takes up pending events. -/
def execMcRestart (s : State) : Host.Outcome State Fault Refusal :=
  onDev mcRestart s

/-- ROLLBACK_SET (R371): Mailbox command that raises the rollback floor in OTP. -/
def execRollbackSet (seq : Nat) (floor : Nat) (s : State) : Host.Outcome State Fault Refusal :=
  onDev (rollbackSet seq floor) s

/-- PORT_READ (R372): Mailbox command that returns a port's state and MAC counters. -/
def execPortRead (seq : Nat) (port : Nat) (s : State) : Host.Outcome State Fault Refusal :=
  onDev (portRead seq port) s

/-- POLICY_SET (R406): Mailbox command that tightens one field of the OTP vault policy. -/
def execPolicySet (seq : Nat) (req : List Byte) (s : State) : Host.Outcome State Fault Refusal :=
  onDev (policySet seq req) s

/-- EVT_STAT_WRITE (R375): A W1C write of EVT_STAT clears bits and resignals vectors of bits left set. -/
def execEvtStatWrite (_p : Path) (w : Nat) (v : Word) (sets : Word) (s : State) : Host.Outcome State Fault Refusal :=
  onDev (evtStatWrite w v sets) s

/-- MSIX_UNMASK (R375): Unmasking a vector with its pending bit set sends its message. -/
def execMsixUnmask (v : Nat) (s : State) : Host.Outcome State Fault Refusal :=
  onDev (msixUnmask v) s

/-- TAP_FRAME_TX (R379): An output tap lane sends the next segment of its streams in round robin. -/
def execTapFrameTx (lane : Nat) (s : State) : Host.Outcome State Fault Refusal :=
  onDev (tapFrameTx lane) s

/-- TAP_HOLD_ASSERT (R380): TAP_HOLD_N taken low makes each lane finish its frame and idle. -/
def execTapHoldAssert (s : State) : Host.Outcome State Fault Refusal :=
  onDev tapHoldAssert s

/-- TAP_HOLD_RELEASE (R380): TAP_HOLD_N rising lets each lane start its next frame within 1 µs. -/
def execTapHoldRelease (s : State) : Host.Outcome State Fault Refusal :=
  onDev tapHoldRelease s

/-- TAP_HOLD_LONG (R380): A hold longer than HOLD_WARN raises TAP_HOLD_LONG once. -/
def execTapHoldLong (s : State) : Host.Outcome State Fault Refusal :=
  onDev tapHoldLong s

/-- TAP_LANE_DOWN (R379): A tap lane loses block lock and its streams move to the next lane up. -/
def execTapLaneDown (lane : Nat) (s : State) : Host.Outcome State Fault Refusal :=
  onDev (tapLaneDown lane) s

/-- TAP_LANE_UP (R379): A tap lane comes up and its streams return at their next item boundary. -/
def execTapLaneUp (lane : Nat) (s : State) : Host.Outcome State Fault Refusal :=
  onDev (tapLaneUp lane) s

/-- TAP_INPUT_FRAME (R381): An INJECT input frame is checked and collected into its item. -/
def execTapInputFrame (lane : Nat) (bytes : List Byte) (s : State) : Host.Outcome State Fault Refusal :=
  onDev (tapInputFrame lane bytes) s

/-- TAP_SEG_WAIT_EXPIRY (R381): An item still incomplete SEG_WAIT beats after its first segment is discarded. -/
def execTapSegWaitExpiry (lane : Nat) (s : State) : Host.Outcome State Fault Refusal :=
  onDev (tapSegWaitExpiry lane) s

/-- TAP_TAB_READ (R382): TAP_TAB_CMD READ of an output or input entry. -/
def execTapTabRead (_p : Path) (v : Word) (s : State) : Host.Outcome State Fault Refusal :=
  onDev (tapTabRead v) s

/-- TAP_TAB_WRITE (R379): TAP_TAB_CMD WRITE of an output or input entry. -/
def execTapTabWrite (_p : Path) (v : Word) (s : State) : Host.Outcome State Fault Refusal :=
  onDev (tapTabWrite v) s

/-- SYS_REFCLK_LOST (R390): SYS_REFCLK stops and the chip is reset with cause REFCLK_LOST. -/
def execSysRefclkLost (s : State) : Host.Outcome State Fault Refusal :=
  onDev sysRefclkLost s

/-- REFCLK_RETURN (R390): SYS_REFCLK present for 1 ms releases the held reset. -/
def execRefclkReturn (s : State) : Host.Outcome State Fault Refusal :=
  onDev refclkReturn s

/-- REFERENCE_CLOCK_LOST (R390): An Ethernet, Mule, PCIe, tap, FREQ_IN or PPS_IN reference stops and its interface reacts. -/
def execReferenceClockLost (ref : RefClk) (s : State) : Host.Outcome State Fault Refusal :=
  onDev (referenceClockLost ref) s

/-- PORT_LINK_DOWN (R390): A logical port loses its link and PORT_LINK_DOWN is raised. -/
def execPortLinkDown (port : Nat) (s : State) : Host.Outcome State Fault Refusal :=
  onDev (portLinkDown port) s

/-- RAILS_GOOD (R393): Every rail has stood in tolerance for 10 ms and the self-held reset ends. -/
def execRailsGood (s : State) : Host.Outcome State Fault Refusal :=
  onDev railsGood s

/-- AUX_POWER_ON (R395): VDD_AUX rises and resets the always-on domain, setting AUX_POR. -/
def execAuxPowerOn (s : State) : Host.Outcome State Fault Refusal :=
  onDev auxPowerOn s

/-- RUN_REQUEST (R279): A leg that is not KEYLESS requests a key run at the first moment of the interval at which it would be eligible but for its run, typically when its pacer tokens refill to 0. -/
def execRunRequest (leg : Nat) (s : State) : Host.Outcome State Fault Refusal :=
  onDev (runRequest leg) s

/-- MULE_LINK_UP (R312): A Mule link, or a lost lane of a DEGRADED link, finishes training and comes UP, restoring 200 Gb/s and its paths. -/
def execMuleLinkUp (link : Nat) (s : State) : Host.Outcome State Fault Refusal :=
  onDev (muleLinkUp link) s

/-- PORT_LINK_UP (R286): A logical Ethernet port regains its link, so packets waiting for that port may be selected again. -/
def execPortLinkUp (port : Nat) (s : State) : Host.Outcome State Fault Refusal :=
  onDev (portLinkUp port) s

/-- PCIE_LINK_UP (R363): The PCIe link returns (including after PERST_N), so punt items deliver, inject rings resume and host-routed events signal again. -/
def execPcieLinkUp (s : State) : Host.Outcome State Fault Refusal :=
  onDev pcieLinkUp s

/-- MAILBOX_COMMAND_TIMEOUT (R370): A mailbox command whose limit has passed ends with STATUS TIMEOUT, clears BUSY, sets DONE and raises MBX_DONE. -/
def execMailboxCommandTimeout (s : State) : Host.Outcome State Fault Refusal :=
  onDev mailboxCommandTimeout s

/-- PCIE_UNCORRECTABLE_ERROR (R377): An uncorrectable AER error on the PCIe link raises PCIE_ERROR. -/
def execPcieUncorrectableError (s : State) : Host.Outcome State Fault Refusal :=
  onDev (fun d => d.when (d.mode != .reset) (fun d => d.raise Src.PCIE_ERROR)) s

end Sys2Proof.Machine
end

