-- ==== Sys2Proof/Machine/Dispatch.lean ====
section
/-! DEFINITION. One arm per command: each calls its meaning. -/

namespace Sys2Proof.Machine
open Sys2Proof

def exec (i : Instr) (s : State) : Host.Outcome State Fault Refusal :=
  match i with
  | .registerWrite p off v => Sys2Proof.Machine.execRegisterWrite p off v s
  | .readLoLatch p off => Sys2Proof.Machine.execReadLoLatch p off s
  | .writeLoHold p off v => Sys2Proof.Machine.execWriteLoHold p off v s
  | .writeHiCommit p off v => Sys2Proof.Machine.execWriteHiCommit p off v s
  | .rcRead p off inc => Sys2Proof.Machine.execRcRead p off inc s
  | .beatBoundary => Sys2Proof.Machine.execBeatBoundary s
  | .cellYielded cell => Sys2Proof.Machine.execCellYielded cell s
  | .yieldGraceExpiry => Sys2Proof.Machine.execYieldGraceExpiry s
  | .cellResetDone cell => Sys2Proof.Machine.execCellResetDone cell s
  | .jobRetire cell res => Sys2Proof.Machine.execJobRetire cell res s
  | .jobIssue cell => Sys2Proof.Machine.execJobIssue cell s
  | .deadlineSettle task => Sys2Proof.Machine.execDeadlineSettle task s
  | .taskWaitLimit task => Sys2Proof.Machine.execTaskWaitLimit task s
  | .msSlotHoldExpiry slot => Sys2Proof.Machine.execMsSlotHoldExpiry slot s
  | .cellParityError cell again => Sys2Proof.Machine.execCellParityError cell again s
  | .cacheUncorrectableError region block => Sys2Proof.Machine.execCacheUncorrectableError region block s
  | .regionScrubDone region corrected => Sys2Proof.Machine.execRegionScrubDone region corrected s
  | .regionAutoReloadDone region verified bad => Sys2Proof.Machine.execRegionAutoReloadDone region verified bad s
  | .chipFaultResetTimer => Sys2Proof.Machine.execChipFaultResetTimer s
  | .timBeatOffsetWrite p v => Sys2Proof.Machine.execTimBeatOffsetWrite p v s
  | .dtLoad => Sys2Proof.Machine.execDtLoad s
  | .configureLoad p v hw => Sys2Proof.Machine.execConfigureLoad p v hw s
  | .reloadRegion p v hw => Sys2Proof.Machine.execReloadRegion p v hw s
  | .cancel p v => Sys2Proof.Machine.execCancel p v s
  | .checkOnly p v hw => Sys2Proof.Machine.execCheckOnly p v hw s
  | .loadRegion seq v addr len hw => Sys2Proof.Machine.execLoadRegion seq v addr len hw s
  | .reloadCheckDone => Sys2Proof.Machine.execReloadCheckDone s
  | .reloadDrainDone hw => Sys2Proof.Machine.execReloadDrainDone hw s
  | .reloadDrainLimit => Sys2Proof.Machine.execReloadDrainLimit s
  | .portSteer port => Sys2Proof.Machine.execPortSteer port s
  | .reloadWriteDone => Sys2Proof.Machine.execReloadWriteDone s
  | .reloadVerifyDone storedOk => Sys2Proof.Machine.execReloadVerifyDone storedOk s
  | .reloadRejoinDone bad => Sys2Proof.Machine.execReloadRejoinDone bad s
  | .trainDone chans => Sys2Proof.Machine.execTrainDone chans s
  | .configureSectionsDone => Sys2Proof.Machine.execConfigureSectionsDone s
  | .tskTabRead p v => Sys2Proof.Machine.execTskTabRead p v s
  | .tskTabWrite p v => Sys2Proof.Machine.execTskTabWrite p v s
  | .tskAbort p v => Sys2Proof.Machine.execTskAbort p v s
  | .abortResolved => Sys2Proof.Machine.execAbortResolved s
  | .abortStopTimeout => Sys2Proof.Machine.execAbortStopTimeout s
  | .tskPost p v => Sys2Proof.Machine.execTskPost p v s
  | .hwaitArm p n v => Sys2Proof.Machine.execHwaitArm p n v s
  | .hwaitCancel p n v => Sys2Proof.Machine.execHwaitCancel p n v s
  | .hwaitTimeout n => Sys2Proof.Machine.execHwaitTimeout n s
  | .stallTimeout => Sys2Proof.Machine.execStallTimeout s
  | .completionRecordWrite task => Sys2Proof.Machine.execCompletionRecordWrite task s
  | .frameReceived port bytes fcsOk => Sys2Proof.Machine.execFrameReceived port bytes fcsOk s
  | .flowBucketFill plane bucket => Sys2Proof.Machine.execFlowBucketFill plane bucket s
  | .passDecision plane pass => Sys2Proof.Machine.execPassDecision plane pass s
  | .recircSecondPass plane pass => Sys2Proof.Machine.execRecircSecondPass plane pass s
  | .reorderRelease plane port => Sys2Proof.Machine.execReorderRelease plane port s
  | .flowAgeSweep entry => Sys2Proof.Machine.execFlowAgeSweep entry s
  | .matTabRead p v => Sys2Proof.Machine.execMatTabRead p v s
  | .matTabWrite p v => Sys2Proof.Machine.execMatTabWrite p v s
  | .matTabInsert p v => Sys2Proof.Machine.execMatTabInsert p v s
  | .matTabDelete p v => Sys2Proof.Machine.execMatTabDelete p v s
  | .matTabLookup p v => Sys2Proof.Machine.execMatTabLookup p v s
  | .matTabCopyActive p v => Sys2Proof.Machine.execMatTabCopyActive p v s
  | .matEpochCommit p v => Sys2Proof.Machine.execMatEpochCommit p v s
  | .epochReclaimed => Sys2Proof.Machine.execEpochReclaimed s
  | .metTabRead p v => Sys2Proof.Machine.execMetTabRead p v s
  | .metTabWrite p v => Sys2Proof.Machine.execMetTabWrite p v s
  | .metTabReadClear p v inc => Sys2Proof.Machine.execMetTabReadClear p v inc s
  | .cipherPlaintextRelease plane cell => Sys2Proof.Machine.execCipherPlaintextRelease plane cell s
  | .cipherProgramEnd plane cell => Sys2Proof.Machine.execCipherProgramEnd plane cell s
  | .authTimeout pkt => Sys2Proof.Machine.execAuthTimeout pkt s
  | .slotLoadDone lane => Sys2Proof.Machine.execSlotLoadDone lane s
  | .keyWaitTimeout plane pkt => Sys2Proof.Machine.execKeyWaitTimeout plane pkt s
  | .importOpen seq ct sig => Sys2Proof.Machine.execImportOpen seq ct sig s
  | .importWrap seq session recs => Sys2Proof.Machine.execImportWrap seq session recs s
  | .importClose seq session => Sys2Proof.Machine.execImportClose seq session s
  | .blobGet seq first count => Sys2Proof.Machine.execBlobGet seq first count s
  | .blobPut seq first count blobs => Sys2Proof.Machine.execBlobPut seq first count blobs s
  | .importSessionExpiry session => Sys2Proof.Machine.execImportSessionExpiry session s
  | .vaultAlarm src => Sys2Proof.Machine.execVaultAlarm src s
  | .zeroizeErasureDone => Sys2Proof.Machine.execZeroizeErasureDone s
  | .provision seq => Sys2Proof.Machine.execProvision seq s
  | .attest seq nonce => Sys2Proof.Machine.execAttest seq nonce s
  | .vltTabRead p v => Sys2Proof.Machine.execVltTabRead p v s
  | .vltTabWrite p v => Sys2Proof.Machine.execVltTabWrite p v s
  | .queRead p v => Sys2Proof.Machine.execQueRead p v s
  | .queMark p v => Sys2Proof.Machine.execQueMark p v s
  | .queRewind p v => Sys2Proof.Machine.execQueRewind p v s
  | .queSkip p v => Sys2Proof.Machine.execQueSkip p v s
  | .queRelease p v => Sys2Proof.Machine.execQueRelease p v s
  | .queFlush p v => Sys2Proof.Machine.execQueFlush p v s
  | .queHeadRefillDone => Sys2Proof.Machine.execQueHeadRefillDone s
  | .spillMoveDone queue => Sys2Proof.Machine.execSpillMoveDone queue s
  | .historyAge => Sys2Proof.Machine.execHistoryAge s
  | .fcOutputChange out => Sys2Proof.Machine.execFcOutputChange out s
  | .pauseRepeat out => Sys2Proof.Machine.execPauseRepeat out s
  | .queTabRead p v => Sys2Proof.Machine.execQueTabRead p v s
  | .queTabWrite p v => Sys2Proof.Machine.execQueTabWrite p v s
  | .keyreqWaitExpiry sub => Sys2Proof.Machine.execKeyreqWaitExpiry sub s
  | .keyreqGapExpiry brood => Sys2Proof.Machine.execKeyreqGapExpiry brood s
  | .upstreamNack brood stream seqn => Sys2Proof.Machine.execUpstreamNack brood stream seqn s
  | .srGenerate sub => Sys2Proof.Machine.execSrGenerate sub s
  | .twccFeedbackGenerate leg => Sys2Proof.Machine.execTwccFeedbackGenerate leg s
  | .legFeedbackTimeout leg => Sys2Proof.Machine.execLegFeedbackTimeout leg s
  | .feedbackLostHalve leg => Sys2Proof.Machine.execFeedbackLostHalve leg s
  | .fwdTabRead p v => Sys2Proof.Machine.execFwdTabRead p v s
  | .fwdTabWrite p v => Sys2Proof.Machine.execFwdTabWrite p v s
  | .legTabRead p v => Sys2Proof.Machine.execLegTabRead p v s
  | .legTabWrite p v => Sys2Proof.Machine.execLegTabWrite p v s
  | .auWaitExpiry ent => Sys2Proof.Machine.execAuWaitExpiry ent s
  | .decFenceHit cell => Sys2Proof.Machine.execDecFenceHit cell s
  | .fillEngineDone task => Sys2Proof.Machine.execFillEngineDone task s
  | .vdcTabRead p v => Sys2Proof.Machine.execVdcTabRead p v s
  | .vdcTabWrite p v => Sys2Proof.Machine.execVdcTabWrite p v s
  | .cmpTabRead p v => Sys2Proof.Machine.execCmpTabRead p v s
  | .cmpTabWrite p v => Sys2Proof.Machine.execCmpTabWrite p v s
  | .encFenceHit cell => Sys2Proof.Machine.execEncFenceHit cell s
  | .venTabRead p v => Sys2Proof.Machine.execVenTabRead p v s
  | .venTabWrite p v => Sys2Proof.Machine.execVenTabWrite p v s
  | .audTabRead p v => Sys2Proof.Machine.execAudTabRead p v s
  | .audTabWrite p v => Sys2Proof.Machine.execAudTabWrite p v s
  | .fltTabRead p v => Sys2Proof.Machine.execFltTabRead p v s
  | .fltTabWrite p v => Sys2Proof.Machine.execFltTabWrite p v s
  | .timCapture p v => Sys2Proof.Machine.execTimCapture p v s
  | .timSwitch p v => Sys2Proof.Machine.execTimSwitch p v s
  | .timDomSample d src theta => Sys2Proof.Machine.execTimDomSample d src theta s
  | .ppsInEdge => Sys2Proof.Machine.execPpsInEdge s
  | .ppsOutEdge => Sys2Proof.Machine.execPpsOutEdge s
  | .syntonSecond d err => Sys2Proof.Machine.execSyntonSecond d err s
  | .clockHoldoverTimeout d => Sys2Proof.Machine.execClockHoldoverTimeout d s
  | .timAcceptJump p d v => Sys2Proof.Machine.execTimAcceptJump p d v s
  | .timRestart p d v => Sys2Proof.Machine.execTimRestart p d v s
  | .launchTimeReached port cls => Sys2Proof.Machine.execLaunchTimeReached port cls s
  | .gateCommit p port v => Sys2Proof.Machine.execGateCommit p port v s
  | .gateCancel p port v => Sys2Proof.Machine.execGateCancel p port v s
  | .gateListStart port => Sys2Proof.Machine.execGateListStart port s
  | .gateEntryChange port => Sys2Proof.Machine.execGateEntryChange port s
  | .gatTabRead p v => Sys2Proof.Machine.execGatTabRead p v s
  | .gatTabWrite p v => Sys2Proof.Machine.execGatTabWrite p v s
  | .egressSelect port => Sys2Proof.Machine.execEgressSelect port s
  | .runIntervalStart => Sys2Proof.Machine.execRunIntervalStart s
  | .frameTxStart port cls => Sys2Proof.Machine.execFrameTxStart port cls s
  | .pauseReceived port quanta => Sys2Proof.Machine.execPauseReceived port quanta s
  | .pfcReceived port vec quanta => Sys2Proof.Machine.execPfcReceived port vec quanta s
  | .pauseHoldExpiry port cls => Sys2Proof.Machine.execPauseHoldExpiry port cls s
  | .egressPauseHeld port cls => Sys2Proof.Machine.execEgressPauseHeld port cls s
  | .egressMoveDone leg => Sys2Proof.Machine.execEgressMoveDone leg s
  | .egsTabRead p v => Sys2Proof.Machine.execEgsTabRead p v s
  | .egsTabWrite p v => Sys2Proof.Machine.execEgsTabWrite p v s
  | .scrubRead ch addr ecc => Sys2Proof.Machine.execScrubRead ch addr ecc s
  | .refresh ch => Sys2Proof.Machine.execRefresh ch s
  | .retrainPass ch rd wr => Sys2Proof.Machine.execRetrainPass ch rd wr s
  | .retrainRetry ch oks => Sys2Proof.Machine.execRetrainRetry ch oks s
  | .memFspWrite p v => Sys2Proof.Machine.execMemFspWrite p v s
  | .fspChangeDone => Sys2Proof.Machine.execFspChangeDone s
  | .memMigrate p v => Sys2Proof.Machine.execMemMigrate p v s
  | .migrationDone => Sys2Proof.Machine.execMigrationDone s
  | .restoreDone => Sys2Proof.Machine.execRestoreDone s
  | .memRetest p v => Sys2Proof.Machine.execMemRetest p v s
  | .retestDone ch m0 m1 => Sys2Proof.Machine.execRetestDone ch m0 m1 s
  | .memRetrain p v => Sys2Proof.Machine.execMemRetrain p v s
  | .cascadeJoin p v => Sys2Proof.Machine.execCascadeJoin p v s
  | .cascadeLeave p v => Sys2Proof.Machine.execCascadeLeave p v s
  | .handover p v => Sys2Proof.Machine.execHandover p v s
  | .joinHelloDone hello => Sys2Proof.Machine.execJoinHelloDone hello s
  | .joinTimeLocked => Sys2Proof.Machine.execJoinTimeLocked s
  | .joinAlign => Sys2Proof.Machine.execJoinAlign s
  | .joinDirectoryDone ents => Sys2Proof.Machine.execJoinDirectoryDone ents s
  | .joinStepTimeout => Sys2Proof.Machine.execJoinStepTimeout s
  | .muleMedia link f => Sys2Proof.Machine.execMuleMedia link f s
  | .mulePartial link f => Sys2Proof.Machine.execMulePartial link f s
  | .muleTalkers link f => Sys2Proof.Machine.execMuleTalkers link f s
  | .muleDemand link f => Sys2Proof.Machine.execMuleDemand link f s
  | .muleTime link f => Sys2Proof.Machine.execMuleTime link f s
  | .muleHeartbeat link f => Sys2Proof.Machine.execMuleHeartbeat link f s
  | .muleDirectory link f => Sys2Proof.Machine.execMuleDirectory link f s
  | .muleCredit link f => Sys2Proof.Machine.execMuleCredit link f s
  | .muleTunNak link f => Sys2Proof.Machine.execMuleTunNak link f s
  | .tunNakRetry link seqn => Sys2Proof.Machine.execTunNakRetry link seqn s
  | .muleTimeExchange => Sys2Proof.Machine.execMuleTimeExchange s
  | .heartbeatTimeout seen => Sys2Proof.Machine.execHeartbeatTimeout seen s
  | .mulTabRead p v => Sys2Proof.Machine.execMulTabRead p v s
  | .mulTabWrite p v => Sys2Proof.Machine.execMulTabWrite p v s
  | .standbyAckTimeout idx => Sys2Proof.Machine.execStandbyAckTimeout idx s
  | .directoryApply idx => Sys2Proof.Machine.execDirectoryApply idx s
  | .muleLaneLoss link => Sys2Proof.Machine.execMuleLaneLoss link s
  | .muleLinkDown link => Sys2Proof.Machine.execMuleLinkDown link s
  | .topModeReq p v => Sys2Proof.Machine.execTopModeReq p v s
  | .modeSet seq target freeRun => Sys2Proof.Machine.execModeSet seq target freeRun s
  | .modeTransition => Sys2Proof.Machine.execModeTransition s
  | .resetNAssert lowNs => Sys2Proof.Machine.execResetNAssert lowNs s
  | .resetRelease cascId pri => Sys2Proof.Machine.execResetRelease cascId pri s
  | .bootFwVerified aOk bOk => Sys2Proof.Machine.execBootFwVerified aOk bOk s
  | .shedStageEnter rails => Sys2Proof.Machine.execShedStageEnter rails s
  | .shedStageLift rails bad => Sys2Proof.Machine.execShedStageLift rails bad s
  | .sagPinChange lvl => Sys2Proof.Machine.execSagPinChange lvl s
  | .brownOut rail => Sys2Proof.Machine.execBrownOut rail s
  | .thermThrottle temps => Sys2Proof.Machine.execThermThrottle temps s
  | .thermEmergency temps => Sys2Proof.Machine.execThermEmergency temps s
  | .thermTrip temps => Sys2Proof.Machine.execThermTrip temps s
  | .sprintRequest p v => Sys2Proof.Machine.execSprintRequest p v s
  | .sprintReq seq op => Sys2Proof.Machine.execSprintReq seq op s
  | .sprintEnter => Sys2Proof.Machine.execSprintEnter s
  | .sprintEndRequest p v => Sys2Proof.Machine.execSprintEndRequest p v s
  | .sprintAutoEnd => Sys2Proof.Machine.execSprintAutoEnd s
  | .lmPresentFall m => Sys2Proof.Machine.execLmPresentFall m s
  | .lmInsertDelay m id => Sys2Proof.Machine.execLmInsertDelay m id s
  | .lmPresentRise m => Sys2Proof.Machine.execLmPresentRise m s
  | .lmInt mons => Sys2Proof.Machine.execLmInt mons s
  | .lmPoll m mon => Sys2Proof.Machine.execLmPoll m mon s
  | .wearRecordUpdate m hour => Sys2Proof.Machine.execWearRecordUpdate m hour s
  | .lmdDrain p m v => Sys2Proof.Machine.execLmdDrain p m v s
  | .lmdModReset p m v => Sys2Proof.Machine.execLmdModReset p m v s
  | .lmdTabRead p v => Sys2Proof.Machine.execLmdTabRead p v s
  | .lmRead seq m bank page ofs len data => Sys2Proof.Machine.execLmRead seq m bank page ofs len data s
  | .lmBusStuck bus => Sys2Proof.Machine.execLmBusStuck bus s
  | .functionLevelReset => Sys2Proof.Machine.execFunctionLevelReset s
  | .pcieLinkDown => Sys2Proof.Machine.execPcieLinkDown s
  | .bar2Read ofs len => Sys2Proof.Machine.execBar2Read ofs len s
  | .bar2Write ofs data => Sys2Proof.Machine.execBar2Write ofs data s
  | .puntRingDoorbell ring tail hw => Sys2Proof.Machine.execPuntRingDoorbell ring tail hw s
  | .injectRingDoorbell ring tail hw => Sys2Proof.Machine.execInjectRingDoorbell ring tail hw s
  | .puntDeliver ring => Sys2Proof.Machine.execPuntDeliver ring s
  | .injectRawPort ring => Sys2Proof.Machine.execInjectRawPort ring s
  | .injectLegCtrl ring => Sys2Proof.Machine.execInjectLegCtrl ring s
  | .injectReparse ring => Sys2Proof.Machine.execInjectReparse ring s
  | .ringCoalTimer ring => Sys2Proof.Machine.execRingCoalTimer ring s
  | .getInfo seq => Sys2Proof.Machine.execGetInfo seq s
  | .eventLog seq first count => Sys2Proof.Machine.execEventLog seq first count s
  | .fwWrite seq copy ofs data last => Sys2Proof.Machine.execFwWrite seq copy ofs data last s
  | .fwSwitch seq => Sys2Proof.Machine.execFwSwitch seq s
  | .mcRestart => Sys2Proof.Machine.execMcRestart s
  | .rollbackSet seq floor => Sys2Proof.Machine.execRollbackSet seq floor s
  | .portRead seq port => Sys2Proof.Machine.execPortRead seq port s
  | .policySet seq req => Sys2Proof.Machine.execPolicySet seq req s
  | .evtStatWrite p w v sets => Sys2Proof.Machine.execEvtStatWrite p w v sets s
  | .msixUnmask vec => Sys2Proof.Machine.execMsixUnmask vec s
  | .tapFrameTx lane => Sys2Proof.Machine.execTapFrameTx lane s
  | .tapHoldAssert => Sys2Proof.Machine.execTapHoldAssert s
  | .tapHoldRelease => Sys2Proof.Machine.execTapHoldRelease s
  | .tapHoldLong => Sys2Proof.Machine.execTapHoldLong s
  | .tapLaneDown lane => Sys2Proof.Machine.execTapLaneDown lane s
  | .tapLaneUp lane => Sys2Proof.Machine.execTapLaneUp lane s
  | .tapInputFrame lane bytes => Sys2Proof.Machine.execTapInputFrame lane bytes s
  | .tapSegWaitExpiry lane => Sys2Proof.Machine.execTapSegWaitExpiry lane s
  | .tapTabRead p v => Sys2Proof.Machine.execTapTabRead p v s
  | .tapTabWrite p v => Sys2Proof.Machine.execTapTabWrite p v s
  | .sysRefclkLost => Sys2Proof.Machine.execSysRefclkLost s
  | .refclkReturn => Sys2Proof.Machine.execRefclkReturn s
  | .referenceClockLost ref => Sys2Proof.Machine.execReferenceClockLost ref s
  | .portLinkDown port => Sys2Proof.Machine.execPortLinkDown port s
  | .railsGood => Sys2Proof.Machine.execRailsGood s
  | .auxPowerOn => Sys2Proof.Machine.execAuxPowerOn s
  | .runRequest leg => Sys2Proof.Machine.execRunRequest leg s
  | .muleLinkUp link => Sys2Proof.Machine.execMuleLinkUp link s
  | .portLinkUp port => Sys2Proof.Machine.execPortLinkUp port s
  | .pcieLinkUp => Sys2Proof.Machine.execPcieLinkUp s
  | .mailboxCommandTimeout => Sys2Proof.Machine.execMailboxCommandTimeout s
  | .pcieUncorrectableError => Sys2Proof.Machine.execPcieUncorrectableError s

end Sys2Proof.Machine
end

