-- ==== Sys2Proof/Safety.lean ====
section
/-! DEFINITION. What a sound state is: both memories in their canonical form and within their address spaces, nothing of a step left
undone, and DRAM empty in RESET (R335). -/

namespace Sys2Proof.Machine
open Sys2Proof

/-- The canonical form of a memory: addresses strictly rising, no byte listed that an unlisted address reads as. -/
def Memory.wf (m : List Host.Cell) : Bool := tabWf zeroByte m

/-- Every listed address lies below a limit. -/
def Memory.below (limit : Nat) (m : List Host.Cell) : Bool := m.all (fun c => decide (c.1 < limit))

/-- No write of the device waits for the end of a step. -/
def Dev.noWrites (d : Dev) : Bool := d.pci.writes.isEmpty && d.pci.dramWrites.isEmpty

/-- The invariant of every step. -/
def State.sound (s : State) : Bool :=
  Memory.wf s.hostMem && Memory.below hostLimit s.hostMem && Memory.wf s.dram && Memory.below dramLimit s.dram &&
  s.dev.noWrites && (s.dev.mode != .reset || s.dram.isEmpty)

/-- No work is left over from another command and no mailbox command is in progress: a command then does what it does and nothing
else follows from an earlier one. -/
def Dev.idle (d : Dev) : Bool := d.tsk.todo.isEmpty && d.pci.mbx.busy.isNone

def State.ready (s : State) : Bool := s.sound && s.dev.idle

/-- Register families whose writes do more than set fields; each has statements of its own. -/
def ownEffect : List Nat :=
  [Reg.EVT_SRC_CFG, Reg.EVT_STAT, Reg.CFG_CTRL, Reg.TOP_MODE_REQ, Reg.MUL_CTRL, Reg.PWR_SPRINT_CTRL, Reg.LMD_MOD_CTRL, Reg.TIM_CTRL,
   Reg.TIM_BEAT_OFFSET] ++
  [Reg.TIM_DOM_CFG, Reg.TIM_DOM_CTRL, Reg.TIM_DOM_INTEG, Reg.TSK_HWAIT_CTRL, Reg.MEM_FSP, Reg.RING_CFG, Reg.PCI_WIN_BASE, Reg.TRE_CTRL,
   Reg.MSIX_CTRL, Reg.PWR_CFG, Reg.RING_TAIL, Reg.TAP_CFG]

/-! ### How a statement says what a command does -/

/-- The command answers a next state, and that state is as P says. -/
def Answers (c : Instr) (s : State) (P : State → Prop) : Prop := ∃ t, exec c s = .next t ∧ P t

/-- The parts of the device, one for each field of it. -/
inductive Part where
  | now | beat | fclk | mode | before | regs | latches | held | setNow | tabs | free | out | tim | evt | pkt | que | tsk | regions | fwd | vdc | cmp | ven | aud | egs | vlt | mac | tap | pci | mem | pwr | mul | cfg | lmd
deriving DecidableEq, Repr

/-- A part is the same in both. -/
def Dev.same (p : Part) (d e : Dev) : Prop :=
  match p with
  | .now => e.now = d.now
  | .beat => e.beat = d.beat
  | .fclk => e.fclk = d.fclk
  | .mode => e.mode = d.mode
  | .before => e.before = d.before
  | .regs => e.regs = d.regs
  | .latches => e.latches = d.latches
  | .held => e.held = d.held
  | .setNow => e.setNow = d.setNow
  | .tabs => e.tabs = d.tabs
  | .free => e.free = d.free
  | .out => e.out = d.out
  | .tim => e.tim = d.tim
  | .evt => e.evt = d.evt
  | .pkt => e.pkt = d.pkt
  | .que => e.que = d.que
  | .tsk => e.tsk = d.tsk
  | .regions => e.regions = d.regions
  | .fwd => e.fwd = d.fwd
  | .vdc => e.vdc = d.vdc
  | .cmp => e.cmp = d.cmp
  | .ven => e.ven = d.ven
  | .aud => e.aud = d.aud
  | .egs => e.egs = d.egs
  | .vlt => e.vlt = d.vlt
  | .mac => e.mac = d.mac
  | .tap => e.tap = d.tap
  | .pci => e.pci = d.pci
  | .mem => e.mem = d.mem
  | .pwr => e.pwr = d.pwr
  | .mul => e.mul = d.mul
  | .cfg => e.cfg = d.cfg
  | .lmd => e.lmd = d.lmd

/-- Every part but those named is the same in both. -/
def Dev.changesOnly (ps : List Part) (d e : Dev) : Prop := ∀ p : Part, p ∉ ps → d.same p e

/-- The queue and both memories are the same. -/
def State.keepsMem (s t : State) : Prop := t.pending = s.pending ∧ t.hostMem = s.hostMem ∧ t.dram = s.dram

/-- Every register but those at the offsets named reads the same. -/
def Dev.keepsRegs (offs : List Nat) (d e : Dev) : Prop := ∀ o, o ∉ offs → e.reg o = d.reg o

/-- Every table entry but the one named reads the same. -/
def Dev.keepsEnts (u : TabUnit) (table i : Nat) (d e : Dev) : Prop :=
  ∀ k, k ≠ tabKey u table i → tabGet entReset e.tabs k = tabGet entReset d.tabs k

/-- Registers that raising an event may write: its status, the unit's counters, the log's head and tail, and the pending bits of the
vectors. -/
def evtReg (o : Nat) : Bool :=
  (decide (Reg.EVT_STAT ≤ o) && decide (o < Reg.EVT_STAT + 80)) || (decide (Reg.EVT_CNT_LO ≤ o) && decide (o < Reg.EVT_CNT_LO + 32)) ||
  o == Reg.EVT_LOG_HEAD || o == Reg.EVT_LOG_TAIL || (decide (Reg.MSIX_PBA ≤ o) && decide (o < Reg.MSIX_PBA + 8))

/-- Every register but those named and those of the event unit reads the same. -/
def Dev.keepsRegsE (offs : List Nat) (d e : Dev) : Prop := ∀ o, o ∉ offs → evtReg o = false → e.reg o = d.reg o

/-- The source's status is set if the source is enabled (R373, R374). -/
def Dev.raised (src : Nat) (d e : Dev) : Prop := d.evtEnabled src = true → (evtSeverity src).isSome = true → e.evtStat src = true

/-- Counter c of the bank at base has counted n (64 bits, R11). -/
def Dev.counted (base c n : Nat) (d e : Dev) : Prop :=
  e.reg64 (base + 8 * c) (base + 8 * c + 4) = (d.reg64 (base + 8 * c) (base + 8 * c + 4) + n) % 2 ^ 64

/-! ### Table access commands -/

/-- ERR (bit 1) of a table command register, and ERRCODE (bits [7:4]) where the register has one. -/
def Dev.tabStat (d : Dev) (cmd code : Nat) : Prop :=
  d.flag cmd 1 = decide (code ≠ 0) ∧
  ((match regDesc cmd with | some r => r.fields.any (fun f => f.hi == 7 && f.lo == 4) | none => false) = true → d.fld cmd 7 4 = code)

/-- The DATA words of a table command. -/
def dataRegs (data words : Nat) : List Nat := (List.range words).map (data + 4 * ·)

/-- A table READ: the entry that TABLE and ADDR name is in the DATA words, and ERR is 0; an index beyond the table sets ERR with the
code given, and the DATA words keep their contents (R404). A reserved TABLE keeps the previous one (R9). -/
def ReadsTable (c : Path → Word → Instr) (cmd addr data words hi : Nat) (beyond : Nat → Nat → Bool) (get : Dev → Nat → Nat → Entry)
    (bad tables : Nat) : Prop :=
  ∀ (s : State) (p : Path) (v : Word) (t i : Nat), s.ready = true →
    t = (if bits v 27 24 < tables then bits v 27 24 else s.dev.fld cmd 27 24) → i = s.dev.fld addr hi 0 →
    Answers (c p v) s fun u =>
      u.dev.fld cmd 27 24 = t ∧
      (beyond t i = false → (∀ k, k < words → u.dev.reg (data + 4 * k) = Entry.word (get (s.dev.writeReg cmd v) t i) k) ∧
        u.dev.tabStat cmd 0 ∧ s.dev.keepsRegs (cmd :: dataRegs data words) u.dev) ∧
      (beyond t i = true → u.dev.tabStat cmd bad ∧ s.dev.keepsRegs [cmd] u.dev) ∧
      s.dev.changesOnly [.regs] u.dev ∧ s.keepsMem u

/-- A table command turned away: ERR with the code given, and nothing else changes. -/
def RefusesTable (c : Path → Word → Instr) (cmd code : Nat) (when_ : Dev → Word → Prop) : Prop :=
  ∀ (s : State) (p : Path) (v : Word), s.ready = true → when_ (s.dev.writeReg cmd v) v →
    Answers (c p v) s fun u => u.dev.tabStat cmd code ∧ s.dev.keepsRegs [cmd] u.dev ∧ s.dev.changesOnly [.regs] u.dev ∧ s.keepsMem u

/-- A table WRITE that is taken: the entry that TABLE and ADDR name (its place in the store is `key`) holds what `val` makes of the DATA
words, ERR is 0, and no other entry changes. -/
def WritesTable (c : Path → Word → Instr) (cmd addr data hi tables : Nat) (u : TabUnit) (parts : List Part)
    (key : Dev → Nat → Nat → Nat × Nat) (val : Dev → Nat → Nat → Entry → Entry) (ok : Dev → Nat → Nat → Entry → Prop) : Prop :=
  ∀ (s : State) (p : Path) (v : Word) (d : Dev) (t i : Nat) (n : Entry), s.ready = true → d = s.dev.writeReg cmd v →
    t = (if bits v 27 24 < tables then bits v 27 24 else s.dev.fld cmd 27 24) → i = s.dev.fld addr hi 0 → n = s.dev.dataEntry data →
    ok d t i n →
    Answers (c p v) s fun q =>
      q.dev.ent u (key d t i).1 (key d t i).2 = val d t i n ∧
      (∀ k, k ≠ tabKey u (key d t i).1 (key d t i).2 → tabGet entReset q.dev.tabs k = tabGet entReset s.dev.tabs k) ∧
      q.dev.tabStat cmd 0 ∧ s.dev.keepsRegs [cmd] q.dev ∧ s.dev.changesOnly parts q.dev ∧ s.keepsMem q

/-! ### Commands that hand work on -/

/-- The command does to the device what P says and hands the work listed to other units; the answer is the state in which that work, and
what it hands on in turn, is done. -/
def HandsOn (c : Instr) (s : State) (acts : List Act) (P : Dev → Prop) : Prop :=
  ∃ d, P d ∧ d.tsk.todo = acts ∧ exec c s = .next (s.commit ((d.drain drainFuel).mailPoll))

/-- The same whatever work is handed on: the device is as P says when the command's own effect is done, before that work. -/
def Does (c : Instr) (s : State) (P : Dev → Prop) : Prop :=
  ∃ d, P d ∧ exec c s = .next (s.commit ((d.drain drainFuel).mailPoll))

/-- The state in which the host has stored bytes in its own memory. -/
def State.stored (s : State) (hw : HostWrites) : State := { s with hostMem := hostPut s.hostMem hw }

/-- The same for a command before which the host stores bytes in its memory. -/
def DoesAfter (c : Instr) (hw : HostWrites) (s : State) (P : Dev → Prop) : Prop :=
  ∃ d, P d ∧ exec c s = .next ((s.stored hw).commit ((d.drain drainFuel).mailPoll))

/-- CODE, CFG_ERR_DETAIL and STEP of the configuration unit. -/
def Dev.cfgShows (d : Dev) (code detail step : Nat) : Prop :=
  d.fld Reg.CFG_STATUS 7 0 = code ∧ d.reg Reg.CFG_ERR_DETAIL = BitVec.ofNat 32 detail ∧ d.fld Reg.CFG_STATUS 26 24 = step

/-- A mailbox command that is done in the step: the response is written with the STATUS and payload of which P speaks, DONE is set and
MBX_DONE raised (R369). -/
def Mails (c : Instr) (op seq : Nat) (s : State) (P : Nat → List Byte → Dev → Prop) : Prop :=
  Answers c s fun t => ∃ status data,
    t.dev.pci = { s.dev.pci with mbx := { s.dev.pci.mbx with busy := none, done := true, resp := some (op, seq, status, data) } } ∧
    s.dev.raised Src.MBX_DONE t.dev ∧ s.keepsMem t ∧ P status data t.dev

/-- The host may act on queue q: no operation of it waits, the manager runs, and the queue is of kind HOST, or the mode TEST (R126). -/
def Dev.hostMay (d : Dev) (q : Nat) : Prop :=
  d.que.stall = none ∧ d.que.refill = none ∧ d.mode ≠ .reset ∧ d.mode ≠ .boot ∧ (d.queueKind q = some 4 ∨ d.mode = .test)

/-- The outcome of an operation of the host: its code with DONE, and QUE_POS. -/
def Dev.queShows (d : Dev) (code pos : Nat) : Prop :=
  d.reg Reg.QUE_RESULT = BitVec.ofNat 32 (2 ^ 31 + code * 2 ^ 24) ∧ d.reg Reg.QUE_POS = BitVec.ofNat 32 pos

/-- A key request for encoding `enc` of brood b has left: it is counted, the event is raised, its gap begins, every change pending on the
brood counts it, and it goes to the device's own encoder, into the next DEMAND, or as a FIR or PLI to the source leg (R145, R320). -/
def Dev.keyLeft (b enc : Nat) (need : Bool) (d e : Dev) : Prop :=
  d.counted Reg.FWD_CNT_LO 2 1 e ∧ (Src.KEYREQ_SENT ∉ d.evt.once → d.raised Src.KEYREQ_SENT e) ∧
  (e.brood b).reqLast = some d.beat ∧ (e.brood b).reqEnc = enc ∧ (e.brood b).reqWant = (d.brood b).reqWant.filter (fun w => w.1 != enc) ∧ (∀ j, j ≠ b → e.brood j = d.brood j) ∧
  (tabSorted d.fwd.subs = true → ∀ x st, tabFind d.fwd.subs x = some st →
    e.sub x = { st with reqs := st.reqs + (if d.subBrood x = b ∧ st.pending = true then 1 else 0) }) ∧
  (if (d.broodEnt b).b 0 18 then e.tsk.todo = [.keyReq b enc need] ∧ e.que = d.que
   else if (d.relayLink ((d.broodEnt b).f 0 13 0)).isSome then e.tsk.todo = [] ∧ tabFind e.mul.asks b = some enc ∧ e.que = d.que
   else e.tsk.todo = [] ∧ ∃ f : Dev, f.que = d.que ∧ f.tabs = d.tabs ∧
    e = (if (d.broodEnt b).b 0 19 then
          f.sendCtrl ((d.broodEnt b).f 0 13 0) (.fir b enc (((d.brood b).firSeq + 1) % 256)) [4, b, enc, ((d.brood b).firSeq + 1) % 256]
        else f.sendCtrl ((d.broodEnt b).f 0 13 0) (.pli b enc) [1, b, enc]))

/-- Task t of d has ended in state st in e: its entry says so with the beat, no slot counts it among those that wait, its cells are free
of it, and its state is counted (R55, R64, R72). Another task changes only where it waited for this one: it may become READY (R172). -/
def Dev.taskEnded (t st : Nat) (d e : Dev) : Prop :=
  (∀ x, d.task t = some x →
    e.task t = some { x with st := st, ended := d.beat, endNow := d.now } ∧
    (x.st = St.running ∨ x.st = St.parked → tabSorted d.tsk.cells = true → ∀ c ∈ x.cells, (e.cell c).job = none)) ∧
  (∀ j, j ≠ t → e.task j = d.task j ∨ ∃ y, d.task j = some y ∧ y.st = St.waiting ∧
    (∀ x, d.task t = some x → tabSorted d.tsk.tasks = true → y.pred = some x.order) ∧ e.task j = some { y with st := St.ready }) ∧
  (∀ p ∈ e.tsk.slots, t ∉ p.2.tasks) ∧ (∀ p ∈ e.tsk.cells, p.2.reserved ≠ some t) ∧
  d.counted Reg.TSK_CNT_LO (st - 5) 1 e

/-- Frame f of a class of port p is stamped and sent: it leaves the FIFO, is counted, and holds the medium for its time; its leg has one
packet less between selection and the medium (R257, R276, R286, R289). -/
def Dev.frameLeft (p : Nat) (f : EgFrame) (d e : Dev) : Prop :=
  .frame p f.cls f.item.desc f.item.outSeq f.item.outTs (clkNs (d.txStamp p).dt) (d.ptpOut p f (d.txStamp p)).1 ∈ e.out ∧
  (∀ x ∈ (e.egPort p).fifo, x.id ≠ f.id) ∧ (e.egPort p).busyUntil = d.now + wireFclk p f.len ∧
  d.counted (Reg.EGS_CNT_LO + portOfs p) 0 1 e ∧ d.counted (Reg.EGS_CNT_LO + portOfs p) 1 f.len e ∧
  (∀ l, f.leg = some l → (∀ x ∈ (d.egPort p).fifo, x.leg = some l → x.cls = f.cls → x.id ≠ f.id → x.launch = none) →
    (e.egLeg l).inFlight = (d.egLeg l).inFlight - 1)

/-- Nothing keeps frame f of class c at port p now but a launch time: its window is long enough, no pause or PFC holds the class, the
medium is free, and the frame ends before its gate closes (R271, R282). -/
def Dev.mayStart (d : Dev) (p c : Nat) (f : EgFrame) : Prop :=
  (∀ w, d.window p c = some w → fitsWire p f.len (w * nsUnit) = true) ∧ d.classHeld p c = false ∧ (d.egPort p).busyUntil ≤ d.now ∧
  (∀ n, d.closing p c = some n → fitsWire p f.len n = true)

/-- Frame f, whose launch time is none or past, does not start: it stays at the head of class c, is counted once as held by its gate where
that holds it, and once as delayed where it had a launch time (R268, R271, R273). -/
def Dev.frameWaits (p c : Nat) (f : EgFrame) (gate : Bool) (d e : Dev) : Prop :=
  (e.egPort p).fifo.find? (fun x => decide (x.cls = c)) =
    some { f with gateHeld := f.gateHeld || gate, delayed := f.delayed || f.due.isSome } ∧
  d.counted (Reg.GAT_CNT_LO + portOfs p) 1 (if gate ∧ f.gateHeld = false then 1 else 0) e ∧
  d.counted (Reg.GAT_CNT_LO + portOfs p) 3 (if f.due.isSome ∧ f.delayed = false then 1 else 0) e ∧
  (e.egPort p).sel = (d.egPort p).sel ∧ (e.egPort p).busyUntil = (d.egPort p).busyUntil ∧ d.changesOnly [.regs, .egs] e

/-- The FCLK from which the hold under key k has stood, which is the present one where it does not stand (R282, R288). -/
def Dev.heldSince (d : Dev) (p k : Nat) : Nat :=
  match tabFind (d.egPort p).holds k with
  | some x => if d.now < x.2 then x.1 else d.now
  | none => d.now

/-- ns from DT to launch time l, within the second. -/
def Dev.untilLaunch (d : Dev) (l : Nat) : Nat := (((l : Int) - d.dtNs) % 1000000000).toNat

/-- LAUNCH_HORIZON in ns (R268). -/
def Dev.launchHorizon (d : Dev) : Nat := d.fld Reg.TIM_LAUNCH_CFG 25 16 * 1000000

/-- The frame is held for no launch time, or DT has reached it. -/
def Dev.due (d : Dev) (f : EgFrame) : Prop := ∀ t, f.due = some t → t * nsUnit ≤ d.tim.dt

/-- A step of JOIN fails: the code is in MUL_RESULT, and the mode before JOIN returns, at the next boundary where both carry traffic
(R323, R328). -/
def Dev.joinFails (code : Nat) (d e : Dev) : Prop :=
  d.mul.joinFrom = .service ∨ d.mul.joinFrom = .configure →
  e.mul.step = 0 ∧ e.mulState = (if d.mul.joinState = 5 then 5 else 0) ∧ e.reg Reg.MUL_RESULT = BitVec.ofNat 32 (2 ^ 31 + code) ∧
  (d.mode = .join →
    if d.mul.joinFrom = .service ∧ d.fclk ≠ 0 then e.mode = .join ∧ e.pwr.want = some (.service, d.beat) else e.mode = d.mul.joinFrom)

/-- JOIN ends well, in state st of Table 15.7. -/
def Dev.joinEnds (st : Nat) (d e : Dev) : Prop :=
  e.mul.step = 0 ∧ e.mulState = st ∧ e.reg Reg.MUL_RESULT = 0x80000000 ∧ d.raised Src.CASCADE_JOINED e ∧
  (d.mode = .join → if d.fclk ≠ 0 then e.mode = .join ∧ e.pwr.want = some (.service, d.beat) else e.mode = .service)

/-- The Rooster commits a write: the entry is kept with EFFECTIVE two beats on and GEN advanced, waits for that beat, and is counted
(R319). -/
def Dev.dirCommitted (w : DirWrite) (d e : Dev) : Prop :=
  (e.ent .mul 0 w.idx).f 6 31 0 = (d.beat + 2) % 2 ^ 32 ∧ (e.ent .mul 0 w.idx).f 7 31 16 = ((d.ent .mul 0 w.idx).f 7 31 16 + 1) % 65536 ∧
  (∀ k, k < 6 → Entry.word (e.ent .mul 0 w.idx) k = Entry.word w.ent k) ∧
  e.mul.commits = d.mul.commits ++ [(w.idx, e.ent .mul 0 w.idx, d.beat + 2)] ∧ e.mul.writes = d.mul.writes.erase w ∧
  d.counted Reg.MUL_CNT_LO 5 1 e

/-- A chip reset with a cause (a bit of TOP_RESET_CAUSE) has taken d to e: the mode is RESET; registers, tables, queues, tasks and links are
as they come out of reset; the OTP, the wear records, the firmware copies and what the always-on domain holds are kept (R335, R354,
R395). In RESET already, the reset goes on. -/
def Dev.wentToReset (d e : Dev) : Prop :=
  e.mode = .reset ∧
  (d.mode ≠ .reset →
    e.now = d.now ∧ e.beat = 0 ∧ e.fclk = 0 ∧ e.tabs = [] ∧ e.que = {} ∧ e.tsk = {} ∧ e.regions = [] ∧ e.egs = {} ∧ e.mul = {} ∧ e.mem = {} ∧
    e.cfg.otp = d.cfg.otp ∧ e.lmd.recs = d.lmd.recs ∧ e.pwr.beats = d.pwr.beats ∧ e.pwr.burnt = d.pwr.burnt ∧ e.pwr.fw = d.pwr.fw ∧
    e.pwr.fwOk = d.pwr.fwOk ∧ e.vlt.slots = [] ∧ e.reg Reg.CFG_ROLLBACK = d.reg Reg.CFG_ROLLBACK ∧ e.reg Reg.TOP_ID = d.reg Reg.TOP_ID ∧
    (∀ o, o ∉ [Reg.VLT_ALARM_CAUSE, Reg.TOP_RESET_CAUSE, Reg.CFG_ROLLBACK, Reg.TOP_ID, Reg.VLT_STATUS, Reg.VLT_ALARM_EN, Reg.PWR_STATUS] →
      e.reg o = regReset o))

/-- The same of the whole machine, for a reset that keeps the always-on domain: the cause is set beside those before it, VLT_ALARM_CAUSE
and the sprint accounts are kept, and DRAM is not. -/
def State.resetTo (cause : Nat) (s t : State) : Prop :=
  s.dev.wentToReset t.dev ∧ t.dev.flag Reg.TOP_RESET_CAUSE cause = true ∧
  (∀ k, k < 5 → k ≠ cause → t.dev.flag Reg.TOP_RESET_CAUSE k = s.dev.flag Reg.TOP_RESET_CAUSE k) ∧
  t.dev.reg Reg.VLT_ALARM_CAUSE = s.dev.reg Reg.VLT_ALARM_CAUSE ∧ t.dev.pwr.residue = s.dev.pwr.residue ∧
  t.dev.pwr.fullUntil = s.dev.pwr.fullUntil ∧ t.dram = [] ∧ t.hostMem = s.hostMem ∧ t.pending = s.pending

/-- A reset of the always-on domain as well: VDD_AUX is the one cause left, no alarm cause is kept, the sprint window reads full for 600 s
and the residue is the time charged (R117, R350, R397). -/
def State.auxResetTo (s t : State) : Prop :=
  s.dev.wentToReset t.dev ∧ t.dev.reg Reg.TOP_RESET_CAUSE = 16 ∧ t.dev.reg Reg.VLT_ALARM_CAUSE = 0 ∧ t.dev.vlt.fails = [] ∧
  t.dev.pwr.runs = [] ∧ t.dev.pwr.fullUntil = t.dev.pwr.beats + 360000 ∧ t.dev.pwr.residue = t.dev.pwr.burnt * 216000 ∧
  t.dev.pwr.waitRails = true ∧ t.dram = [] ∧ t.hostMem = s.hostMem ∧ t.pending = s.pending

end Sys2Proof.Machine
end

