-- ==== Sys2Proof/WellFormed.lean ====
section
/-! DEFINITION. Which commands are well formed: operands within the ranges the spec gives them, table commands that carry their own
operation code, and register accesses that name a register of their kind. A meaning is given to every term; only these stand for
something the outside can do. -/

namespace Sys2Proof
open Machine

/-- Registers whose writes have rows of their own (each command of theirs, or every write). -/
def ownRow : List Nat :=
  [Reg.TIM_BEAT_OFFSET, Reg.TSK_ABORT, Reg.TOP_MODE_REQ, Reg.MEM_FSP, Reg.EVT_STAT, Reg.TSK_HWAIT_CTRL]

/-- Bits of a register that start a command with a row of its own, by the base of its family. -/
def commandBits (b : Nat) : Word :=
  if b = Reg.CFG_CTRL ∨ b = Reg.QUE_CMD ∨ b = Reg.TSK_TAB_CMD ∨ b = Reg.MAT_TAB_CMD ∨ b = Reg.MET_TAB_CMD ∨ b = Reg.VLT_TAB_CMD ∨
     b = Reg.QUE_TAB_CMD ∨ b = Reg.FWD_TAB_CMD ∨ b = Reg.LEG_TAB_CMD ∨ b = Reg.VDC_TAB_CMD ∨ b = Reg.CMP_TAB_CMD ∨
     b = Reg.VEN_TAB_CMD ∨ b = Reg.AUD_TAB_CMD ∨ b = Reg.FLT_TAB_CMD ∨ b = Reg.GAT_TAB_CMD ∨ b = Reg.EGS_TAB_CMD ∨
     b = Reg.MUL_TAB_CMD ∨ b = Reg.LMD_TAB_CMD ∨ b = Reg.TAP_TAB_CMD then 0xF0000000
  else startBits b

/-- A write that no other row covers: a register, or MBX_CTRL; no half of a pair; no command. -/
def plainWrite (off : Nat) (v : Word) : Bool :=
  off == mbxCtrlOff ||
  (match regDesc off with
   | none => false
   | some r => !ownRow.contains r.base && !isLo off && !(decide (4 ≤ off) && isLo (off - 4)) && v &&& commandBits r.base == 0 &&
       !(r.base == Reg.MSIX_CTRL && !bit v 0))

def writableLo (off : Nat) : Bool :=
  match regDesc off with
  | some r => r.fields.any (fun f => f.acc == .rw || f.acc == .wo)
  | none => false

def readClears (off : Nat) : Bool :=
  match regDesc off with
  | some r => rcMask r.fields != 0
  | none => false

def hostOk (hw : HostWrites) : Bool := hw.all (fun w => decide (w.1 < 2 ^ 64))

/-- The header fields of a Mule frame fit (Table 15.2). -/
def frameOk (f : MuleFrame) : Bool :=
  decide (f.cls < 4) && decide (f.payload.length ≤ 9216) && decide (f.src < 8) && decide (f.dst < 8) && decide (f.hops < 8) && decide (f.flock < 4096) &&
  decide (f.brood < 65536) && decide (f.seqn < 65536) && decide (f.beat < 2 ^ 32)

def Instr.wf (i : Instr) : Bool :=
  match i with
  | .registerWrite _ off v => plainWrite off v
  | .readLoLatch _ off => isLo off
  | .writeLoHold _ off _ => isLo off && writableLo off
  | .writeHiCommit _ off _ => decide (4 ≤ off) && isLo (off - 4) && writableLo (off - 4) && off - 4 != Reg.TSK_POST_TAG_LO && !(decide (((regDesc (off - 4)).map (·.base)) = some Reg.TIM_DOM_OFS_LO))
  | .rcRead _ off _ => readClears off
  | .beatBoundary => true
  | .cellYielded cell => cellValid cell
  | .yieldGraceExpiry => true
  | .cellResetDone cell => cellValid cell
  | .jobRetire cell _ => cellValid cell
  | .jobIssue cell => cellValid cell
  | .deadlineSettle task => decide (task < 131072)
  | .taskWaitLimit task => decide (task < 131072)
  | .msSlotHoldExpiry slot => decide (slot < 65536)
  | .cellParityError cell _ => cellValid cell
  | .cacheUncorrectableError region _ => decide (region < 6)
  | .regionScrubDone region _ => decide (region < 6)
  | .regionAutoReloadDone region _ _ => decide (region < 6)
  | .chipFaultResetTimer => true
  | .timBeatOffsetWrite _ _ => true
  | .dtLoad => true
  | .configureLoad _ v hw => bits v 31 28 == 1 && hostOk hw
  | .reloadRegion _ v hw => bits v 31 28 == 2 && hostOk hw
  | .cancel _ v => bits v 31 28 == 3
  | .checkOnly _ v hw => bits v 31 28 == 4 && hostOk hw
  | .loadRegion seq _ _ _ hw => decide (seq < 65536) && hostOk hw
  | .reloadCheckDone => true
  | .reloadDrainDone hw => hostOk hw
  | .reloadDrainLimit => true
  | .portSteer port => decide (port < 8)
  | .reloadWriteDone => true
  | .reloadVerifyDone _ => true
  | .reloadRejoinDone _ => true
  | .trainDone _ => true
  | .configureSectionsDone => true
  | .tskTabRead _ v => bits v 31 28 == 1
  | .tskTabWrite _ v => bits v 31 28 == 2
  | .tskAbort _ _ => true
  | .abortResolved => true
  | .abortStopTimeout => true
  | .tskPost _ _ => true
  | .hwaitArm _ n _ => decide (n < 64)
  | .hwaitCancel _ n v => decide (n < 64) && bit v 30
  | .hwaitTimeout n => decide (n < 64)
  | .stallTimeout => true
  | .completionRecordWrite task => decide (task < 131072)
  | .frameReceived port _ _ => decide (port < 8)
  | .flowBucketFill plane _ => decide (plane < 2)
  | .passDecision plane _ => decide (plane < 2)
  | .recircSecondPass plane _ => decide (plane < 2)
  | .reorderRelease plane port => decide (plane < 2) && decide (port < 8)
  | .flowAgeSweep _ => true
  | .matTabRead _ v => bits v 31 28 == 1
  | .matTabWrite _ v => bits v 31 28 == 2
  | .matTabInsert _ v => bits v 31 28 == 3
  | .matTabDelete _ v => bits v 31 28 == 4
  | .matTabLookup _ v => bits v 31 28 == 5
  | .matTabCopyActive _ v => bits v 31 28 == 6
  | .matEpochCommit _ v => bit v 31
  | .epochReclaimed => true
  | .metTabRead _ v => bits v 31 28 == 1
  | .metTabWrite _ v => bits v 31 28 == 2
  | .metTabReadClear _ v _ => bits v 31 28 == 7
  | .cipherPlaintextRelease plane cell => decide (plane < 2) && decide (cell < 64)
  | .cipherProgramEnd plane cell => decide (plane < 2) && decide (cell < 64)
  | .authTimeout _ => true
  | .slotLoadDone lane => decide (lane < 2)
  | .keyWaitTimeout plane _ => decide (plane < 2)
  | .importOpen seq _ _ => decide (seq < 65536)
  | .importWrap seq _ recs => decide (seq < 65536) && recs.all (fun r => r.length == 72)
  | .importClose seq session => decide (seq < 65536) && decide (session < 16)
  | .blobGet seq _ _ => decide (seq < 65536)
  | .blobPut seq _ _ blobs => decide (seq < 65536) && blobs.all (fun b => b.length == 128)
  | .importSessionExpiry session => decide (session < 16)
  | .vaultAlarm src => decide (src < 8)
  | .zeroizeErasureDone => true
  | .provision seq => decide (seq < 65536)
  | .attest seq _ => decide (seq < 65536)
  | .vltTabRead _ v => bits v 31 28 == 1
  | .vltTabWrite _ v => bits v 31 28 == 2
  | .queRead _ v => bits v 31 28 == 1
  | .queMark _ v => bits v 31 28 == 2
  | .queRewind _ v => bits v 31 28 == 3
  | .queSkip _ v => bits v 31 28 == 4
  | .queRelease _ v => bits v 31 28 == 5
  | .queFlush _ v => bits v 31 28 == 6
  | .queHeadRefillDone => true
  | .spillMoveDone queue => decide (queue < 262144)
  | .historyAge => true
  | .fcOutputChange out => decide (out < 16)
  | .pauseRepeat out => decide (out < 16)
  | .queTabRead _ v => bits v 31 28 == 1
  | .queTabWrite _ v => bits v 31 28 == 2
  | .keyreqWaitExpiry sub => decide (sub < 262144)
  | .keyreqGapExpiry brood => decide (brood < 65536)
  | .upstreamNack brood _ _ => decide (brood < 65536)
  | .srGenerate sub => decide (sub < 262144)
  | .twccFeedbackGenerate leg => decide (leg < 16384)
  | .legFeedbackTimeout leg => decide (leg < 16384)
  | .feedbackLostHalve leg => decide (leg < 16384)
  | .fwdTabRead _ v => bits v 31 28 == 1
  | .fwdTabWrite _ v => bits v 31 28 == 2
  | .legTabRead _ v => bits v 31 28 == 1
  | .legTabWrite _ v => bits v 31 28 == 2
  | .auWaitExpiry ent => decide (ent < 16384)
  | .decFenceHit cell => cellValid cell
  | .fillEngineDone task => decide (task < 131072)
  | .vdcTabRead _ v => bits v 31 28 == 1
  | .vdcTabWrite _ v => bits v 31 28 == 2
  | .cmpTabRead _ v => bits v 31 28 == 1
  | .cmpTabWrite _ v => bits v 31 28 == 2
  | .encFenceHit cell => cellValid cell
  | .venTabRead _ v => bits v 31 28 == 1
  | .venTabWrite _ v => bits v 31 28 == 2
  | .audTabRead _ v => bits v 31 28 == 1
  | .audTabWrite _ v => bits v 31 28 == 2
  | .fltTabRead _ v => bits v 31 28 == 1
  | .fltTabWrite _ v => bits v 31 28 == 2
  | .timCapture _ v => bit v 31
  | .timSwitch _ v => bit v 30
  | .timDomSample d _ _ => decide (d < 6)
  | .ppsInEdge => true
  | .ppsOutEdge => true
  | .syntonSecond d _ => decide (d < 6)
  | .clockHoldoverTimeout d => decide (d < 6)
  | .timAcceptJump _ d v => decide (d < 6) && bit v 31
  | .timRestart _ d v => decide (d < 6) && bit v 30
  | .launchTimeReached port cls => decide (port < 8) && decide (cls < 8)
  | .gateCommit _ port v => decide (port < 8) && bit v 30
  | .gateCancel _ port v => decide (port < 8) && bit v 29
  | .gateListStart port => decide (port < 8)
  | .gateEntryChange port => decide (port < 8)
  | .gatTabRead _ v => bits v 31 28 == 1
  | .gatTabWrite _ v => bits v 31 28 == 2
  | .egressSelect port => decide (port < 8)
  | .runIntervalStart => true
  | .frameTxStart port cls => decide (port < 8) && decide (cls < 8)
  | .pauseReceived port quanta => decide (port < 8) && decide (quanta < 65536)
  | .pfcReceived port vec quanta => decide (port < 8) && decide (vec < 256) && decide (quanta.length = 8)
  | .pauseHoldExpiry port cls => decide (port < 8) && decide (cls < 8)
  | .egressPauseHeld port cls => decide (port < 8) && decide (cls < 8)
  | .egressMoveDone leg => decide (leg < 16384)
  | .egsTabRead _ v => bits v 31 28 == 1
  | .egsTabWrite _ v => bits v 31 28 == 2
  | .scrubRead ch _ _ => decide (ch < 17)
  | .refresh ch => decide (ch < 17)
  | .retrainPass ch _ _ => decide (ch < 17)
  | .retrainRetry ch _ => decide (ch < 17)
  | .memFspWrite _ _ => true
  | .fspChangeDone => true
  | .memMigrate _ v => bit v 31
  | .migrationDone => true
  | .restoreDone => true
  | .memRetest _ v => bit v 30
  | .retestDone ch _ _ => decide (ch < 17)
  | .memRetrain _ v => bit v 29
  | .cascadeJoin _ v => bit v 31
  | .cascadeLeave _ v => bit v 30
  | .handover _ v => bit v 29
  | .joinHelloDone _ => true
  | .joinTimeLocked => true
  | .joinAlign => true
  | .joinDirectoryDone ents => ents.all (fun e => decide (e.idx < 32768))
  | .joinStepTimeout => true
  | .muleMedia link f => decide (link < 4) && frameOk f
  | .mulePartial link f => decide (link < 4) && frameOk f
  | .muleTalkers link f => decide (link < 4) && frameOk f
  | .muleDemand link f => decide (link < 4) && frameOk f
  | .muleTime link f => decide (link < 4) && frameOk f
  | .muleHeartbeat link f => decide (link < 4) && frameOk f
  | .muleDirectory link f => decide (link < 4) && frameOk f
  | .muleCredit link f => decide (link < 4) && frameOk f
  | .muleTunNak link f => decide (link < 4) && frameOk f
  | .tunNakRetry link _ => decide (link < 4)
  | .muleTimeExchange => true
  | .heartbeatTimeout seen => seen.all (fun x => decide (x < 8))
  | .mulTabRead _ v => bits v 31 28 == 1
  | .mulTabWrite _ v => bits v 31 28 == 2
  | .standbyAckTimeout _ => true
  | .directoryApply _ => true
  | .muleLaneLoss link => decide (link < 4)
  | .muleLinkDown link => decide (link < 4)
  | .topModeReq _ _ => true
  | .modeSet seq target _ => decide (seq < 65536) && decide (target < 16)
  | .modeTransition => true
  | .resetNAssert _ => true
  | .resetRelease cascId pri => decide (cascId < 8) && decide (pri < 8)
  | .bootFwVerified _ _ => true
  | .shedStageEnter rails => decide (rails.length = 8)
  | .shedStageLift rails _ => decide (rails.length = 8)
  | .sagPinChange lvl => decide (lvl < 4)
  | .brownOut rail => decide (rail < 8)
  | .thermThrottle temps => decide (temps.length = 24)
  | .thermEmergency temps => decide (temps.length = 24)
  | .thermTrip temps => decide (temps.length = 24)
  | .sprintRequest _ v => bit v 31
  | .sprintReq seq _ => decide (seq < 65536)
  | .sprintEnter => true
  | .sprintEndRequest _ v => bit v 30
  | .sprintAutoEnd => true
  | .lmPresentFall m => decide (m < 8)
  | .lmInsertDelay m _ => decide (m < 8)
  | .lmPresentRise m => decide (m < 8)
  | .lmInt mons => decide (mons.length ≤ 8)
  | .lmPoll m _ => decide (m < 8)
  | .wearRecordUpdate m _ => decide (m < 8)
  | .lmdDrain _ m v => decide (m < 8) && bit v 31
  | .lmdModReset _ m v => decide (m < 8) && bit v 30
  | .lmdTabRead _ v => bits v 31 28 == 1
  | .lmRead seq m _ _ _ len data => decide (seq < 65536) && decide (m < 8) && decide (data.length = len)
  | .lmBusStuck bus => decide (bus < 4)
  | .functionLevelReset => true
  | .pcieLinkDown => true
  | .bar2Read ofs len => decide (ofs + len ≤ 2 ^ 32)
  | .bar2Write ofs data => decide (ofs + data.length ≤ 2 ^ 32)
  | .puntRingDoorbell ring tail hw => decide (ring < 16) && decide (tail < 65536) && hostOk hw
  | .injectRingDoorbell ring tail hw => decide (ring < 16) && decide (tail < 65536) && hostOk hw
  | .puntDeliver ring => decide (ring < 16)
  | .injectRawPort ring => decide (ring < 16)
  | .injectLegCtrl ring => decide (ring < 16)
  | .injectReparse ring => decide (ring < 16)
  | .ringCoalTimer ring => decide (ring < 33)
  | .getInfo seq => decide (seq < 65536)
  | .eventLog seq _ _ => decide (seq < 65536)
  | .fwWrite seq copy _ _ _ => decide (seq < 65536) && decide (copy < 2)
  | .fwSwitch seq => decide (seq < 65536)
  | .mcRestart => true
  | .rollbackSet seq _ => decide (seq < 65536)
  | .portRead seq port => decide (seq < 65536) && decide (port < 8)
  | .policySet seq _ => decide (seq < 65536)
  | .evtStatWrite _ w _ _ => decide (w < 20)
  | .msixUnmask vec => decide (vec < 64)
  | .tapFrameTx lane => decide (lane < 4)
  | .tapHoldAssert => true
  | .tapHoldRelease => true
  | .tapHoldLong => true
  | .tapLaneDown lane => decide (lane < 6)
  | .tapLaneUp lane => decide (lane < 6)
  | .tapInputFrame lane _ => decide (lane < 2)
  | .tapSegWaitExpiry lane => decide (lane < 2)
  | .tapTabRead _ v => bits v 31 28 == 1
  | .tapTabWrite _ v => bits v 31 28 == 2
  | .sysRefclkLost => true
  | .refclkReturn => true
  | .referenceClockLost ref => (match ref with | .eth p => decide (p < 2) | _ => true)
  | .portLinkDown port => decide (port < 8)
  | .railsGood => true
  | .auxPowerOn => true
  | .runRequest leg => decide (leg < 16384)
  | .muleLinkUp link => decide (link < 4)
  | .portLinkUp port => decide (port < 8)
  | .pcieLinkUp => true
  | .mailboxCommandTimeout => true
  | .pcieUncorrectableError => true

end Sys2Proof
end

