-- ==== Sys2Proof/Certificates/Slice0/Obligations.lean ====
section
/-! DEFINITION. The statements about the model. -/

open Sys2Proof Sys2Proof.Machine

/-- With a command c at the front of the queue, a step is exec of c on the state with the queue's rest. (95_what_each_step_holds.md) -/
def Obligations.StepRunsTheFrontCommand : Prop :=
  ∀ (s : State) (c : Instr) (rest : List Instr), s.pending = c :: rest → step s = exec c { s with pending := rest }

/-- On an empty queue a step lets one FCLK pass, and where that FCLK is the first of a beat it puts BEAT_BOUNDARY at the front of the
queue instead; both memories stay as they are. The model's choice (log 2). (01_device_and_beat.md, 95_what_each_step_holds.md) -/
def Obligations.StepOnEmptyQueueIsATick : Prop :=
  ∀ s : State, s.pending = [] → ∃ t, step s = .next t ∧ t.hostMem = s.hostMem ∧ t.dram = s.dram ∧
    (1 < s.dev.fclkToBoundary → t.pending = [] ∧ t.dev = s.dev.advance 1) ∧
    (s.dev.fclkToBoundary ≤ 1 → t.pending = [.beatBoundary] ∧ t.dev = s.dev)

/-- Every command, from every state and with every operand, answers a next state, and the commands that wait are the same in it.
(Choices of the model it rests on: log 3.) (95_what_each_step_holds.md) -/
def Obligations.ExecAnswersAndKeepsTheQueue : Prop :=
  ∀ (c : Instr) (s : State), ∃ t, exec c s = .next t ∧ t.pending = s.pending

/-- After reset the device is in mode RESET (TOP_MODE reads 0x0), no command waits, beat and FCLK count 0, both memories list nothing,
no task, slot, flow, import session, layout or queue item exists, and registers with a reset value in their table hold it: the
shadow bank in MAT_TAB_CMD, TSK_MS_HIWAT 0xE666, TSK_MS_HOLD 6, MGT_POLICY 0x40000000, TSK_STATUS 0. That memories list nothing,
and beats count from 0, is the model's choice (log 1, log 30). (R328, R358, R72, R93, R17) -/
def Obligations.ResetState : Prop :=
  State.reset.dev.mode = .reset ∧ State.reset.dev.reg Reg.TOP_MODE = 0 ∧ State.reset.pending = [] ∧ State.reset.dev.beat = 0 ∧
  State.reset.dev.fclk = 0 ∧ State.reset.hostMem = [] ∧ State.reset.dram = [] ∧ State.reset.dev.tsk.tasks = [] ∧
  State.reset.dev.tsk.slots = [] ∧ State.reset.dev.pkt.flows = [] ∧ State.reset.dev.vlt.sessions = [] ∧
  State.reset.dev.cmp.lays = [] ∧ State.reset.dev.que.queues = [] ∧ State.reset.dev.reg Reg.MAT_TAB_CMD = 0x00800000 ∧
  State.reset.dev.reg Reg.TSK_MS_HIWAT = 0xE666 ∧ State.reset.dev.reg Reg.TSK_MS_HOLD = 6 ∧
  State.reset.dev.reg Reg.MGT_POLICY = 0x40000000 ∧ State.reset.dev.readReg Reg.TSK_STATUS = 0

/-- The state after reset meets the invariant of every step: both memories in canonical form and within their address spaces, no write
left over, DRAM empty in RESET. (Choices of the model it rests on: log 28.) (14_memory.md, 16_modes_power_availability.md) -/
def Obligations.ResetIsSound : Prop :=
  State.reset.sound = true

/-- For every state that is sound (host memory and DRAM list addresses strictly rising, no byte listed that an unlisted address reads
as, no address past the address space, no write of the device left over, and DRAM empty while the device is in RESET), whatever
command stands at the front of the queue or none, a step answers a next state and that state is sound. (Choices of the model it
rests on: log 28, 77.) (14_memory.md, 17_host_events_tap.md, R335) -/
def Obligations.StepKeepsTheStateSound : Prop :=
  ∀ s : State, s.sound = true → ∃ t, step s = .next t ∧ t.sound = true

/-- A write of v to a register with no effect of its own, at an offset that a register table assigns, sets each field by its code: an
RW field takes the value written unless that is a reserved encoding, when it keeps its value; RO, WO and RC fields keep theirs; a
W1C bit written 1 clears unless hardware set it in the same FCLK; a W1S bit written 1 sets; the other fields of the same write
take effect. A bit that no field names, written 1 or 0, reads 0 if it read 0. No other register, no table entry and no memory
changes. (Choices of the model it rests on: log 18, 19.) (R6, R7, R9) -/
def Obligations.RegisterWriteByAccessCode : Prop :=
  ∀ (s : State) (p : Path) (off : Nat) (v : Word) (r : RegDesc), s.ready = true → plainWrite off v = true → regDesc off = some r →
    r.base ∉ ownEffect →
    Answers (.registerWrite p off v) s fun t =>
      (∀ f ∈ r.fields, bits (t.dev.reg off) f.hi f.lo =
        match f.acc with
        | .rw => if f.legal (bits v f.hi f.lo) then bits v f.hi f.lo else bits (s.dev.reg off) f.hi f.lo
        | .w1c => bits (s.dev.reg off) f.hi f.lo - (bits (s.dev.reg off) f.hi f.lo &&& bits (v &&& ~~~(s.dev.justSet off)) f.hi f.lo)
        | .w1s => bits (s.dev.reg off) f.hi f.lo ||| bits v f.hi f.lo
        | .ro | .wo | .rc => bits (s.dev.reg off) f.hi f.lo) ∧
      (∀ b, b < 32 → (∀ f ∈ r.fields, ¬ (f.lo ≤ b ∧ b ≤ f.hi)) → bit (t.dev.reg off) b = bit (s.dev.reg off) b) ∧
      s.dev.keepsRegs [off] t.dev ∧ s.dev.changesOnly [.regs] t.dev ∧ s.keepsMem t

/-- A write at an offset of BAR0 that no register table assigns changes nothing. A write of EVT_SRC_CFG of a source that exists sets
EN, TO_HOST, TO_MC, TO_PIN and VECTOR, but a FATAL source's EN, TO_MC and TO_PIN stay 1, and its SEVERITY stays. RING_CFG is
ignored while EN is 1 but for the write that clears EN, which empties the ring's own state. PCI_WIN_BASE takes no base beyond the
capacity. TRE_CTRL sets the enables of the shadow bank alone, and only while the previous epoch is reclaimed. A write of PWR_CFG
is judged in its beat. A write of TIM_BEAT_OFFSET, TSK_HWAIT_CTRL, MEM_FSP, EVT_STAT, TOP_MODE_REQ or RING_TAIL, and one that
unmasks a vector, is the command of that name. (Choices of the model it rests on: log 32, 95.) (R8, R18, R66, R90, R330, R337,
R362, R364, R374, R375) -/
def Obligations.RegisterWritesWithTheirOwnEffect : Prop :=
  ∀ (s : State) (p : Path) (v : Word), s.ready = true →
  (∀ off, off < 2 ^ 32 → regDesc off = none → exec (.registerWrite p off v) s = .next s) ∧
  (∀ x, x < 640 →
    (evtSeverity x = none → exec (.registerWrite p (Reg.EVT_SRC_CFG + 4 * x) v) s = .next s) ∧
    (∀ sev, evtSeverity x = some sev → Answers (.registerWrite p (Reg.EVT_SRC_CFG + 4 * x) v) s fun t => ∀ w, w = t.dev.reg (Reg.EVT_SRC_CFG + 4 * x) →
      bit w 31 = (bit v 31 || sev == 3) ∧ bit w 28 = bit v 28 ∧ bit w 27 = (bit v 27 || sev == 3) ∧ bit w 26 = (bit v 26 || sev == 3) ∧ bits w 5 0 = bits v 5 0 ∧
      bits w 30 29 = bits (s.dev.reg (Reg.EVT_SRC_CFG + 4 * x)) 30 29 ∧ s.dev.keepsRegs [Reg.EVT_SRC_CFG + 4 * x] t.dev ∧ s.dev.changesOnly [.regs] t.dev ∧ s.keepsMem t)) ∧
  (∀ r off, r < 33 → off = Reg.RING_CFG + ringOfs r →
    (s.dev.flag off 31 = true → bit v 31 = true → exec (.registerWrite p off v) s = .next s) ∧
    (s.dev.flag off 31 = false ∨ bit v 31 = false → Answers (.registerWrite p off v) s fun t => t.dev.flag off 31 = bit v 31 ∧
      t.dev.fld off 20 16 = (if 6 ≤ bits v 20 16 ∧ bits v 20 16 ≤ 16 then bits v 20 16 else s.dev.fld off 20 16) ∧
      t.dev.fld off 6 0 = (if 1 ≤ bits v 6 0 ∧ bits v 6 0 ≤ 64 then bits v 6 0 else s.dev.fld off 6 0) ∧
      (bit v 31 = true → t.dev.pci = s.dev.pci) ∧
      (bit v 31 = false → t.dev.ringRec r = {} ∧ (∀ x, x ≠ r → t.dev.ringRec x = s.dev.ringRec x) ∧ t.dev.pci.inFlight = s.dev.pci.inFlight.filter (fun x => x.ring != r)) ∧
      s.dev.keepsRegs [off] t.dev ∧ s.dev.changesOnly [.regs, .pci] t.dev ∧ s.keepsMem t)) ∧
  (Answers (.registerWrite p Reg.PCI_WIN_BASE v) s fun t =>
    t.dev.fld Reg.PCI_WIN_BASE 8 0 = (if bits v 8 0 = 0 ∨ bits v 8 0 * 2 ^ 28 < s.dev.capBytes then bits v 8 0 else s.dev.fld Reg.PCI_WIN_BASE 8 0) ∧
    s.dev.keepsRegs [Reg.PCI_WIN_BASE] t.dev ∧ s.dev.changesOnly [.regs] t.dev ∧ s.keepsMem t) ∧
  (∀ b, b = 1 - s.dev.epochNow % 2 →
    (s.dev.flag Reg.MAT_EPOCH 30 = false → exec (.registerWrite p Reg.TRE_CTRL v) s = .next s) ∧
    (s.dev.flag Reg.MAT_EPOCH 30 = true → Answers (.registerWrite p Reg.TRE_CTRL v) s fun t => t.dev.fld Reg.TRE_CTRL (2 * b + 1) (2 * b) = bits v (2 * b + 1) (2 * b) ∧
      t.dev.fld Reg.TRE_CTRL (3 - 2 * b) (2 - 2 * b) = s.dev.fld Reg.TRE_CTRL (3 - 2 * b) (2 - 2 * b) ∧
      s.dev.keepsRegs [Reg.TRE_CTRL] t.dev ∧ s.dev.changesOnly [.regs] t.dev ∧ s.keepsMem t)) ∧
  (s.dev.mode ≠ .reset → Answers (.registerWrite p Reg.PWR_CFG v) s fun t => t.dev.flag Reg.PWR_CFG 31 = bit v 31 ∧ t.dev.flag Reg.PWR_CFG 30 = bit v 30 ∧
    t.dev.pwr = { s.dev.pwr with deep := max s.dev.pwr.deep t.dev.wantedStage, dip := s.dev.pwr.dip || !t.dev.calm t.dev.stage } ∧
    s.dev.keepsRegs [Reg.PWR_CFG] t.dev ∧ s.dev.changesOnly [.regs, .pwr] t.dev ∧ s.keepsMem t) ∧
  (∀ k, k < 64 → (bit v 0 = false → exec (.registerWrite p (Reg.MSIX_CTRL + 16 * k) v) s = exec (.msixUnmask k) s) ∧
    (bit v 0 = true → Answers (.registerWrite p (Reg.MSIX_CTRL + 16 * k) v) s fun t => t.dev.flag (Reg.MSIX_CTRL + 16 * k) 0 = true ∧
      s.dev.keepsRegs [Reg.MSIX_CTRL + 16 * k] t.dev ∧ s.dev.changesOnly [.regs] t.dev ∧ s.keepsMem t)) ∧
  exec (.registerWrite p Reg.TIM_BEAT_OFFSET v) s = exec (.timBeatOffsetWrite p v) s ∧ exec (.registerWrite p Reg.MEM_FSP v) s = exec (.memFspWrite p v) s ∧
  exec (.registerWrite p Reg.TOP_MODE_REQ v) s = exec (.topModeReq p v) s ∧
  (∀ n, n < 64 → exec (.registerWrite p (Reg.TSK_HWAIT_CTRL + 16 * n) v) s = exec (.hwaitArm p n v) s) ∧
  (∀ w, w < 20 → exec (.registerWrite p (Reg.EVT_STAT + 4 * w) v) s = exec (.evtStatWrite p w v 0) s) ∧
  (∀ r, r < 16 → exec (.registerWrite p (Reg.RING_TAIL + ringOfs r) v) s = exec (.puntRingDoorbell r (bits v 15 0) []) s ∧
    exec (.registerWrite p (Reg.RING_TAIL + ringOfs (16 + r)) v) s = exec (.injectRingDoorbell r (bits v 15 0) []) s)

/-- A read of a _LO half that a read does not clear returns the half and latches the simultaneous value of the _HI half for the path,
and a later read of a _HI half on that path returns the latched value; with none latched it returns the live one. A write of a _LO
half is held for its path, replaces what was held, and changes no register; the following write of a _HI half commits both halves
in one clock, each field by its access code, and the held value is cleared to 0, so that with nothing held a low half of 0 is
committed. An access on one path never changes the latch or the held value of the other. TIM_DOM_OFS and the tree roots, whose
commit acts otherwise (R260, R91), are left to their own statements. (Choices of the model it rests on: log 16.) (R11) -/
def Obligations.HalvesOfA64BitQuantity : Prop :=
  (∀ (s : State) (p : Path) (off : Nat) (r : RegDesc), s.ready = true → regDesc off = some r → isLo off = true → rcMask r.fields = 0 →
    off ≠ Reg.TIM_BEAT_LO → r.base ≠ Reg.TIM_DOM_OFS_LO →
    Answers (.readLoLatch p off) s fun t =>
      t.dev.out = .readData (s.dev.readReg off) :: s.dev.out ∧ t.dev.readHi p (off + 4) = s.dev.readReg (off + 4) ∧
      (∀ q, q ≠ p → t.dev.latched q = s.dev.latched q) ∧
      s.dev.changesOnly [.latches, .out] t.dev ∧ s.keepsMem t) ∧
  (∀ (d : Dev) (p : Path) (off : Nat), d.latched p = none → d.readHi p off = d.readReg off) ∧
  (∀ (s : State) (p : Path) (off : Nat) (v : Word), s.ready = true → isLo off = true →
    Answers (.writeLoHold p off v) s fun t =>
      t.dev.heldLo p = v ∧
      (∀ q, q ≠ p → t.dev.heldLo q = s.dev.heldLo q) ∧
      s.dev.changesOnly [.held] t.dev ∧ s.keepsMem t) ∧
  (∀ (s : State) (p : Path) (off : Nat) (v : Word) (r : RegDesc), s.ready = true → isLo off = true → off ≠ Reg.TSK_POST_TAG_LO →
    regDesc off = some r → r.base ≠ Reg.TIM_DOM_OFS_LO → r.base ≠ Reg.TRE_ROOT_LO →
    Answers (.writeHiCommit p (off + 4) v) s fun t =>
      t.dev.reg off = writeFields r.fields (s.dev.reg off) (s.dev.clearMask off r.fields (s.dev.heldLo p)) ∧
      (∀ r', regDesc (off + 4) = some r' → t.dev.reg (off + 4) = writeFields r'.fields (s.dev.reg (off + 4)) (s.dev.clearMask (off + 4) r'.fields v)) ∧
      t.dev.heldLo p = 0 ∧
      (∀ q, q ≠ p → t.dev.heldLo q = s.dev.heldLo q) ∧
      s.dev.keepsRegs [off, off + 4] t.dev ∧ s.dev.changesOnly [.regs, .held] t.dev ∧ s.keepsMem t)

/-- A read of a counter that reads clear returns its value before the increments of that clock and leaves those increments: for a
pair, the pair then holds them and the _HI half before the read stays latched for the path; for a word that is one RC field, the
word then holds them. Nothing else changes. (Choices of the model it rests on: log 17.) (R10) -/
def Obligations.ReadToClearCounters : Prop :=
  (∀ (s : State) (p : Path) (off inc : Nat) (r : RegDesc), s.ready = true → inc < 2 ^ 64 → regDesc off = some r → rcMask r.fields ≠ 0 → isLo off = true →
    s.dev.viewOf r.base (off - r.base) = none →
    Answers (.rcRead p off inc) s fun t =>
      t.dev.out = .readData (s.dev.reg off) :: s.dev.out ∧ t.dev.readHi p (off + 4) = s.dev.reg (off + 4) ∧
      t.dev.reg64 off (off + 4) = inc ∧ s.dev.keepsRegs [off, off + 4] t.dev ∧ s.dev.changesOnly [.regs, .latches, .out] t.dev ∧
      s.keepsMem t) ∧
  (∀ (s : State) (p : Path) (off inc : Nat) (r : RegDesc), s.ready = true → inc < 2 ^ 32 → regDesc off = some r →
    rcMask r.fields = 2 ^ 32 - 1 → isLo off = false → s.dev.viewOf r.base (off - r.base) = none →
    Answers (.rcRead p off inc) s fun t =>
      t.dev.out = .readData (s.dev.reg off) :: s.dev.out ∧ t.dev.reg off = BitVec.ofNat 32 inc ∧
      s.dev.keepsRegs [off] t.dev ∧ s.dev.changesOnly [.regs, .out] t.dev ∧ s.keepsMem t)

/-- At the end of the grace of its deadline beat a task that runs has its cell stopped and reset and ends LATE, and any other live
task ends EXPIRED; an abort of a live task ends it ABORTED, a running one once the FCLK in which its cells accept is over, sets
TSK_ABORT_RESULT.DONE with result 0 and raises ABORT_DONE; an abort of a task in a final state, or of one whose entry is free,
resolves NOTHING_TO_ABORT, one of a stale handle STALE_HANDLE; where the task has ended since the write, what ended it is the
outcome. An ended task's entry holds its final state and the beat, no slot counts it, no cell runs or is reserved for it, the
state is counted, and what its kind publishes follows. A task whose deadline beat is ahead, or that has ended, is not settled.
(Choices of the model it rests on: log 3, 76.) (R25, R55, R64, R69, R72) -/
def Obligations.TasksEndAtGraceOrAbort : Prop :=
  (∀ (s : State) (k : Nat) (x : Task), s.ready = true → s.dev.task k = some x → x.st < 5 → x.st ≠ St.running → x.deadline ≤ s.dev.beat →
    s.dev.endGrace.task k = some x →
    HandsOn (.deadlineSettle k) s [.ended k] fun d =>
      s.dev.endGrace.taskEnded k St.expired d ∧ s.dev.endGrace.changesOnly [.regs, .tsk, .evt, .out] d) ∧
  (∀ (s : State) (k c : Nat) (x : Task), s.ready = true → s.dev.task k = some x → x.st = St.running → x.deadline ≤ s.dev.beat → x.cells = [c] →
    (s.dev.cell c).yielding = true → (s.dev.cell c).aborting = false → (s.dev.cell c).expiries = [] → x.ending ≠ 2 →
    s.dev.endGrace.task k = some x → s.dev.endGrace.cell c = s.dev.cell c →
    HandsOn (.deadlineSettle k) s [.ended k] fun d =>
      s.dev.endGrace.taskEnded k St.late d ∧ (d.cell c).resetting = true ∧ s.dev.endGrace.raised Src.CELL_OVERRUN d ∧
      s.dev.endGrace.changesOnly [.regs, .tsk, .evt, .out] d) ∧
  (∀ (s : State) (k : Nat), s.ready = true → (∀ x, s.dev.task k = some x → 5 ≤ x.st ∨ s.dev.beat < x.deadline) →
    exec (.deadlineSettle k) s = .next s) ∧
  (∀ (s : State) (h at_ : Nat) (x : Task), s.ready = true → s.dev.tsk.abort = some (h, at_) → s.dev.tsk.abortEnd = none →
    s.dev.byHandle h = some (some x) → x.st < 5 → x.st ≠ St.running →
    HandsOn .abortResolved s [.ended (h % 2 ^ 17)] fun d =>
      s.dev.taskEnded (h % 2 ^ 17) St.aborted d ∧ d.tsk.abort = none ∧ d.reg Reg.TSK_ABORT_RESULT = 0x80000000 ∧
      s.dev.raised Src.ABORT_DONE d ∧ s.dev.changesOnly [.regs, .tsk, .evt, .out] d) ∧
  (∀ (s : State) (h at_ : Nat) (x : Task) (e : Dev), s.ready = true → s.dev.tsk.abort = some (h, at_) → s.dev.tsk.abortEnd = none →
    s.dev.byHandle h = some (some x) → x.st = St.running → s.dev.reachNow ((s.dev.cell (x.cells.headD 0)).acceptAt + 1) = some e →
    e.task (h % 2 ^ 17) = some x →
    HandsOn .abortResolved s [.ended (h % 2 ^ 17)] fun d =>
      e.taskEnded (h % 2 ^ 17) St.aborted d ∧ d.tsk.abort = none ∧ d.reg Reg.TSK_ABORT_RESULT = 0x80000000 ∧
      e.raised Src.ABORT_DONE d ∧ e.changesOnly [.regs, .tsk, .evt, .out] d) ∧
  (∀ (s : State) (h at_ c : Nat), s.ready = true → s.dev.tsk.abort = some (h, at_) →
    (s.dev.tsk.abortEnd = some c ∨ s.dev.tsk.abortEnd = none ∧ c = 1 ∧ (s.dev.byHandle h = some none ∨ (∃ x, s.dev.byHandle h = some (some x) ∧ 5 ≤ x.st)) ∨
      s.dev.tsk.abortEnd = none ∧ c = 2 ∧ s.dev.byHandle h = none) →
    Answers .abortResolved s fun t =>
      t.dev.tsk = { s.dev.tsk with abort := none, abortEnd := none } ∧ t.dev.reg Reg.TSK_ABORT_RESULT = BitVec.ofNat 32 (2 ^ 31 + c) ∧
      s.dev.raised Src.ABORT_DONE t.dev ∧
      s.dev.keepsRegsE [Reg.TSK_ABORT_RESULT] t.dev ∧ s.dev.changesOnly [.regs, .tsk, .evt, .out] t.dev ∧ s.keepsMem t)

/-- A write of a handle to TSK_ABORT while no abort is unresolved starts one: TSK_ABORT_RESULT reads 0 and the cells of a running task
are told to stop, and accept within 8 FCLK. A write while one is unresolved reads BUSY (3) and leaves it. Where the cells have not
stopped 3,000 FCLK after the write, they are stopped and reset, CELL_OVERRUN is raised and the task is ABORTED. (Choices of the
model it rests on: log 3.) (R69, R15) -/
def Obligations.AbortsAndTimeouts : Prop :=
  (∀ (s : State) (p : Path) (v : Word), s.ready = true → s.dev.tsk.abort = none →
    Answers (.tskAbort p v) s fun t =>
      t.dev.tsk.abort = some (bits v 23 0, s.dev.now) ∧ t.dev.reg Reg.TSK_ABORT_RESULT = 0 ∧
      (∀ x, s.dev.byHandle (bits v 23 0) = some (some x) → x.st = St.running → ∃ a, s.dev.now ≤ a ∧ a ≤ s.dev.now + 8 ∧
        ∀ c ∈ x.cells, t.dev.cell c = { s.dev.cell c with aborting := true, acceptAt := a }) ∧
      (∀ c, (∀ x, s.dev.byHandle (bits v 23 0) = some (some x) → x.st = St.running → c ∉ x.cells) → t.dev.cell c = s.dev.cell c) ∧
      t.dev.tsk.tasks = s.dev.tsk.tasks ∧ t.dev.tsk.slots = s.dev.tsk.slots ∧ t.dev.tsk.waits = s.dev.tsk.waits ∧
      s.dev.keepsRegs [Reg.TSK_ABORT_RESULT] t.dev ∧ s.dev.changesOnly [.regs, .tsk, .free] t.dev ∧ s.keepsMem t) ∧
  (∀ (s : State) (p : Path) (v : Word) (a : Nat × Nat), s.ready = true → s.dev.tsk.abort = some a →
    Answers (.tskAbort p v) s fun t =>
      t.dev.tsk = s.dev.tsk ∧ t.dev.reg Reg.TSK_ABORT_RESULT = 3 ∧ s.dev.keepsRegs [Reg.TSK_ABORT_RESULT] t.dev ∧
      s.dev.changesOnly [.regs] t.dev ∧ s.keepsMem t) ∧
  (∀ (s : State) (h at_ c : Nat) (x : Task), s.ready = true → s.dev.tsk.abort = some (h, at_) → s.dev.byHandle h = some (some x) →
    x.st = St.running → x.cells = [c] → tabSorted s.dev.tsk.cells = true → at_ + 3001 ≤ s.dev.now → (s.dev.cell c).expiries = [] →
    (s.dev.cell c).aborting = true →
    HandsOn .abortStopTimeout s [.ended (h % 2 ^ 17)] fun d =>
      (∃ e : Dev, s.dev.taskEnded (h % 2 ^ 17) St.aborted e ∧ d.task (h % 2 ^ 17) = e.task (h % 2 ^ 17)) ∧
      (d.cell c).resetting = true ∧ (d.cell c).job = none ∧ (d.cell c).out = (s.dev.cell c).out ∧ (d.cell c).stopAt = s.dev.now - 1 ∧
      (d.cell c).expiries = [s.dev.now] ∧ d.tsk.abort = none ∧ d.reg Reg.TSK_ABORT_RESULT = 0x80000000 ∧
      s.dev.raised Src.CELL_OVERRUN d ∧ s.dev.raised Src.ABORT_DONE d ∧ s.dev.changesOnly [.regs, .tsk, .evt, .out] d)

/-- A media cell that is not OUT, resetting, busy or gated and asks for a job gets, among the tasks it could take, the one of the
earliest deadline beat, then of the higher flock priority, then of the higher template priority, then the one released first: the
task runs on the cell, its operand set is frozen with what had not arrived missing, and what its kind does at its freeze follows.
A cell with no task to take changes nothing. The cell of a gang is reserved for it until as many have asked as the gang needs. The
FCLK of the request is over when the set freezes. The last job of a task of kind MIX that retires on its lead cell completes it,
and a retirement after the FCLK in which the cell accepted an abort finds it ABORTED. (Choices of the model it rests on: log 3,
23, 63, 126.) (R15, R61, R62, R63, R65) -/
def Obligations.JobsIssueAndRetire : Prop :=
  (∀ (s : State) (c k : Nat) (x : Task) (n : Dev), s.ready = true → n = s.dev.lapse → cellValid c = true → (n.cell c).out = false → (n.cell c).resetting = false →
    (n.cell c).job = none → n.gated c = false → n.task k = some x → (k, x) ∈ n.issueable c → x.gang ≤ 1 →
    (∀ y ∈ n.issueable c, y ≠ (k, x) → x.deadline < y.2.deadline ∨ (x.deadline = y.2.deadline ∧
      (n.flockPrio y.2.flock < n.flockPrio x.flock ∨ (n.flockPrio y.2.flock = n.flockPrio x.flock ∧
        (y.2.prio < x.prio ∨ (y.2.prio = x.prio ∧ x.order < y.2.order)))))) →
    HandsOn (.jobIssue c) s (if x.frozen then [] else [.frozen k]) fun d =>
      d.task k = some { x with st := St.running, cells := [c], frozen := true,
                               ops := if x.frozen then x.ops else x.ops.map fun o => if o.st = 0 then { o with st := 2 } else o } ∧
      (∀ j, j ≠ k → d.task j = n.task j) ∧ (d.cell c).job = some k ∧ (d.cell c).reserved = none ∧
      (∀ j, j ≠ c → d.cell j = n.cell j) ∧ n.changesOnly [.tsk] d) ∧
  (∀ (s : State) (c : Nat) (n : Dev), s.ready = true → n = s.dev.lapse → (n.cell c).out = true ∨ (n.cell c).resetting = true ∨ (n.cell c).job.isSome = true ∨
      n.gated c = true ∨ cellValid c = false ∨ n.issueable c = [] →
    Answers (.jobIssue c) s fun t => t.dev = n ∧ s.keepsMem t) ∧
  (∀ (s : State) (c k : Nat) (x : Task) (n : Dev), s.ready = true → n = s.dev.lapse → cellValid c = true → (n.cell c).out = false → (n.cell c).resetting = false →
    (n.cell c).job = none → n.gated c = false → n.issueable c = [(k, x)] → 1 < x.gang → x.st = St.ready →
    (∀ j ∈ cellBlock c, j ≠ c → (n.cell j).reserved ≠ some k) → (cellBlock c).count c = 1 →
    Answers (.jobIssue c) s fun t =>
      t.dev.cell c = { n.cell c with reserved := some k } ∧ (∀ j, j ≠ c → t.dev.cell j = n.cell j) ∧
      t.dev.tsk.tasks = n.tsk.tasks ∧ t.dev.tsk.slots = n.tsk.slots ∧ n.changesOnly [.tsk] t.dev ∧ s.keepsMem t) ∧
  (∀ (s : State) (c k : Nat) (x : Task) (res : JobResult), s.ready = true → (s.dev.cell c).job = some k → s.dev.task k = some x →
    x.kind = Kd.mix → x.st = St.running → x.cells.head? = some c →
    HandsOn (.jobRetire c res) s [.ended k] fun d =>
      s.dev.taskEnded k (if s.dev.accepted x then St.aborted else St.complete) d ∧ s.dev.changesOnly [.regs, .tsk, .evt, .out] d)

/-- When the last cell of a running task yields at its safe point the task is PARKED, keeps its cells and the cells are free; under a
flock no longer VALID it ends ABORTED instead. When 3,000 FCLK are over a cell that has not yielded is stopped and reset,
CELL_OVERRUN is raised and its task is LATE; where none is late to yield nothing but time passes. A stopped cell takes jobs again
64 FCLK after its stop. An error that a retry corrects changes nothing; one that the same access repeats marks the cell OUT:
CELL_OUT is raised and its task is LATE. (Choices of the model it rests on: log 3.) (R15, R24) -/
def Obligations.CellsYieldAndReset : Prop :=
  (∀ (s : State) (c k : Nat) (x : Task), s.ready = true → (s.dev.cell c).job = some k → (s.dev.cell c).yielding = true → s.dev.task k = some x →
    x.cells = [c] → (s.dev.cell c).aborting = false → s.dev.flockValid x.flock = true → x.ending ≠ 2 →
    Answers (.cellYielded c) s fun t =>
      t.dev.task k = some { x with st := St.parked } ∧ (∀ j, j ≠ k → t.dev.task j = s.dev.task j) ∧
      t.dev.cell c = { s.dev.cell c with job := none, yielding := false, aborting := false } ∧ (∀ j, j ≠ c → t.dev.cell j = s.dev.cell j) ∧
      t.dev.tsk.slots = s.dev.tsk.slots ∧ s.dev.changesOnly [.tsk] t.dev ∧ s.keepsMem t) ∧
  (∀ (s : State) (c k : Nat) (x : Task), s.ready = true → (s.dev.cell c).job = some k → (s.dev.cell c).yielding = true → s.dev.task k = some x →
    x.cells = [c] → s.dev.flockValid x.flock = false → x.kind ≠ Kd.filter →
    HandsOn (.cellYielded c) s [.ended k] fun d =>
      (∀ y, d.task k = some y → y.st = St.aborted) ∧ (d.task k).isSome = true ∧ s.dev.counted Reg.TSK_CNT_LO 3 1 d ∧
      s.dev.changesOnly [.regs, .tsk, .evt, .out] d) ∧
  (∀ s : State, s.ready = true → (∀ p ∈ s.dev.tsk.cells, p.2.yielding = false) → (∀ p ∈ s.dev.tsk.tasks, p.2.ending ≠ 1) →
    Answers .yieldGraceExpiry s fun t => t.dev = s.dev.endGrace ∧ s.keepsMem t) ∧
  (∀ (s : State) (c k : Nat) (x : Task), s.ready = true → 3001 ≤ s.dev.fclk → (s.dev.tsk.cells.filter fun p => p.2.yielding).map (·.1) = [c] →
    (s.dev.cell c).job = some k → (s.dev.cell c).expiries = [] → s.dev.task k = some x → x.st = St.running →
    s.dev.aborting x = false → x.ending ≠ 2 → (∀ p ∈ s.dev.tsk.tasks, p.2.ending ≠ 1) →
    HandsOn .yieldGraceExpiry s [.ended k] fun d =>
      (∀ y, d.task k = some y → y.st = St.late ∧ y.ended = s.dev.beat) ∧ (d.task k).isSome = true ∧ s.dev.counted Reg.TSK_CNT_LO 2 1 d ∧
      s.dev.raised Src.CELL_OVERRUN d ∧ s.dev.changesOnly [.regs, .tsk, .evt, .out] d) ∧
  (∀ (s : State) (c : Nat) (e : Dev), s.ready = true → (s.dev.cell c).resetting = true → s.dev.reachNow ((s.dev.cell c).stopAt + 64) = some e →
    Answers (.cellResetDone c) s fun t =>
      t.dev.cell c = { e.cell c with resetting := false } ∧ (∀ j, j ≠ c → t.dev.cell j = e.cell j) ∧
      t.dev.tsk.tasks = e.tsk.tasks ∧ t.dev.tsk.slots = e.tsk.slots ∧ e.changesOnly [.tsk] t.dev ∧ s.keepsMem t) ∧
  (∀ (s : State) (c : Nat), s.ready = true → (s.dev.cell c).resetting = false ∨ s.dev.reachNow ((s.dev.cell c).stopAt + 64) = none →
    exec (.cellResetDone c) s = .next s) ∧
  (∀ (s : State) (c : Nat), s.ready = true → exec (.cellParityError c false) s = .next s) ∧
  (∀ (s : State) (c : Nat), s.ready = true → cellValid c = true → (s.dev.cell c).out = false → (s.dev.cell c).job = none →
    (∀ p ∈ s.dev.tsk.tasks, p.2.st ≠ St.parked) → ((cellBlock c).filter fun j => (s.dev.cell j).out).length * 2 + 2 < (cellBlock c).length →
    (cellBlock c).count c = 1 →
    Answers (.cellParityError c true) s fun t =>
      (t.dev.cell c).out = true ∧ (∀ j, j ≠ c → t.dev.cell j = s.dev.cell j) ∧ s.dev.raised (srcRegion (cellRegion c) 0) t.dev ∧
      t.dev.tsk.tasks = s.dev.tsk.tasks ∧ s.dev.keepsRegsE [] t.dev ∧ s.dev.changesOnly [.regs, .tsk, .evt, .out] t.dev ∧ s.keepsMem t)

/-- A write with ARM = 1 and CANCEL = 0 of an idle host wait arms it on the tag, or with ON_TASK on the task handle, and clears its
result; named for a slot it holds it. A tag whose item is held, a task in a final state and a stale handle end it at once with
DONE. A write of CANCEL, or of ARM = 0, ends a live wait CANCELLED, one of ARM = 1 leaves it (what it names and its limit are the
ones it was armed with; the spec does not say), and its limit ends it TIMEOUT; a wait that ends loses ARM, shows its result and
raises HWAIT_DONE. A write of a wait that is not live arms nothing where it does not ask to. A limit still ahead, and a wait with
none, do not end. (Choices of the model it rests on: log 3, 93.) (R66, R55) -/
def Obligations.HostWaits : Prop :=
  (∀ (s : State) (p : Path) (n : Nat) (v : Word), s.ready = true → n < 64 → tabFind s.dev.tsk.waits n = none → bit v 31 = true → bit v 29 = false →
    ∀ tag k sl, tag = s.dev.reg64 (Reg.TSK_HWAIT_TAG_LO + 16 * n) (Reg.TSK_HWAIT_TAG_HI + 16 * n) → s.dev.findSlot tag = some k →
    s.dev.slotOf k = some sl → sl.arrived = false →
    Answers (.hwaitArm p n v) s fun t =>
      tabFind t.dev.tsk.waits n = some { name := tag, limit := if bits v 13 6 = 0 then none else some (s.dev.beat + bits v 13 6) } ∧
      t.dev.slotOf k = some { sl with hostWaits := sl.hostWaits ++ [n], everConsumed := true } ∧
      t.dev.reg (Reg.TSK_HWAIT_CTRL + 16 * n) = v &&& 0xA0003FFF ∧ t.dev.reg (Reg.TSK_HWAIT_RESULT + 16 * n) = 0 ∧
      t.dev.tsk.tasks = s.dev.tsk.tasks ∧ t.dev.tsk.cells = s.dev.tsk.cells ∧
      s.dev.keepsRegs [Reg.TSK_HWAIT_CTRL + 16 * n, Reg.TSK_HWAIT_RESULT + 16 * n] t.dev ∧ s.dev.changesOnly [.regs, .tsk] t.dev ∧ s.keepsMem t) ∧
  (∀ (s : State) (p : Path) (n : Nat) (v : Word) (x : Task), s.ready = true → n < 64 → tabFind s.dev.tsk.waits n = none → bit v 31 = true →
    bit v 29 = true → s.dev.byHandle (s.dev.fld (Reg.TSK_HWAIT_TAG_LO + 16 * n) 23 0) = some (some x) → x.st < 5 →
    Answers (.hwaitArm p n v) s fun t =>
      tabFind t.dev.tsk.waits n = some { onTask := true, name := s.dev.fld (Reg.TSK_HWAIT_TAG_LO + 16 * n) 23 0,
                                         limit := if bits v 13 6 = 0 then none else some (s.dev.beat + bits v 13 6) } ∧
      t.dev.reg (Reg.TSK_HWAIT_CTRL + 16 * n) = v &&& 0xA0003FFF ∧ t.dev.reg (Reg.TSK_HWAIT_RESULT + 16 * n) = 0 ∧
      t.dev.tsk.slots = s.dev.tsk.slots ∧ t.dev.tsk.tasks = s.dev.tsk.tasks ∧ s.dev.changesOnly [.regs, .tsk] t.dev ∧ s.keepsMem t) ∧
  (∀ (s : State) (p : Path) (n : Nat) (v : Word), s.ready = true → n < 64 → tabFind s.dev.tsk.waits n = none → bit v 31 = true → bit v 29 = true →
    s.dev.byHandle (s.dev.fld (Reg.TSK_HWAIT_TAG_LO + 16 * n) 23 0) = none →
    Answers (.hwaitArm p n v) s fun t =>
      tabFind t.dev.tsk.waits n = none ∧ t.dev.flag (Reg.TSK_HWAIT_CTRL + 16 * n) 31 = false ∧
      t.dev.reg (Reg.TSK_HWAIT_RESULT + 16 * n) = 1 ∧ s.dev.raised Src.HWAIT_DONE t.dev ∧ t.dev.tsk.tasks = s.dev.tsk.tasks ∧
      s.dev.changesOnly [.regs, .tsk, .evt, .out] t.dev ∧ s.keepsMem t) ∧
  (∀ (s : State) (p : Path) (n : Nat) (v : Word) (w : HWait), s.ready = true → n < 64 → tabFind s.dev.tsk.waits n = some w → bit v 31 = true →
    bit v 30 = false →
    Answers (.hwaitArm p n v) s fun t =>
      t.dev.tsk = s.dev.tsk ∧ t.dev.reg (Reg.TSK_HWAIT_CTRL + 16 * n) = v &&& 0xA0003FFF ∧
      s.dev.keepsRegs [Reg.TSK_HWAIT_CTRL + 16 * n] t.dev ∧ s.dev.changesOnly [.regs] t.dev ∧ s.keepsMem t) ∧
  (∀ (s : State) (p : Path) (n : Nat) (v : Word) (w : HWait), s.ready = true → n < 64 → tabFind s.dev.tsk.waits n = some w → bit v 31 = false →
    Answers (.hwaitArm p n v) s fun t =>
      tabFind t.dev.tsk.waits n = none ∧ t.dev.reg (Reg.TSK_HWAIT_RESULT + 16 * n) = 3 ∧ s.dev.raised Src.HWAIT_DONE t.dev ∧
      t.dev.tsk.tasks = s.dev.tsk.tasks ∧ s.dev.changesOnly [.regs, .tsk, .evt, .out] t.dev ∧ s.keepsMem t) ∧
  (∀ (s : State) (p : Path) (n : Nat) (v : Word) (w : HWait), s.ready = true → n < 64 → tabFind s.dev.tsk.waits n = some w →
    Answers (.hwaitCancel p n v) s fun t =>
      tabFind t.dev.tsk.waits n = none ∧ (∀ j, j ≠ n → tabFind t.dev.tsk.waits j = tabFind s.dev.tsk.waits j) ∧
      (∀ q ∈ t.dev.tsk.slots, n ∉ q.2.hostWaits) ∧ t.dev.flag (Reg.TSK_HWAIT_CTRL + 16 * n) 31 = false ∧
      t.dev.reg (Reg.TSK_HWAIT_RESULT + 16 * n) = 3 ∧ s.dev.raised Src.HWAIT_DONE t.dev ∧ t.dev.tsk.tasks = s.dev.tsk.tasks ∧
      s.dev.keepsRegsE [Reg.TSK_HWAIT_CTRL + 16 * n, Reg.TSK_HWAIT_RESULT + 16 * n] t.dev ∧
      s.dev.changesOnly [.regs, .tsk, .evt, .out] t.dev ∧ s.keepsMem t) ∧
  (∀ (s : State) (p : Path) (n : Nat) (v : Word), s.ready = true → n < 64 → tabFind s.dev.tsk.waits n = none →
    Answers (.hwaitCancel p n v) s fun t =>
      t.dev.tsk = s.dev.tsk ∧ t.dev.reg (Reg.TSK_HWAIT_CTRL + 16 * n) = v &&& 0x20003FFF ∧
      s.dev.keepsRegs [Reg.TSK_HWAIT_CTRL + 16 * n] t.dev ∧ s.dev.changesOnly [.regs] t.dev ∧ s.keepsMem t) ∧
  (∀ (s : State) (n l : Nat) (w : HWait), s.ready = true → n < 64 → tabFind s.dev.tsk.waits n = some w → w.limit = some l → l ≤ s.dev.beat →
    Answers (.hwaitTimeout n) s fun t =>
      tabFind t.dev.tsk.waits n = none ∧ (∀ j, j ≠ n → tabFind t.dev.tsk.waits j = tabFind s.dev.tsk.waits j) ∧
      t.dev.flag (Reg.TSK_HWAIT_CTRL + 16 * n) 31 = false ∧ t.dev.reg (Reg.TSK_HWAIT_RESULT + 16 * n) = 2 ∧
      s.dev.raised Src.HWAIT_DONE t.dev ∧ t.dev.tsk.tasks = s.dev.tsk.tasks ∧
      s.dev.keepsRegsE [Reg.TSK_HWAIT_CTRL + 16 * n, Reg.TSK_HWAIT_RESULT + 16 * n] t.dev ∧
      s.dev.changesOnly [.regs, .tsk, .evt, .out] t.dev ∧ s.keepsMem t) ∧
  (∀ (s : State) (n : Nat), s.ready = true → (∀ w l, tabFind s.dev.tsk.waits n = some w → w.limit = some l → s.dev.beat < l) →
    exec (.hwaitTimeout n) s = .next s)

/-- The commit of TSK_POST_TAG_HI posts the operand its halves name with the reference committed last: a tag of class HOST with no
slot takes one that holds the reference; a tag of another class sets REFUSED and posts nothing, and so does one that a live task's
template excludes. A slot that no task and no wait still needs is freed once its hold has passed, and counts UNCLAIMED where its
item was never consumed; before, and while something needs it, it stays. At its wait limit a WAITING task whose predecessor has
ended becomes READY. (Choices of the model it rests on: log 3, 94.) (R56, R57, R64, R67) -/
def Obligations.SlotsPostsAndWaitLimits : Prop :=
  (∀ (s : State) (p : Path) (v : Word) (tag k : Nat), s.ready = true → tag = (s.dev.heldLo p).toNat + 2 ^ 32 * v.toNat →
    tagClass tag = Cl.host → s.dev.barred tag = false → s.dev.findSlot tag = none → freeKey s.dev.tsk.slots 65536 = some k →
    s.dev.tsk.slots.length + 1 < s.dev.fld Reg.TSK_MS_HIWAT 15 0 →
    Answers (.tskPost p v) s fun t =>
      t.dev.slotOf k = some { tag := tag, arrived := true, ref := s.dev.reg64 Reg.TSK_POST_REF_LO Reg.TSK_POST_REF_HI,
                              holdUntil := (tagMedia tag + s.dev.fld Reg.TSK_MS_HOLD 5 0) % 2 ^ 32 } ∧
      (∀ j, j ≠ k → t.dev.slotOf j = s.dev.slotOf j) ∧ t.dev.tsk.tasks = s.dev.tsk.tasks ∧
      t.dev.heldLo p = 0 ∧ t.dev.reg Reg.TSK_POST_TAG_HI = v ∧
      s.dev.keepsRegs [Reg.TSK_POST_TAG_LO, Reg.TSK_POST_TAG_HI] t.dev ∧ s.dev.changesOnly [.regs, .held, .tsk] t.dev ∧ s.keepsMem t) ∧
  (∀ (s : State) (p : Path) (v : Word), s.ready = true → tagClass ((s.dev.heldLo p).toNat + 2 ^ 32 * v.toNat) ≠ Cl.host →
    Answers (.tskPost p v) s fun t =>
      t.dev.flag Reg.TSK_POST_STAT 0 = true ∧ t.dev.tsk = s.dev.tsk ∧
      s.dev.keepsRegs [Reg.TSK_POST_TAG_LO, Reg.TSK_POST_TAG_HI, Reg.TSK_POST_STAT] t.dev ∧ s.dev.changesOnly [.regs, .held, .setNow] t.dev ∧
      s.keepsMem t) ∧
  (∀ (s : State) (p : Path) (v : Word) (tag : Nat), s.ready = true → tag = (s.dev.heldLo p).toNat + 2 ^ 32 * v.toNat → tagClass tag = Cl.host →
    s.dev.barred tag = true →
    Answers (.tskPost p v) s fun t =>
      t.dev.flag Reg.TSK_POST_STAT 0 = true ∧ t.dev.tsk = s.dev.tsk ∧ s.dev.counted Reg.TSK_CNT_LO 7 1 t.dev ∧
      s.dev.changesOnly [.regs, .held, .setNow] t.dev ∧ s.keepsMem t) ∧
  (∀ (s : State) (k : Nat) (sl : Slot), s.ready = true → s.dev.slotOf k = some sl → sl.tasks = [] → sl.hostWaits = [] →
    s.dev.beatNear sl.holdUntil ≤ s.dev.beat →
    Answers (.msSlotHoldExpiry k) s fun t =>
      t.dev.slotOf k = none ∧ (∀ j, j ≠ k → t.dev.slotOf j = s.dev.slotOf j) ∧ t.dev.tsk.tasks = s.dev.tsk.tasks ∧
      (sl.arrived = true ∧ sl.everConsumed = false → s.dev.counted Reg.TSK_CNT_LO 5 1 t.dev) ∧
      s.dev.keepsRegs [Reg.TSK_CNT_LO + 40, Reg.TSK_CNT_LO + 44] t.dev ∧ s.keepsMem t) ∧
  (∀ (s : State) (k : Nat), s.ready = true →
    (∀ sl, s.dev.slotOf k = some sl → sl.tasks ≠ [] ∨ sl.hostWaits ≠ [] ∨ s.dev.beat < s.dev.beatNear sl.holdUntil) →
    exec (.msSlotHoldExpiry k) s = .next s) ∧
  (∀ (s : State) (k : Nat) (x : Task), s.ready = true → s.dev.task k = some x → x.st = St.waiting → x.waitAt ≤ s.dev.beat →
    s.dev.predLive x = false →
    Answers (.taskWaitLimit k) s fun t =>
      t.dev.task k = some { x with st := St.ready } ∧ (∀ j, j ≠ k → t.dev.task j = s.dev.task j) ∧ t.dev.tsk.slots = s.dev.tsk.slots ∧
      t.dev.tsk.cells = s.dev.tsk.cells ∧ s.dev.changesOnly [.tsk] t.dev ∧ s.keepsMem t) ∧
  (∀ (s : State) (k : Nat), s.ready = true → (∀ x, s.dev.task k = some x → x.st ≠ St.waiting ∨ s.dev.predLive x = true ∨
      (s.dev.beat < x.waitAt ∧ ∃ o ∈ x.ops, o.st = 0)) →
    exec (.taskWaitLimit k) s = .next s)

/-- CONFIGURE_LOAD while another command runs leaves CFG_STATUS and what runs; outside CONFIGURE it ends MODE (13). In CONFIGURE it
ends at once with the code of the first check of Table 2.7 that fails, in the table's order (a short image or a wrong magic is
BAD_FORMAT; a wrong PART, a SEC_VER below the floor, a bad vendor signature, are reported no later than their place), and then
nothing but CFG_CTRL, CFG_STATUS and CFG_ERR_DETAIL changes. Where all pass, the chip section is applied: every region reads
EMPTY, the chip hash and the DRAM allocations are the image's, the section is copied to its place in the IMAGES allocation,
TRAINED is 0, CFG_STATUS reads BUSY, TRAIN and region 7, and TOP_MODE is TRAIN. Which signatures verify, and what a hash is, are
functions the model does not open. (Choices of the model it rests on: log 36, 37, 39, 98, 99, 106.) (R36, R38, R40) -/
def Obligations.ConfigureLoadAppliesWhatPassed : Prop :=
  (∀ (s : State) (p : Path) (v : Word) (hw : HostWrites), s.ready = true → s.dev.cfgBusy = true →
    DoesAfter (.configureLoad p v hw) hw s fun d => d.cfg = s.dev.cfg ∧ s.dev.keepsRegs [Reg.CFG_CTRL] d ∧ s.dev.changesOnly [.regs] d) ∧
  (∀ (s : State) (p : Path) (v : Word) (hw : HostWrites), s.ready = true → s.dev.cfgBusy = false → s.dev.mode ≠ .configure →
    DoesAfter (.configureLoad p v hw) hw s fun d =>
      d.cfgShows 13 0 0 ∧ d.fld Reg.CFG_STATUS 18 16 = d.fld Reg.CFG_CTRL 10 8 ∧
      s.dev.keepsRegs [Reg.CFG_CTRL, Reg.CFG_STATUS, Reg.CFG_ERR_DETAIL] d ∧ s.dev.changesOnly [.regs] d) ∧
  (∀ (s : State) (p : Path) (v : Word) (hw : HostWrites) (e : Dev) (im : Image), s.ready = true → s.dev.cfgBusy = false →
    s.dev.mode = .configure → e = s.dev.writeReg Reg.CFG_CTRL (v &&& 0x0FFFFFFF ||| 0x10000000) →
    im = imageOf (s.stored hw).hostMem s.dram e →
    DoesAfter (.configureLoad p v hw) hw s fun d =>
      (if headerCheck e im ≠ 0 then
        d.cfgShows (headerCheck e im) 0 0 ∧ s.dev.keepsRegs [Reg.CFG_CTRL, Reg.CFG_STATUS, Reg.CFG_ERR_DETAIL] d ∧
        s.dev.changesOnly [.regs, .cfg] d ∧ d.cfg = { s.dev.cfg with reload := none }
      else if (sectionChecks e.cfg.otp (customOk e.cfg.otp (recAt (recordsOf 0 (sectionBytes im 0)) 3)) im (List.range 7) (List.range 7)).1 ≠ 0 then
        (∃ c x, 7 ≤ c ∧ c ≤ 9 ∧ d.cfgShows c x 0) ∧ s.dev.keepsRegs [Reg.CFG_CTRL, Reg.CFG_STATUS, Reg.CFG_ERR_DETAIL] d ∧
        s.dev.changesOnly [.regs, .cfg] d ∧ d.cfg = { s.dev.cfg with reload := none }
      else
        d.mode = .train ∧ d.fld Reg.CFG_STATUS 7 0 = 1 ∧ d.fld Reg.CFG_STATUS 26 24 = 6 ∧ d.fld Reg.CFG_STATUS 18 16 = 7 ∧
        d.reg Reg.CFG_ERR_DETAIL = 0 ∧ (∀ n, n < 6 → d.reg (Reg.CFG_REGION_STAT + 4 * n) = 0x800) ∧ d.regions = [] ∧
        d.mem.allocs = dramAllocs (recAt (recordsOf 0 (sectionBytes im 0)) 1) ∧ d.cfg.chip = (manifestEntry im 0).hash ∧
        d.flag Reg.MEM_STATUS 31 = false ∧ d.tsk = s.dev.tsk ∧ d.vdc = s.dev.vdc ∧ d.ven = s.dev.ven ∧
        d.pci = { s.dev.pci with dramWrites := match d.mem.allocs.find? (fun a => a.use == 6) with
          | some a => [(a.base * 1048576 + Config.imageOfs 0, sectionBytes im 0)] | none => [] }) ∧
      ((e.reg Reg.CFG_SRC_LEN).toNat < 0x2000 ∨ be32 (im 0 0x170) 0 ≠ 0x4F444253 → d.fld Reg.CFG_STATUS 7 0 = 2) ∧
      (le16 (im 0 0x170) 8 ≠ 0x4816 → d.fld Reg.CFG_STATUS 7 0 = 2 ∨ d.fld Reg.CFG_STATUS 7 0 = 3) ∧
      (le32 (im 0 0x170) 0xC < (e.reg Reg.CFG_ROLLBACK).toNat →
        2 ≤ d.fld Reg.CFG_STATUS 7 0 ∧ d.fld Reg.CFG_STATUS 7 0 ≤ 4) ∧
      (Config.vendorSigOk (manifestDigest im) (im 0x170 2420) = false →
        2 ≤ d.fld Reg.CFG_STATUS 7 0 ∧ d.fld Reg.CFG_STATUS 7 0 ≤ 5) ∧
      ((List.range 7).any (fun i => !hashOk im i) = true → 2 ≤ d.fld Reg.CFG_STATUS 7 0 ∧ d.fld Reg.CFG_STATUS 7 0 ≤ 7))

/-- In TRAIN, the end of training marks the channels that failed FAILED, sets TRAINED where every logical channel is mapped and
returns to CONFIGURE; where one is not, where the DRAM's class is not the chip section's, or where an allocation lies beyond the
capacity left, the load ends NO_FIT (10) with no region section; else it goes on with step RELOAD and region 0. Once they are
written every region from the one CFG_STATUS.REGION names on runs its section, which is its stored image, reads ACTIVE, shows its
SCHEMA_TAG or its personalities, and has its section's bytes in the IMAGES allocation, and CODE reads OK. Elsewhere both change
nothing. (Choices of the model it rests on: log 3, 99, 106.) (R36, R38, R301) -/
def Obligations.TrainingAndRegionSections : Prop :=
  (∀ (s : State) (cs : List TrainChan), s.ready = true → s.dev.mode ≠ .train → exec (.trainDone cs) s = .next s) ∧
  (∀ (s : State) (cs : List TrainChan), s.ready = true → s.dev.mode = .train →
    Does (.trainDone cs) s fun d =>
      d.mode = .configure ∧ d.raised Src.MODE_CHANGE d ∧ d.flag Reg.MEM_STATUS 31 = d.mapped ∧
      (∀ k, k < 17 → (cs.getD k {}).ok = false → d.chState k = 5) ∧
      (if d.mapped = true ∧ Config.dramClass % 3 = s.dev.cfg.cls ∧
          (∀ a ∈ s.dev.mem.allocs, a.base + a.size ≤ d.fld Reg.MEM_CAP 17 0) then
        d.fld Reg.CFG_STATUS 26 24 = 3 ∧ d.fld Reg.CFG_STATUS 18 16 = 0 ∧ d.fld Reg.CFG_STATUS 7 0 = s.dev.fld Reg.CFG_STATUS 7 0 ∧
        d.cfg = s.dev.cfg
      else d.cfgShows 10 0 0 ∧ d.cfg = { s.dev.cfg with staged := [], reload := none }) ∧
      (∀ n, n < 6 → d.reg (Reg.CFG_REGION_STAT + 4 * n) = s.dev.reg (Reg.CFG_REGION_STAT + 4 * n)) ∧ d.mem.allocs = s.dev.mem.allocs ∧
      s.dev.changesOnly [.mode, .regs, .evt, .out, .mem, .cfg] d) ∧
  (∀ s : State, s.ready = true → s.dev.mode ≠ .configure ∨ s.dev.fld Reg.CFG_STATUS 26 24 ≠ 3 ∨ s.dev.cfgBusy = false →
    exec .configureSectionsDone s = .next s) ∧
  (∀ (s : State) (k : Nat), s.ready = true → s.dev.mode = .configure → s.dev.fld Reg.CFG_STATUS 26 24 = 3 → s.dev.cfgBusy = true →
    k = s.dev.fld Reg.CFG_STATUS 18 16 → k < 6 →
    Answers .configureSectionsDone s fun t =>
      (∀ n, k ≤ n → n < 6 → t.dev.regionState n = 0 ∧ (t.dev.regionOf n).sec = s.dev.cfg.staged.getD n {} ∧
        (t.dev.regionOf n).stored = s.dev.cfg.staged.getD n {} ∧ (t.dev.regionOf n).pend = none) ∧
      (∀ n, n < k → t.dev.regionState n = s.dev.regionState n ∧ t.dev.regionOf n = s.dev.regionOf n) ∧
      (∀ n, k ≤ n → n < 2 → t.dev.fld (Reg.CFG_REGION_STAT + 4 * n) 31 16 = (s.dev.cfg.staged.getD n {}).schema % 65536) ∧
      (∀ m i, m < 4 → k ≤ m + 2 → i < 16 → (s.dev.cfg.staged.getD (m + 2) {}).pers.length = 16 →
        bit (t.dev.reg (Reg.CFG_PERSONALITY + 4 * m)) i = decide ((s.dev.cfg.staged.getD (m + 2) {}).pers.getD i 0 = 2)) ∧
      t.dev.cfgShows 0 0 0 ∧ t.dev.cfg = { s.dev.cfg with staged := [], reload := none } ∧
      s.dev.keepsRegs ([Reg.CFG_STATUS, Reg.CFG_ERR_DETAIL] ++ (List.range 6).map (Reg.CFG_REGION_STAT + 4 * ·) ++
        (List.range 4).map (Reg.CFG_PERSONALITY + 4 * ·)) t.dev ∧ s.dev.changesOnly [.regs, .regions, .cfg, .mem, .free] t.dev ∧
      t.pending = s.pending ∧ t.hostMem = s.hostMem ∧
      t.dram = (match s.dev.mem.allocs.find? (fun a => a.use == 6) with
        | none => s.dram
        | some a => putAll dramLimit s.dram ((List.range (6 - k)).map fun n =>
            (a.base * 1048576 + Config.imageOfs (k + n + 1), (s.dev.cfg.staged.getD (k + n) {}).raw))))

/-- RELOAD_REGION and CHECK_ONLY while a command runs change nothing but CFG_CTRL, and outside SERVICE end MODE; else CFG_STATUS reads
BUSY and CHECK, and the outcome is OK only where the header and the hashes pass, the chip section is the running one and there is
room (or FORCE). At the end of CHECK a failure, or CHECK_ONLY, ends with its code and nothing applied; a reload marks the region
DRAINING, steers a plane's ports to an ACTIVE plane or places a region's flocks elsewhere, and turns to RELOAD, or waits while
another region reloads. CANCEL ends CHECK with CANCELLED, in DRAIN sends the region to REJOIN while work is left, and is else
without effect. At the drain limit a running task is to end once it has yielded, one that does not run ends LATE; each that ends
so is counted. (Choices of the model it rests on: log 36, 39, 42, 97, 107.) (R40, R41, R42, R43, R45) -/
def Obligations.ReloadChecksAndDrain : Prop :=
  (∀ (s : State) (p : Path) (v : Word) (hw : HostWrites), s.ready = true → s.dev.cfgBusy = true →
    (DoesAfter (.reloadRegion p v hw) hw s fun d => d.cfg = s.dev.cfg ∧ s.dev.keepsRegs [Reg.CFG_CTRL] d ∧ s.dev.changesOnly [.regs] d) ∧
    (DoesAfter (.checkOnly p v hw) hw s fun d => d.cfg = s.dev.cfg ∧ s.dev.keepsRegs [Reg.CFG_CTRL] d ∧ s.dev.changesOnly [.regs] d)) ∧
  (∀ (s : State) (p : Path) (v : Word) (hw : HostWrites), s.ready = true → s.dev.cfgBusy = false → s.dev.mode ≠ .service →
    (DoesAfter (.reloadRegion p v hw) hw s fun d => d.cfgShows 13 0 0 ∧ d.cfg = s.dev.cfg ∧
      s.dev.keepsRegs [Reg.CFG_CTRL, Reg.CFG_STATUS, Reg.CFG_ERR_DETAIL] d ∧ s.dev.changesOnly [.regs] d) ∧
    (DoesAfter (.checkOnly p v hw) hw s fun d => d.cfgShows 13 0 0 ∧ d.cfg = s.dev.cfg ∧
      s.dev.keepsRegs [Reg.CFG_CTRL, Reg.CFG_STATUS, Reg.CFG_ERR_DETAIL] d ∧ s.dev.changesOnly [.regs] d)) ∧
  (∀ (s : State) (p : Path) (v : Word) (hw : HostWrites) (e : Dev) (im : Image) (n : Nat), s.ready = true → s.dev.cfgBusy = false →
    s.dev.mode = .service → e = s.dev.writeReg Reg.CFG_CTRL (v &&& 0x0FFFFFFF ||| 0x20000000) → n = e.fld Reg.CFG_CTRL 10 8 →
    im = imageOf (s.stored hw).hostMem s.dram e →
    DoesAfter (.reloadRegion p v hw) hw s fun d =>
      d.cfgShows 1 0 1 ∧ d.fld Reg.CFG_STATUS 18 16 = n ∧ d.flag Reg.CFG_STATUS 8 = s.dev.flag Reg.CFG_STATUS 8 ∧
      (∃ x : Reload, d.cfg = { s.dev.cfg with reload := some x } ∧ x.region = n ∧ x.only = false ∧ x.force = e.flag Reg.CFG_CTRL 4 ∧
        x.limited = false ∧ x.cancelled = false ∧
        (x.code = 0 → headerCheck e im = 0 ∧ hashOk im 0 = true ∧ hashOk im (n + 1) = true ∧ (manifestEntry im 0).hash = s.dev.cfg.chip ∧
          ((e.cfgBegin n).hasRoom n = true ∨ x.force = true))) ∧
      s.dev.keepsRegs [Reg.CFG_CTRL, Reg.CFG_STATUS, Reg.CFG_ERR_DETAIL] d ∧ s.dev.changesOnly [.regs, .cfg] d) ∧
  (∀ (s : State) (p : Path) (v : Word) (hw : HostWrites) (e : Dev), s.ready = true → s.dev.cfgBusy = false → s.dev.mode = .service →
    e = s.dev.writeReg Reg.CFG_CTRL (v &&& 0x0FFFFFFF ||| 0x40000000) →
    DoesAfter (.checkOnly p v hw) hw s fun d =>
      d.cfgShows 1 0 1 ∧ (∃ x : Reload, d.cfg = { s.dev.cfg with reload := some x } ∧ x.region = e.fld Reg.CFG_CTRL 10 8 ∧ x.only = true) ∧
      s.dev.keepsRegs [Reg.CFG_CTRL, Reg.CFG_STATUS, Reg.CFG_ERR_DETAIL] d ∧ s.dev.changesOnly [.regs, .cfg] d) ∧
  (∀ s : State, s.ready = true → s.dev.cfg.reload = none ∨ s.dev.fld Reg.CFG_STATUS 26 24 ≠ 1 → exec .reloadCheckDone s = .next s) ∧
  (∀ (s : State) (x : Reload), s.ready = true → s.dev.cfg.reload = some x → s.dev.fld Reg.CFG_STATUS 26 24 = 1 → x.code ≠ 0 ∨ x.only = true →
    x.code < 16 →
    Answers .reloadCheckDone s fun t =>
      t.dev.cfgShows x.code x.detail 0 ∧ t.dev.cfg = { s.dev.cfg with reload := none } ∧
      s.dev.keepsRegs [Reg.CFG_STATUS, Reg.CFG_ERR_DETAIL] t.dev ∧ s.dev.changesOnly [.regs, .cfg] t.dev ∧ s.keepsMem t) ∧
  (∀ (s : State) (x : Reload), s.ready = true → s.dev.cfg.reload = some x → s.dev.fld Reg.CFG_STATUS 26 24 = 1 → x.code = 0 → x.only = false →
    s.dev.reloading = true → exec .reloadCheckDone s = .next s) ∧
  (∀ (s : State) (x : Reload), s.ready = true → s.dev.cfg.reload = some x → s.dev.fld Reg.CFG_STATUS 26 24 = 1 → x.code = 0 → x.only = false →
    x.region < 6 → s.dev.reloading = false →
    Does .reloadCheckDone s fun d => ∃ e : Dev,
      e.regionState x.region = 1 ∧ e.fld Reg.CFG_STATUS 26 24 = 2 ∧ e.flag Reg.CFG_STATUS 8 = false ∧ e.cfg = { s.dev.cfg with reload := some { x with began := s.dev.now } } ∧
      s.dev.keepsRegs [Reg.CFG_STATUS, Reg.CFG_REGION_STAT + 4 * x.region] e ∧ s.dev.changesOnly [.regs, .cfg] e ∧
      (2 ≤ x.region → ∃ g, g = e.placeFlocks (x.region - 2) x.short ∧ d = if g.mode.carries then g.turn .reload else g) ∧
      (x.region < 2 → d.mac = (if s.dev.regionState (1 - x.region) = 0 then { s.dev.mac with want := s.dev.mac.want.map fun _ => 1 - x.region }
          else s.dev.mac) ∧ d.regionState x.region = 1 ∧
        d.fld Reg.CFG_STATUS 26 24 = 2 ∧ d.cfg = e.cfg ∧ d.pkt = s.dev.pkt ∧ d.tsk = s.dev.tsk ∧
        (s.dev.mode = .service → if s.dev.fclk = 0 then d.mode = .reload ∧ d.raised Src.MODE_CHANGE d
          else d.mode = .service ∧ d.pwr.want = some (.reload, s.dev.beat)))) ∧
  (∀ (s : State) (p : Path) (v : Word) (x : Reload), s.ready = true → s.dev.cfg.reload = some x →
    Answers (.cancel p v) s fun t =>
      (s.dev.fld Reg.CFG_STATUS 26 24 = 1 → t.dev.cfgShows 15 0 0 ∧ t.dev.cfg = { s.dev.cfg with reload := none } ∧
        s.dev.keepsRegs [Reg.CFG_CTRL, Reg.CFG_STATUS, Reg.CFG_ERR_DETAIL] t.dev) ∧
      (s.dev.fld Reg.CFG_STATUS 26 24 = 2 → s.dev.drained x.region = true → t.dev.cfg = s.dev.cfg ∧ s.dev.keepsRegs [Reg.CFG_CTRL] t.dev) ∧
      (s.dev.fld Reg.CFG_STATUS 26 24 = 2 → x.region < 6 → s.dev.drained x.region = false → t.dev.fld Reg.CFG_STATUS 26 24 = 5 ∧ t.dev.regionState x.region = 4 ∧
        t.dev.cfg = { s.dev.cfg with reload := some { x with cancelled := true } } ∧
        s.dev.keepsRegs [Reg.CFG_CTRL, Reg.CFG_STATUS, Reg.CFG_REGION_STAT + 4 * x.region] t.dev) ∧
      (s.dev.fld Reg.CFG_STATUS 26 24 ≠ 1 → s.dev.fld Reg.CFG_STATUS 26 24 ≠ 2 → t.dev.cfg = s.dev.cfg ∧ s.dev.keepsRegs [Reg.CFG_CTRL] t.dev) ∧
      s.dev.changesOnly [.regs, .cfg] t.dev ∧ s.keepsMem t) ∧
  (∀ (s : State) (x : Reload), s.ready = true → s.dev.cfg.reload = some x → s.dev.fclk = 0 →
    s.dev.fld Reg.CFG_STATUS 26 24 ≠ 2 ∨ x.limited = true ∨ s.dev.now < x.began + 300000000 → exec .reloadDrainLimit s = .next s) ∧
  (∀ (s : State) (x : Reload), s.ready = true → s.dev.cfg.reload = some x → s.dev.fclk = 0 → s.dev.fld Reg.CFG_STATUS 26 24 = 2 →
    x.limited = false → x.began + 300000000 ≤ s.dev.now → tabSorted s.dev.tsk.tasks = true → 2 ≤ x.region →
    (∀ y ∈ s.dev.tasksIn (x.region - 2), y.2.st = St.running) →
    Answers .reloadDrainLimit s fun t =>
      (∀ y ∈ s.dev.tasksIn (x.region - 2), t.dev.task y.1 = some { y.2 with ending := 2 }) ∧
      t.dev.cfg = { s.dev.cfg with reload := some { x with limited := true } } ∧
      s.dev.changesOnly [.cfg, .tsk] t.dev ∧ s.keepsMem t) ∧
  (∀ (s : State) (c k : Nat) (x : Reload) (y : Task), s.ready = true → s.dev.cfg.reload = some x → (s.dev.cell c).job = some k →
    (s.dev.cell c).yielding = true → s.dev.task k = some y → y.cells = [c] → y.ending = 2 → (s.dev.cell c).aborting = false →
    s.dev.flockValid y.flock = true →
    HandsOn (.cellYielded c) s [.ended k] fun d =>
      (∀ z, d.task k = some z → z.st = St.late) ∧ (d.task k).isSome = true ∧
      d.reg Reg.CFG_DRAIN_FORCED = BitVec.ofNat 32 (min ((s.dev.reg Reg.CFG_DRAIN_FORCED).toNat + 1) (2 ^ 32 - 1)) ∧
      (x.forced = false → s.dev.raised (srcRegion x.region 4) d) ∧ d.cfg = { s.dev.cfg with reload := some { x with forced := true } } ∧
      s.dev.changesOnly [.regs, .cfg, .tsk, .evt, .out] d) ∧
  (∀ (s : State) (x : Reload) (k : Nat) (y : Task), s.ready = true → s.dev.cfg.reload = some x → s.dev.fclk = 0 →
    s.dev.fld Reg.CFG_STATUS 26 24 = 2 → x.limited = false → x.began + 300000000 ≤ s.dev.now → 2 ≤ x.region →
    s.dev.tasksIn (x.region - 2) = [(k, y)] → s.dev.task k = some y → y.st ≠ St.running → s.dev.tsk.waits = [] →
    HandsOn .reloadDrainLimit s [.ended k] fun d =>
      s.dev.taskEnded k St.late d ∧
      d.reg Reg.CFG_DRAIN_FORCED = BitVec.ofNat 32 (min ((s.dev.reg Reg.CFG_DRAIN_FORCED).toNat + 1) (2 ^ 32 - 1)) ∧
      (x.forced = false → s.dev.raised (srcRegion x.region 4) d) ∧ d.cfg = { s.dev.cfg with reload := some { x with limited := true, forced := true } } ∧ s.dev.changesOnly [.regs, .cfg, .tsk, .evt, .out] d)

/-- A port switches planes once its old plane holds none of its frames, and the frames that waited go in, in order. Once a draining
region is empty its section is read again (RELOAD), then VERIFIED: bytes of the manifest's hash become pending; others set
FALLBACK and raise REGION_RELOAD_FALLBACK, and the stored image becomes pending, or, where that does not verify, the region is
FAILED and the reload ends with HASH (7). At REJOIN the pending section runs and is the stored one, the ports or flocks return,
and CODE reads HASH after a fall-back, CANCELLED after a CANCEL, SCHEMA_MISMATCH where the other plane then waits, and else OK.
None of them acts in another step. (Choices of the model it rests on: log 41, 43, 101.) (R41, R44, R45, R47, R48) -/
def Obligations.ReloadStepsAndRejoin : Prop :=
  (∀ (s : State) (k : Nat), s.ready = true → 8 ≤ k ∨ s.dev.mac.want.getD k (s.dev.planeOf k) = s.dev.planeOf k ∨
      (∃ q ∈ (s.dev.plane (s.dev.planeOf k)).passes, q.2.md.port = k) ∨ (∃ q ∈ (s.dev.plane (s.dev.planeOf k)).waiting, q.md.port = k) →
    exec (.portSteer k) s = .next s) ∧
  (∀ (s : State) (k n : Nat), s.ready = true → k < 8 → s.dev.mac.want.getD k (s.dev.planeOf k) = n → n ≠ s.dev.planeOf k →
    (∀ q ∈ (s.dev.plane (s.dev.planeOf k)).passes, q.2.md.port ≠ k) → (∀ q ∈ (s.dev.plane (s.dev.planeOf k)).waiting, q.md.port ≠ k) →
    Does (.portSteer k) s fun d => ∃ e : Dev,
      e.mac = { s.dev.mac with steer := s.dev.mac.steer.set k n, parked := s.dev.mac.parked.filter fun q => q.md.port != k } ∧
      s.dev.changesOnly [.mac] e ∧ d = (s.dev.mac.parked.filter fun q => q.md.port == k).foldl (fun d q => d.toPlane n q) e) ∧
  (∀ (s : State) (hw : HostWrites) (x : Reload), s.ready = true → s.dev.cfg.reload = some x →
    s.dev.fld Reg.CFG_STATUS 26 24 ≠ 2 ∨ x.cancelled = true ∨ s.dev.drained x.region = false →
    exec (.reloadDrainDone hw) s = .next (s.stored hw)) ∧
  (∀ (s : State) (hw : HostWrites) (x : Reload), s.ready = true → s.dev.cfg.reload = some x → x.region < 6 →
    s.dev.fld Reg.CFG_STATUS 26 24 = 2 → x.cancelled = false → s.dev.drained x.region = true →
    DoesAfter (.reloadDrainDone hw) hw s fun d =>
      d.fld Reg.CFG_STATUS 26 24 = 3 ∧ d.regionState x.region = 2 ∧
      d.cfg = { s.dev.cfg with reload := some { x with raw := stagedBytes (s.stored hw).hostMem s.dram x.host x.addr x.len } } ∧
      s.dev.keepsRegs [Reg.CFG_STATUS, Reg.CFG_REGION_STAT + 4 * x.region] d ∧ s.dev.changesOnly [.regs, .cfg] d) ∧
  (∀ (s : State) (x : Reload), s.ready = true → s.dev.cfg.reload = some x → x.region < 6 →
    if s.dev.fld Reg.CFG_STATUS 26 24 = 3 then
      Answers .reloadWriteDone s fun t => t.dev.fld Reg.CFG_STATUS 26 24 = 4 ∧ t.dev.regionState x.region = 3 ∧
        s.dev.keepsRegs [Reg.CFG_STATUS, Reg.CFG_REGION_STAT + 4 * x.region] t.dev ∧ s.dev.changesOnly [.regs] t.dev ∧ s.keepsMem t
    else exec .reloadWriteDone s = .next s) ∧
  (∀ (s : State) (b : Bool) (x : Reload), s.ready = true → s.dev.cfg.reload = some x → s.dev.fld Reg.CFG_STATUS 26 24 ≠ 4 →
    exec (.reloadVerifyDone b) s = .next s) ∧
  (∀ (s : State) (b : Bool) (x : Reload), s.ready = true → s.dev.cfg.reload = some x → x.region < 6 → s.dev.fld Reg.CFG_STATUS 26 24 = 4 →
    Does (.reloadVerifyDone b) s fun d =>
      if Config.sha3 x.raw = x.hash then
        (d.regionOf x.region).pend = some (sectionOf (x.region + 1) ⟨0, x.len, x.schema, x.hash⟩ x.raw) ∧
        d.fld Reg.CFG_STATUS 26 24 = 5 ∧ d.regionState x.region = 4 ∧ d.cfg = s.dev.cfg ∧
        s.dev.keepsRegs [Reg.CFG_STATUS, Reg.CFG_REGION_STAT + 4 * x.region] d ∧ s.dev.changesOnly [.regs, .regions] d
      else if b = true then
        (d.regionOf x.region).pend = some (s.dev.regionOf x.region).stored ∧ d.fld Reg.CFG_STATUS 26 24 = 5 ∧ d.regionState x.region = 4 ∧
        d.flag Reg.CFG_STATUS 8 = true ∧ d.cfg = { s.dev.cfg with reload := some { x with fell := some 7 } } ∧
        s.dev.raised (srcRegion x.region 5) d ∧ s.dev.changesOnly [.regs, .regions, .cfg, .evt, .out] d
      else ∃ e : Dev, e.flag Reg.CFG_STATUS 8 = true ∧ s.dev.raised (srcRegion x.region 5) e ∧ s.dev.changesOnly [.regs, .evt, .out] e ∧
        ((e.failRegion x.region).cfgEnd 7 0).cfgShows 7 0 0 ∧ d = ((e.failRegion x.region).cfgEnd 7 0).leaveReload.nextAuto) ∧
  (∀ (s : State) (bad : List Nat) (x : Reload), s.ready = true → s.dev.cfg.reload = some x → s.dev.fld Reg.CFG_STATUS 26 24 ≠ 5 →
    exec (.reloadRejoinDone bad) s = .next s) ∧
  (∀ (s : State) (bad : List Nat) (x : Reload) (same : Bool) (e : Dev), s.ready = true → s.dev.cfg.reload = some x →
    s.dev.fld Reg.CFG_STATUS 26 24 = 5 → s.dev.rejoin x.region bad = (same, e) → (∀ c, x.fell = some c → c = 7) →
    Does (.reloadRejoinDone bad) s fun d => ∃ code,
      code = (if x.fell.isSome then 7 else if x.cancelled then 15 else if same then 0 else 11) ∧ (e.cfgEnd code 0).cfgShows code 0 0 ∧
      (e.cfgEnd code 0).cfg.reload = none ∧ d = (e.cfgEnd code 0).leaveReload.nextAuto) ∧
  (∀ (s : State) (x : Reload) (c : Section), s.ready = true → s.dev.cfg.reload = some x → s.dev.fld Reg.CFG_STATUS 26 24 = 5 → x.region < 2 →
    s.dev.mode = .reload → s.dev.fclk = 0 → s.dev.pwr.want = none → tabSorted s.dev.tsk.cells = true → s.dev.mac.parked = [] →
    (∀ n, n < 6 → (s.dev.regionOf n).due = false) → (s.dev.regionOf x.region).pend = some c →
    Does (.reloadRejoinDone []) s fun d =>
      (d.regionOf x.region).sec = c ∧ (d.regionOf x.region).stored = c ∧ (d.regionOf x.region).pend = none ∧ d.regionState x.region = 0 ∧
      d.mode = .service ∧
      (s.dev.regionState (1 - x.region) = 0 →
        if c.schema = (s.dev.regionOf (1 - x.region)).sec.schema then d.mac.want = s.dev.cfg.fabric ∧ d.regionState (1 - x.region) = 0
        else d.mac.want = s.dev.mac.want.map (fun _ => x.region) ∧ d.regionState (1 - x.region) = 5) ∧
      (∀ a ∈ regionCells x.region, (d.cell a).out = false) ∧ d.tsk.todo = [])

/-- An uncorrectable error of a region's cache starts a scrub and raises REGION_SCRUB, except in a region that is FAILED or EMPTY. A
scrub that ends with nothing left, and was not needed within 10 s of the one before, leaves the region in service; else a region
in service loads its stored image on the device's own account, once no other region reloads: LOADING, with REGION_RELOAD_AUTO
raised, its ports steered away or its flocks placed elsewhere. Once verified the stored section runs again; a first failure is
counted, a second leaves the region FAILED. (Choices of the model it rests on: log 43, 64, 97.) (R15, R353) -/
def Obligations.RegionsScrubReloadAndFail : Prop :=
  (∀ (s : State) (r b : Nat), s.ready = true → s.dev.regionState (r % 6) = 7 ∨ s.dev.regionState (r % 6) = 8 →
    exec (.cacheUncorrectableError r b) s = .next s) ∧
  (∀ (s : State) (r b : Nat), s.ready = true → s.dev.regionState (r % 6) ≠ 7 → s.dev.regionState (r % 6) ≠ 8 →
    Answers (.cacheUncorrectableError r b) s fun t =>
      (∃ near, t.dev.regionOf (r % 6) = { s.dev.regionOf (r % 6) with scrubbing := true, lastScrub := some s.dev.now, again := near } ∧
        (near = true ↔ ((s.dev.regionOf (r % 6)).scrubbing = true ∧ (s.dev.regionOf (r % 6)).again = true) ∨
          ∃ x, (s.dev.regionOf (r % 6)).lastScrub = some x ∧ s.dev.now < x + 15000000000)) ∧ s.dev.raised (srcRegion (r % 6) 1) t.dev ∧
      s.dev.keepsRegsE [] t.dev ∧ s.dev.changesOnly [.regs, .regions, .evt, .out] t.dev ∧ s.keepsMem t) ∧
  (∀ (s : State) (r : Nat) (ok : Bool), s.ready = true → (s.dev.regionOf (r % 6)).scrubbing = false →
    exec (.regionScrubDone r ok) s = .next s) ∧
  (∀ (s : State) (r : Nat), s.ready = true → (s.dev.regionOf (r % 6)).scrubbing = true → (s.dev.regionOf (r % 6)).again = false →
    Answers (.regionScrubDone r true) s fun t =>
      t.dev.regionOf (r % 6) = { s.dev.regionOf (r % 6) with scrubbing := false, again := false } ∧
      s.dev.changesOnly [.regions] t.dev ∧ s.keepsMem t) ∧
  (∀ (s : State) (r : Nat) (ok : Bool), s.ready = true → (s.dev.regionOf (r % 6)).scrubbing = true →
    s.dev.regionState (r % 6) ≠ 7 → s.dev.regionState (r % 6) ≠ 8 → ok = false ∨ (s.dev.regionOf (r % 6)).again = true →
    Does (.regionScrubDone r ok) s fun d => ∃ e : Dev,
      e.regionOf (r % 6) = { s.dev.regionOf (r % 6) with scrubbing := false, again := false } ∧ s.dev.changesOnly [.regions] e ∧
      d = e.autoReload (r % 6) ∧
      (r % 6 < 2 → s.dev.reloading = false → (∀ n, n < 6 → (s.dev.regionOf n).due = false) → s.dev.mayReload (r % 6) = true →
        d.regionState (r % 6) = 2 ∧ (d.regionOf (r % 6)).auto = true ∧
        d.mac.want = (if s.dev.regionState (1 - r % 6) = 0 then s.dev.mac.want.map (fun _ => 1 - r % 6) else s.dev.mac.want) ∧
        d.mac.steer = s.dev.mac.steer ∧
        s.dev.raised (srcRegion (r % 6) 2) d ∧ s.dev.keepsRegsE [Reg.CFG_REGION_STAT + 4 * (r % 6)] d ∧
        s.dev.changesOnly [.regs, .regions, .mac, .evt, .out] d)) ∧
  (∀ (s : State) (r : Nat) (ok : Bool) (bad : List Nat), s.ready = true → (s.dev.regionOf (r % 6)).auto = false →
    exec (.regionAutoReloadDone r ok bad) s = .next s) ∧
  (∀ (s : State) (r : Nat) (bad : List Nat), s.ready = true → (s.dev.regionOf (r % 6)).auto = true →
    (Does (.regionAutoReloadDone r true bad) s fun d => ∃ e : Dev,
      e.regionOf (r % 6) = { s.dev.regionOf (r % 6) with pend := some (s.dev.regionOf (r % 6)).stored } ∧ s.dev.changesOnly [.regions] e ∧
      d = (e.rejoin (r % 6) bad).2.nextAuto) ∧
    ((s.dev.regionOf (r % 6)).verifyFails = 0 →
      Answers (.regionAutoReloadDone r false bad) s fun t =>
        t.dev.regionOf (r % 6) = { s.dev.regionOf (r % 6) with verifyFails := 1 } ∧ s.dev.changesOnly [.regions] t.dev ∧ s.keepsMem t) ∧
    (1 ≤ (s.dev.regionOf (r % 6)).verifyFails →
      Does (.regionAutoReloadDone r false bad) s fun d => ∃ e : Dev,
        e.regionOf (r % 6) = { s.dev.regionOf (r % 6) with verifyFails := (s.dev.regionOf (r % 6)).verifyFails + 1 } ∧
        s.dev.changesOnly [.regions] e ∧ d = (e.failRegion (r % 6)).nextAuto))

/-- A frame is stamped and counted by its port's MAC; one below 64 bytes, with a bad FCS or above 9,216 bytes is dropped and counted
there, and MAC_RX_ERR raised once a beat; nothing of it enters a plane. In a mode without traffic it goes no further, and where
the burst store has less than its reserve it is refused and BURST_STORE_FULL raised. Else its payload is stored; a frame of a port
that no plane takes, one being steered or of a region not ACTIVE, waits; one that finds 4,096 reorder entries taken, or others
waiting, waits at the plane and is counted; else its walk begins at START under the epoch of this FCLK: it becomes an undecided
pass, or, malformed under an action DROP, is counted under its reason and dropped. A fill overtaken by a write is made again,
another releases the passes that waited for its bucket. (Choices of the model it rests on: log 57, 100.) (R74, R78, R79, R82, R83,
R89, R92) -/
def Obligations.FramesEnterAPlane : Prop :=
  (∀ (s : State) (p : Nat) (bs : List Byte) (ok : Bool), s.ready = true → bs.length < 64 ∨ ok = false ∨ 9216 < bs.length →
    Answers (.frameReceived p bs ok) s fun t =>
      t.dev.macPort p = { s.dev.macPort p with
        rxFrames := (s.dev.macPort p).rxFrames + 1, rxBytes := (s.dev.macPort p).rxBytes + bs.length,
        runt := (s.dev.macPort p).runt + if bs.length < 64 then 1 else 0,
        fcsErr := (s.dev.macPort p).fcsErr + if bs.length < 64 then 0 else if ok then 0 else 1,
        oversize := (s.dev.macPort p).oversize + if bs.length < 64 ∨ ok = false then 0 else 1 } ∧
      (∀ q, q ≠ p → t.dev.macPort q = s.dev.macPort q) ∧ (Src.MAC_RX_ERR ∉ s.dev.evt.once → s.dev.raised Src.MAC_RX_ERR t.dev) ∧
      s.dev.keepsRegsE [] t.dev ∧ s.dev.changesOnly [.regs, .tim, .mac, .evt, .out] t.dev ∧ s.keepsMem t) ∧
  (∀ (s : State) (p : Nat) (bs : List Byte), s.ready = true → 64 ≤ bs.length → bs.length ≤ 9216 →
    (s.dev.traffic = false →
      Answers (.frameReceived p bs true) s fun t =>
        (t.dev.macPort p).rxFrames = (s.dev.macPort p).rxFrames + 1 ∧ s.dev.changesOnly [.tim, .mac] t.dev ∧ s.keepsMem t) ∧
    (s.dev.traffic = true → s.dev.burstFree < s.dev.fld Reg.QUE_BURST_CFG 17 0 →
      Answers (.frameReceived p bs true) s fun t =>
        (t.dev.macPort p).rxFrames = (s.dev.macPort p).rxFrames + 1 ∧ s.dev.counted Reg.QUE_CNT_LO 2 1 t.dev ∧
        (Src.BURST_STORE_FULL ∉ s.dev.evt.once → s.dev.raised Src.BURST_STORE_FULL t.dev) ∧
        s.dev.changesOnly [.regs, .tim, .mac, .evt, .out] t.dev ∧ s.keepsMem t)) ∧
  (∀ (s : State) (p n : Nat) (bs : List Byte) (x : Pass), s.ready = true → 64 ≤ bs.length → bs.length ≤ 9216 → s.dev.traffic = true →
    s.dev.fld Reg.QUE_BURST_CFG 17 0 ≤ s.dev.burstFree → n = s.dev.planeOf p → n < 2 → s.dev.pkt.planes.length = 2 →
    x = { md := { port := p, flen := bs.length, beat := s.dev.beat }, bytes := bs, uid := s.dev.que.nextUid,
          stamp := clkNs (s.dev.rxStamp p).dt, side := [] } →
    Does (.frameReceived p bs true) s fun d =>
      (d.macPort p).rxFrames = (s.dev.macPort p).rxFrames + 1 ∧ d.que.nextUid = s.dev.que.nextUid + 1 ∧
      (s.dev.takes n p = false → d.mac.parked = s.dev.mac.parked ++ [x] ∧ d.pkt = s.dev.pkt ∧
        ∃ y, d.payload s.dev.que.nextUid = some y ∧ y.cells = cellsFor bs.length ∧ y.refs = 1 ∧ y.bytes = bs) ∧
      (s.dev.takes n p = true → 4096 ≤ s.dev.reorderUsed n ∨ (s.dev.plane n).waiting ≠ [] →
        (d.plane n).waiting = (s.dev.plane n).waiting ++ [x] ∧ (d.plane n).passes = (s.dev.plane n).passes ∧
        s.dev.counted (Reg.PRS_CNT_LO + planeOfs n) 1 1 d ∧ ((s.dev.plane n).waiting = [] → s.dev.raised (srcRegion n 9) d)) ∧
      (s.dev.takes n p = true → s.dev.reorderUsed n < 4096 → (s.dev.plane n).waiting = [] →
        (∀ w, walk (s.dev.regionOf n).sec.graph bs (bs.length - 4) (decide (bs.length = 64)) 25
            (graphStart (s.dev.regionOf n).sec.graph) {} = .ok w →
          ∃ y, d.passOf n (s.dev.plane n).nextPass = some y ∧ y.md.epoch = s.dev.epochFor ∧ y.md.pass = 0 ∧ y.md.port = p ∧
            y.decided = false ∧ y.order = none ∧ y.uid = s.dev.que.nextUid ∧ y.md.demux = w.demux ∧ y.key0 = w.key0 p ∧ y.tuple = w.tuple) ∧
        (∀ r c, walk (s.dev.regionOf n).sec.graph bs (bs.length - 4) (decide (bs.length = 64)) 25
            (graphStart (s.dev.regionOf n).sec.graph) {} = .bad r c →
          s.dev.fld (Reg.PRS_MAL_CTRL + planeOfs n + 4 * (r - 1)) 1 0 = 0 →
          d.passOf n (s.dev.plane n).nextPass = none ∧ d.payload s.dev.que.nextUid = none ∧
          s.dev.counted (Reg.PRS_MAL_CNT_LO + planeOfs n) (r - 1) 1 d))) ∧
  (∀ (s : State) (n b : Nat), s.ready = true → (∀ f ∈ (s.dev.plane n).fills, f.1 ≠ b) → exec (.flowBucketFill n b) s = .next s) ∧
  (∀ (s : State) (n b : Nat) (dirty : Bool), s.ready = true → n < s.dev.pkt.planes.length → (b, dirty) ∈ (s.dev.plane n).fills →
    (∀ f ∈ (s.dev.plane n).fills, f.1 = b → f = (b, dirty)) →
    Answers (.flowBucketFill n b) s fun t =>
      (if dirty then (t.dev.plane n).fills = (s.dev.plane n).fills.map (fun f => if f.1 = b then (b, false) else f) ∧
          (t.dev.plane n).passes = (s.dev.plane n).passes
        else (∀ f ∈ (t.dev.plane n).fills, f.1 ≠ b) ∧ b ∈ (t.dev.plane n).cache ∧
          (∀ q ∈ (t.dev.plane n).passes, q.2.waitFill ≠ some b)) ∧
      s.dev.changesOnly [.pkt] t.dev ∧ s.keepsMem t)

/-- A pass that waits for its bucket, one already decided, and any while every reorder entry is taken, is not decided. The decision
takes the next reorder entry: index 0, an action of a reserved code or DROP, and a disposition DROP, drop the pass; PUNT gives it
to its ring; RECIRC keeps its strip and start for a second pass, and on a second pass is a drop counted as RECIRC_LIMIT; FORWARD
of a packet that is not SRTP is ready for its queue. A second pass keeps the first's entry until it takes one, and walks from
START under the first's epoch; its length is what is left (log 109). A release takes a ready pass of the port that holds an entry,
none of the port ready before it; nothing happens where there is none. A learned flow idle for AGE beats that is not pinned is
removed. (Choices of the model it rests on: log 61, 83, 109, 110, 111.) (R81, R82, R86, R87, R91, R92) -/
def Obligations.PassesAreDecidedAndReleased : Prop :=
  (∀ (s : State) (n id : Nat), s.ready = true → s.dev.passOf n id = none ∨
      (∃ x, s.dev.passOf n id = some x ∧ (x.decided = true ∨ x.waitFill ≠ none ∨ (4096 ≤ s.dev.reorderUsed n ∧ x.order = none))) → exec (.passDecision n id) s = .next s) ∧
  (∀ (s : State) (n id : Nat) (x : Pass), s.ready = true → n < s.dev.pkt.planes.length → s.dev.pkt.planes.length = 2 → s.dev.passOf n id = some x →
    x.decided = false → x.waitFill = none → s.dev.reorderUsed n < 4096 ∨ x.order ≠ none → s.dev.mode ≠ .recovery → s.dev.stage < 5 →
    Does (.passDecision n id) s fun d =>
      ∀ q idx f pre e, s.dev.classify n x = (q, idx, f, pre, e) →
        (idx = 0 → d.passOf n id = some { q with drop := true, ready := true, decided := true, order := some (s.dev.plane n).nextOrder }) ∧
        (idx ≠ 0 → ∀ a col drop prec g y, a = e.ent .mat (bankTable 5 (q.md.epoch % 2)) idx → e.meterAndCount q a f pre = (col, drop, prec, g) →
          y = { q with md := { q.md with colour := col }, prec := prec, decided := true, order := some (s.dev.plane n).nextOrder } →
          (drop = true ∨ a.f 0 31 28 = 0 ∨ 4 ≤ a.f 0 31 28 → d.passOf n id = some { y with drop := true, ready := true }) ∧
          (drop = false → a.f 0 31 28 = 2 → d.passOf n id = some { y with ring := a.f 0 23 20, punt := some { reason := 1 }, ready := true }) ∧
          (drop = false → a.f 0 31 28 = 3 → x.md.pass ≠ 1 → d.passOf n id = some { y with recirc := some (a.f 4 16 8, a.f 4 7 0) }) ∧
          (drop = false → a.f 0 31 28 = 3 → x.md.pass = 1 → d.passOf n id = some { y with drop := true, ready := true }) ∧
          (drop = false → a.f 0 31 28 = 1 → ∀ w, w = (if a.b 5 31 then a.f 5 17 0 else q.queue) →
            (g.isSrtp { q with md := { q.md with colour := col }, prec := prec, queue := w, queueOvr := a.b 5 31 } = false) →
            d.passOf n id = some { y with queue := w, queueOvr := a.b 5 31, ready := true })) ∧
        (idx = 0 ∨ (e.ent .mat (bankTable 5 (q.md.epoch % 2)) idx).f 0 31 28 ≠ 1 → ∀ j, j ≠ id → d.passOf n j = s.dev.passOf n j)) ∧
  (∀ (s : State) (n id : Nat), s.ready = true → (∀ x, s.dev.passOf n id = some x → x.recirc = none) →
    exec (.recircSecondPass n id) s = .next s) ∧
  (∀ (s : State) (n id strip start : Nat) (x : Pass), s.ready = true → s.dev.passOf n id = some x → x.recirc = some (strip, start) →
    Does (.recircSecondPass n id) s fun d => ∃ (e : Dev) (y : Pass),
      e = s.dev.setPayloadBytes x.uid (x.bytes.drop strip) ∧ y.bytes = x.bytes.drop strip ∧ y.md.epoch = x.md.epoch ∧ y.md.pass = 1 ∧
      y.md.port = x.md.port ∧ y.md.flen = x.md.flen - strip ∧ y.order = x.order ∧ y.decided = false ∧ y.seqNo = x.seqNo ∧ y.uid = x.uid ∧
      d = (e.parse n id start y (decide (x.md.flen = 64))).entriesFreed n) ∧
  (∀ (s : State) (n p : Nat), s.ready = true → s.dev.nextRelease n p = none → exec (.reorderRelease n p) s = .next s) ∧
  (∀ (s : State) (n p id : Nat) (x : Pass), s.ready = true → s.dev.nextRelease n p = some (id, x) →
    Does (.reorderRelease n p) s fun d =>
      (id, x) ∈ (s.dev.plane n).passes ∧ x.md.port = p ∧ x.ready = true ∧ x.order.isSome = true ∧ s.dev.mayRelease n x = true ∧
      (∃ e : Dev, (x.auth ≠ 1 ∨ x.drop = true → e = s.dev.dropPass n id) ∧
        (x.auth = 1 → x.drop = false → e = s.dev.setPass n id { x with order := none, released := true, relAt := some s.dev.now }) ∧
        d = (e.handOn x).entriesFreed n)) ∧
  (∀ (s : State) (i : Nat), s.ready = true →
    if (s.dev.flow i).fp ≠ 0 ∧ (s.dev.flow i).learned = true ∧ (s.dev.flow i).pinned = false ∧
        s.dev.fld Reg.MAT_FLOW_CFG 23 0 ≤ s.dev.beatsSince (s.dev.flow i).last then
      Answers (.flowAgeSweep i) s fun t => t.dev.flow i = {} ∧ (∀ j, j ≠ i → t.dev.flow j = s.dev.flow j) ∧
        s.dev.counted Reg.MAT_CNT_LO 4 1 t.dev ∧ s.dev.keepsRegs [Reg.MAT_CNT_LO + 32, Reg.MAT_CNT_LO + 36] t.dev ∧
        s.dev.changesOnly [.regs, .pkt] t.dev ∧ s.keepsMem t
    else exec (.flowAgeSweep i) s = .next s)

/-- COMMIT while RECLAIMED = 1 makes the current epoch the previous one, the next (modulo 16) the current, and RECLAIMED 0; a frame
that begins in its FCLK takes the old; while RECLAIMED = 0 it is refused and sets REFUSED. RECLAIMED comes back, and
EPOCH_RECLAIMED is raised, once no pass of the previous epoch is in flight. INSERT takes the entry of its fingerprint, else a free
one, of the bucket, or answers BUCKET_FULL; DELETE and LOOKUP of an absent entry answer NOT_FOUND; INSERT of another table is a
WRITE of it; a fill of a bucket written is to be made again. COPY_ACTIVE makes the shadow bank's tables, enables and roots the
active one's, or answers BUSY_BANK while RECLAIMED = 0. READ_CLEAR returns a counter pair and leaves 0, or the packet counted in
that FCLK. (Choices of the model it rests on: log 3, 60, 108.) (R83, R88, R89, R90, R93, R10) -/
def Obligations.EpochsAndFlowTable : Prop :=
  (∀ (s : State) (p : Path) (v : Word), s.ready = true →
    Answers (.matEpochCommit p v) s fun t =>
      (if s.dev.flag Reg.MAT_EPOCH 30 then
        t.dev.fld Reg.MAT_EPOCH 7 4 = s.dev.epochNow ∧ t.dev.epochNow = (s.dev.epochNow + 1) % 16 ∧ t.dev.flag Reg.MAT_EPOCH 30 = false ∧
        t.dev.flag Reg.MAT_EPOCH 29 = (s.dev.flag Reg.MAT_EPOCH 29 && !bit v 29) ∧ t.dev.epochFor = s.dev.epochNow ∧
        t.dev.pkt = { s.dev.pkt with commitAt := some s.dev.now }
      else t.dev.flag Reg.MAT_EPOCH 29 = true ∧ t.dev.epochNow = s.dev.epochNow ∧ t.dev.fld Reg.MAT_EPOCH 7 4 = s.dev.fld Reg.MAT_EPOCH 7 4 ∧
        t.dev.flag Reg.MAT_EPOCH 30 = false ∧ t.dev.pkt = s.dev.pkt) ∧
      s.dev.keepsRegs [Reg.MAT_EPOCH] t.dev ∧ s.dev.changesOnly [.regs, .pkt] t.dev ∧ s.keepsMem t) ∧
  (∀ (s : State) (at_ : Nat), s.ready = true → at_ = (match s.dev.pkt.commitAt with | some t => t + 1 | none => s.dev.now) →
    (s.dev.flag Reg.MAT_EPOCH 30 = true ∨ s.dev.inFlight (s.dev.fld Reg.MAT_EPOCH 7 4) ≠ 0 ∨ s.dev.reachNow at_ = none →
      exec .epochReclaimed s = .next s) ∧
    (∀ e, s.dev.flag Reg.MAT_EPOCH 30 = false → s.dev.inFlight (s.dev.fld Reg.MAT_EPOCH 7 4) = 0 → s.dev.reachNow at_ = some e →
      Answers .epochReclaimed s fun t => t.dev.flag Reg.MAT_EPOCH 30 = true ∧ e.raised (srcRegion 0 12) t.dev ∧
        t.dev.epochNow = e.epochNow ∧ e.keepsRegsE [Reg.MAT_EPOCH] t.dev ∧ e.changesOnly [.regs, .evt, .out] t.dev ∧ s.keepsMem t)) ∧
  (∀ (s : State) (p : Path) (v : Word) (b i : Nat) (f : Flow), s.ready = true → bits v 27 24 = 2 → b = s.dev.fld Reg.MAT_TAB_ADDR 24 2 →
    f = flowOf (s.dev.dataEntry Reg.MAT_TAB_DATA) → f.fp ≠ 0 →
    s.dev.flowIn b f.fp = some i ∨ (s.dev.flowIn b f.fp = none ∧ s.dev.flowIn b 0 = some i) → s.dev.pkt.planes.length = 2 →
    Answers (.matTabInsert p v) s fun t =>
      t.dev.flow i = f ∧ (∀ j, j ≠ i → t.dev.flow j = s.dev.flow j) ∧ t.dev.fld Reg.MAT_TAB_ADDR 24 0 = i ∧ i / 4 = b ∧
      (∀ n, n < 2 → ∀ x ∈ (t.dev.plane n).fills, x.1 = b → x.2 = true) ∧ t.dev.tabStat Reg.MAT_TAB_CMD 0 ∧
      s.dev.keepsRegs [Reg.MAT_TAB_CMD, Reg.MAT_TAB_ADDR] t.dev ∧ s.dev.changesOnly [.regs, .pkt] t.dev ∧ s.keepsMem t) ∧
  (∀ (s : State) (p : Path) (v : Word) (b i : Nat) (f : Flow), s.ready = true → bits v 27 24 = 2 → b = s.dev.fld Reg.MAT_TAB_ADDR 24 2 →
    f = flowOf (s.dev.dataEntry Reg.MAT_TAB_DATA) → f.fp ≠ 0 → s.dev.flowIn b f.fp = some i →
    Answers (.matTabDelete p v) s fun t =>
      t.dev.flow i = {} ∧ (∀ j, j ≠ i → t.dev.flow j = s.dev.flow j) ∧ t.dev.tabStat Reg.MAT_TAB_CMD 0 ∧
      s.dev.keepsRegs [Reg.MAT_TAB_CMD] t.dev ∧ s.dev.changesOnly [.regs, .pkt] t.dev ∧ s.keepsMem t) ∧
  RefusesTable .matTabInsert Reg.MAT_TAB_CMD 3 (fun d _ => d.fld Reg.MAT_TAB_CMD 27 24 = 2 ∧ (flowOf (d.dataEntry Reg.MAT_TAB_DATA)).fp ≠ 0 ∧
    d.flowIn (d.fld Reg.MAT_TAB_ADDR 24 2) (flowOf (d.dataEntry Reg.MAT_TAB_DATA)).fp = none ∧ d.flowIn (d.fld Reg.MAT_TAB_ADDR 24 2) 0 = none) ∧
  RefusesTable .matTabDelete Reg.MAT_TAB_CMD 4 (fun d _ => d.fld Reg.MAT_TAB_CMD 27 24 = 2 ∧ (flowOf (d.dataEntry Reg.MAT_TAB_DATA)).fp ≠ 0 ∧
    d.flowIn (d.fld Reg.MAT_TAB_ADDR 24 2) (flowOf (d.dataEntry Reg.MAT_TAB_DATA)).fp = none) ∧
  (∀ (s : State) (p : Path) (v : Word), s.ready = true → (s.dev.writeReg Reg.MAT_TAB_CMD v).fld Reg.MAT_TAB_CMD 27 24 ≠ 2 →
    exec (.matTabInsert p v) s = exec (.matTabWrite p v) s) ∧
  (∀ (s : State) (p : Path) (v : Word) (key : List Nat), s.ready = true → bits v 27 24 = 2 →
    key = (List.range 6).map (fun k => (s.dev.reg (Reg.MAT_TAB_DATA + 4 * k)).toNat) →
    Answers (.matTabLookup p v) s fun t =>
      ((∀ i, i / 4 = bucketOf key → ∀ z, z < 4096 → (s.dev.flow i).fp ≠ flowFp z key) →
        t.dev.tabStat Reg.MAT_TAB_CMD 4 ∧ s.dev.keepsRegs [Reg.MAT_TAB_CMD] t.dev) ∧
      (∀ i z, i / 4 = bucketOf key → z < 4096 → (s.dev.flow i).fp = flowFp z key →
        (∀ j, j / 4 = bucketOf key → j < i → ∀ y, y < 4096 → (s.dev.flow j).fp ≠ flowFp y key) →
          (∀ k, k < 8 → t.dev.reg (Reg.MAT_TAB_DATA + 4 * k) = (s.dev.flow i).words.word k) ∧
            t.dev.fld Reg.MAT_TAB_ADDR 24 0 = i ∧ t.dev.tabStat Reg.MAT_TAB_CMD 0 ∧
            s.dev.keepsRegs (Reg.MAT_TAB_CMD :: Reg.MAT_TAB_ADDR :: dataRegs Reg.MAT_TAB_DATA 8) t.dev) ∧
      s.dev.changesOnly [.regs] t.dev ∧ s.keepsMem t) ∧
  RefusesTable .matTabCopyActive Reg.MAT_TAB_CMD 1 (fun d _ => d.flag Reg.MAT_EPOCH 30 = false) ∧
  (∀ (s : State) (p : Path) (v : Word) (a : Nat), s.ready = true → s.dev.flag Reg.MAT_EPOCH 30 = true → a = s.dev.epochNow % 2 →
    tabSorted s.dev.tabs = true →
    Answers (.matTabCopyActive p v) s fun t =>
      (∀ x ∈ [0, 4, 5], ∀ i, i < 2 ^ 32 → t.dev.ent .mat (bankTable x (1 - a)) i = s.dev.ent .mat (bankTable x a) i ∧
        t.dev.ent .mat (bankTable x a) i = s.dev.ent .mat (bankTable x a) i) ∧
      t.dev.fld Reg.TRE_CTRL (2 * (1 - a) + 1) (2 * (1 - a)) = s.dev.fld Reg.TRE_CTRL (2 * a + 1) (2 * a) ∧
      (∀ x, x < 4 → t.dev.reg (Reg.TRE_ROOT_LO + 16 * (1 - a) + 4 * x) = s.dev.reg (Reg.TRE_ROOT_LO + 16 * a + 4 * x)) ∧
      t.dev.tabStat Reg.MAT_TAB_CMD 0 ∧ s.dev.changesOnly [.regs, .tabs] t.dev ∧ s.keepsMem t) ∧
  RefusesTable (fun p v => .metTabReadClear p v 0) Reg.MET_TAB_CMD 5 (fun d _ => d.fld Reg.MET_TAB_CMD 27 24 = 0) ∧
  (∀ (s : State) (p : Path) (v : Word) (inc i : Nat), s.ready = true → bits v 27 24 = 1 → i = s.dev.fld Reg.MET_TAB_ADDR 20 0 →
    Answers (.metTabReadClear p v inc) s fun t =>
      (∀ k, k < 8 → t.dev.reg (Reg.MET_TAB_DATA + 4 * k) = (pairWords (s.dev.ctr i)).word k) ∧
      t.dev.ctr i = (if inc = 0 then (0, 0) else (1, inc % 2 ^ 64)) ∧ (∀ j, j ≠ i → t.dev.ctr j = s.dev.ctr j) ∧
      t.dev.tabStat Reg.MET_TAB_CMD 0 ∧ s.dev.keepsRegs (Reg.MET_TAB_CMD :: dataRegs Reg.MET_TAB_DATA 8) t.dev ∧
      s.dev.changesOnly [.regs, .pkt] t.dev ∧ s.keepsMem t)

/-- Plaintext of a pass in a cell makes its reorder entry ready once, its bytes the program's output, and the VP8 layer is read from
them. At the program's end the cell takes other work; a tag that differs or is too short, or a program without a tag check, makes
the pass FAIL, counted and AUTH_FAIL raised once a beat; a tag that agrees makes it PASS and updates the window of SRTP or of
SRTCP, except that an index already received is FAIL; the ECB test outside TEST is PROG_MODE, its packet dropped. A packet PENDING
32,768 FCLK after its release becomes FAIL, counted as AUTH_TIMEOUT. A packet in the key-wait queue 4 beats after its arrival is
dropped and counted; none before. A cell without work and a packet that does not wait change nothing. What the block operation
computes is a function the model does not open. (Choices of the model it rests on: log 9, 59, 61.) (R76, R97, R99, R100, R102,
R110, R113) -/
def Obligations.CipherPassesResolve : Prop :=
  (∀ (s : State) (n c : Nat), s.ready = true → tabFind (s.dev.plane n).jobs c = none →
    exec (.cipherPlaintextRelease n c) s = .next s ∧ exec (.cipherProgramEnd n c) s = .next s) ∧
  (∀ (s : State) (n c id : Nat) (l : Bool) (p : Pass), s.ready = true → n < s.dev.pkt.planes.length →
    tabFind (s.dev.plane n).jobs c = some (.pass id, l) → s.dev.passOf n id = some p →
    Answers (.cipherPlaintextRelease n c) s fun t =>
      (p.ready = true → t.dev = s.dev) ∧ (s.dev.decryptPass n p = none → t.dev = s.dev) ∧
      (∀ k g j r, p.ready = false → s.dev.decryptPass n p = some (k, g, j, r) →
        t.dev.passOf n id = some { s.dev.vp8Layer p (plainBytes p j r) with ready := true } ∧ (∀ x, s.dev.payload p.uid = some x →
          t.dev.payload p.uid = some { x with bytes := plainBytes p j r }) ∧ (∀ i, i ≠ id → t.dev.passOf n i = s.dev.passOf n i)) ∧
      s.dev.changesOnly [.pkt, .que] t.dev ∧ s.keepsMem t) ∧
  (∀ (s : State) (n c id : Nat) (l : Bool) (p : Pass), s.ready = true → n < s.dev.pkt.planes.length → s.dev.pkt.planes.length = 2 →
    tabFind (s.dev.plane n).jobs c = some (.pass id, l) → s.dev.passOf n id = some p →
    Does (.cipherProgramEnd n c) s fun d => ∃ e : Dev, d = e.herdFree n c ∧
      (∀ k g j r, s.dev.decryptPass n p = some (k, g, j, r) →
        (g = 0 → s.dev.mode ≠ .test → s.dev.counted (Reg.CIP_CNT_LO + planeOfs n) 4 1 e ∧ s.dev.counted (Reg.CIP_CNT_LO + planeOfs n) 0 1 e ∧
          (p.released = false → ∃ q, e.passOf n id = some q ∧ q.auth = 3 ∧ q.drop = true)) ∧
        ((g = 0 → s.dev.mode = .test) → (r.short = true → s.dev.counted (Reg.CIP_CNT_LO + planeOfs n) 3 1 e) ∧
        (r.check = some false ∨ (r.check = none ∧ s.dev.stepsOf n g = []) ∨
            (r.check = some true ∧ isReplay (s.dev.inCtx k.leg (p.md.demux == 1)) j.index = true) →
          (if p.released then e.passOf n id = none else ∃ q, e.passOf n id = some q ∧ q.auth = 3 ∧ q.ready = true ∧ q.uid = p.uid) ∧
          (∀ x, e.payload p.uid = some x → x.auth = 3) ∧
          s.dev.counted (Reg.CIP_CNT_LO + planeOfs n) 0 1 e ∧ (Src.AUTH_FAIL ∉ s.dev.evt.once → s.dev.raised Src.AUTH_FAIL e) ∧
          e.vlt.ctxs = s.dev.vlt.ctxs) ∧
        (r.check = some true → isReplay (s.dev.inCtx k.leg (p.md.demux == 1)) j.index = false → r.short = false →
          (if p.released then e.passOf n id = none else ∃ q, e.passOf n id = some q ∧ q.auth = 2 ∧ q.ready = true ∧ q.uid = p.uid) ∧
          (∀ x, e.payload p.uid = some x → x.auth = 2) ∧
          e.inCtx k.leg (p.md.demux == 1) = (s.dev.inCtx k.leg (p.md.demux == 1)).accept j.index ∧
          e.reg (Reg.CIP_CNT_LO + planeOfs n) = s.dev.reg (Reg.CIP_CNT_LO + planeOfs n))))) ∧
  (∀ (s : State) (n c id : Nat) (l : Bool), s.ready = true → tabFind (s.dev.plane n).jobs c = some (.pass id, l) → s.dev.passOf n id = none →
    Does (.cipherProgramEnd n c) s fun d => d = s.dev.herdFree n c) ∧
  (∀ (s : State) (n c port id : Nat) (l : Bool), s.ready = true → tabFind (s.dev.plane n).jobs c = some (.frame port id, l) →
    Does (.cipherProgramEnd n c) s fun d => d = (s.dev.endFrame n port id).herdFree n c) ∧
  (∀ (s : State) (u : Nat), s.ready = true → (∀ n, n < 2 → ∀ q ∈ (s.dev.plane n).passes, q.2.uid ≠ u) → exec (.authTimeout u) s = .next s) ∧
  (∀ (s : State) (n id u r : Nat) (p : Pass), s.ready = true → n < 2 → s.dev.pkt.planes.length = 2 → (id, p) ∈ (s.dev.plane n).passes → p.uid = u →
    (∀ m, m < 2 → ∀ q ∈ (s.dev.plane m).passes, q.2.uid = u → m = n ∧ q = (id, p)) → tabSorted (s.dev.plane n).passes = true → p.relAt = some r →
    p.auth ≠ 1 ∨ s.dev.reachNow (r + 32768) = none → exec (.authTimeout u) s = .next s) ∧
  (∀ (s : State) (n id u r : Nat) (p : Pass), s.ready = true → n < 2 → s.dev.pkt.planes.length = 2 → (id, p) ∈ (s.dev.plane n).passes → p.uid = u →
    (∀ m, m < 2 → ∀ q ∈ (s.dev.plane m).passes, q.2.uid = u → m = n ∧ q = (id, p)) → tabSorted (s.dev.plane n).passes = true → p.relAt = some r →
    p.auth = 1 → r + 32768 ≤ s.dev.now →
    Does (.authTimeout u) s fun d =>
      (if p.released then d.passOf n id = none else d.passOf n id = some { p with slot := none, auth := 3, ready := true }) ∧
      (∀ x, d.payload u = some x → x.auth = 3) ∧ s.dev.counted (Reg.CIP_CNT_LO + planeOfs n) 2 1 d ∧
      s.dev.counted (Reg.CIP_CNT_LO + planeOfs n) 0 1 d ∧ (Src.AUTH_FAIL ∉ s.dev.evt.once → s.dev.raised Src.AUTH_FAIL d)) ∧
  (∀ (s : State) (n id : Nat), s.ready = true → (∀ w ∈ (s.dev.plane n).kw, w.1 = id → s.dev.beat < w.2 + 4) →
    exec (.keyWaitTimeout n id) s = .next s) ∧
  (∀ (s : State) (n id at_ : Nat) (p : Pass), s.ready = true → n < s.dev.pkt.planes.length → (s.dev.plane n).kw.filter (fun w => w.1 == id) = [(id, at_)] →
    at_ + 4 ≤ s.dev.beat → s.dev.passOf n id = some p →
    Does (.keyWaitTimeout n id) s fun d =>
      (∀ w ∈ (d.plane n).kw, w.1 ≠ id) ∧ d.passOf n id = none ∧ s.dev.counted Reg.VLT_CNT_LO 3 1 d ∧
      (∀ x, s.dev.payload p.uid = some x → x.refs ≤ 1 → d.payload p.uid = none))

/-- The load served next is one of ingress packets where there is one, then one of a pin or group. A blob that fails a check loads
nothing: the request goes and KEY_LOAD_FAIL is raised. Else the slot takes a free place, or that of the unpinned slot not in use
longest unused; where there is none the load waits and PEN_STARVED is counted once. There are two lanes. A binding is written as
given; handle and slot state are read only, an index beyond the table is BAD_ENTRY, and so are pins that take more than PIN_MAX.
(Choices of the model it rests on: log 9, 11.) (R107, R108, R109, R111, R118, R404) -/
def Obligations.SlotLoadsAndBindings : Prop :=
  (∀ (s : State) (l : Nat), s.ready = true → 2 ≤ l ∨ s.dev.nextLoad = none → exec (.slotLoadDone l) s = .next s) ∧
  (∀ (s : State) (l : Nat) (r : LoadReq), s.ready = true → l < 2 → s.dev.nextLoad = some r →
    Does (.slotLoadDone l) s fun d =>
      r ∈ s.dev.vlt.loads ∧ r.starved = false ∧ (∀ x ∈ s.dev.vlt.loads, x.starved = false → x.cls = 1 → r.cls = 1) ∧
      (∀ x ∈ s.dev.vlt.loads, x.starved = false → x.cls = 2 → r.cls = 1 ∨ r.cls = 2) ∧
      (∀ why, s.dev.openFor r.leg r.egress = .error why →
        d.vlt.slots = s.dev.vlt.slots ∧ (∀ x ∈ d.vlt.loads, x.leg = r.leg → x.egress ≠ r.egress) ∧ s.dev.raised Src.KEY_LOAD_FAIL d) ∧
      (∀ x, s.dev.openFor r.leg r.egress = .ok x → x.leg = r.leg ∧ x.egress = r.egress ∧ x.handle = s.dev.handleOf r.leg r.egress) ∧
      (∀ x, s.dev.openFor r.leg r.egress = .ok x → s.dev.victim = none →
        d.vlt.slots = s.dev.vlt.slots ∧ (∀ y ∈ d.vlt.loads, y.leg = r.leg → y.egress = r.egress → y.starved = true) ∧
        s.dev.counted Reg.VLT_CNT_LO 5 1 d) ∧
      (∀ x k, s.dev.openFor r.leg r.egress = .ok x → s.dev.victim = some k →
        (∃ b, d.penSlot k = some { x with pinned := b }) ∧ (∀ y ∈ d.vlt.loads, y.leg = r.leg → y.egress ≠ r.egress) ∧
        s.dev.counted Reg.VLT_CNT_LO (if r.egress then 1 else 0) 1 d ∧
        (tabSorted s.dev.vlt.slots = true → ∀ y, s.dev.penSlot k = some y → y.users = 0 ∧ y.pinned = false)) ∧
      s.dev.changesOnly [.regs, .vlt, .tsk, .evt, .out] d ∧ d.tsk.tasks = s.dev.tsk.tasks) ∧
  WritesTable .vltTabWrite Reg.VLT_TAB_CMD Reg.VLT_TAB_ADDR Reg.VLT_TAB_DATA 15 3 .vlt [.regs, .tabs, .vlt]
    (fun _ _ i => (0, i)) (fun _ _ _ n => { d0 := n.d0, d1 := n.d1 &&& 0xF000 })
    (fun d t i n => t = 0 ∧ i < 16384 ∧ ∀ more, more = (n.b 1 15 && !(d.binding i).b 1 15).toNat + (n.b 1 14 && !(d.binding i).b 1 14).toNat →
      more = 0 ∨ d.pinsAsked + more ≤ d.pinMax) ∧
  RefusesTable .vltTabWrite Reg.VLT_TAB_CMD 5 (fun d _ => ∀ t i n more, t = d.fld Reg.VLT_TAB_CMD 27 24 → i = d.fld Reg.VLT_TAB_ADDR 15 0 →
    n = d.dataEntry Reg.VLT_TAB_DATA → more = (n.b 1 15 && !(d.binding i).b 1 15).toNat + (n.b 1 14 && !(d.binding i).b 1 14).toNat →
    vltTabSize t ≤ i ∨ t ≠ 0 ∨ (more ≠ 0 ∧ d.pinMax < d.pinsAsked + more))

/-- OPEN with a ciphertext of another length than 1,088 bytes is BAD_LEN; without a signature that is required and verifies it is
DENIED and counted; with sixteen sessions open it is NO_SESSION; else it opens the lowest free one under a key derived from the
ciphertext. WRAP of a session that is not open is NO_SESSION, of no records or more than 64 BAD_LEN; each record that does not
unwrap answers 1 and is counted, one with a bad field 2, and a good one 0, its blob sealed anew at its handle and the generation
advanced. CLOSE and the end of a session's life erase it. BLOB_GET returns the blobs of its handles, BLOB_PUT checks each; ATTEST
signs a report that begins with its fixed words and carries the nonce. Ciphers and hashes are functions the model does not open.
(Choices of the model it rests on: log 9, 10, 44, 115.) (R103, R104, R105, R106, R116, R371) -/
def Obligations.ImportsBlobsAndAttestation : Prop :=
  (∀ (s : State) (seq : Nat) (ct sig : List Byte), s.ready = true → s.dev.mode ≠ .reset → s.dev.mbxTakes 5 = true →
    (ct.length ≠ 1088 → Mails (.importOpen seq ct sig) 5 seq s fun st _ d => st = 3 ∧ d.vlt = s.dev.vlt) ∧
    (ct.length = 1088 → s.dev.sigRequired = true → (s.dev.vlt.fails.filter fun x => decide (aclkBetween x s.dev.now < 200000000)).length < 31 →
      Mails (.importOpen seq ct sig) 5 seq s fun st _ d =>
        (sig.length ≠ 3309 ∨ Config.serviceSigOk s.dev.svcKey ct sig = false →
          st = 5 ∧ d.vlt.sessions = s.dev.vlt.sessions ∧ s.dev.counted Reg.VLT_CNT_LO 7 1 d ∧ s.dev.now ∈ d.vlt.fails)) ∧
    (ct.length = 1088 → s.dev.sigRequired = false →
      Mails (.importOpen seq ct sig) 5 seq s fun st data d =>
        match freeKey s.dev.vlt.sessions 16 with
        | none => st = 0x101 ∧ d.vlt = s.dev.vlt
        | some n => n < 16 ∧ st = 0 ∧ data = toLe 4 n ∧
            (∃ k, tabFind d.vlt.sessions n = some { opened := s.dev.tim.dt, key := k }) ∧
            (∀ m, m ≠ n → tabFind d.vlt.sessions m = tabFind s.dev.vlt.sessions m))) ∧
  (∀ (s : State) (seq n : Nat) (rs : List (List Byte)), s.ready = true → s.dev.mode ≠ .reset → s.dev.mbxTakes 5 = true →
    (rs = [] ∨ 64 < rs.length ∨ (∃ r ∈ rs, r.length ≠ 72) → Mails (.importWrap seq n rs) 5 seq s fun st _ d => st = 3 ∧ d.vlt = s.dev.vlt) ∧
    (rs ≠ [] → rs.length ≤ 64 → (∀ r ∈ rs, r.length = 72) → tabFind s.dev.vlt.sessions n = none →
      Mails (.importWrap seq n rs) 5 seq s fun st _ d => st = 0x101 ∧ d.vlt = s.dev.vlt)) ∧
  (∀ (s : State) (seq n : Nat) (r : List Byte) (x : Session), s.ready = true → s.dev.mode ≠ .reset → s.dev.mbxTakes 5 = true → r.length = 72 →
    tabFind s.dev.vlt.sessions n = some x → (s.dev.vlt.fails.filter fun y => decide (aclkBetween y s.dev.now < 200000000)).length < 31 →
    s.dev.vlt.erasing = false →
    Mails (.importWrap seq n [r]) 5 seq s fun st data d =>
      st = 0 ∧ (Config.kwUnwrap x.key r = none → data = [1] ∧ s.dev.counted Reg.VLT_CNT_LO 7 1 d ∧ d.vlt.blobs = s.dev.vlt.blobs) ∧
      (∀ y, Config.kwUnwrap x.key r = some y → s.dev.recordOk y = false → data = [2] ∧ d.vlt = s.dev.vlt) ∧
      (∀ y, Config.kwUnwrap x.key r = some y → s.dev.recordOk y = true → data = [0] ∧
        d.handleGen (le16 y 0) = (s.dev.handleGen (le16 y 0) + 1) % 256 ∧
        (∃ nonce, d.blob (le16 y 0) = blobBytes s.dev.epoch ((s.dev.handleGen (le16 y 0) + 1) % 256) y nonce) ∧
        (∀ p ∈ d.vlt.slots, p.2.handle = le16 y 0 → p.2.dead = true) ∧
        (∀ h, h ≠ le16 y 0 → d.blob h = s.dev.blob h ∧ d.handleGen h = s.dev.handleGen h))) ∧
  (∀ (s : State) (seq n : Nat), s.ready = true → s.dev.mode ≠ .reset → s.dev.mbxTakes 5 = true →
    Mails (.importClose seq n) 5 seq s fun st _ d =>
      if (tabFind s.dev.vlt.sessions n).isSome then
        st = 0 ∧ tabFind d.vlt.sessions n = none ∧ (∀ m, m ≠ n → tabFind d.vlt.sessions m = tabFind s.dev.vlt.sessions m)
      else st = 0x101 ∧ d.vlt = s.dev.vlt) ∧
  (∀ (s : State) (n : Nat) (x : Session), s.ready = true → tabFind s.dev.vlt.sessions n = some x →
    s.dev.reachDt (x.opened + s.dev.sessionLife * 60000000000 * nsUnit) = some s.dev →
    Answers (.importSessionExpiry n) s fun t => tabFind t.dev.vlt.sessions n = none ∧
      (∀ m, m ≠ n → tabFind t.dev.vlt.sessions m = tabFind s.dev.vlt.sessions m) ∧ s.dev.changesOnly [.vlt] t.dev ∧ s.keepsMem t) ∧
  (∀ (s : State) (n : Nat), s.ready = true → (∀ x, tabFind s.dev.vlt.sessions n = some x →
      s.dev.reachDt (x.opened + s.dev.sessionLife * 60000000000 * nsUnit) = none) → exec (.importSessionExpiry n) s = .next s) ∧
  (∀ (s : State) (seq first count : Nat), s.ready = true → s.dev.mode ≠ .reset → s.dev.mbxTakes 5 = true →
    Mails (.blobGet seq first count) 5 seq s fun st data d => d.vlt = s.dev.vlt ∧
      if 1 ≤ count ∧ count ≤ 255 ∧ first + count ≤ 65536 then st = 0 ∧ data = (List.range count).flatMap (fun k => s.dev.blob (first + k))
      else st = 3) ∧
  (∀ (s : State) (seq first count : Nat) (bs : List (List Byte)), s.ready = true → s.dev.mode ≠ .reset → s.dev.mbxTakes 5 = true →
    (count = 0 ∨ 253 < count ∨ 65536 < first + count → Mails (.blobPut seq first count bs) 5 seq s fun st _ d => st = 3 ∧ d.vlt = s.dev.vlt) ∧
    (∀ b, bs = [b] → count = 1 → first < 65536 → b.length = 128 →
      Mails (.blobPut seq first count bs) 5 seq s fun st data d =>
        st = 0 ∧ data = [BitVec.ofNat 8 (s.dev.blobCheck first b)] ∧
        (s.dev.blobCheck first b = 0 → d.blob first = b ∧ d.handleGen first = byteAt b 6) ∧
        (s.dev.blobCheck first b ≠ 0 → d.vlt = s.dev.vlt) ∧
        (byteAt b 3 ≠ s.dev.epoch → data = [4]) ∧ (∀ h, h ≠ first → d.blob h = s.dev.blob h))) ∧
  (∀ (s : State) (seq : Nat) (nonce : List Byte), s.ready = true → s.dev.mode ≠ .reset → s.dev.mbxTakes 4 = true →
    Mails (.attest seq nonce) 4 seq s fun st data d => d.vlt = s.dev.vlt ∧
      if nonce.length = 32 then st = 0 ∧ data.take 4 = [0x54, 0x53, 0x54, 0x41] ∧ byteAt data 6 = s.dev.epoch % 256 ∧
        byteAt data 7 = s.dev.mode.code ∧ slice data 8 8 = toLe 8 s.dev.beat ∧ slice data 16 32 = nonce
      else st = 3)

/-- An alarm source that trips (the first two only where enabled) erases every slot, load and session, drops what the herds and key-
wait queues hold, clears PROVISIONED, names itself alone in VLT_ALARM_CAUSE, raises VAULT_ALARM and turns TOP_MODE to ZEROIZE, but
not in RESET; with ZEROIZE every payload goes, in the queues, the planes and the egress FIFOs. A further alarm during the erasure
or in ZEROIZE only adds its cause. At the end of the erasure ZEROIZED is set, with epoch 63 EXHAUSTED too. PROVISION, while
ZEROIZED and not EXHAUSTED, takes the next epoch; while not ZEROIZED it changes nothing; when EXHAUSTED it is refused. POLICY_SET
writes an empty key, clears profile bits and forbids custom programs; a loosening is DENIED and an unknown field BAD_LEN, and
neither changes the policy. (Choices of the model it rests on: log 46.) (R114, R115, R131, R396, R406) -/
def Obligations.AlarmsEraseAndProvisionRestores : Prop :=
  (∀ (s : State) (k : Nat), s.ready = true → 8 ≤ k ∨ (k < 2 ∧ s.dev.flag Reg.VLT_ALARM_EN k = false) → exec (.vaultAlarm k) s = .next s) ∧
  (∀ (s : State) (k : Nat), s.ready = true → k < 8 → (k < 2 → s.dev.flag Reg.VLT_ALARM_EN k = true) →
    s.dev.vlt.erasing = true ∨ s.dev.mode = .zeroize →
    Answers (.vaultAlarm k) s fun t =>
      t.dev.flag Reg.VLT_ALARM_CAUSE k = true ∧ (∀ j, j < 32 → j ≠ k → t.dev.flag Reg.VLT_ALARM_CAUSE j = s.dev.flag Reg.VLT_ALARM_CAUSE j) ∧
      s.dev.keepsRegs [Reg.VLT_ALARM_CAUSE] t.dev ∧ s.dev.changesOnly [.regs] t.dev ∧ s.keepsMem t) ∧
  (∀ (s : State) (k : Nat), s.ready = true → k < 8 → (k < 2 → s.dev.flag Reg.VLT_ALARM_EN k = true) → s.dev.vlt.erasing = false →
    s.dev.mode ≠ .zeroize → s.dev.pkt.planes.length = 2 →
    Does (.vaultAlarm k) s fun d =>
      d.vlt.slots = [] ∧ d.vlt.loads = [] ∧ d.vlt.sessions = [] ∧ d.vlt.erasing = true ∧ d.vlt.blobs = s.dev.vlt.blobs ∧
      (∀ n, n < 2 → (d.plane n).jobs = [] ∧ (d.plane n).herdWait = [] ∧ (d.plane n).kw = [] ∧ (d.plane n).back = []) ∧
      d.reg Reg.VLT_ALARM_CAUSE = BitVec.ofNat 32 (2 ^ k) ∧ d.flag Reg.VLT_STATUS 9 = false ∧ s.dev.raised Src.VAULT_ALARM d ∧
      (if s.dev.mode = .reset then d.mode = .reset
       else d.mode = .zeroize ∧ s.dev.raised Src.MODE_CHANGE d ∧ d.fld Reg.TOP_MODE 3 0 = Mode.zeroize.code ∧ d.que.payloads = [] ∧
        (∀ n, n < 2 → (d.plane n).passes = [] ∧ (d.plane n).waiting = []) ∧ (∀ p, (d.egPort p).sel = [] ∧ (d.egPort p).fifo = []) ∧ d.mac.parked = [])) ∧
  (∀ s : State, s.ready = true →
    if s.dev.vlt.erasing then
      Answers .zeroizeErasureDone s fun t => t.dev.vlt = { s.dev.vlt with erasing := false } ∧ t.dev.flag Reg.VLT_STATUS 8 = true ∧
        t.dev.flag Reg.VLT_STATUS 7 = (s.dev.flag Reg.VLT_STATUS 7 || decide (s.dev.epoch = 63)) ∧ t.dev.epoch = s.dev.epoch ∧
        s.dev.keepsRegs [Reg.VLT_STATUS] t.dev ∧ s.dev.changesOnly [.regs, .vlt] t.dev ∧ s.keepsMem t
    else exec .zeroizeErasureDone s = .next s) ∧
  (∀ (s : State) (seq : Nat), s.ready = true → s.dev.mode = .zeroize → s.dev.mbxTakes 9 = true →
    Mails (.provision seq) 9 seq s fun st data d =>
      if s.dev.vlt.erasing then st = 1 ∧ d.vlt = s.dev.vlt ∧ d.epoch = s.dev.epoch
      else if s.dev.flag Reg.VLT_STATUS 8 = false then st = 0 ∧ data = toLe 4 s.dev.epoch ++ Config.kemPublic s.dev.vlt.kem ∧
        d.vlt = s.dev.vlt ∧ d.reg Reg.VLT_STATUS = s.dev.reg Reg.VLT_STATUS
      else if s.dev.flag Reg.VLT_STATUS 7 then st = 0x101 ∧ d.vlt = s.dev.vlt ∧ d.reg Reg.VLT_STATUS = s.dev.reg Reg.VLT_STATUS
      else st = 0 ∧ d.epoch = (s.dev.epoch + 1) % 64 ∧ d.flag Reg.VLT_STATUS 8 = false ∧ d.flag Reg.VLT_STATUS 9 = true ∧
        data = toLe 4 (s.dev.epoch + 1) ++ Config.kemPublic (s.dev.epoch + 1) ∧ (57 ≤ s.dev.epoch + 1 → s.dev.raised Src.EPOCH_LOW d) ∧
        d.vlt.blobs = s.dev.vlt.blobs ∧ d.mode = s.dev.mode) ∧
  (∀ (s : State) (seq : Nat) (v : List Byte), s.ready = true → s.dev.mode = .configure ∨ s.dev.mode = .service → s.dev.mbxTakes 14 = true →
    (∀ b x, v = [3, b, 0, 0, x] →
      Mails (.policySet seq v) 14 seq s fun st _ d =>
        if x.toNat &&& s.dev.cfg.otp.profiles = x.toNat then st = 0 ∧ d.cfg = { s.dev.cfg with otp := { s.dev.cfg.otp with profiles := x.toNat } }
        else st = 5 ∧ d.cfg = s.dev.cfg) ∧
    (byteAt v 0 = 4 → Mails (.policySet seq v) 14 seq s fun st _ d => st = 0 ∧ d.cfg = { s.dev.cfg with otp := { s.dev.cfg.otp with noCustom := true } }) ∧
    (byteAt v 0 = 0 ∨ 4 < byteAt v 0 → Mails (.policySet seq v) 14 seq s fun st _ d => st = 3 ∧ d.cfg = s.dev.cfg) ∧
    (byteAt v 0 = 2 → (v.drop 4).length = 32 →
      Mails (.policySet seq v) 14 seq s fun st _ d =>
        if s.dev.cfg.otp.svcKey = [] then st = 0 ∧ d.cfg = { s.dev.cfg with otp := { s.dev.cfg.otp with svcKey := v.drop 4 } }
        else st = 5 ∧ d.cfg = s.dev.cfg) ∧
    (byteAt v 0 = 1 → (byteAt v 1 = 1 ∧ (v.drop 4).length = 1312) ∨ (byteAt v 1 = 2 ∧ (v.drop 4).length = 1952) →
      Mails (.policySet seq v) 14 seq s fun st _ d =>
        if s.dev.cfg.otp.opKey = none then st = 0 ∧ d.cfg = { s.dev.cfg with otp := { s.dev.cfg.otp with opKey := some (byteAt v 1, v.drop 4) } }
        else st = 5 ∧ d.cfg = s.dev.cfg))

/-- While an operation of the host waits, another answers BUSY; in RESET and BOOT it answers MODE, on a queue not of kind HOST outside
TEST OWNED; none of them touches a queue. READ of an empty queue answers IDLE and EMPTY in the live modes and stalls in the
others; else it returns the descriptor at READ with AUTH_STATE as it stands, and READ advances, the item being released unless the
queue retains; a READ outside the head takes its item and waits for the refill. A READ comes after what else its FCLK does (e
below). MARK, REWIND and SKIP move MARK and READ in retaining queues and answer NO_MARK elsewhere, REWIND also without a mark;
SKIP stops at TAIL and answers the number skipped. RELEASE moves RELEASE to at most TAIL, raising MARK and READ, or answers
BEHIND. FLUSH leaves no item and all positions at TAIL. (Choices of the model it rests on: log 3, 85.) (R126, R127, R130) -/
def Obligations.HostQueueOperations : Prop :=
  (∀ (s : State) (p : Path) (v : Word), s.ready = true →
    ∀ c ∈ [Instr.queRead p v, .queMark p v, .queRewind p v, .queSkip p v, .queRelease p v, .queFlush p v],
      (s.dev.que.stall ≠ none ∨ s.dev.que.refill ≠ none →
        Answers c s fun t => t.dev.fld Reg.QUE_RESULT 27 24 = 7 ∧ s.dev.keepsRegs [Reg.QUE_RESULT] t.dev ∧
          s.dev.changesOnly [.regs] t.dev ∧ s.keepsMem t) ∧
      (s.dev.que.stall = none → s.dev.que.refill = none → s.dev.mode = .reset ∨ s.dev.mode = .boot →
        Answers c s fun t => t.dev.reg Reg.QUE_RESULT = 0x86000000 ∧ s.dev.keepsRegs [Reg.QUE_CMD, Reg.QUE_RESULT] t.dev ∧
          s.dev.changesOnly [.regs] t.dev ∧ s.keepsMem t) ∧
      (s.dev.que.stall = none → s.dev.que.refill = none → s.dev.mode ≠ .reset → s.dev.mode ≠ .boot → s.dev.mode ≠ .test →
        s.dev.queueKind (bits v 17 0) ≠ some 4 →
        Answers c s fun t => t.dev.reg Reg.QUE_RESULT = 0x83000000 ∧ s.dev.keepsRegs [Reg.QUE_CMD, Reg.QUE_RESULT] t.dev ∧
          s.dev.changesOnly [.regs] t.dev ∧ s.keepsMem t)) ∧
  (∀ (s : State) (p : Path) (v : Word) (q : Nat) (e : Dev), s.ready = true → q = bits v 17 0 → s.dev.hostMay q →
    (s.dev.queue q).read = (s.dev.queue q).tail → e = (s.dev.setReg Reg.QUE_CMD (BitVec.ofNat 32 q)).lapse →
    Answers (.queRead p v) s fun t =>
      (if s.dev.mode.live then t.dev.queShows 1 (s.dev.queue q).read ∧ (∀ k, k < 8 → t.dev.reg (Reg.QUE_DESC + 4 * k) = 0) ∧ t.dev.que = e.que
       else t.dev.que = { e.que with stall := some (q, e.now) } ∧ t.dev.reg Reg.QUE_RESULT = 0) ∧
      e.changesOnly [.regs, .que] t.dev ∧ s.keepsMem t) ∧
  (∀ (s : State) (p : Path) (v : Word) (q : Nat) (it : Item) (e : Dev), s.ready = true → q = bits v 17 0 → s.dev.hostMay q →
    (s.dev.queue q).read ≠ (s.dev.queue q).tail → (s.dev.queue q).front = some it →
    e = (s.dev.setReg Reg.QUE_CMD (BitVec.ofNat 32 q)).lapse →
    ((s.dev.queue q).cold = true → s.dev.retains q = true →
      Answers (.queRead p v) s fun t =>
        t.dev.queue q = { s.dev.queue q with read := (s.dev.queue q).read + 1, cold := false } ∧ (∀ j, j ≠ q → t.dev.queue j = s.dev.queue j) ∧
        t.dev.que.refill = some (q, s.dev.descOf it, (s.dev.queue q).read + 1) ∧ t.dev.reg Reg.QUE_RESULT = 0 ∧
        e.changesOnly [.regs, .que] t.dev ∧ s.keepsMem t) ∧
    ((s.dev.queue q).cold = false → s.dev.retains q = true →
      Answers (.queRead p v) s fun t =>
        t.dev.queue q = { s.dev.queue q with read := (s.dev.queue q).read + 1, cold := false } ∧ (∀ j, j ≠ q → t.dev.queue j = s.dev.queue j) ∧
        t.dev.queShows 0 ((s.dev.queue q).read + 1) ∧ (∀ k, k < 8 → t.dev.reg (Reg.QUE_DESC + 4 * k) = (s.dev.descOf it).word k) ∧
        t.dev.que.payloads = s.dev.que.payloads ∧ e.changesOnly [.regs, .que] t.dev ∧ s.keepsMem t) ∧
    ((s.dev.queue q).cold = false → s.dev.retains q = false → (s.dev.queue q).read = (s.dev.queue q).release →
      Does (.queRead p v) s fun d =>
        (d.queue q).items = (s.dev.queue q).items.tail ∧ (d.queue q).read = (s.dev.queue q).read + 1 ∧
        (d.queue q).release = (s.dev.queue q).release + 1 ∧ (d.queue q).tail = (s.dev.queue q).tail ∧ (∀ j, j ≠ q → d.queue j = s.dev.queue j) ∧
        d.queShows 0 ((s.dev.queue q).read + 1) ∧ (∀ k, k < 8 → d.reg (Reg.QUE_DESC + 4 * k) = (s.dev.descOf it).word k) ∧
        (∀ x, s.dev.payload it.uid = some x → d.payload it.uid = if x.refs ≤ 1 then none else some { x with refs := x.refs - 1 }) ∧
        e.changesOnly [.regs, .que, .pci, .evt, .out] d)) ∧
  (∀ (s : State) (p : Path) (v : Word) (q : Nat), s.ready = true → q = bits v 17 0 → s.dev.hostMay q → s.dev.retains q = false →
    ∀ c ∈ [Instr.queMark p v, .queRewind p v, .queSkip p v],
      Answers c s fun t => t.dev.reg Reg.QUE_RESULT = 0x85000000 ∧ t.dev.que = s.dev.que ∧ s.dev.changesOnly [.regs] t.dev ∧ s.keepsMem t) ∧
  (∀ (s : State) (p : Path) (v : Word) (q : Nat), s.ready = true → q = bits v 17 0 → s.dev.hostMay q → s.dev.retains q = true →
    (Answers (.queMark p v) s fun t =>
      (t.dev.queue q).mark = (s.dev.queue q).read ∧ (t.dev.queue q).markSet = true ∧ (t.dev.queue q).read = (s.dev.queue q).read ∧
      (t.dev.queue q).items = (s.dev.queue q).items ∧ (t.dev.queue q).release = (s.dev.queue q).release ∧
      (∀ j, j ≠ q → t.dev.queue j = s.dev.queue j) ∧ t.dev.queShows 0 (s.dev.queue q).read ∧
      s.dev.keepsRegs [Reg.QUE_CMD, Reg.QUE_RESULT, Reg.QUE_POS] t.dev ∧ s.dev.changesOnly [.regs, .que] t.dev ∧ s.keepsMem t) ∧
    (Answers (.queRewind p v) s fun t =>
      (if (s.dev.queue q).markSet then t.dev.queue q = (s.dev.queue q).rewind ∧ (t.dev.queue q).read = (s.dev.queue q).mark ∧
          t.dev.queShows 0 (s.dev.queue q).mark
       else t.dev.queue q = s.dev.queue q ∧ t.dev.reg Reg.QUE_RESULT = 0x85000000) ∧
      (∀ j, j ≠ q → t.dev.queue j = s.dev.queue j) ∧
      s.dev.keepsRegs [Reg.QUE_CMD, Reg.QUE_RESULT, Reg.QUE_POS] t.dev ∧ s.dev.changesOnly [.regs, .que] t.dev ∧ s.keepsMem t) ∧
    (Answers (.queSkip p v) s fun t =>
      ∃ n, n = min (s.dev.reg Reg.QUE_ARG).toNat ((s.dev.queue q).tail - (s.dev.queue q).read) ∧
        (t.dev.queue q).read = (s.dev.queue q).read + n ∧ (t.dev.queue q).items = (s.dev.queue q).items ∧
        (t.dev.queue q).mark = (s.dev.queue q).mark ∧ t.dev.queShows 0 n ∧ (∀ j, j ≠ q → t.dev.queue j = s.dev.queue j) ∧
        s.dev.keepsRegs [Reg.QUE_CMD, Reg.QUE_RESULT, Reg.QUE_POS] t.dev ∧ s.dev.changesOnly [.regs, .que] t.dev ∧ s.keepsMem t)) ∧
  (∀ (s : State) (p : Path) (v : Word) (q : Nat), s.ready = true → q = bits v 17 0 → s.dev.hostMay q →
    posNear (s.dev.queue q).release (s.dev.reg Reg.QUE_ARG).toNat < (s.dev.queue q).release →
    Answers (.queRelease p v) s fun t => t.dev.reg Reg.QUE_RESULT = 0x84000000 ∧ t.dev.que = s.dev.que ∧ s.dev.changesOnly [.regs] t.dev ∧ s.keepsMem t) ∧
  (∀ (s : State) (p : Path) (v : Word) (q n : Nat), s.ready = true → q = bits v 17 0 → s.dev.hostMay q →
    (s.dev.queue q).release + (s.dev.queue q).items.length = (s.dev.queue q).tail →
    n = (posNear (s.dev.queue q).release (s.dev.reg Reg.QUE_ARG).toNat - (s.dev.queue q).release).toNat →
    (s.dev.queue q).release ≤ posNear (s.dev.queue q).release (s.dev.reg Reg.QUE_ARG).toNat →
    Does (.queRelease p v) s fun d => ∃ r, r = min ((s.dev.queue q).release + n) (s.dev.queue q).tail ∧
      (d.queue q).release = r ∧ (d.queue q).items = (s.dev.queue q).items.drop n ∧ (d.queue q).read = max (s.dev.queue q).read r ∧
      (d.queue q).mark = max (s.dev.queue q).mark r ∧ (d.queue q).tail = (s.dev.queue q).tail ∧ d.queShows 0 (max (s.dev.queue q).read r) ∧
      ((s.dev.queue q).release ≤ (s.dev.queue q).read → (s.dev.queue q).read < r →
        s.dev.counted Reg.QUE_CNT_LO 5 (r - (s.dev.queue q).read) d) ∧ (∀ j, j ≠ q → d.queue j = s.dev.queue j)) ∧
  (∀ (s : State) (p : Path) (v : Word) (q : Nat), s.ready = true → q = bits v 17 0 → s.dev.hostMay q →
    Does (.queFlush p v) s fun d =>
      (d.queue q).items = [] ∧ (d.queue q).read = (s.dev.queue q).tail ∧ (d.queue q).release = (s.dev.queue q).tail ∧
      (d.queue q).mark = (s.dev.queue q).tail ∧ (d.queue q).tail = (s.dev.queue q).tail ∧ (d.queue q).markSet = false ∧
      d.queShows 0 (s.dev.queue q).tail ∧ (∀ j, j ≠ q → d.queue j = s.dev.queue j))

/-- A READ that waited for its head to refill then returns the descriptor it took. A stalled READ ends with TIMEOUT, IDLE, and
STALL_TIMEOUT counted at its limit; a limit of 0 or one still ahead does not end it. The spill mover copies the oldest middle item
still in the burst store to DRAM, or drops it, counted as SPILL_FULL, where its pool lacks its cells. The ager releases the items
of a HISTORY queue older than its age or beyond its COUNT, and of no other queue. An output follows the flags of the groups bound
to it as they stand at the end of the FCLK (e below), and sends what its kind sends as it changes; a pause or PFC frame is
repeated after half its quanta while asserted; other outputs, and one that does not change, do nothing. (Choices of the model it
rests on: log 3, 85.) (R121, R122, R127, R128, R130, R133) -/
def Obligations.QueueRefillsAgesAndFlowControl : Prop :=
  (∀ s : State, s.ready = true → s.dev.que.refill = none → exec .queHeadRefillDone s = .next s) ∧
  (∀ (s : State) (q pos : Nat) (desc : Entry), s.ready = true → s.dev.que.refill = some (q, desc, pos) →
    Answers .queHeadRefillDone s fun t =>
      t.dev.que = { s.dev.que with refill := none } ∧ t.dev.queShows 0 pos ∧
      (∀ k, k < 8 → t.dev.reg (Reg.QUE_DESC + 4 * k) = desc.word k) ∧ s.dev.changesOnly [.regs, .que] t.dev ∧ s.keepsMem t) ∧
  (∀ s : State, s.ready = true → s.dev.que.stall = none ∨ s.dev.fld Reg.TSK_STALL_TIMEOUT 19 0 = 0 ∨
      (∃ x, s.dev.que.stall = some x ∧ s.dev.reachNow (x.2 + s.dev.fld Reg.TSK_STALL_TIMEOUT 19 0 * 1500) = none) →
    exec .stallTimeout s = .next s) ∧
  (∀ (s : State) (q since us : Nat), s.ready = true → s.dev.que.stall = some (q, since) → us = s.dev.fld Reg.TSK_STALL_TIMEOUT 19 0 → us ≠ 0 →
    since + us * 1500 ≤ s.dev.now →
    Answers .stallTimeout s fun t =>
      t.dev.que = { s.dev.que with stall := none } ∧ t.dev.queShows 2 (s.dev.queue q).read ∧ (∀ k, k < 8 → t.dev.reg (Reg.QUE_DESC + 4 * k) = 0) ∧
      s.dev.counted Reg.QUE_CNT_LO 7 1 t.dev ∧ s.dev.changesOnly [.regs, .que] t.dev ∧ s.keepsMem t) ∧
  (∀ (s : State) (q : Nat), s.ready = true → (s.dev.queue q).spilled = false ∨
      (∀ it ∈ ((s.dev.queue q).items.drop 4).take ((s.dev.queue q).items.length - 8), ∀ x, s.dev.payload it.uid = some x → x.dram = true) →
    exec (.spillMoveDone q) s = .next s) ∧
  (∀ (s : State) (q : Nat) (it : Item) (x : Payload), s.ready = true → (s.dev.queue q).spilled = true →
    (((s.dev.queue q).items.drop 4).take ((s.dev.queue q).items.length - 8)).find?
      (fun y => ((s.dev.payload y.uid).map (fun p => !p.dram)).getD false) = some it → s.dev.payload it.uid = some x →
    it.cells ≤ (if s.dev.queueKind q = some 1 then s.dev.histFree else s.dev.spillFree) →
    Answers (.spillMoveDone q) s fun t =>
      (∃ c, t.dev.payload it.uid = some { x with dram := true, cell := c, history := decide (s.dev.queueKind q = some 1) }) ∧
      (t.dev.descOf it).b 1 31 = true ∧ (∀ u, u ≠ it.uid → t.dev.payload u = s.dev.payload u) ∧ t.dev.que.queues = s.dev.que.queues ∧
      s.dev.changesOnly [.que, .free] t.dev ∧ s.keepsMem t) ∧
  (∀ (s : State) (q : Nat) (it : Item) (x : Payload), s.ready = true → (s.dev.queue q).spilled = true →
    (((s.dev.queue q).items.drop 4).take ((s.dev.queue q).items.length - 8)).find?
      (fun y => ((s.dev.payload y.uid).map (fun p => !p.dram)).getD false) = some it → s.dev.payload it.uid = some x →
    (if s.dev.queueKind q = some 1 then s.dev.histFree else s.dev.spillFree) < it.cells →
    Does (.spillMoveDone q) s fun d =>
      (d.queue q).items = (s.dev.queue q).items.erase it ∧ (d.queue q).tail = (s.dev.queue q).tail - 1 ∧ s.dev.counted Reg.QUE_CNT_LO 3 1 d ∧
      (Src.SPILL_POOL_FULL ∉ s.dev.evt.once → s.dev.raised Src.SPILL_POOL_FULL d) ∧ (∀ j, j ≠ q → d.queue j = s.dev.queue j)) ∧
  (∀ s : State, s.ready = true → (∀ q ∈ tabKeys s.dev.que.queues, s.dev.queueKind q = some 1 → s.dev.agedItems q = 0) →
    Answers .historyAge s fun t => t.dev = s.dev.lapse ∧ s.keepsMem t) ∧
  (∀ (s : State) (q n : Nat), s.ready = true → (tabKeys s.dev.que.queues).filter (fun j => s.dev.queueKind j == some 1 && decide (s.dev.agedItems j ≠ 0)) = [q] →
    n = s.dev.agedItems q →
    Does .historyAge s fun d =>
      (d.queue q).items = (s.dev.queue q).items.drop n ∧
      (d.queue q).release = (s.dev.queue q).release + min n (s.dev.queue q).items.length ∧
      (∀ j, j ≠ q → d.queue j = s.dev.queue j)) ∧
  (∀ (s : State) (o : Nat), s.ready = true →
    (16 ≤ o → exec (.fcOutputChange o) s = .next s) ∧
    (o < 16 → s.dev.lapse.fcWanted o = s.dev.que.asserted.contains o →
      Answers (.fcOutputChange o) s fun t => t.dev = s.dev.lapse ∧ s.keepsMem t)) ∧
  (∀ (s : State) (o : Nat) (on : Bool) (e : Dev), s.ready = true → e = s.dev.lapse → o < 16 → e.fcWanted o = on → s.dev.que.asserted.contains o = !on →
    s.dev.que.asserted.count o ≤ 1 →
    Answers (.fcOutputChange o) s fun t =>
      t.dev.que.asserted.contains o = on ∧ (∀ j, j ≠ o → t.dev.que.asserted.contains j = s.dev.que.asserted.contains j) ∧
      t.dev.flag Reg.QUE_FC_STAT o = on ∧
      (match (s.dev.fcOut o).f 0 31 28 with
        | 0 => t.dev.out = e.out
        | 1 => t.dev.out = .pause ((s.dev.fcOut o).f 0 26 24) (if on then (s.dev.fcOut o).f 0 15 0 else 0) :: e.out
        | 2 => t.dev.out = .pfc ((s.dev.fcOut o).f 0 26 24) ((s.dev.fcOut o).f 0 23 16) (if on then (s.dev.fcOut o).f 0 15 0 else 0) :: e.out
        | 3 => t.dev.mul = ((e.withhold ((s.dev.fcOut o).f 0 25 24) ((s.dev.fcOut o).f 0 17 16) on)).mul
        | 4 => t.dev.out = .pin 1 (if on then 0 else 1) :: e.out
        | 5 => t.dev.out = .pin 2 (if on then 0 else 1) :: e.out
        | 6 => t.dev.out = .pin 3 (if on then 0 else 1) :: e.out
        | _ => t.dev.out = e.out) ∧
      t.dev.que.queues = s.dev.que.queues ∧ t.dev.que.payloads = s.dev.que.payloads ∧ e.changesOnly [.regs, .que, .mul, .out] t.dev ∧ s.keepsMem t) ∧
  (∀ (s : State) (o : Nat), s.ready = true → o ∉ s.dev.que.asserted ∨ ((s.dev.fcOut o).f 0 31 28 ≠ 1 ∧ (s.dev.fcOut o).f 0 31 28 ≠ 2) ∨
      s.dev.reachNow ((tabFind s.dev.que.repeatAt o).getD 0) = none → exec (.pauseRepeat o) s = .next s) ∧
  (∀ (s : State) (o at_ : Nat), s.ready = true → o ∈ s.dev.que.asserted → (s.dev.fcOut o).f 0 31 28 = 1 → tabFind s.dev.que.repeatAt o = some at_ →
    at_ ≤ s.dev.now →
    Answers (.pauseRepeat o) s fun t =>
      t.dev.out = .pause ((s.dev.fcOut o).f 0 26 24) ((s.dev.fcOut o).f 0 15 0) :: s.dev.out ∧
      tabFind t.dev.que.repeatAt o = some (s.dev.now + halfQuanta ((s.dev.fcOut o).f 0 26 24) ((s.dev.fcOut o).f 0 15 0)) ∧
      t.dev.que.asserted = s.dev.que.asserted ∧ t.dev.que.queues = s.dev.que.queues ∧ s.dev.changesOnly [.que, .out] t.dev ∧ s.keepsMem t)

/-- A pending change still without a switching point after KEYREQ_WAIT beats asks once for a key picture of the target encoding: where
a request for the brood left within KEYREQ_GAP beats it is merged and counted, and kept where it names another encoding than the
last one; else it leaves, after which it merges with the oldest kept one where there is one. Kept requests leave one at each gap's
end; before that, and without one, nothing happens. A request that leaves is counted, raises KEYREQ_SENT, begins a gap, is noted
by every change pending on the brood, and goes to the device's own encoder, into the next DEMAND, or to the source leg as FIR or
PLI. (Choices of the model it rests on: log 3.) (R145) -/
def Obligations.KeyRequestsWaitAndMerge : Prop :=
  (∀ (s : State) (b : Nat), s.ready = true → (s.dev.brood b).reqWant = [] ∨ s.dev.gapOver b = false → exec (.keyreqGapExpiry b) s = .next s) ∧
  (∀ (s : State) (b enc : Nat) (need : Bool), s.ready = true → (s.dev.brood b).reqWant.head? = some (enc, need) → s.dev.gapOver b = true →
    Does (.keyreqGapExpiry b) s fun d => s.dev.keyLeft b enc need d) ∧
  (∀ (s : State) (x : Nat), s.ready = true →
    ((s.dev.sub x).st ≠ 2 ∧ (s.dev.sub x).st ≠ 3) ∨ (s.dev.sub x).asked = true ∨ s.dev.beat < (s.dev.sub x).pendSince + s.dev.fld Reg.FWD_CFG 9 0 →
    exec (.keyreqWaitExpiry x) s = .next s) ∧
  (∀ (s : State) (x b enc : Nat) (need : Bool), s.ready = true → (s.dev.sub x).st = 2 ∨ (s.dev.sub x).st = 3 → (s.dev.sub x).asked = false →
    (s.dev.sub x).pendSince + s.dev.fld Reg.FWD_CFG 9 0 ≤ s.dev.beat → b = s.dev.subBrood x → enc = (s.dev.sub x).tgt.1 →
    need = (!(s.dev.sub x).sending || (s.dev.sub x).was.isSome || enc != (s.dev.sub x).cur.1) →
    (s.dev.gapOver b = false →
      Answers (.keyreqWaitExpiry x) s fun t =>
        t.dev.sub x = { s.dev.sub x with asked := true } ∧ (∀ j, j ≠ x → t.dev.sub j = s.dev.sub j) ∧ s.dev.counted Reg.FWD_CNT_LO 3 1 t.dev ∧
        ((t.dev.brood b).reqWant = if enc = (s.dev.brood b).reqEnc then (s.dev.brood b).reqWant else mergeWant (s.dev.brood b).reqWant enc need) ∧
        (t.dev.brood b).reqLast = (s.dev.brood b).reqLast ∧ (∀ j, j ≠ b → t.dev.brood j = s.dev.brood j) ∧
        s.dev.keepsRegs [Reg.FWD_CNT_LO + 24, Reg.FWD_CNT_LO + 28] t.dev ∧ s.dev.changesOnly [.regs, .fwd] t.dev ∧ s.keepsMem t) ∧
    (s.dev.gapOver b = true → (s.dev.brood b).reqWant = [] →
      Does (.keyreqWaitExpiry x) s fun d => (d.sub x).asked = true ∧ (s.dev.setSub x { s.dev.sub x with asked := true }).keyLeft b enc need d) ∧
    (∀ e0 n0, s.dev.gapOver b = true → (s.dev.brood b).reqWant.head? = some (e0, n0) → s.dev.fld Reg.FWD_CFG 25 16 ≠ 0 →
      Does (.keyreqWaitExpiry x) s fun d => ∃ e : Dev, (s.dev.setSub x { s.dev.sub x with asked := true }).keyLeft b e0 n0 e ∧
        d = if enc = e0 then e.fwdCount 3 1
            else (e.fwdCount 3 1).setBrood b { e.brood b with reqWant := mergeWant (e.brood b).reqWant enc need }))

/-- A gap open for NACK_UP beats is NACKed to its source leg, again once after RTT, and then never. A subscription that sends (not
IDLE, SUSPENDED or PAUSED) sends a sender report at its leg's phase of SR_INTERVAL, with DT, its counts and its SSRC, the first of
the leg's with the blocks of its ingress streams; a leg with TWCC reports the arrivals not yet reported every FB_INTERVAL beats. A
leg in use heard of by nothing for LEG_FB_TIMEOUT beats is FEEDBACK_LOST, counted, with the event; its rate then halves every 600
beats within FLOOR and CAP, and with it its target of the next beat unless TARGET_OVR holds it, except in a leg with FREEZE
(assumption 86). Before its time, or for an entry not in use, each of them does nothing. (Choices of the model it rests on: log 3,
86.) (R153, R154, R155, R158, R159) -/
def Obligations.LegReportsAndFeedback : Prop :=
  (∀ (s : State) (b strm q : Nat) (g : Gap), s.ready = true → (s.dev.brood b).gaps.find? (fun g => g.stream == strm && g.seqn == q) = some g →
    ∀ up leg : Nat, up = s.dev.fld Reg.FWD_RTCP_CFG 15 8 → leg = (s.dev.broodEnt b).f 0 13 0 → s.dev.relayLink leg = none →
    (up = 0 ∨ 2 ≤ g.sent ∨ (g.sent = 0 ∧ s.dev.beat < g.opened + up) ∨
        (g.sent = 1 ∧ (s.dev.beat - g.lastSent) * 5000 < 3 * (s.dev.gov leg).rtt) → exec (.upstreamNack b strm q) s = .next s) ∧
    (up ≠ 0 → (g.sent = 0 ∧ g.opened + up ≤ s.dev.beat) ∨ (g.sent = 1 ∧ 3 * (s.dev.gov leg).rtt ≤ (s.dev.beat - g.lastSent) * 5000) →
      Does (.upstreamNack b strm q) s fun d =>
        (d.brood b).gaps.find? (fun g => g.stream == strm && g.seqn == q) = some { g with sent := g.sent + 1, lastSent := s.dev.beat } ∧
        (d.brood b).gaps.filter (fun g => !(g.stream == strm && g.seqn == q)) =
          (s.dev.brood b).gaps.filter (fun g => !(g.stream == strm && g.seqn == q)) ∧
        (∀ j, j ≠ b → d.brood j = s.dev.brood j) ∧ d.tsk.todo = [] ∧
        ∃ f : Dev, s.dev.changesOnly [.fwd] f ∧ d = f.sendCtrl leg (.nack b strm [q]) [2, b, strm, q])) ∧
  (∀ (s : State) (b strm q : Nat), s.ready = true → (s.dev.brood b).gaps.find? (fun g => g.stream == strm && g.seqn == q) = none →
    exec (.upstreamNack b strm q) s = .next s) ∧
  (∀ (s : State) (b strm q k : Nat) (g : Gap), s.ready = true → (s.dev.brood b).gaps.find? (fun g => g.stream == strm && g.seqn == q) = some g →
    s.dev.relayLink ((s.dev.broodEnt b).f 0 13 0) = some k → g.sent = 0 → s.dev.fld Reg.FWD_RTCP_CFG 15 8 ≠ 0 →
    g.opened + s.dev.fld Reg.FWD_RTCP_CFG 15 8 ≤ s.dev.beat →
    Does (.upstreamNack b strm q) s fun d => ∃ f : Dev, s.dev.changesOnly [.fwd] f ∧
      (f.brood b).gaps.find? (fun g => g.stream == strm && g.seqn == q) = some { g with sent := 1, lastSent := s.dev.beat } ∧
      d = f.muleTo ((tabFind s.dev.mul.sources b).getD ((s.dev.peerOf k).getD 0)) muleDemand 3 0 b s.dev.beat
        (Config.muleBytes muleDemand [1, b, strm, q])) ∧
  (∀ (s : State) (x leg b : Nat), s.ready = true → leg = (s.dev.subEnt x).f 1 29 16 → b = s.dev.sentBrood x →
    (s.dev.reports x = false ∨ s.dev.reportBeat leg = false → exec (.srGenerate x) s = .next s) ∧
    (s.dev.reports x = true → s.dev.reportBeat leg = true →
      Does (.srGenerate x) s fun d => s.dev.counted Reg.LEG_CNT_LO 4 1 d ∧ (∀ j, d.sub j = s.dev.sub j) ∧ (d.gov leg).rrAt = some s.dev.beat ∧
        d.tsk.todo = [] ∧
        ∃ (f : Dev) (blocks : List (List Nat)) (clock rtp sec frac : Nat),
          (if (s.dev.gov leg).rrAt = some s.dev.beat then f = s.dev ∧ blocks = [] else s.dev.blocksFor leg = (blocks, f)) ∧
          clock = s.dev.rtpClock b (if (brSize (s.dev.broodEnt b) 0).1 = 0 then 1 else 2) ∧
          sec = clkSec s.dev.tim.dt ∧ frac = s.dev.dtNs * 2 ^ 32 / 1000000000 ∧
          d = ((f.setGov leg { f.gov leg with rrAt := some s.dev.beat }).sendCtrl leg
            (.sr ((s.dev.subEnt x).f 2 31 0) sec frac rtp (s.dev.sub x).pkts (s.dev.sub x).octets)
            ([200, (s.dev.subEnt x).f 2 31 0, sec, frac, rtp, (s.dev.sub x).pkts, (s.dev.sub x).octets] ++ blocks.flatten)).legCount 4 1 ∧
          ((s.dev.brood b).sr = none → rtp = toField 32 (((s.dev.sub x).lastOutTs : Int) +
            ticksOf clock (stampDiff (s.dev.beat, s.dev.dtNs) (s.dev.sub x).lastStamp))) ∧
          (∀ y, (s.dev.brood b).sr = some y →
            rtp = toField 32 (y.rtp + (((sec * 2 ^ 32 + frac : Nat) : Int) - ((y.sec * 2 ^ 32 + y.frac : Nat) : Int)) * clock / 2 ^ 32 +
              (s.dev.sub x).tsOfs)))) ∧
  (∀ (s : State) (leg : Nat), s.ready = true →
    (s.dev.legValid leg = false ∨ (s.dev.legEnt leg).b 0 27 = false ∨ s.dev.beat < (s.dev.gov leg).fbSent + s.dev.fld Reg.FWD_RTCP_CFG 7 0 →
      exec (.twccFeedbackGenerate leg) s = .next s) ∧
    (s.dev.legValid leg = true → (s.dev.legEnt leg).b 0 27 = true → (s.dev.gov leg).fbSent + s.dev.fld Reg.FWD_RTCP_CFG 7 0 ≤ s.dev.beat →
      Does (.twccFeedbackGenerate leg) s fun d =>
        d.gov leg = { s.dev.gov leg with arrivals := [], fbSent := s.dev.beat } ∧ (∀ j, j ≠ leg → d.gov j = s.dev.gov j) ∧
        s.dev.counted Reg.LEG_CNT_LO 3 1 d ∧ d.tsk.todo = [] ∧
        ∃ (f : Dev) (nums : List Nat), s.dev.changesOnly [.fwd] f ∧
          d = (f.sendCtrl leg (.twcc leg (s.dev.gov leg).arrivals.reverse) nums).legCount 3 1)) ∧
  (∀ (s : State) (leg : Nat), s.ready = true →
    s.dev.legValid leg = false ∨ (s.dev.gov leg).lost = true ∨ s.dev.beat < (s.dev.gov leg).lastFb + s.dev.fld Reg.LEG_FB_TIMEOUT 15 0 →
    exec (.legFeedbackTimeout leg) s = .next s) ∧
  (∀ (s : State) (leg : Nat), s.ready = true → s.dev.legValid leg = true → (s.dev.gov leg).lost = false →
    (s.dev.gov leg).lastFb + s.dev.fld Reg.LEG_FB_TIMEOUT 15 0 ≤ s.dev.beat →
    Answers (.legFeedbackTimeout leg) s fun t =>
      t.dev.gov leg = { s.dev.gov leg with lost := true, lastHalve := s.dev.beat } ∧ (∀ j, j ≠ leg → t.dev.gov j = s.dev.gov j) ∧
      s.dev.counted Reg.LEG_CNT_LO 1 1 t.dev ∧ s.dev.raised Src.LEG_FEEDBACK_LOST t.dev ∧
      s.dev.keepsRegsE [Reg.LEG_CNT_LO + 8, Reg.LEG_CNT_LO + 12] t.dev ∧ s.dev.changesOnly [.regs, .fwd, .evt, .out] t.dev ∧ s.keepsMem t) ∧
  (∀ (s : State) (leg : Nat), s.ready = true →
    (s.dev.gov leg).lost = false ∨ (s.dev.legEnt leg).b 0 25 = true ∨ s.dev.beat < (s.dev.gov leg).lastHalve + 600 →
    exec (.feedbackLostHalve leg) s = .next s) ∧
  (∀ (s : State) (leg : Nat), s.ready = true → (s.dev.gov leg).lost = true → (s.dev.legEnt leg).b 0 25 = false →
    (s.dev.gov leg).lastHalve + 600 ≤ s.dev.beat →
    Answers (.feedbackLostHalve leg) s fun t =>
      (t.dev.gov leg).rd = (s.dev.clampRate leg ((s.dev.gov leg).rate ((s.dev.legEnt leg).b 0 27) / 2) : Nat) ∧
      (t.dev.gov leg).rl = (t.dev.gov leg).rd ∧ (t.dev.gov leg).rLast = (t.dev.gov leg).rd ∧
      (t.dev.gov leg).nextTarget = s.dev.clampRate leg (if (s.dev.legEnt leg).f 7 15 0 = 0 then
        (s.dev.gov leg).rate ((s.dev.legEnt leg).b 0 27) / 2 else (((s.dev.legEnt leg).f 7 15 0 * 8000 : Nat) : Rat)) ∧
      (t.dev.gov leg).nextPacing = (((t.dev.gov leg).nextTarget : Rat) * (s.dev.estParams leg).2.2.2.2).floor.toNat ∧
      (t.dev.gov leg).target = (s.dev.gov leg).target ∧ (t.dev.gov leg).lost = true ∧ (t.dev.gov leg).lastHalve = s.dev.beat ∧
      (∀ j, j ≠ leg → t.dev.gov j = s.dev.gov j) ∧ s.dev.changesOnly [.fwd] t.dev ∧ s.keepsMem t)

/-- A suppressed write of a decode or encode cell ends its task LATE, raises DEC_FENCE (counted as FENCE) or ENC_FENCE (shown until
VEN_CELL_STAT is read), and is one watchdog expiry of the cell, the second within one second taking it OUT. The end of a fill ends
the filling of its task: an unfinished access unit is given up with its picture, a composite is published CONCEALED, a picture
leaves the encoder, counted. AU_WAIT beats after its first packet an access unit not yet offered is offered; one of a slot already
held is counted as SUPERSEDED. Without such a task, or before the time, nothing happens. (Choices of the model it rests on: log
3.) (R168, R169, R177, R181, R200, R223, R226) -/
def Obligations.FencesFillsAndAccessUnits : Prop :=
  (∀ (s : State) (c : Nat), s.ready = true →
    ((s.dev.cell c).job = none ∨ (∃ k, (s.dev.cell c).job = some k ∧ (s.dev.task k = none ∨ ∃ x, s.dev.task k = some x ∧ x.kind ≠ Kd.decode)) →
      exec (.decFenceHit c) s = .next s) ∧
    ((s.dev.cell c).job = none ∨ (∃ k, (s.dev.cell c).job = some k ∧ (s.dev.task k = none ∨ ∃ x, s.dev.task k = some x ∧ x.kind ≠ Kd.encode)) →
      exec (.encFenceHit c) s = .next s)) ∧
  (∀ (s : State) (c k : Nat) (x : Task), s.ready = true → (s.dev.cell c).job = some k → s.dev.task k = some x → x.st = St.running → x.region < 4 →
    (s.dev.cell c).out = false →
    (x.kind = Kd.decode → Does (.decFenceHit c) s fun d =>
      s.dev.raised (srcRegion (x.region + 2) 8) d ∧
      (∀ q, s.dev.dec x.entry = some q → q.region < 4 → s.dev.counted (Reg.VDC_CNT_LO + mediaOfs q.region) 10 1 d) ∧
      ((s.dev.cell c).expiries.all (fun t => decide (t + 1500000000 ≤ s.dev.now)) = true →
        s.dev.taskEnded k St.late d ∧ (d.cell c).expiries = [s.dev.now] ∧ (d.cell c).out = false) ∧
      ((s.dev.cell c).expiries.any (fun t => decide (s.dev.now < t + 1500000000)) = true → (d.cell c).out = true)) ∧
    (x.kind = Kd.encode → Does (.encFenceHit c) s fun d =>
      s.dev.raised (srcRegion (x.region + 2) 24) d ∧
      d.flag (Reg.VEN_CELL_STAT + mediaOfs (cellIdx c / 16) + 0x1000 * (cellIdx c % 16)) 16 = true ∧
      ((s.dev.cell c).expiries.all (fun t => decide (t + 1500000000 ≤ s.dev.now)) = true →
        s.dev.taskEnded k St.late d ∧ (d.cell c).expiries = [s.dev.now] ∧ (d.cell c).out = false) ∧
      ((s.dev.cell c).expiries.any (fun t => decide (s.dev.now < t + 1500000000)) = true → (d.cell c).out = true))) ∧
  (∀ (s : State) (k : Nat), s.ready = true → s.dev.task k = none ∨ (∃ x, s.dev.task k = some x ∧ x.filling = false) →
    exec (.fillEngineDone k) s = .next s) ∧
  (∀ (s : State) (k : Nat) (x : Task), s.ready = true → s.dev.task k = some x → x.filling = true → tabSorted s.dev.tsk.tasks = true →
    x.kind = Kd.decode ∨ x.kind = Kd.compose ∨ x.kind = Kd.encode → x.region < 4 →
    Does (.fillEngineDone k) s fun d =>
      (∃ y, d.task k = some y ∧ y.filling = false ∧ y.endNow = s.dev.now) ∧
      (x.kind = Kd.decode → ∀ q a q', s.dev.taskAu x = some (q, a) → d.dec x.entry = some q' → ∀ b ∈ q'.aus, b.ref ≠ a.ref) ∧
      (x.kind = Kd.compose → ∀ sh, tabFind s.dev.cmp.shots k = some sh → tabFind d.cmp.shots k = none ∧
        s.dev.counted (Reg.CMP_CNT_LO + mediaOfs x.region) 0 1 d ∧ s.dev.counted (Reg.CMP_CNT_LO + mediaOfs x.region) 1 1 d ∧
        ∃ b, tabFind d.cmp.bufs sh.ref = some b ∧ b.media = x.media ∧ b.quality = 1) ∧
      (x.kind = Kd.encode → ∀ q p, s.dev.enc x.entry = some q → q.pic = some p → p.media = x.media → q.closing = false → q.skips = [] → q.region < 4 →
        s.dev.counted (Reg.VEN_CNT_LO + mediaOfs q.region) 0 1 d ∧ ∀ q', d.enc x.entry = some q' → q'.pic = none)) ∧
  (∀ (s : State) (e : Nat), s.ready = true →
    s.dev.dec e = none ∨ (∃ q, s.dev.dec e = some q ∧ ∀ a ∈ q.aus, a.offered = true ∨ s.dev.beat < a.first + s.dev.fld Reg.VDC_CFG 7 0) →
    exec (.auWaitExpiry e) s = .next s) ∧
  (∀ (s : State) (e : Nat) (q : Dec) (a : Au), s.ready = true → s.dev.dec e = some q → (q.aus.map (·.ref)).Nodup →
    a ∈ q.aus → a.offered = false → a.first + s.dev.fld Reg.VDC_CFG 7 0 ≤ s.dev.beat →
    (∀ b ∈ q.aus, b.ref ≠ a.ref → b.offered = true ∨ s.dev.beat < b.first + s.dev.fld Reg.VDC_CFG 7 0) →
    Does (.auWaitExpiry e) s fun d => ∃ q', d.dec e = some q' ∧ (∀ b ∈ q'.aus, b.ref = a.ref → b.offered = true) ∧
      (∀ b ∈ q.aus, b.ref ≠ a.ref → b ∈ q'.aus) ∧
      (a.publish = false → q.st = 1 → q.region < 4 → (s.dev.decTasks e).length < s.dev.maxBacklog e →
        s.dev.counted (Reg.VDC_CNT_LO + mediaOfs q.region) 6 1 d))

/-- A flock entry takes VALID, PRIORITY, PIN_REGION and, pinned, its REGION, once that region is on offer; one not pinned gets a
region on offer as it comes into use. A reserved code keeps its field. A decode, encode, audio or mix entry written VALID while
not in use is admitted in the region of its flock, or refused with the code of the reason and nothing changed; VALID 0 takes one
out of use. WRITE of a read-only table gives READ_ONLY, an index beyond the table BAD_ENTRY. A directory WRITE is ignored while
BUSY, refused where the entry is unsound or the device is in no stack, and else goes to the Rooster; a tunnel entry is written at
once, with TUN_HIST_MS from 16 to 2,000 ms. A member's own directory WRITE holds BUSY until it is committed. (Choices of the model
it rests on: log 20, 21, 103, 104, 121.) (R9, R54, R71, R166, R211, R226, R230, R251, R319, R326, R404, R405) -/
def Obligations.MediaAndFlockEntries : Prop :=
  RefusesTable .tskTabWrite Reg.TSK_TAB_CMD 1 (fun d _ => d.fld Reg.TSK_TAB_CMD 27 24 ≠ 0 ∨ 4096 ≤ d.fld Reg.TSK_TAB_ADDR 16 0) ∧
  (∀ t i, (pastEnd vdcTabSize t i = true →
      RefusesTable .vdcTabWrite Reg.VDC_TAB_CMD 4 (fun d _ => d.fld Reg.VDC_TAB_CMD 27 24 = t ∧ d.fld Reg.VDC_TAB_ADDR 13 0 = i)) ∧
    (pastEnd vdcTabSize t i = false → t ≠ 0 →
      RefusesTable .vdcTabWrite Reg.VDC_TAB_CMD 5 (fun d _ => d.fld Reg.VDC_TAB_CMD 27 24 = t ∧ d.fld Reg.VDC_TAB_ADDR 13 0 = i)) ∧
    (venBeyond t i = true →
      RefusesTable .venTabWrite Reg.VEN_TAB_CMD 4 (fun d _ => d.fld Reg.VEN_TAB_CMD 27 24 = t ∧ d.fld Reg.VEN_TAB_ADDR 13 0 = i)) ∧
    (venBeyond t i = false → t ≠ 0 →
      RefusesTable .venTabWrite Reg.VEN_TAB_CMD 5 (fun d _ => d.fld Reg.VEN_TAB_CMD 27 24 = t ∧ d.fld Reg.VEN_TAB_ADDR 13 0 = i)) ∧
    (audTabSize t ≤ i →
      RefusesTable .audTabWrite Reg.AUD_TAB_CMD 4 (fun d _ => d.fld Reg.AUD_TAB_CMD 27 24 = t ∧ d.fld Reg.AUD_TAB_ADDR 13 0 = i))) ∧
  (∀ (s : State) (p : Path) (v : Word) (d : Dev) (i : Nat) (n : Entry), s.ready = true → d = s.dev.writeReg Reg.TSK_TAB_CMD v →
    d.fld Reg.TSK_TAB_CMD 27 24 = 0 → i = d.fld Reg.TSK_TAB_ADDR 16 0 → i < 4096 → n = s.dev.dataEntry Reg.TSK_TAB_DATA →
    Does (.tskTabWrite p v) s fun e =>
      (e.flockEnt i).b 0 31 = n.b 0 31 ∧ (e.flockEnt i).f 0 30 28 = n.f 0 30 28 ∧ (e.flockEnt i).b 0 24 = n.b 0 24 ∧
      (∀ r st, r = n.f 0 27 26 → st = s.dev.regionState (r + 2) →
        (n.b 0 24 = true → st = 0 ∨ st = 8 → e.flockRegion i = r ∧ tabFind e.cfg.pinned i = none) ∧
        (n.b 0 24 = true → st ≠ 0 → st ≠ 8 → tabFind e.cfg.pinned i = some r) ∧
        (n.b 0 24 = false ∨ (st ≠ 0 ∧ st ≠ 8) → n.b 0 31 = false ∨ (s.dev.flockEnt i).b 0 31 = true → e.flockRegion i = s.dev.flockRegion i) ∧
        (n.b 0 24 = false → n.b 0 31 = true → (s.dev.flockEnt i).b 0 31 = false →
          if (List.range 4).any (fun k => s.dev.regionOffers k) then s.dev.regionOffers (e.flockRegion i) = true else e.flockRegion i = s.dev.flockRegion i)) ∧
      e.tabStat Reg.TSK_TAB_CMD 0 ∧ (∀ j, j ≠ i → e.flockEnt j = s.dev.flockEnt j) ∧
      ((s.dev.flockEnt i).b 0 31 = true → n.b 0 31 = false → tabSorted s.dev.tsk.tasks = true → ∀ k x, s.dev.task k = some x → x.flock = i →
        x.kind ≠ Kd.filter → x.st < 5 → x.st ≠ St.running → ∃ y, e.task k = some y ∧ y.st = St.aborted)) ∧
  (∀ (s : State) (p : Path) (v : Word) (d : Dev) (i : Nat) (n e : Entry), s.ready = true → d = s.dev.writeReg Reg.VDC_TAB_CMD v →
    d.fld Reg.VDC_TAB_CMD 27 24 = 0 → i = d.fld Reg.VDC_TAB_ADDR 13 0 → i < 8192 → n = s.dev.dataEntry Reg.VDC_TAB_DATA →
    e = Entry.legal (s.dev.decEnt i) { d0 := n.d0 &&& 0xFF00FFFF, d1 := n.d1, d2 := n.d2 &&& 0xF00FF000 } [(0, 30, 28, [(0, 4)])] →
    (n.b 0 31 = false → Does (.vdcTabWrite p v) s fun t => t.dec i = none ∧ t.decEnt i = e ∧ t.tabStat Reg.VDC_TAB_CMD 0 ∧
      (∀ j, j ≠ i → t.dec j = s.dev.dec j)) ∧
    (n.b 0 31 = true → s.dev.dec i = none → Answers (.vdcTabWrite p v) s fun t =>
      (match s.dev.admitDec e with
       | .inl code => t.dev.tabStat Reg.VDC_TAB_CMD code ∧ s.dev.changesOnly [.regs] t.dev
       | .inr q => t.dev.dec i = some q ∧ t.dev.decEnt i = e ∧ t.dev.tabStat Reg.VDC_TAB_CMD 0 ∧ (∀ j, j ≠ i → t.dev.dec j = s.dev.dec j) ∧
         s.dev.changesOnly [.regs, .tabs, .vdc, .tsk, .free] t.dev) ∧
      s.dev.keepsRegs [Reg.VDC_TAB_CMD] t.dev ∧ s.keepsMem t) ∧
    (∀ q, n.b 0 31 = true → s.dev.dec i = some q → Answers (.vdcTabWrite p v) s fun t =>
      (if e.d0 ≠ (s.dev.decEnt i).d0 ∨ e.f 1 31 16 ≠ (s.dev.decEnt i).f 1 31 16 ∨ e.f 1 11 0 ≠ (s.dev.decEnt i).f 1 11 0 ∨ 8 < e.f 1 15 12 ∨
          keepsR51 (s.dev.decTemplate q.region e) (deSlotCad e) none = false
       then t.dev.tabStat Reg.VDC_TAB_CMD 4 ∧ s.dev.changesOnly [.regs] t.dev
       else t.dev.decEnt i = e ∧ t.dev.tabStat Reg.VDC_TAB_CMD 0 ∧ t.dev.vdc = s.dev.vdc ∧ s.dev.changesOnly [.regs, .tabs, .tsk, .free] t.dev) ∧
      s.dev.keepsRegs [Reg.VDC_TAB_CMD] t.dev ∧ s.keepsMem t)) ∧
  (∀ (s : State) (p : Path) (v : Word) (d : Dev) (i : Nat) (n e : Entry), s.ready = true → d = s.dev.writeReg Reg.VEN_TAB_CMD v →
    d.fld Reg.VEN_TAB_CMD 27 24 = 0 → i = d.fld Reg.VEN_TAB_ADDR 13 0 → i < 4096 → n = s.dev.dataEntry Reg.VEN_TAB_DATA →
    e = Entry.legal (s.dev.encEnt i)
      { d0 := n.d0 &&& 0xFFCCFFFF, d1 := n.d1 &&& 0xCFFFFFFF, d2 := n.d2 &&& 0xFFFFFFC0, d3 := n.d3 &&& 0xFFFFFFFC,
        d4 := n.d4, d5 := n.d5 &&& 0xFFFFBFFF, d6 := n.d6 }
      [(0, 30, 28, [(0, 1), (3, 3)]), (0, 27, 26, [(0, 2)]), (0, 23, 22, [(0, 2)]), (1, 31, 30, [(0, 2)]), (1, 27, 24, [(0, 7)]),
       (2, 19, 11, [(0, 0), (8, 256)]), (2, 7, 6, [(0, 2)])] →
    (n.b 0 31 = false → Does (.venTabWrite p v) s fun t => t.encEnt i = e ∧ t.tabStat Reg.VEN_TAB_CMD 0 ∧
      (match s.dev.enc i with
       | some q => if q.pic.isSome then ∃ q', t.enc i = some q' ∧ q'.closing = true else t.enc i = none
       | none => t.enc i = none) ∧ (∀ j, j ≠ i → t.enc j = s.dev.enc j)) ∧
    (n.b 0 31 = true → s.dev.enc i = none → Answers (.venTabWrite p v) s fun t =>
      (match s.dev.admitEnc e with
       | .inl code => t.dev.tabStat Reg.VEN_TAB_CMD code ∧ s.dev.changesOnly [.regs] t.dev
       | .inr q => (∃ b, t.dev.enc i = some { q with tsBase := b }) ∧ t.dev.encEnt i = e ∧ t.dev.tabStat Reg.VEN_TAB_CMD 0 ∧
         (∀ j, j ≠ i → t.dev.enc j = s.dev.enc j) ∧ s.dev.changesOnly [.regs, .tabs, .ven, .tsk, .free] t.dev) ∧
      s.dev.keepsRegs [Reg.VEN_TAB_CMD] t.dev ∧ s.keepsMem t)) ∧
  (∀ (s : State) (p : Path) (v : Word) (d : Dev) (i : Nat) (n e : Entry), s.ready = true → d = s.dev.writeReg Reg.AUD_TAB_CMD v →
    d.fld Reg.AUD_TAB_CMD 27 24 = 0 → i = d.fld Reg.AUD_TAB_ADDR 13 0 → n = s.dev.dataEntry Reg.AUD_TAB_DATA →
    e = Entry.legal (s.dev.audEnt i)
      { d0 := n.d0 &&& 0xFFF0FFFF, d1 := n.d1 &&& 0xFFF3FFFF, d2 := n.d2 &&& 0xFFFFFF80, d3 := n.d3 &&& 0xFF00FF7F }
      [(0, 30, 28, [(0, 3)]), (0, 27, 26, [(0, 1)])] →
    (n.b 0 31 = false → Does (.audTabWrite p v) s fun t => t.audio i = none ∧ t.audEnt i = e ∧ t.tabStat Reg.AUD_TAB_CMD 0 ∧
      (∀ j, j ≠ i → t.audio j = s.dev.audio j ∨
        ∃ q c, s.dev.audio j = some q ∧ q.chan = none ∧ t.audio j = some { q with chan := some c, parked := none })) ∧
    (n.b 0 31 = true → s.dev.audio i = none → Answers (.audTabWrite p v) s fun t =>
      t.dev.tabStat Reg.AUD_TAB_CMD (s.dev.admitAud i e).1 ∧ (∀ j, j ≠ i → t.dev.audio j = s.dev.audio j) ∧
      (if (s.dev.admitAud i e).1 = 0 then t.dev.audEnt i = e ∧ ∃ q, t.dev.audio i = some q ∧ q.region = s.dev.flockRegion (aeFlock e) ∧
          q.depth = aeMin e ∧ q.chan = s.dev.freeChan q.region
       else s.dev.changesOnly [.regs] t.dev) ∧
      s.dev.changesOnly [.regs, .tabs, .aud, .tsk, .free] t.dev ∧ s.dev.keepsRegs [Reg.AUD_TAB_CMD] t.dev ∧ s.keepsMem t)) ∧
  (∀ (s : State) (p : Path) (v : Word) (d : Dev) (i : Nat) (n e : Entry), s.ready = true → d = s.dev.writeReg Reg.AUD_TAB_CMD v →
    d.fld Reg.AUD_TAB_CMD 27 24 = 1 → i = d.fld Reg.AUD_TAB_ADDR 13 0 → i < 4096 → n = s.dev.dataEntry Reg.AUD_TAB_DATA →
    e = Entry.legal (s.dev.mixEnt i) { d0 := n.d0 &&& 0xF8FFFFFF, d1 := n.d1, d2 := n.d2, d3 := n.d3 &&& 0xFF000000 }
      [(1, 30, 28, [(0, 3)]), (1, 14, 12, [(0, 3)]), (2, 30, 28, [(0, 3)]), (2, 14, 12, [(0, 3)])] →
    (n.b 0 31 = false → Does (.audTabWrite p v) s fun t => t.mix i = none ∧ t.mixEnt i = e ∧ t.tabStat Reg.AUD_TAB_CMD 0 ∧
      (∀ j, j ≠ i → t.mix j = s.dev.mix j)) ∧
    (n.b 0 31 = true → s.dev.mix i = none → mixEntOk e = true → keepsR51 (s.dev.stdTemplate (s.dev.flockRegion i) Kd.mix) 6 none = true →
      s.dev.audEncLoad (s.dev.flockRegion i) + mixCharge e ≤ 256 * 8 * s.dev.cellsUp (s.dev.flockRegion i) 2 8 →
      s.dev.audMixes (s.dev.flockRegion i) + 1 ≤ 128 * s.dev.cellsUp (s.dev.flockRegion i) 2 8 →
      Answers (.audTabWrite p v) s fun t => t.dev.mixEnt i = e ∧ t.dev.tabStat Reg.AUD_TAB_CMD 0 ∧ (∀ j, j ≠ i → t.dev.mix j = s.dev.mix j) ∧
        (∃ q, t.dev.mix i = some q ∧ q.region = s.dev.flockRegion i ∧ q.tsBase.length = 4) ∧
        s.dev.changesOnly [.regs, .tabs, .aud, .tsk, .free] t.dev ∧ s.dev.keepsRegs [Reg.AUD_TAB_CMD] t.dev ∧ s.keepsMem t)) ∧
  (∀ (s : State) (p : Path) (v : Word), s.ready = true → s.dev.flag Reg.MUL_TAB_CMD 0 = true → exec (.mulTabWrite p v) s = .next s) ∧
  (∀ (s : State) (p : Path) (v : Word) (d : Dev) (i : Nat) (n e : Entry), s.ready = true → s.dev.flag Reg.MUL_TAB_CMD 0 = false →
    d = s.dev.writeReg Reg.MUL_TAB_CMD v → i = d.fld Reg.MUL_TAB_ADDR 14 0 → n = s.dev.dataEntry Reg.MUL_TAB_DATA →
    e = dirEntry (s.dev.ent .mul 0 i) n →
    (d.fld Reg.MUL_TAB_CMD 27 24 = 1 → i < 4 → 16 ≤ n.f 5 15 0 → n.f 5 15 0 ≤ 2000 → Answers (.mulTabWrite p v) s fun t =>
      t.dev.ent .mul 1 i = { n with d5 := n.d5 &&& 0x7800FFFF, d6 := 0, d7 := 0 } ∧ s.dev.keepsEnts .mul 1 i t.dev ∧
      t.dev.tabStat Reg.MUL_TAB_CMD 0 ∧ s.dev.keepsRegs [Reg.MUL_TAB_CMD] t.dev ∧ s.dev.changesOnly [.regs, .tabs] t.dev ∧ s.keepsMem t) ∧
    (d.fld Reg.MUL_TAB_CMD 27 24 = 0 → i < 32768 → dirOk i n = true → s.dev.inStack = true → s.dev.isRooster = false →
      Does (.mulTabWrite p v) s fun t => ∃ f : Dev, f.mul = { s.dev.mul with ownWrite := some (i, e) } ∧
        f.flag Reg.MUL_TAB_CMD 0 = true ∧ f.tabStat Reg.MUL_TAB_CMD 0 ∧ s.dev.keepsRegs [Reg.MUL_TAB_CMD] f ∧
        s.dev.changesOnly [.regs, .mul] f ∧
        t = f.muleTo f.roosterId muleDirectory 0 0 0 s.dev.beat (Config.muleBytes muleDirectory (dirNums 0 i s.dev.devId e))) ∧
    (d.fld Reg.MUL_TAB_CMD 27 24 = 0 → i < 32768 → dirOk i n = true → s.dev.inStack = true → s.dev.isRooster = true → s.dev.standbyReady = false →
      Does (.mulTabWrite p v) s fun t => ∃ f : Dev, f.mul = { s.dev.mul with ownWrite := some (i, e) } ∧
        f.flag Reg.MUL_TAB_CMD 0 = true ∧ f.tabStat Reg.MUL_TAB_CMD 0 ∧ s.dev.changesOnly [.regs, .mul] f ∧
        t = f.commitWrite { idx := i, ent := e, dev := s.dev.devId, sent := some s.dev.beat })) ∧
  RefusesTable .mulTabWrite Reg.MUL_TAB_CMD 5 (fun d _ => d.flag Reg.MUL_TAB_CMD 0 = false ∧
    (mulTabSize (d.fld Reg.MUL_TAB_CMD 27 24) ≤ d.fld Reg.MUL_TAB_ADDR 14 0 ∨
     (d.fld Reg.MUL_TAB_CMD 27 24 = 1 ∧ d.fld Reg.MUL_TAB_ADDR 14 0 < 4 ∧
        ((d.dataEntry Reg.MUL_TAB_DATA).f 5 15 0 < 16 ∨ 2000 < (d.dataEntry Reg.MUL_TAB_DATA).f 5 15 0)) ∨
     (d.fld Reg.MUL_TAB_CMD 27 24 = 0 ∧ d.fld Reg.MUL_TAB_ADDR 14 0 < 32768 ∧
        dirOk (d.fld Reg.MUL_TAB_ADDR 14 0) (d.dataEntry Reg.MUL_TAB_DATA) = false))) ∧
  RefusesTable .mulTabWrite Reg.MUL_TAB_CMD 1 (fun d _ => d.flag Reg.MUL_TAB_CMD 0 = false ∧ d.fld Reg.MUL_TAB_CMD 27 24 = 0 ∧
    d.fld Reg.MUL_TAB_ADDR 14 0 < 32768 ∧ dirOk (d.fld Reg.MUL_TAB_ADDR 14 0) (d.dataEntry Reg.MUL_TAB_DATA) = true ∧ d.inStack = false)

/-- A write of TIM_CTRL with CAPTURE latches each of the seven clocks, as it stands in the FCLK after the write, into its TIM_CAP
group (fraction, ns, seconds) and sets CAPTURED, whatever CAPTURED was; a write with SWITCH makes the other member of the
privileged pair active, counts SWITCHES, raises TIME_SOURCE_SWITCH and leaves DT and every clock as they are, a step of the same
FCLK being no longer one of the active member; where |e| then comes to exceed the limit with SLEW_APART 0 in a mode in which DT is
never loaded, TIME_APART is raised; a write with both does both. AUTO_SWITCH and SLEW_APART take the bits written, and the
register's other bits read 0. (Choices of the model it rests on: log 3.) (R256, R265, R272, R274) -/
def Obligations.ClockCaptureAndExchange : Prop :=
  (∀ (s : State) (p : Path) (v : Word), s.ready = true →
    Answers (.timCapture p v) s fun t =>
      (∀ i, i < 7 → ∀ c, c = ((s.dev.setReg Reg.TIM_CTRL (v &&& 0x30000000)).advance 1).clockOf i →
        t.dev.reg (Reg.TIM_CAP_FRAC + 16 * i) = BitVec.ofNat 32 (c % nsUnit * 65536 / nsUnit) ∧
        t.dev.reg (Reg.TIM_CAP_NS + 16 * i) = BitVec.ofNat 32 (clkNs c) ∧
        t.dev.reg (Reg.TIM_CAP_SEC_LO + 16 * i) = BitVec.ofNat 32 (clkSec c) ∧
        t.dev.reg (Reg.TIM_CAP_SEC_HI + 16 * i) = BitVec.ofNat 32 (clkSec c / 2 ^ 32 % 65536)) ∧
      t.dev.flag Reg.TIM_STATUS 31 = true ∧ t.dev.reg Reg.TIM_CTRL = v &&& 0x30000000 ∧
      t.dev.tim.source = (if bit v 30 then 1 - s.dev.tim.source else s.dev.tim.source) ∧
      t.dev.tim.dt = s.dev.tim.dt ∧ t.dev.tim.doms = s.dev.tim.doms ∧ s.dev.changesOnly [.regs, .tim, .evt, .out] t.dev ∧
      (bit v 30 = false → ∀ o, (o < Reg.TIM_CAP_FRAC ∨ Reg.TIM_CAP_FRAC + 112 ≤ o) → o ∉ [Reg.TIM_CTRL, Reg.TIM_STATUS] →
        evtReg o = false → t.dev.reg o = s.dev.reg o) ∧ s.keepsMem t) ∧
  (∀ (s : State) (p : Path) (v : Word), s.ready = true →
    Answers (.timSwitch p v) s fun t =>
      t.dev.tim.source = 1 - s.dev.tim.source ∧ s.dev.counted Reg.TIM_CNT_LO 3 1 t.dev ∧
      s.dev.raised Src.TIME_SOURCE_SWITCH t.dev ∧ t.dev.reg Reg.TIM_CTRL = v &&& 0x30000000 ∧
      t.dev.tim.dt = s.dev.tim.dt ∧ t.dev.tim.doms = s.dev.tim.doms ∧ t.dev.tim.stepped = false ∧
      (∀ far, far = (s.dev.mode.live && decide (t.dev.jumpLimit < t.dev.dtErr.natAbs) && !bit v 28) →
        t.dev.tim.apart = far ∧ (far = true → s.dev.tim.apart = false → s.dev.raised Src.TIME_APART t.dev)) ∧
      s.dev.changesOnly [.regs, .tim, .evt, .out] t.dev ∧
      (bit v 31 = false → s.dev.keepsRegsE [Reg.TIM_CTRL, Reg.TIM_CNT_LO + 24, Reg.TIM_CNT_LO + 28] t.dev) ∧ s.keepsMem t)

/-- A sample of a clock that is enabled and takes that source, of magnitude at most TIM_STEP_THRESH, moves i by y / 2^KI and sets adj
to -(y / 2^KP + i), y the sample per elapsed DT (at least 1 ms); an adj beyond 500,000 ppb is held to it with i unchanged and
SAMPLE_CLAMPED counted. The clock's value and DT do not move, its increment is the nominal one adjusted by adj, SAMPLES is
counted, the sample is read back in TIM_DOM_LAST, and the eighth sample in a row within LOCK_NS takes ACQUIRING to LOCKED, the
first one HOLDOVER to LOCKED, raising TIME_LOCKED. No other clock changes. How a fraction of 1/256 ppb rounds is an open value
(log 5). A sample for a clock whose EN is 0, or from a source its REF does not name, changes nothing. (Choices of the model it
rests on: log 5, 33.) (R255, R260, R261) -/
def Obligations.SampleServo : Prop :=
  (∀ (s : State) (k : Nat) (src : SampleSrc) (θ : Int), s.ready = true → k < 6 → s.dev.flag (Reg.TIM_DOM_CFG + domOfs k) 31 = true →
    s.dev.fld (Reg.TIM_DOM_CFG + domOfs k) 30 28 = sampleRef src → (θ * smpUnit).natAbs ≤ s.dev.stepThresh →
    Answers (.timDomSample k src θ) s fun t =>
      (∀ (i iNew adj : Int) (tau : Nat) (y : Rat), i = (s.dev.dom k).integWr.getD (s.dev.dom k).integ →
        tau = max (s.dev.tim.dt - (s.dev.dom k).last.getD s.dev.tim.dt) (nsUnit * 1000000) →
        y = (θ : Rat) * 3000000000000000000 / (tau : Nat) →
        iNew = i + roundOpen (y / (2 ^ (s.dev.gains k).2 : Nat)) → adj = -(roundOpen (y / (2 ^ (s.dev.gains k).1 : Nat)) + iNew) →
        if 128000000 < adj.natAbs then
          (t.dev.dom k).adj = (if 0 ≤ adj then 128000000 else -128000000) ∧ (t.dev.dom k).integ = i ∧ s.dev.counted Reg.TIM_CNT_LO 7 1 t.dev
        else (t.dev.dom k).adj = adj ∧ (t.dev.dom k).integ = iNew) ∧
      (t.dev.dom k).clock = (s.dev.dom k).clock ∧ (t.dev.dom k).last = some s.dev.tim.dt ∧
      (t.dev.dom k).inc = (512000000000 + 2 * (t.dev.dom k).adj).toNat ∧
      ((s.dev.dom k).st = 4 → (t.dev.dom k).st = 3) ∧ ((s.dev.dom k).st = 3 → (t.dev.dom k).st = 3) ∧
      ((s.dev.dom k).st ≤ 2 → ((t.dev.dom k).st = 3 ↔
        7 ≤ (s.dev.dom k).good ∧ θ.natAbs ≤ s.dev.fld (Reg.TIM_DOM_HOLD + domOfs k) 15 0 * 65536)) ∧
      ((t.dev.dom k).st = 3 → (s.dev.dom k).st ≠ 3 → s.dev.raised Src.TIME_LOCKED t.dev) ∧
      t.dev.reg (Reg.TIM_DOM_LAST_LO + domOfs k) = BitVec.ofNat 32 (toField 64 θ) ∧
      t.dev.reg (Reg.TIM_DOM_LAST_HI + domOfs k) = BitVec.ofNat 32 (toField 64 θ / 2 ^ 32) ∧
      s.dev.counted Reg.TIM_CNT_LO 0 1 t.dev ∧ t.dev.tim.dt = s.dev.tim.dt ∧ t.dev.tim.source = s.dev.tim.source ∧
      (∀ j, j < 6 → j ≠ k → t.dev.dom j = s.dev.dom j) ∧ s.dev.changesOnly [.regs, .tim, .evt, .out] t.dev ∧
      s.dev.keepsRegsE [Reg.TIM_CNT_LO, Reg.TIM_CNT_LO + 4, Reg.TIM_CNT_LO + 56, Reg.TIM_CNT_LO + 60,
        Reg.TIM_DOM_LAST_LO + domOfs k, Reg.TIM_DOM_LAST_HI + domOfs k] t.dev ∧ s.keepsMem t) ∧
  (∀ (s : State) (k : Nat) (src : SampleSrc) (θ : Int), s.ready = true →
    s.dev.flag (Reg.TIM_DOM_CFG + domOfs k) 31 = false ∨ s.dev.fld (Reg.TIM_DOM_CFG + domOfs k) 30 28 ≠ sampleRef src →
    exec (.timDomSample k src θ) s = .next s)

/-- A correction is stepped by the clock in ACQUIRING (or at its first sample), and by a privileged member in every state; STEPS is
counted and DT does not move. An ordinary domain that is LOCKED or in HOLDOVER is stepped by a correction of at most
TIM_JUMP_LIMIT (and is then LOCKED); a larger one waits for the end of its FCLK, since an ACCEPT_JUMP in the same FCLK goes first,
the clock unchanged and SAMPLES counted; when the FCLK has passed it is refused: the clock has not been stepped, it is in HOLDOVER
with adj = i, JUMP_REFUSED is set and JUMPS_REFUSED counted, and TIME_JUMP_REFUSED is raised where it has not been in this beat.
The servo does not run. A clock wraps within its 48 bits of seconds (log 82). Whether a step of the active member exchanges the
pair is likewise judged when the FCLK ends. (Choices of the model it rests on: log 7, 82.) (R260, R261, R262, R263, R265, R274) -/
def Obligations.CorrectionsStepOrAreRefused : Prop :=
  (∀ (s : State) (k : Nat) (src : SampleSrc) (θ : Int), s.ready = true → k < 6 → s.dev.flag (Reg.TIM_DOM_CFG + domOfs k) 31 = true →
    s.dev.fld (Reg.TIM_DOM_CFG + domOfs k) 30 28 = sampleRef src → s.dev.stepThresh < (θ * smpUnit).natAbs →
    4 ≤ k ∨ (s.dev.dom k).st ≤ 2 ∨ (θ * smpUnit).natAbs ≤ s.dev.jumpLimit →
    Answers (.timDomSample k src θ) s fun t =>
      (t.dev.dom k).clock = ((((s.dev.dom k).clock : Int) - θ * smpUnit) % (clockSpan : Int)).toNat ∧
      (t.dev.dom k).integ = (s.dev.dom k).integ ∧ (t.dev.dom k).adj = (s.dev.dom k).adj ∧
      (t.dev.dom k).st = (if (s.dev.dom k).st < 2 then 2 else if k < 4 ∧ (s.dev.dom k).st = 4 then 3 else (s.dev.dom k).st) ∧
      t.dev.tim.stepped = (s.dev.tim.stepped || decide (k = s.dev.active)) ∧
      s.dev.counted Reg.TIM_CNT_LO 0 1 t.dev ∧ s.dev.counted Reg.TIM_CNT_LO 1 1 t.dev ∧ t.dev.tim.dt = s.dev.tim.dt ∧
      (∀ j, j < 6 → j ≠ k → t.dev.dom j = s.dev.dom j) ∧ s.dev.changesOnly [.regs, .tim, .evt, .out] t.dev ∧ s.keepsMem t) ∧
  (∀ (s : State) (k : Nat) (src : SampleSrc) (θ : Int), s.ready = true → k < 4 → s.dev.flag (Reg.TIM_DOM_CFG + domOfs k) 31 = true →
    s.dev.fld (Reg.TIM_DOM_CFG + domOfs k) 30 28 = sampleRef src → s.dev.stepThresh < (θ * smpUnit).natAbs →
    s.dev.jumpLimit < (θ * smpUnit).natAbs → (s.dev.dom k).st = 3 ∨ (s.dev.dom k).st = 4 →
    Answers (.timDomSample k src θ) s fun t =>
      t.dev.dom k = { s.dev.dom k with last := some s.dev.tim.dt, refused := θ :: (s.dev.dom k).refused } ∧
      s.dev.counted Reg.TIM_CNT_LO 0 1 t.dev ∧ t.dev.tim.dt = s.dev.tim.dt ∧ (∀ j, j < 6 → j ≠ k → t.dev.dom j = s.dev.dom j) ∧
      s.dev.changesOnly [.regs, .tim] t.dev ∧
      s.dev.keepsRegs [Reg.TIM_CNT_LO, Reg.TIM_CNT_LO + 4, Reg.TIM_DOM_LAST_LO + domOfs k, Reg.TIM_DOM_LAST_HI + domOfs k] t.dev ∧ s.keepsMem t) ∧
  (∀ (d : Dev) (k : Nat) (θ : Int), k < 4 → (d.dom k).refused = [θ] → (∀ j, j < 6 → j ≠ k → (d.dom j).refused = []) → d.tim.stepped = false →
    ∀ e, e = d.settleTime →
      e.dom k = { d.dom k with st := 4, adj := (d.dom k).integ, refused := [] } ∧ (∀ j, j < 6 → j ≠ k → e.dom j = d.dom j) ∧
      e.flag (Reg.TIM_DOM_STAT + domOfs k) 28 = true ∧ d.counted Reg.TIM_CNT_LO 2 1 e ∧ e.tim.dt = d.tim.dt ∧
      (Src.TIME_JUMP_REFUSED ∉ d.evt.once → d.raised Src.TIME_JUMP_REFUSED e) ∧ d.changesOnly [.regs, .tim, .evt, .out, .setNow] e) ∧
  (∀ (d : Dev) (n : Nat), 0 < n → (d.advance n).regs = ((d.judgeGroups.settleTime).runMem n).regs ∧
    (d.advance n).tim.doms = ((d.judgeGroups.settleTime).runMem n).tim.doms.map fun u => { u with clock := u.clock + n * u.inc })

/-- ACCEPT_JUMP and RESTART take a clock that is not OFF to ACQUIRING, its value as it stands but for the corrections of the same FCLK
that wait to be refused: these step it, and STEPS counts them; a clock that leaves LOCKED so raises TIME_LOCK_LOST. A clock that
is ACQUIRING or LOCKED and has had no sample for HOLD_S seconds of DT enters HOLDOVER with adj = i, its integral term as it
stands. The frequency error measured over a second replaces the integral term of an enabled clock with SYNTON = 1, and of no
other. Other clocks do not change but by the FCLK that pass. (Choices of the model it rests on: log 3.) (R261, R262, R272, R274) -/
def Obligations.ClockStateCommands : Prop :=
  (∀ (s : State) (p : Path) (k : Nat) (v : Word), s.ready = true → k < 6 → (s.dev.dom k).st ≠ 0 →
    Answers (.timAcceptJump p k v) s fun t =>
      (t.dev.dom k).st = 2 ∧ (t.dev.dom k).integ = (s.dev.dom k).integ ∧ (t.dev.dom k).adj = (s.dev.dom k).adj ∧
      (t.dev.dom k).refused = [] ∧ (t.dev.dom k).good = 0 ∧
      (t.dev.dom k).clock = (s.dev.dom k).refused.foldl (fun c θ => (((c : Nat) : Int) - θ * smpUnit) % (clockSpan : Int) |>.toNat) (s.dev.dom k).clock ∧
      s.dev.counted Reg.TIM_CNT_LO 1 (s.dev.dom k).refused.length t.dev ∧
      ((s.dev.dom k).st = 3 → s.dev.raised Src.TIME_LOCK_LOST t.dev) ∧ t.dev.tim.dt = s.dev.tim.dt ∧
      (∀ j, j < 6 → j ≠ k → t.dev.dom j = s.dev.dom j) ∧ s.dev.changesOnly [.regs, .tim, .evt, .out] t.dev ∧
      s.dev.keepsRegsE [Reg.TIM_CNT_LO + 8, Reg.TIM_CNT_LO + 12, Reg.TIM_CNT_LO + 24, Reg.TIM_CNT_LO + 28] t.dev ∧ s.keepsMem t) ∧
  (∀ (s : State) (p : Path) (k : Nat) (v : Word), s.ready = true → k < 6 → (s.dev.dom k).st ≠ 0 →
    Answers (.timRestart p k v) s fun t =>
      (t.dev.dom k).st = 2 ∧ (t.dev.dom k).integ = (s.dev.dom k).integ ∧ (t.dev.dom k).adj = (s.dev.dom k).adj ∧
      (t.dev.dom k).refused = [] ∧ (t.dev.dom k).good = 0 ∧
      (t.dev.dom k).clock = (s.dev.dom k).refused.foldl (fun c θ => (((c : Nat) : Int) - θ * smpUnit) % (clockSpan : Int) |>.toNat) (s.dev.dom k).clock ∧
      s.dev.counted Reg.TIM_CNT_LO 1 (s.dev.dom k).refused.length t.dev ∧
      ((s.dev.dom k).st = 3 → s.dev.raised Src.TIME_LOCK_LOST t.dev) ∧ t.dev.tim.dt = s.dev.tim.dt ∧
      (∀ j, j < 6 → j ≠ k → t.dev.dom j = s.dev.dom j) ∧ s.dev.changesOnly [.regs, .tim, .evt, .out] t.dev ∧
      s.dev.keepsRegsE [Reg.TIM_CNT_LO + 8, Reg.TIM_CNT_LO + 12, Reg.TIM_CNT_LO + 24, Reg.TIM_CNT_LO + 28] t.dev ∧ s.keepsMem t) ∧
  (∀ (s : State) (k l : Nat), s.ready = true → k < 6 → (s.dev.dom k).last = some l → (s.dev.dom k).st = 2 ∨ (s.dev.dom k).st = 3 →
    l + s.dev.fld (Reg.TIM_DOM_HOLD + domOfs k) 23 16 * secUnit ≤ s.dev.tim.dt →
    Answers (.clockHoldoverTimeout k) s fun t =>
      (t.dev.dom k).st = 4 ∧ (t.dev.dom k).adj = (s.dev.dom k).integ ∧ (t.dev.dom k).integ = (s.dev.dom k).integ ∧
      (t.dev.dom k).clock = (s.dev.dom k).clock ∧ ((s.dev.dom k).st = 3 → s.dev.raised Src.TIME_LOCK_LOST t.dev) ∧
      t.dev.tim.dt = s.dev.tim.dt ∧ (∀ j, j < 6 → j ≠ k → t.dev.dom j = s.dev.dom j) ∧
      s.dev.changesOnly [.regs, .tim, .evt, .out] t.dev ∧
      s.dev.keepsRegsE [Reg.TIM_CNT_LO + 24, Reg.TIM_CNT_LO + 28] t.dev ∧ s.keepsMem t) ∧
  (∀ (s : State) (k : Nat) (err : Int), s.ready = true → k < 6 →
    s.dev.flag (Reg.TIM_DOM_CFG + domOfs k) 31 = true → s.dev.flag (Reg.TIM_DOM_CFG + domOfs k) 9 = true →
    Answers (.syntonSecond k err) s fun t =>
      t.dev.dom k = { s.dev.dom k with integ := err } ∧ t.dev.tim.dt = s.dev.tim.dt ∧
      (∀ j, j < 6 → j ≠ k → t.dev.dom j = s.dev.dom j) ∧ s.dev.changesOnly [.tim] t.dev ∧ s.keepsMem t) ∧
  (∀ (s : State) (k : Nat) (err : Int), s.ready = true →
    s.dev.flag (Reg.TIM_DOM_CFG + domOfs k) 31 = false ∨ s.dev.flag (Reg.TIM_DOM_CFG + domOfs k) 9 = false →
    exec (.syntonSecond k err) s = .next s)

/-- A rising edge of PPS_IN is stamped in all seven clocks (250 ps) and is a sample of every enabled clock that takes PPS_IN: the
distance of its stamp in that clock from the nearest whole second, kept in TIM_DOM_LAST. PPS_OUT rises, while EN is 1, in the
first FCLK of a second of the clock SEL names (time passing to it where that lies within the beat), once for each second, and
stays high for WIDTH_US; with EN 0 it does not. Outside the modes in which it never moves by a step, DT is loaded from the active
member where they differ by more than TIM_STEP_THRESH, which reloads the beat number and raises BEAT_RELOADED. A write of
TIM_BEAT_OFFSET keeps an encoding out of range away, and is ignored on a member of a stack that is not its Rooster. (Choices of
the model it rests on: log 2, 15.) (R18, R19, R257, R259, R264, R272) -/
def Obligations.PulsesAndDeviceTime : Prop :=
  (∀ s : State, s.ready = true → Answers .ppsInEdge s fun t =>
      t.dev.tim.ppsIn = some ⟨s.dev.tim.dt / (nsUnit / 4) * (nsUnit / 4), s.dev.tim.doms.map fun u => u.clock / (nsUnit / 4) * (nsUnit / 4)⟩ ∧
      (∀ k, k < 6 → k < s.dev.tim.doms.length → s.dev.flag (Reg.TIM_DOM_CFG + domOfs k) 31 = true →
        s.dev.fld (Reg.TIM_DOM_CFG + domOfs k) 30 28 = 2 → ∀ r : Nat, r = (s.dev.dom k).clock / (nsUnit / 4) * (nsUnit / 4) % secUnit →
        ∀ θ : Int, θ = (if 2 * r < secUnit then (r : Int) else (r : Int) - secUnit) / smpUnit →
        t.dev.reg (Reg.TIM_DOM_LAST_LO + domOfs k) = BitVec.ofNat 32 (toField 64 θ) ∧
        t.dev.reg (Reg.TIM_DOM_LAST_HI + domOfs k) = BitVec.ofNat 32 (toField 64 θ / 2 ^ 32)) ∧
      (∀ k, k < 6 → s.dev.flag (Reg.TIM_DOM_CFG + domOfs k) 31 = false ∨ s.dev.fld (Reg.TIM_DOM_CFG + domOfs k) 30 28 ≠ 2 →
        t.dev.dom k = s.dev.dom k) ∧
      t.dev.tim.dt = s.dev.tim.dt ∧ s.dev.changesOnly [.regs, .tim, .evt, .out] t.dev ∧ s.keepsMem t) ∧
  (∀ (s : State) (i inc : Nat) (e : Dev), s.ready = true → s.dev.flag Reg.TIM_PPS_CFG 31 = true → i = s.dev.fld Reg.TIM_PPS_CFG 30 28 →
    inc = (if i = 0 then (s.dev.dom s.dev.active).inc else (s.dev.dom (i - 1)).inc) →
    (s.dev.clockOf i % secUnit < inc ∧ e = s.dev) ∨
      (inc ≤ s.dev.clockOf i % secUnit ∧ 0 < s.dev.toSecond i ∧ s.dev.toSecond i < s.dev.fclkToBoundary ∧ e = s.dev.advance (s.dev.toSecond i)) →
    e.fld Reg.TIM_PPS_CFG 30 28 = i → e.tim.ppsSec ≠ some (e.clockOf i / secUnit) → Answers .ppsOutEdge s fun t =>
      t.dev.out = .pin 5 1 :: e.out ∧
      t.dev.tim = { e.tim with ppsOut := some (e.now + e.fld Reg.TIM_PPS_CFG 19 0 * 1500), ppsSec := some (e.clockOf i / secUnit) } ∧
      e.changesOnly [.tim, .out] t.dev ∧ s.keepsMem t) ∧
  (∀ (s : State) (i inc : Nat), s.ready = true → s.dev.flag Reg.TIM_PPS_CFG 31 = true → i = s.dev.fld Reg.TIM_PPS_CFG 30 28 →
    inc = (if i = 0 then (s.dev.dom s.dev.active).inc else (s.dev.dom (i - 1)).inc) →
    (s.dev.clockOf i % secUnit < inc ∧ s.dev.tim.ppsSec = some (s.dev.clockOf i / secUnit)) ∨
      (inc ≤ s.dev.clockOf i % secUnit ∧ s.dev.fclkToBoundary ≤ s.dev.toSecond i) → exec .ppsOutEdge s = .next s) ∧
  (∀ s : State, s.ready = true → s.dev.flag Reg.TIM_PPS_CFG 31 = false → exec .ppsOutEdge s = .next s) ∧
  (∀ s : State, s.ready = true → s.dev.mode.live = false → s.dev.stepThresh < s.dev.dtErr.natAbs → Answers .dtLoad s fun t =>
      t.dev.tim.dt = (s.dev.dom s.dev.active).clock ∧
      t.dev.beat = ((s.dev.dom s.dev.active).clock - s.dev.tim.ofs * nsUnit) * 3 / beat3Unit ∧
      t.dev.flag Reg.TIM_BEAT_STAT 2 = true ∧ s.dev.raised Src.BEAT_RELOADED t.dev ∧ t.dev.tim.doms = s.dev.tim.doms ∧
      t.dev.tim.apart = false ∧
      s.dev.changesOnly [.beat, .fclk, .regs, .tim, .evt, .out] t.dev ∧ s.dev.keepsRegsE [Reg.TIM_BEAT_STAT] t.dev ∧ s.keepsMem t) ∧
  (∀ s : State, s.ready = true → s.dev.mode.live = true ∨ s.dev.dtErr.natAbs ≤ s.dev.stepThresh → exec .dtLoad s = .next s) ∧
  (∀ (s : State) (p : Path) (v : Word), s.ready = true → s.dev.fld Reg.MUL_STATUS 21 19 ∉ [2, 4, 5] →
    Answers (.timBeatOffsetWrite p v) s fun t =>
      t.dev.fld Reg.TIM_BEAT_OFFSET 20 0 = (if bits v 20 0 ≤ 1666666 then bits v 20 0 else s.dev.fld Reg.TIM_BEAT_OFFSET 20 0) ∧
      s.dev.keepsRegs [Reg.TIM_BEAT_OFFSET] t.dev ∧ s.dev.changesOnly [.regs] t.dev ∧ s.keepsMem t) ∧
  (∀ (s : State) (p : Path) (v : Word), s.ready = true → s.dev.fld Reg.MUL_STATUS 21 19 ∈ [2, 4, 5] →
    exec (.timBeatOffsetWrite p v) s = .next s)

/-- COMMIT of a list while none is pending takes the base as the start where the base is at least 1 us ahead of DT; else start = base
+ N x cycle with the least N that puts it at least 1 us ahead, BASE_PAST is set and GATE_BASE_PAST raised. The list is then
PENDING, and GAT_START reads its start. COMMIT while PENDING sets COMMIT_ERR and leaves the pending list. CANCEL before the start
withdraws it; in or after the start FCLK it withdraws nothing. At the start the pending list is operational, its bank is the
active one and its interval 0 is current; at the end of an interval, reached within the beat while M runs forward, the entry then
in force is current. (Choices of the model it rests on: log 3.) (R269, R270, R273) -/
def Obligations.GateListCommands : Prop :=
  (∀ (s : State) (p : Path) (q : Nat) (v : Word), s.ready = true → q < 8 → s.dev.flag (Reg.GAT_CTRL + gatePort q) 28 = false →
    ∀ base start : Nat, base = (((s.dev.reg (Reg.GAT_BASE_SEC_LO + gatePort q)).toNat +
        2 ^ 32 * s.dev.fld (Reg.GAT_BASE_SEC_HI + gatePort q) 15 0) * 1000000000 + (s.dev.reg (Reg.GAT_BASE_NS + gatePort q)).toNat) * nsUnit →
    ∀ cycle : Nat, cycle = s.dev.fld (Reg.GAT_CYCLE + gatePort q) 29 0 * nsUnit → 0 < cycle →
    (if s.dev.tim.dt + 1000 * nsUnit ≤ base then start = base else
      ∃ n, start = base + n * cycle ∧ s.dev.tim.dt + 1000 * nsUnit ≤ start ∧ start < s.dev.tim.dt + 1000 * nsUnit + cycle) →
    Answers (.gateCommit p q v) s fun t =>
      (t.dev.gate q).pendStart = some start ∧ (t.dev.gate q).pendCycle * nsUnit = cycle ∧ (t.dev.gate q).start = (s.dev.gate q).start ∧
      (t.dev.gate q).bank = (s.dev.gate q).bank ∧ t.dev.flag (Reg.GAT_CTRL + gatePort q) 28 = true ∧
      (t.dev.gate q).pendLen = t.dev.fld (Reg.GAT_CTRL + gatePort q) 10 0 ∧
      t.dev.fld (Reg.GAT_CTRL + gatePort q) 10 0 =
        (if 1 ≤ bits v 10 0 ∧ bits v 10 0 ≤ 1024 then bits v 10 0 else s.dev.fld (Reg.GAT_CTRL + gatePort q) 10 0) ∧
      t.dev.flag (Reg.GAT_CTRL + gatePort q) 31 = bit v 31 ∧
      (base < s.dev.tim.dt + 1000 * nsUnit → t.dev.flag (Reg.GAT_CTRL + gatePort q) 27 = true ∧ s.dev.raised Src.GATE_BASE_PAST t.dev) ∧
      t.dev.reg (Reg.GAT_START_NS + gatePort q) = BitVec.ofNat 32 (clkNs start) ∧
      t.dev.reg (Reg.GAT_START_SEC_LO + gatePort q) = BitVec.ofNat 32 (clkSec start) ∧
      t.dev.reg (Reg.GAT_START_SEC_HI + gatePort q) = BitVec.ofNat 32 (clkSec start / 2 ^ 32 % 65536) ∧
      (∀ j, j ≠ q → t.dev.gate j = s.dev.gate j) ∧ t.dev.tim.dt = s.dev.tim.dt ∧ t.dev.tim.doms = s.dev.tim.doms ∧
      s.dev.changesOnly [.regs, .tim, .evt, .out, .setNow] t.dev ∧
      s.dev.keepsRegsE [Reg.GAT_CTRL + gatePort q, Reg.GAT_START_NS + gatePort q, Reg.GAT_START_SEC_LO + gatePort q,
        Reg.GAT_START_SEC_HI + gatePort q] t.dev ∧ s.keepsMem t) ∧
  (∀ (s : State) (p : Path) (q : Nat) (v : Word), s.ready = true → q < 8 → s.dev.flag (Reg.GAT_CTRL + gatePort q) 28 = true →
    Answers (.gateCommit p q v) s fun t =>
      t.dev.flag (Reg.GAT_CTRL + gatePort q) 26 = true ∧ t.dev.flag (Reg.GAT_CTRL + gatePort q) 28 = true ∧ t.dev.tim = s.dev.tim ∧
      s.dev.changesOnly [.regs, .setNow] t.dev ∧ s.dev.keepsRegs [Reg.GAT_CTRL + gatePort q] t.dev ∧ s.keepsMem t) ∧
  (∀ (s : State) (p : Path) (q st : Nat) (v : Word), s.ready = true → q < 8 → (s.dev.gate q).pendStart = some st → s.dev.tim.dt < st →
    Answers (.gateCancel p q v) s fun t =>
      t.dev.gate q = { s.dev.gate q with pendStart := none } ∧ t.dev.flag (Reg.GAT_CTRL + gatePort q) 28 = false ∧
      (∀ j, j ≠ q → t.dev.gate j = s.dev.gate j) ∧ s.dev.changesOnly [.regs, .tim] t.dev ∧
      s.dev.keepsRegs [Reg.GAT_CTRL + gatePort q, Reg.GAT_START_NS + gatePort q, Reg.GAT_START_SEC_LO + gatePort q,
        Reg.GAT_START_SEC_HI + gatePort q] t.dev ∧ s.keepsMem t) ∧
  (∀ (s : State) (p : Path) (q st : Nat) (v : Word), s.ready = true → q < 8 → (s.dev.gate q).pendStart = some st → st ≤ s.dev.tim.dt →
    Answers (.gateCancel p q v) s fun t =>
      t.dev.tim = s.dev.tim ∧ s.dev.changesOnly [.regs] t.dev ∧ s.dev.keepsRegs [Reg.GAT_CTRL + gatePort q] t.dev ∧ s.keepsMem t) ∧
  (∀ (s : State) (q st : Nat), s.ready = true → q < 8 → (s.dev.gate q).pendStart = some st → st ≤ s.dev.tim.dt →
    Answers (.gateListStart q) s fun t =>
      (t.dev.gate q).start = some st ∧ (t.dev.gate q).bank = 1 - (s.dev.gate q).bank ∧ (t.dev.gate q).len = (s.dev.gate q).pendLen ∧
      (t.dev.gate q).cycle = (s.dev.gate q).pendCycle ∧ (t.dev.gate q).pendStart = none ∧ (t.dev.gate q).cur = 0 ∧
      t.dev.flag (Reg.GAT_CTRL + gatePort q) 28 = false ∧ (∀ j, j ≠ q → t.dev.gate j = s.dev.gate j) ∧
      (∀ c, c < 8 → t.dev.reg (Reg.GAT_MAXOPEN + gatePort q + 4 * c) =
        BitVec.ofNat 32 ((wholeWindow (t.dev.operSegs q) c).getD 0x3FFFFFFF)) ∧
      s.dev.changesOnly [.regs, .tim] t.dev ∧ s.keepsMem t) ∧
  (∀ (s : State) (q st left ofs : Nat), s.ready = true → (s.dev.gate q).start = some st → ofs = (s.dev.tim.dt - st) / nsUnit →
    left = (segAt (s.dev.operSegs q) (ofs % max 1 (s.dev.gate q).cycle) 0).2.2 →
    0 < (s.dev.dom s.dev.active).inc → s.dev.tim.dt < st + (ofs + left) * nsUnit → s.dev.fclkTo (st + (ofs + left) * nsUnit) < s.dev.fclkToBoundary →
    Answers (.gateEntryChange q) s fun t =>
      (s.dev.tim.stepped = false → (∀ k, k < 6 → (s.dev.dom k).refused = []) → st + (ofs + left) * nsUnit ≤ t.dev.tim.dt) ∧
      (t.dev.gate q).cur = (t.dev.gatesNow q).1 ∧
      (t.dev.gate q).start = some st ∧ (∀ j, j ≠ q → t.dev.gate j = s.dev.gate j) ∧
      (s.dev.advance (s.dev.fclkTo (st + (ofs + left) * nsUnit))).changesOnly [.tim] t.dev ∧ s.keepsMem t)

/-- A leg eligible but for its run opens its run at once where its slot is valid (counted, the slot in use), asks for a load where the
lanes can still perform one in the beat, and is else deferred, with PEN_OVERLOAD. At the first beat of an interval every run ends,
one with packets and tokens left being counted RUN_CUT, then the deferred requests are made, then those of the waiting legs in
ascending order from the leg after the one that began the order before. A moving leg with no packet left between selection and the
medium ceases to move, with EGRESS_MOVE_DONE. A class held through 600 beats raises EGRESS_PAUSE_HELD once. Else none of them does
anything. (Choices of the model it rests on: log 3, 87.) (R112, R279, R286, R290) -/
def Obligations.KeyRunsAndMoves : Prop :=
  (∀ (s : State) (leg : Nat), s.ready = true → s.dev.wantsRun leg = false → exec (.runRequest leg) s = .next s) ∧
  (∀ (s : State) (leg p k : Nat), s.ready = true → s.dev.wantsRun leg = true → p = legPort (s.dev.egsLeg leg) → s.dev.slotFor leg true = some k →
    Answers (.runRequest leg) s fun t =>
      t.dev.egLeg leg = { s.dev.egLeg leg with runOpen := true, runHad := true, runSlot := some k, req := 0 } ∧
      (∀ j, j ≠ leg → t.dev.egLeg j = s.dev.egLeg j) ∧
      (∀ x, s.dev.penSlot k = some x → t.dev.penSlot k = some { x with users := x.users + 1, lastUse := s.dev.beat }) ∧
      (∀ j, j ≠ k → t.dev.penSlot j = s.dev.penSlot j) ∧ s.dev.counted (Reg.EGS_CNT_LO + portOfs p) 4 1 t.dev ∧
      s.dev.keepsRegs [Reg.EGS_CNT_LO + portOfs p + 32, Reg.EGS_CNT_LO + portOfs p + 36] t.dev ∧ s.dev.changesOnly [.regs, .egs, .vlt] t.dev ∧
      s.keepsMem t) ∧
  (∀ (s : State) (leg : Nat), s.ready = true → s.dev.wantsRun leg = true → s.dev.slotFor leg true = none →
    s.dev.loadRoom ≤ s.dev.vlt.loads.length →
    Answers (.runRequest leg) s fun t =>
      t.dev.egLeg leg = { s.dev.egLeg leg with req := 2 } ∧ (∀ j, j ≠ leg → t.dev.egLeg j = s.dev.egLeg j) ∧
      s.dev.counted Reg.VLT_CNT_LO 4 1 t.dev ∧ (Src.PEN_OVERLOAD ∉ s.dev.evt.once → s.dev.raised Src.PEN_OVERLOAD t.dev) ∧
      s.dev.keepsRegsE [Reg.VLT_CNT_LO + 32, Reg.VLT_CNT_LO + 36] t.dev ∧ s.dev.changesOnly [.regs, .egs, .evt, .out] t.dev ∧ s.keepsMem t) ∧
  (∀ (s : State) (leg : Nat), s.ready = true → s.dev.wantsRun leg = true → s.dev.slotFor leg true = none →
    s.dev.vlt.loads.length < s.dev.loadRoom →
    Answers (.runRequest leg) s fun t =>
      t.dev.egLeg leg = { s.dev.egLeg leg with req := 3, runHad := true } ∧ (∀ j, j ≠ leg → t.dev.egLeg j = s.dev.egLeg j) ∧
      (∃ r ∈ t.dev.vlt.loads, r.leg = leg ∧ r.egress = true ∧ r.cls ≤ 3) ∧
      (∀ r ∈ s.dev.vlt.loads, ∃ r' ∈ t.dev.vlt.loads, r'.leg = r.leg ∧ r'.egress = r.egress ∧ r'.cls ≤ r.cls) ∧
      t.dev.vlt.slots = s.dev.vlt.slots ∧ s.dev.changesOnly [.egs, .vlt] t.dev ∧ s.keepsMem t) ∧
  (∀ (s : State), s.ready = true → (s.dev.beat - s.dev.egs.n0) % max 1 s.dev.egs.interval ≠ 0 ∨ s.dev.egs.started = some s.dev.beat →
    exec .runIntervalStart s = .next s) ∧
  (∀ (s : State), s.ready = true → (s.dev.beat - s.dev.egs.n0) % max 1 s.dev.egs.interval = 0 → s.dev.egs.started ≠ some s.dev.beat →
    tabSorted s.dev.tabs = true →
    Does .runIntervalStart s fun d => d.egs.started = some s.dev.beat ∧ ∃ (e f : Dev) (order : List Nat),
      (∀ l ∈ s.dev.egsLegs, (e.egLeg l).runOpen = false ∧ (e.egLeg l).runHad = false ∧ (e.egLeg l).pacer = (s.dev.egLeg l).pacer) ∧
      (∀ l, l ∉ s.dev.egsLegs → e.egLeg l = s.dev.egLeg l) ∧
      (∀ p, p < 8 → s.dev.counted (Reg.EGS_CNT_LO + portOfs p) 5
        ((s.dev.egsLegs.filter (fun l => (s.dev.egLeg l).runOpen && s.dev.legQueued l && s.dev.tokensOk l &&
          decide (legPort (s.dev.egsLeg l) = p))).length) e) ∧
      (Src.EGRESS_RUN_CUT ∉ s.dev.evt.once →
        (∃ l ∈ s.dev.egsLegs, (s.dev.egLeg l).runOpen = true ∧ s.dev.legQueued l = true ∧ s.dev.tokensOk l = true) →
        s.dev.raised Src.EGRESS_RUN_CUT e) ∧
      f = foldDev (s.dev.egsLegs.filter (fun l => decide ((s.dev.egLeg l).req = 2))) (fun l d => d.requestRun l) e ∧
      order = (let ws := f.egsLegs.filter (fun l => f.wantsRun l)
        match s.dev.egs.lastFirst with
        | some l => ws.filter (fun i => decide (l < i)) ++ ws.filter (fun i => decide (i ≤ l))
        | none => ws) ∧
      d = foldDev order (fun l d => d.requestRun l)
        { f with egs := { f.egs with lastFirst := order.head?.or f.egs.lastFirst } }) ∧
  (∀ (s : State) (leg : Nat), s.ready = true →
    ((s.dev.egLeg leg).moving = false ∨ (s.dev.egLeg leg).inFlight ≠ 0 → exec (.egressMoveDone leg) s = .next s) ∧
    ((s.dev.egLeg leg).moving = true → (s.dev.egLeg leg).inFlight = 0 → Answers (.egressMoveDone leg) s fun t =>
      t.dev.egLeg leg = { s.dev.egLeg leg with moving := false } ∧ (∀ j, j ≠ leg → t.dev.egLeg j = s.dev.egLeg j) ∧
      s.dev.raised Src.EGRESS_MOVE_DONE t.dev ∧ s.dev.keepsRegsE [] t.dev ∧ s.dev.changesOnly [.regs, .egs, .evt, .out] t.dev ∧ s.keepsMem t)) ∧
  (∀ (s : State) (p c : Nat), s.ready = true →
    (tabFind (s.dev.egPort p).heldFrom c = none ∨ s.dev.holdStands p c = false ∨ c ∈ (s.dev.egPort p).reported ∨
      (∃ b, tabFind (s.dev.egPort p).heldFrom c = some b ∧ s.dev.beat < b + 600) → exec (.egressPauseHeld p c) s = .next s) ∧
    (∀ b, tabFind (s.dev.egPort p).heldFrom c = some b → s.dev.holdStands p c = true → c ∉ (s.dev.egPort p).reported → b + 600 ≤ s.dev.beat →
      Answers (.egressPauseHeld p c) s fun t =>
        t.dev.egPort p = { s.dev.egPort p with reported := c :: (s.dev.egPort p).reported } ∧ (∀ j, j ≠ p → t.dev.egPort j = s.dev.egPort j) ∧
        s.dev.raised Src.EGRESS_PAUSE_HELD t.dev ∧ s.dev.keepsRegsE [] t.dev ∧ s.dev.changesOnly [.regs, .egs, .evt, .out] t.dev ∧ s.keepsMem t))

/-- A port selects at most once in a FCLK: nothing where it is off or down; a packet of an entry not VALID is dropped and counted
NO_LEG; else the frame of the highest eligible strict class, or of a weighted class with a deficit left, of an eligible leg, takes
its place past selection and is debited; entries written in the FCLK serve from the next. A frame at the head of its FIFO is sent
unless its launch time, its gate, a hold or the medium keeps it. A frame that comes to the head is held for its launch time within
the horizon; one later is LAUNCH_LATE, and dropped where so configured; a frame kept past its launch time counts once as delayed;
one longer than its window is dropped. A pause or PFC frame holds its classes for quanta times 512 bit times, quanta 0 ends the
hold; so does its expiry. (Choices of the model it rests on: log 3, 87.) (R268, R271, R273, R276, R278, R281, R282, R283, R286) -/
def Obligations.SelectionAndPauses : Prop :=
  (∀ (s : State) (p : Nat), s.ready = true →
    8 ≤ p ∨ s.dev.flag (Reg.EGS_PORT_CFG + portOfs p) 31 = false ∨ (s.dev.macPort p).up = false → exec (.egressSelect p) s = .next s) ∧
  (∀ (s : State) (p : Nat), s.ready = true → p < 8 → s.dev.flag (Reg.EGS_PORT_CFG + portOfs p) 31 = true → (s.dev.macPort p).up = true →
    (∀ x ∈ s.dev.pci.inFlight, x.ring < 33) → Does (.egressSelect p) s fun d => (d.egPort p).selAt = some d.now ∧
      ((s.dev.egPort p).selAt ≠ some s.dev.now → s.dev.egs.writesAt ≠ s.dev.now ∨ s.dev.egs.writes = [] → d.now = s.dev.now ∧
        (∀ x ∈ s.dev.entries .egs 0, legPort (s.dev.egsLeg (x.2.f 0 13 0)) = p →
          x.2.b 0 31 = false ∨ (s.dev.egsLeg (x.2.f 0 13 0)).b 0 31 = false → s.dev.queueKind (x.2.f 1 17 0) = some 3 →
          ((s.dev.queue (x.2.f 1 17 0)).front).isSome = true →
          s.dev.counted (Reg.EGS_CNT_LO + portOfs p) 6 1 d ∧ (Src.EGRESS_NO_LEG ∉ s.dev.evt.once → s.dev.raised Src.EGRESS_NO_LEG d) ∧
          (d.egPort p).sel = (s.dev.egPort p).sel ∧ (d.egPort p).fifo = (s.dev.egPort p).fifo ∧
          ∃ q, s.dev.queueKind q = some 3 ∧ (d.queue q).items = (s.dev.queue q).items.drop 1 ∧ ∀ j, j ≠ q → d.queue j = s.dev.queue j))) ∧
  (∀ (d : Dev) (f : Dev → Dev) (w : EgsWrite), d.egs.writesAt = d.now → d.egs.writes = [w] →
    d.underOld f = (f (d.undoEgs w)).applyEgs w.tab w.idx w.new) ∧
  (∀ (d : Dev) (p c : Nat), (∀ m, (d.egPort p).clsTurn = some m → m < 8) → (d.pickClass p).1 = some c → c < 8 ∧ d.classEligible p c = true ∧
    (∀ k, k < 8 → bit (d.clsCfg p k) 31 = true → d.classEligible p k = true → bit (d.clsCfg p c) 31 = true ∧ k ≤ c) ∧
    (bit (d.clsCfg p c) 31 = false → ∃ x, tabFind ((d.pickClass p).2.egPort p).clsDef c = some x ∧ 0 < x)) ∧
  (∀ (d : Dev) (p c l : Nat), (d.pickLeg p c).1 = some l → l ∈ d.eligibleLegs p c ∧
    ∃ x, tabFind ((d.pickLeg p c).2.egPort p).grpDef (c * 1024 + legGroup (d.egsLeg l)) = some x ∧ 0 < x) ∧
  (∀ (s : State) (p c l st q : Nat) (it : Item), s.ready = true → p < 8 → s.dev.flag (Reg.EGS_PORT_CFG + portOfs p) 31 = true →
    (s.dev.macPort p).up = true → (s.dev.egPort p).selAt ≠ some s.dev.now → s.dev.dropNoLeg p = none →
    s.dev.egs.writesAt ≠ s.dev.now ∨ s.dev.egs.writes = [] → s.dev.reorderFill (s.dev.planeOf p) < 4096 →
    s.dev.flag Reg.TIM_LAUNCH_CFG 31 = false ∨ (it.desc.b 0 22 = false ∧ ∀ x ∈ (s.dev.egPort p).fifo ++ (s.dev.egPort p).sel, x.launch = none) →
    (∀ l' ∈ s.dev.egsLegs, ∀ y ∈ s.dev.streamsOf l', ∀ q', s.dev.streamQueue y.1 = some q' → ∀ i, (s.dev.queue q').front = some i →
      s.dev.itemAuth i ≠ 3) →
    ((s.dev.ent .egs 3 (shaperIdx p 8)).f 0 31 0 = 0 ∨ 0 ≤ s.dev.shaperTok p 8) → (s.dev.pickClass p).1 = some c → s.dev.rawHead p c = none →
    (s.dev.pickLeg p c).1 = some l → s.dev.pickStream l c = some st → s.dev.headOf st = some it → s.dev.streamQueue st = some q →
    (s.dev.queue q).release ≤ (s.dev.queue q).read → s.dev.planeOf p < 2 → (∀ x ∈ s.dev.pci.inFlight, x.ring < 33) → Does (.egressSelect p) s fun d =>
      (d.queue q).read = (s.dev.queue q).read + 1 ∧ (∀ j, j ≠ q → d.queue j = s.dev.queue j) ∧
      (d.egLeg l).inFlight = (s.dev.egLeg l).inFlight + 1 ∧ tabFind (d.egLeg l).rr c = some st ∧
      tabFind d.egs.sent st = some (min 0xFFFFFFFF ((tabFind s.dev.egs.sent st).getD 0 + 1)) ∧
      ∃ f : EgFrame, f ∈ (d.egPort p).fifo ++ (d.egPort p).sel ∧ f.leg = some l ∧ f.cls = c ∧ f.item.uid = it.uid ∧ f.item.outSeq = it.outSeq ∧
        f.id = (s.dev.egPort p).nextId ∧ (d.egPort p).nextId = f.id + 1 ∧
        (d.egLeg l).pacer = ((s.dev.refillLeg l).egLeg l).pacer -
          (if (s.dev.egsLeg l).b 0 29 then 0 else (s.dev.debitLen p f.len : Int) * tokScale) ∧
        ((s.dev.egsLeg l).f 3 31 0 ≠ 0 → (d.egLeg l).shaper = ((s.dev.refillLeg l).egLeg l).shaper - (s.dev.debitLen p f.len : Int) * tokScale)) ∧
  (∀ (s : State) (p c : Nat), s.ready = true → 8 ≤ p ∨ 8 ≤ c ∨ (s.dev.macPort p).up = false ∨
      (tabFind s.dev.egs.txAt (p / 4) = some s.dev.now ∧ s.dev.fclkToBoundary ≤ 1) ∨
      (tabFind s.dev.egs.txAt (p / 4) ≠ some s.dev.now ∧ (s.dev.egPort p).fifo.find? (fun f => decide (f.cls = c)) = none) →
    exec (.frameTxStart p c) s = .next s) ∧
  (∀ (s : State) (p c : Nat) (f : EgFrame) (e : Dev), s.ready = true → p < 8 → c < 8 → (s.dev.macPort p).up = true →
    e = (if tabFind s.dev.egs.txAt (p / 4) = some s.dev.now then s.dev.toFclk (s.dev.fclk + 1) else s.dev) →
    tabFind e.egs.txAt (p / 4) ≠ some e.now → (e.egPort p).fifo.find? (fun f => decide (f.cls = c)) = some f →
    (∀ x ∈ e.pci.inFlight, x.ring < 33) →
    (∀ t, f.due = some t → e.tim.dt < t * nsUnit → Does (.frameTxStart p c) s fun d => d = e) ∧
    (e.due f → e.mayStart p c f → Does (.frameTxStart p c) s fun d => e.frameLeft p f d ∧
      ∀ (g : EgFrame) (l : Nat), ((e.egPort p).fifo.filter (fun x => x.id != f.id)).find? (fun x => decide (x.cls = c)) = some g →
        (g.launch = none → (d.egPort p).fifo.find? (fun x => decide (x.cls = c)) = some g) ∧
        (g.launch = some l →
          (1000000000 ≤ l → (d.egPort p).fifo.find? (fun x => decide (x.cls = c)) = some { g with launch := none }) ∧
          (l < 1000000000 → e.untilLaunch l ≤ e.launchHorizon →
            (d.egPort p).fifo.find? (fun x => decide (x.cls = c)) =
              some { g with launch := none, due := some (e.tim.dt / nsUnit + e.untilLaunch l) }) ∧
          (l < 1000000000 → e.launchHorizon < e.untilLaunch l →
            (Src.LAUNCH_LATE ∉ e.evt.once → e.raised Src.LAUNCH_LATE d) ∧
            (e.flag Reg.TIM_LAUNCH_CFG 31 = true → ∀ x ∈ (d.egPort p).fifo, x.id ≠ g.id) ∧
            (e.flag Reg.TIM_LAUNCH_CFG 31 = false → e.counted (Reg.GAT_CNT_LO + portOfs p) 2 1 d ∧
              (d.egPort p).fifo.find? (fun x => decide (x.cls = c)) = some { g with launch := none })))) ∧
    (∀ w, e.due f → e.window p c = some w → fitsWire p f.len (w * nsUnit) = false → Does (.frameTxStart p c) s fun d =>
      e.counted (Reg.GAT_CNT_LO + portOfs p) 0 1 d ∧ (Src.WINDOW_OVERLONG ∉ e.evt.once → e.raised Src.WINDOW_OVERLONG d) ∧
      (∀ x ∈ (d.egPort p).fifo, x.id ≠ f.id) ∧ (d.egPort p).busyUntil = (e.egPort p).busyUntil) ∧
    (e.due f → (∀ w, e.window p c = some w → fitsWire p f.len (w * nsUnit) = true) →
      (e.classHeld p c = true ∨ e.now < (e.egPort p).busyUntil → Does (.frameTxStart p c) s fun d => e.frameWaits p c f false d) ∧
      (∀ n, e.classHeld p c = false → (e.egPort p).busyUntil ≤ e.now → e.closing p c = some n → fitsWire p f.len n = false →
        Does (.frameTxStart p c) s fun d => e.frameWaits p c f true d))) ∧
  (∀ (s : State) (p c : Nat), s.ready = true →
    (∀ t, ((s.dev.egPort p).fifo.find? (fun f => decide (f.cls = c)) = none ∨
      (∃ f, (s.dev.egPort p).fifo.find? (fun f => decide (f.cls = c)) = some f ∧ (f.due = none ∨ (f.due = some t ∧ s.dev.reachDt (t * nsUnit) = none)))) →
      exec (.launchTimeReached p c) s = .next s) ∧
    (∀ (f : EgFrame) (t : Nat) (e : Dev), p < 8 → c < 8 → (s.dev.egPort p).fifo.find? (fun f => decide (f.cls = c)) = some f → f.due = some t →
      s.dev.reachDt (t * nsUnit) = some e → t * nsUnit ≤ e.tim.dt → (s.dev.macPort p).up = true → tabFind s.dev.egs.txAt (p / 4) ≠ some e.now →
      (∀ x ∈ s.dev.pci.inFlight, x.ring < 33) →
      (e.mayStart p c f → Does (.launchTimeReached p c) s fun d => e.frameLeft p f d) ∧
      (e.classHeld p c = true ∨ e.now < (e.egPort p).busyUntil → (∀ w, e.window p c = some w → fitsWire p f.len (w * nsUnit) = true) →
        Does (.launchTimeReached p c) s fun d => e.frameWaits p c f false d))) ∧
  (∀ (s : State) (p quanta : Nat), s.ready = true →
    (8 ≤ p ∨ s.dev.flag (Reg.EGS_PORT_CFG + portOfs p) 30 = false → exec (.pauseReceived p quanta) s = .next s) ∧
    (p < 8 → s.dev.flag (Reg.EGS_PORT_CFG + portOfs p) 30 = true → Answers (.pauseReceived p quanta) s fun t =>
      s.dev.counted (Reg.EGS_CNT_LO + portOfs p) 2 1 t.dev ∧
      (∀ c, c < 8 → tabFind (t.dev.egPort p).holds (8 + c) =
        if quanta = 0 then none else some (s.dev.heldSince p (8 + c), s.dev.now + ceilDiv (quanta * 768) (portRate p))) ∧
      (∀ c, c < 8 → tabFind (t.dev.egPort p).holds c = tabFind (s.dev.egPort p).holds c) ∧
      (t.dev.egPort p).fifo = (s.dev.egPort p).fifo ∧ (∀ j, j ≠ p → t.dev.egPort j = s.dev.egPort j) ∧
      s.dev.keepsRegs [Reg.EGS_CNT_LO + portOfs p + 16, Reg.EGS_CNT_LO + portOfs p + 20] t.dev ∧ s.dev.changesOnly [.regs, .egs] t.dev ∧
      s.keepsMem t)) ∧
  (∀ (s : State) (p vec : Nat) (quanta : List Nat), s.ready = true →
    (8 ≤ p ∨ s.dev.flag (Reg.EGS_PORT_CFG + portOfs p) 29 = false → exec (.pfcReceived p vec quanta) s = .next s) ∧
    (p < 8 → s.dev.flag (Reg.EGS_PORT_CFG + portOfs p) 29 = true → Answers (.pfcReceived p vec quanta) s fun t =>
      s.dev.counted (Reg.EGS_CNT_LO + portOfs p) 3 1 t.dev ∧
      (∀ c, c < 8 → ∀ pri, pri = bits (s.dev.clsCfg p c) 26 24 → tabFind (t.dev.egPort p).holds c =
        if vec.testBit pri then (if quanta.getD pri 0 = 0 then none else
          some (s.dev.heldSince p c, s.dev.now + ceilDiv (quanta.getD pri 0 * 768) (portRate p)))
        else tabFind (s.dev.egPort p).holds c) ∧
      (∀ c, c < 8 → tabFind (t.dev.egPort p).holds (8 + c) = tabFind (s.dev.egPort p).holds (8 + c)) ∧
      (t.dev.egPort p).fifo = (s.dev.egPort p).fifo ∧ (∀ j, j ≠ p → t.dev.egPort j = s.dev.egPort j) ∧
      s.dev.keepsRegs [Reg.EGS_CNT_LO + portOfs p + 24, Reg.EGS_CNT_LO + portOfs p + 28] t.dev ∧ s.dev.changesOnly [.regs, .egs] t.dev ∧
      s.keepsMem t)) ∧
  (∀ (s : State) (p c till : Nat), s.ready = true → c < 8 →
    till = max (((tabFind (s.dev.egPort p).holds c).map (·.2)).getD 0) (((tabFind (s.dev.egPort p).holds (8 + c)).map (·.2)).getD 0) →
    (till = 0 ∨ s.dev.reachNow till = none → exec (.pauseHoldExpiry p c) s = .next s) ∧
    (∀ e, till ≠ 0 → s.dev.reachNow till = some e → Answers (.pauseHoldExpiry p c) s fun t =>
      tabFind (t.dev.egPort p).holds c = none ∧ tabFind (t.dev.egPort p).holds (8 + c) = none ∧ tabFind (t.dev.egPort p).heldFrom c = none ∧
      t.dev.holdStands p c = false ∧ (∀ k, k ≠ c → k ≠ 8 + c → tabFind (t.dev.egPort p).holds k = tabFind (s.dev.egPort p).holds k) ∧
      (∀ j, j ≠ p → t.dev.egPort j = s.dev.egPort j) ∧ e.changesOnly [.egs] t.dev ∧ s.keepsMem t))

/-- The scrubber of an ACTIVE channel that reads a block counts a corrected error; an uncorrectable critical block is repaired from
its copy and counted, or, with no copy, is MEM_CRIT_LOST and a CHIP_FAULT; a bulk block is POISONED and counted. A pass takes for
each lane the longest run of good offsets, moves its delay by the run's centre, and gives the least margin; the second low one in
a row raises MEM_MARGIN_LOW and starts a migration to a spare; a lane without a run keeps all delays and leads to retries of one
direction, the third failing one making the channel FAILED, its logical channel going to the spare. Bulk data lost with it is
treated as Table 14.7 says. (Choices of the model it rests on: log 66, 68.) (R292, R295, R296, R300, R302, R303, R304, R307, R308,
R310) -/
def Obligations.ScrubRefreshAndRetraining : Prop :=
  (∀ (s : State) (k a : Nat) (ecc : Ecc), s.ready = true →
    17 ≤ k ∨ s.dev.chState k ≠ 0 ∨ s.dev.chLogical k ≠ s.dev.homeOf a ∨ s.dev.noMemory a = true ∨ ecc = .clean ∨
      (∃ r ∈ (s.dev.memCh k).writes, r.block = a / 128) →
    exec (.scrubRead k a ecc) s = .next s) ∧
  (∀ (s : State) (k a b : Nat), s.ready = true → k < 17 → s.dev.chState k = 0 → s.dev.chLogical k = s.dev.homeOf a → s.dev.noMemory a = false →
    b = a / 128 * 128 → (∀ r ∈ (s.dev.memCh k).writes, r.block ≠ a / 128) →
    Answers (.scrubRead k a .corrected) s (fun t =>
      s.dev.counted Reg.MEM_CNT_LO 0 1 t.dev ∧ s.dev.counted (Reg.MEM_CH_CNT_LO + memOfs k) 0 1 t.dev ∧
      s.dev.keepsRegs [Reg.MEM_CNT_LO, Reg.MEM_CNT_LO + 4, Reg.MEM_CH_CNT_LO + memOfs k, Reg.MEM_CH_CNT_LO + memOfs k + 4] t.dev ∧
      t.dev.memCh k = (s.dev.memCh k).ask true { block := a / 128, port := 8, at_ := s.dev.now } ∧ (∀ j, j ≠ k → t.dev.memCh j = s.dev.memCh j) ∧
      s.dev.changesOnly [.regs, .mem] t.dev ∧ s.keepsMem t) ∧
    Answers (.scrubRead k a .uncorrectable) s (fun t =>
      s.dev.counted (Reg.MEM_CH_CNT_LO + memOfs k) 1 1 t.dev ∧
      t.dev.reg64 (Reg.MEM_CH_UE_ADDR_LO + memOfs k) (Reg.MEM_CH_UE_ADDR_HI + memOfs k) = b ∧
      (s.dev.criticalAt b = false → t.dev.poisoned b = true ∧ s.dev.counted Reg.MEM_CNT_LO 2 1 t.dev ∧
        (Src.MEM_UE_BULK ∉ s.dev.evt.once → s.dev.raised Src.MEM_UE_BULK t.dev) ∧ s.dev.changesOnly [.regs, .evt, .out, .mem] t.dev) ∧
      (s.dev.criticalAt b = true → s.dev.homeOf (copyOf b) ∉ s.dev.mem.single → s.dev.chState (s.dev.chanOf (s.dev.homeOf (copyOf b))) ≠ 4 →
        s.dev.counted Reg.MEM_CNT_LO 1 1 t.dev ∧ s.dev.changesOnly [.regs, .mem] t.dev ∧
        ∀ o, o = s.dev.chanOf (if s.dev.chanOf (s.dev.homeOf b) = k then s.dev.homeOf (copyOf b) else s.dev.homeOf b) → o ≠ k →
          t.dev.memCh o = (s.dev.memCh o).ask false { block := a / 128, port := 8, at_ := s.dev.now } ∧
          t.dev.memCh k = (s.dev.memCh k).ask true { block := a / 128, port := 8, at_ := s.dev.now }) ∧
      (s.dev.criticalAt b = true → s.dev.homeOf (copyOf b) ∈ s.dev.mem.single →
        s.dev.raised Src.MEM_CRIT_LOST t.dev ∧ s.dev.raised Src.CHIP_FAULT t.dev ∧
        (s.dev.mode ≠ .recovery → if s.dev.flag Reg.MGT_POLICY 31 then t.dev.pwr.fault = some (s.dev.pwr.fault.getD s.dev.beat)
          else t.dev.pwr.toRecovery = true) ∧ s.dev.changesOnly [.regs, .evt, .out, .pwr, .mul] t.dev) ∧ s.keepsMem t)) ∧
  (∀ (s : State) (k : Nat), s.ready = true →
    (17 ≤ k → exec (.refresh k) s = .next s) ∧
    (k < 17 → Answers (.refresh k) s fun t => t.dev.memCh k = { s.dev.memCh k with
        bank := ((s.dev.memCh k).bank + 1) % 16, tRC := recSet (s.dev.memCh k).tRC (s.dev.memCh k).bank (s.dev.now + 12) } ∧
      (∀ j, j ≠ k → t.dev.memCh j = s.dev.memCh j) ∧ s.dev.changesOnly [.mem] t.dev ∧ s.keepsMem t)) ∧
  (∀ (m : Nat) (a b : Int), bestRun (okRuns m 16 32) = some (a, b) → -16 ≤ a ∧ a ≤ b ∧ b ≤ 15 ∧
    (∀ o : Int, a ≤ o → o ≤ b → m.testBit (o + 16).toNat = true) ∧
    (∀ x y : Int, -16 ≤ x → y ≤ 15 → (∀ o, x ≤ o → o ≤ y → m.testBit (o + 16).toNat = true) → y - x ≤ b - a) ∧
    2 * (runCentre (a, b)).natAbs ≤ (a + b).natAbs ∧ (a + b).natAbs ≤ 2 * (runCentre (a, b)).natAbs + 1) ∧
  (∀ m : Nat, bestRun (okRuns m 16 32) = none ↔ ∀ i, i < 32 → m.testBit i = false) ∧
  (∀ (s : State) (k : Nat) (rd wr : List Nat), s.ready = true →
    17 ≤ k ∨ s.dev.mode.trains = false ∨
      ((s.dev.chState k = 5 ∨ s.dev.chState k = 6 ∨ s.dev.chState k = 7) ∧ s.dev.mem.cmd ≠ some (2, k)) →
    exec (.retrainPass k rd wr) s = .next s) ∧
  (∀ (s : State) (k l m low : Nat) (rd wr : List Nat) (r w : List (Int × Int)), s.ready = true → k < 17 → s.dev.mode.trains = true →
    s.dev.chState k < 5 → rd.length = 72 → wr.length = 72 → rd.map (fun x => bestRun (okRuns x 16 32)) = r.map some →
    wr.map (fun x => bestRun (okRuns x 16 32)) = w.map some → m = ((r ++ w).map runMargin).foldl min 16 →
    low = (if s.dev.chState k = 0 ∧ m < s.dev.fld Reg.MEM_CFG 7 0 then (s.dev.memCh k).low + 1 else 0) →
    l = s.dev.chLogical k → s.dev.chanOf l = k → s.dev.spare < 17 ∨ s.dev.spare = 0x1F →
    Answers (.retrainPass k rd wr) s fun t =>
      (∀ i x, r[i]? = some x → tabGet (fun _ => 0) (t.dev.memCh k).delays (s.dev.fsp * 144 + i) =
        tabGet (fun _ => 0) (s.dev.memCh k).delays (s.dev.fsp * 144 + i) + runCentre x) ∧
      (∀ i x, w[i]? = some x → tabGet (fun _ => 0) (t.dev.memCh k).delays (s.dev.fsp * 144 + 72 + i) =
        tabGet (fun _ => 0) (s.dev.memCh k).delays (s.dev.fsp * 144 + 72 + i) + runCentre x) ∧
      (t.dev.memCh k).retry = none ∧ (t.dev.memCh k).low = low ∧ (∀ j, j ≠ k → t.dev.memCh j = s.dev.memCh j) ∧
      s.dev.counted Reg.MEM_CNT_LO 3 1 t.dev ∧ s.dev.counted (Reg.MEM_CH_CNT_LO + memOfs k) 2 1 t.dev ∧
      s.dev.counted (Reg.MEM_CH_CNT_LO + memOfs k) 3 (if (r ++ w).any (fun x => runCentre x != 0) then 1 else 0) t.dev ∧
      t.dev.fld (Reg.MEM_CH_STAT + memOfs k) 7 0 = m ∧ t.dev.fld (Reg.MEM_CH_STAT + memOfs k) 23 22 = 0 ∧
      (if s.dev.fsp = 1 then t.dev.fld (Reg.MEM_CH_MARGIN + memOfs k) 15 8 = m else t.dev.fld (Reg.MEM_CH_MARGIN + memOfs k) 7 0 = m) ∧
      (low = 2 → s.dev.raised Src.MEM_MARGIN_LOW t.dev) ∧
      (if low = 2 ∧ s.dev.flag Reg.MEM_CFG 24 = true ∧ s.dev.spare ≠ 0x1F ∧ s.dev.chState s.dev.spare = 1 ∧ s.dev.fld Reg.MEM_STATUS 27 26 = 0 then
        t.dev.chState k = 2 ∧ t.dev.chState s.dev.spare = 3 ∧ t.dev.fld Reg.MEM_STATUS 27 26 = 1 ∧ t.dev.mem.mig = l
       else t.dev.chState k = s.dev.chState k ∧ t.dev.fld Reg.MEM_STATUS 27 26 = s.dev.fld Reg.MEM_STATUS 27 26) ∧
      (if s.dev.mem.cmd = some (2, k) then t.dev.mem.cmd = none ∧ t.dev.reg Reg.MEM_RESULT = 0x80000000
       else t.dev.mem.cmd = s.dev.mem.cmd ∧ t.dev.reg Reg.MEM_RESULT = s.dev.reg Reg.MEM_RESULT) ∧
      s.dev.keepsRegsE [Reg.MEM_CNT_LO + 24, Reg.MEM_CNT_LO + 28, Reg.MEM_CH_CNT_LO + memOfs k + 16, Reg.MEM_CH_CNT_LO + memOfs k + 20,
        Reg.MEM_CH_CNT_LO + memOfs k + 24, Reg.MEM_CH_CNT_LO + memOfs k + 28, Reg.MEM_CH_STAT + memOfs k, Reg.MEM_CH_MARGIN + memOfs k,
        Reg.MEM_STATUS, Reg.MEM_CH_STAT + memOfs s.dev.spare, Reg.MEM_RESULT] t.dev ∧
      s.dev.changesOnly [.regs, .mem, .evt, .out] t.dev ∧ s.keepsMem t) ∧
  (∀ (s : State) (k : Nat) (rd wr : List Nat), s.ready = true → k < 17 → s.dev.mode.trains = true → s.dev.chState k < 5 →
    (∃ x ∈ rd ++ wr, ∀ i, i < 32 → x.testBit i = false) →
    Answers (.retrainPass k rd wr) s fun t =>
      t.dev.memCh k = { s.dev.memCh k with retry := some (rd.all (fun x => (bestRun (okRuns x 16 32)).isSome)), low := 0 } ∧
      (∀ j, j ≠ k → t.dev.memCh j = s.dev.memCh j) ∧ t.dev.fld (Reg.MEM_CH_STAT + memOfs k) 23 22 = 0 ∧
      t.dev.chState k = s.dev.chState k ∧ s.dev.counted Reg.MEM_CNT_LO 3 1 t.dev ∧ s.dev.counted (Reg.MEM_CH_CNT_LO + memOfs k) 2 1 t.dev ∧
      s.dev.changesOnly [.regs, .mem] t.dev ∧ s.keepsMem t) ∧
  (∀ (s : State) (k : Nat) (oks : List Nat), s.ready = true → (s.dev.memCh k).retry = none ∨ s.dev.mode.trains = false →
    exec (.retrainRetry k oks) s = .next s) ∧
  (∀ (s : State) (k n : Nat) (oks : List Nat) (write : Bool), s.ready = true → k < 17 → s.dev.mode.trains = true →
    (s.dev.memCh k).retry = some write → n = s.dev.fld (Reg.MEM_CH_STAT + memOfs k) 23 22 + 1 → n ≤ 3 →
    (∀ r : List (Int × Int), oks.map (fun x => bestRun (okRuns x 4 8)) = r.map some → Answers (.retrainRetry k oks) s fun t =>
      (∀ i x, r[i]? = some x → tabGet (fun _ => 0) (t.dev.memCh k).delays (s.dev.fsp * 144 + (if write then 72 else 0) + i) =
        tabGet (fun _ => 0) (s.dev.memCh k).delays (s.dev.fsp * 144 + (if write then 72 else 0) + i) + runCentre x) ∧
      (t.dev.memCh k).retry = none ∧ (∀ j, j ≠ k → t.dev.memCh j = s.dev.memCh j) ∧ s.dev.counted Reg.MEM_CNT_LO 4 1 t.dev ∧
      t.dev.fld (Reg.MEM_CH_STAT + memOfs k) 23 22 = n ∧ t.dev.chState k = s.dev.chState k ∧ s.dev.changesOnly [.regs, .mem] t.dev ∧ s.keepsMem t) ∧
    ((∃ x ∈ oks, ∀ i, i < 8 → x.testBit i = false) →
      (n < 3 → Answers (.retrainRetry k oks) s fun t => s.dev.counted Reg.MEM_CNT_LO 4 1 t.dev ∧
        t.dev.fld (Reg.MEM_CH_STAT + memOfs k) 23 22 = n ∧ t.dev.chState k = s.dev.chState k ∧ s.dev.changesOnly [.regs] t.dev ∧ s.keepsMem t) ∧
      (n = 3 → s.dev.chState k = 0 → s.dev.fld Reg.MEM_STATUS 27 26 ≠ 1 → s.dev.spare ≠ k →
        ∀ l, l = s.dev.chLogical k → l < 16 →
        (s.dev.spare < 17 → s.dev.chState s.dev.spare = 1 → Does (.retrainRetry k oks) s fun d => ∃ e : Dev, d = e.bulkLost.replace (s.dev.memCh k) ∧
          s.dev.raised Src.MEM_CHANNEL_FAILED e ∧ s.dev.counted Reg.MEM_CNT_LO 6 1 e ∧ e.chState k = 5 ∧ e.memCh k = {} ∧ e.chanOf l = s.dev.spare ∧
          e.chState s.dev.spare = 4 ∧ e.chLogical s.dev.spare = l ∧ e.fld Reg.MEM_STATUS 27 26 = 2 ∧ e.spare = 0x1F ∧ e.mem.mig = l ∧
          e.mem.lost = (l, 0) :: s.dev.mem.lost ∧ s.dev.changesOnly [.regs, .mem, .evt, .out] e) ∧
        (s.dev.spare = 0x1F → s.dev.mem.fold = none → Does (.retrainRetry k oks) s fun d => ∃ (e : Dev) (bound : Nat),
          bound = topMib (s.dev.fld Reg.MEM_CFG 31 30) ∧
          d = ((e.bulkLost.withdraw bound).raise Src.MEM_CAPACITY_REDUCED l).replace (s.dev.memCh k) ∧
          s.dev.raised Src.MEM_CHANNEL_FAILED e ∧ e.chState k = 5 ∧ e.flag Reg.MEM_STATUS 28 = true ∧ e.fld Reg.MEM_CAP 17 0 = bound ∧
          e.mem.fold = some l ∧ e.mem.lost = (l, 0) :: s.dev.mem.lost ∧ s.dev.changesOnly [.regs, .mem, .evt, .out] e)))) ∧
  (∀ (d : Dev) (f a : Nat), d.mem.fold = some f → f < 16 → logicalOf a = f → d.homeOf a < 16 ∧ d.homeOf a ≠ f) ∧
  (∀ d : Dev, d.bulkLost.cmp.bufs = [] ∧
    (∀ e q, tabFind d.ven.encs e = some q → ∃ q', tabFind d.bulkLost.ven.encs e = some q' ∧ q'.restart = true) ∧
    (∀ x ∈ d.bulkLost.aud.ents, x.2.anchor = none ∧ x.2.lost = true) ∧
    (∀ x st, tabFind d.bulkLost.fwd.subs x = some st → st.points = [])) ∧
  (∀ (d : Dev) (q k : Nat), (d.lostItems (d.queue q)).getLast? = some k →
    ((d.truncateQueue q).queue q).items = (d.queue q).items.drop (k + 1))

/-- A queue holds 64 requests. A write replaces one of its block that is queued, and a read of a block that has a write queued is
answered from the write queue; a request for which there is no room waits. Drain begins at 48 writes and ends at 16. Of the
requests whose bank is past its tRC, a channel issues an urgent read of the second port, then any urgent read, then an urgent
write, then while it drains the oldest write, then a read of the middle urgency, then the oldest read, then, with no read queued,
the oldest write; its bank is then busy for one tRC. A read of a critical block goes to the copy whose channel has fewer requests
queued, ties to the lower logical channel. (Choices of the model it rests on: log 122.) (R293, R297, R298) -/
def Obligations.DramChannelQueues : Prop :=
  (∀ (c : MemCh) (r : MemReq), (∃ x ∈ c.writes, x.block = r.block) →
    c.ask true r = { c with writes := c.writes.filter (fun x => x.block != r.block) ++ [r] } ∧ c.ask false r = c) ∧
  (∀ (c : MemCh) (r : MemReq), (∀ x ∈ c.writes, x.block ≠ r.block) →
    c.ask true r = (if c.writes.length < 64 then { c with writes := c.writes ++ [r], drain := c.drain || decide (48 ≤ c.writes.length + 1) }
      else { c with wait := c.wait ++ [(true, r)] }) ∧
    c.ask false r = (if c.reads.length < 64 then { c with reads := c.reads ++ [r] } else { c with wait := c.wait ++ [(false, r)] })) ∧
  (∀ (c : MemCh) (w : Bool) (r : MemReq), c.writes.length ≤ 64 → c.reads.length ≤ 64 → (c.ask w r).writes.length ≤ 64 ∧ (c.ask w r).reads.length ≤ 64) ∧
  (∀ (c : MemCh) (t : Nat) (w : Bool) (r : MemReq), c.wait = [] →
    (c.issue t (w, r)).reads = (if w then c.reads else c.reads.erase r) ∧ (c.issue t (w, r)).writes = (if w then c.writes.erase r else c.writes) ∧
    (c.issue t (w, r)).drain = (c.drain && decide (16 < (c.issue t (w, r)).writes.length)) ∧
    tabFind (c.issue t (w, r)).tRC (Config.bankOf r.block % 16) = some (t + 12)) ∧
  (∀ (d : Dev) (t : Nat) (c : MemCh) (free : MemReq → Prop), (∀ r, free r ↔ (tabFind c.tRC (Config.bankOf r.block % 16)).getD 0 ≤ t) →
    (d.choose t c = none ↔ (∀ r ∈ c.reads, ¬ free r) ∧ ((∃ r ∈ c.writes, free r) →
      c.reads ≠ [] ∧ c.drain = false ∧ ∀ r ∈ c.writes, free r → d.urgency t r ≠ 2)) ∧
    (∀ w r, d.choose t c = some (w, r) → free r ∧ r ∈ (if w then c.writes else c.reads) ∧
      ((∃ x ∈ c.reads, free x ∧ d.urgency t x = 2) → w = false ∧ d.urgency t r = 2 ∧
        ((∃ x ∈ c.reads, free x ∧ d.urgency t x = 2 ∧ x.port = 1) → r.port = 1)) ∧
      ((∀ x ∈ c.reads, free x → d.urgency t x ≠ 2) → (∃ x ∈ c.writes, free x ∧ d.urgency t x = 2) → w = true ∧ d.urgency t r = 2) ∧
      ((∀ x ∈ c.reads ++ c.writes, free x → d.urgency t x ≠ 2) → c.drain = true → (∃ x ∈ c.writes, free x) → w = true) ∧
      ((∀ x ∈ c.reads ++ c.writes, free x → d.urgency t x ≠ 2) → c.drain = false ∨ (∀ x ∈ c.writes, ¬ free x) → c.reads ≠ [] →
        w = false ∧ ((∃ x ∈ c.reads, free x ∧ d.urgency t x = 1) → d.urgency t r = 1)))) ∧
  (∀ (d : Dev) (port b l o : Nat), l = d.homeOf (b * 128) → o = d.homeOf (copyOf (b * 128)) → d.criticalAt (b * 128) = true →
    d.chState (d.chanOf l) = 0 → d.chState (d.chanOf o) = 0 → l ∉ d.mem.single → o ∉ d.mem.single →
    ∀ c, (if d.chLoad (d.chanOf o) < d.chLoad (d.chanOf l) then c = o else if d.chLoad (d.chanOf l) < d.chLoad (d.chanOf o) then c = l else c = min l o) →
    d.readBlock port b = d.askCh (d.chanOf c) false port b)

/-- MEM_FSP takes a target and starts a change, or reports BUSY, SAME or SHED; when it ends the set point is in force, counted,
MEM_FSP_SWITCH raised, and OK reported where MEM_FSP asked. MIGRATE copies a logical channel to the spare, or is refused with
BUSY, MODE, NO_SPARE or BAD_CHANNEL; when the copy ends the spare is ACTIVE in its place, the source RETIRED, counted,
MEM_MIGRATE_DONE. A rebuild that ends leaves the spare ACTIVE. RETEST takes a RETIRED channel, which comes back as the spare where
both margins reach MARGIN_WARN; RETRAIN asks a pass of PCH. (Choices of the model it rests on: log 65, 67.) (R305, R306, R307,
R309, R310) -/
def Obligations.SetPointsAndMigration : Prop :=
  (∀ (s : State) (p : Path) (v : Word) (t : Nat), s.ready = true → t = bits v 0 0 →
    Answers (.memFspWrite p v) s fun u =>
      (if s.dev.mode = .train ∨ s.dev.flag Reg.MEM_STATUS 29 = true ∨ s.dev.mem.cmd.isSome = true then
        u.dev.reg Reg.MEM_RESULT = 0x80000001 ∧ s.dev.keepsRegs [Reg.MEM_RESULT] u.dev ∧ s.dev.changesOnly [.regs] u.dev
       else u.dev.fld Reg.MEM_FSP 0 0 = t ∧
        (if t = s.dev.fsp then u.dev.reg Reg.MEM_RESULT = 0x80000005 ∧ s.dev.keepsRegs [Reg.MEM_FSP, Reg.MEM_RESULT] u.dev
         else if t = 0 ∧ 3 ≤ s.dev.stage then u.dev.reg Reg.MEM_RESULT = 0x80000004 ∧ s.dev.keepsRegs [Reg.MEM_FSP, Reg.MEM_RESULT] u.dev
         else u.dev.reg Reg.MEM_RESULT = 0 ∧ u.dev.flag Reg.MEM_STATUS 29 = true ∧ u.dev.fsp = s.dev.fsp ∧ u.dev.mem.fspTo = t ∧
          u.dev.mem.fspCmd = true ∧ (∀ k, k < 17 → (u.dev.memCh k).retry = none ∧ u.dev.fld (Reg.MEM_CH_STAT + memOfs k) 23 22 = 0 ∧
            u.dev.chState k = s.dev.chState k)) ∧
        s.dev.changesOnly [.regs, .mem] u.dev) ∧ s.keepsMem u) ∧
  (∀ s : State, s.ready = true → s.dev.flag Reg.MEM_STATUS 29 = false → exec .fspChangeDone s = .next s) ∧
  (∀ s : State, s.ready = true → s.dev.flag Reg.MEM_STATUS 29 = true → s.dev.mem.fspTo < 2 →
    Answers .fspChangeDone s fun t =>
      t.dev.fsp = s.dev.mem.fspTo ∧ s.dev.counted Reg.MEM_CNT_LO 7 1 t.dev ∧ s.dev.raised Src.MEM_FSP_SWITCH t.dev ∧
      t.dev.reg Reg.MEM_RESULT = (if s.dev.mem.fspCmd then 0x80000000 else s.dev.reg Reg.MEM_RESULT) ∧
      t.dev.flag Reg.MEM_STATUS 29 =
        (s.dev.flag Reg.MEM_STATUS 31 && decide (s.dev.mode ≠ .train) && decide (s.dev.fspWanted ≠ s.dev.mem.fspTo)) ∧
      (t.dev.flag Reg.MEM_STATUS 29 = true → t.dev.mem.fspTo = s.dev.fspWanted) ∧ t.dev.mem.fspCmd = false ∧
      s.dev.changesOnly [.regs, .mem, .evt, .out] t.dev ∧ s.keepsMem t) ∧
  (∀ (s : State) (p : Path) (v : Word), s.ready = true →
    (bit v 31 = false → Answers (.memMigrate p v) s fun t => s.dev.keepsRegs [Reg.MEM_CTRL] t.dev ∧ s.dev.changesOnly [.regs] t.dev ∧ s.keepsMem t) ∧
    (bit v 31 = true →
      (s.dev.mem.cmd.isSome = true ∨ s.dev.flag Reg.MEM_STATUS 29 = true → Answers (.memMigrate p v) s fun t =>
        t.dev.reg Reg.MEM_RESULT = 0x80000001 ∧ s.dev.keepsRegs [Reg.MEM_CTRL, Reg.MEM_RESULT] t.dev ∧ s.dev.changesOnly [.regs] t.dev ∧ s.keepsMem t) ∧
      (s.dev.mem.cmd = none → s.dev.flag Reg.MEM_STATUS 29 = false →
        (s.dev.mode.memCmd = false → Answers (.memMigrate p v) s fun t =>
          t.dev.reg Reg.MEM_RESULT = 0x80000006 ∧ s.dev.keepsRegs [Reg.MEM_CTRL, Reg.MEM_RESULT] t.dev ∧ s.dev.changesOnly [.regs] t.dev ∧ s.keepsMem t) ∧
        (s.dev.mode.memCmd = true → s.dev.spare = 0x1F ∨ s.dev.chState s.dev.spare ≠ 1 → Answers (.memMigrate p v) s fun t =>
          t.dev.reg Reg.MEM_RESULT = 0x80000002 ∧ s.dev.keepsRegs [Reg.MEM_CTRL, Reg.MEM_RESULT] t.dev ∧ s.dev.changesOnly [.regs] t.dev ∧ s.keepsMem t) ∧
        (∀ k, s.dev.mode.memCmd = true → s.dev.spare < 17 → s.dev.chState s.dev.spare = 1 → k = s.dev.chanOf (bits v 3 0) →
          (s.dev.chState k ≠ 0 → Answers (.memMigrate p v) s fun t =>
            t.dev.reg Reg.MEM_RESULT = 0x80000003 ∧ s.dev.keepsRegs [Reg.MEM_CTRL, Reg.MEM_RESULT] t.dev ∧ s.dev.changesOnly [.regs] t.dev ∧ s.keepsMem t) ∧
          (k < 17 → s.dev.chState k = 0 → Answers (.memMigrate p v) s fun t =>
            t.dev.reg Reg.MEM_RESULT = 0x80000000 ∧ t.dev.chState k = 2 ∧ t.dev.chState s.dev.spare = 3 ∧ t.dev.fld Reg.MEM_STATUS 27 26 = 1 ∧
            t.dev.mem.mig = bits v 3 0 ∧ t.dev.spare = s.dev.spare ∧
            s.dev.keepsRegs [Reg.MEM_CTRL, Reg.MEM_RESULT, Reg.MEM_STATUS, Reg.MEM_CH_STAT + memOfs k, Reg.MEM_CH_STAT + memOfs s.dev.spare] t.dev ∧
            s.dev.changesOnly [.regs, .mem] t.dev ∧ s.keepsMem t))))) ∧
  (∀ s : State, s.ready = true →
    (s.dev.fld Reg.MEM_STATUS 27 26 ≠ 1 → exec .migrationDone s = .next s) ∧
    (s.dev.fld Reg.MEM_STATUS 27 26 ≠ 2 → exec .restoreDone s = .next s) ∧
    (∀ l k, l = s.dev.mem.mig → l < 16 → k = s.dev.chanOf l → k < 17 →
      (s.dev.fld Reg.MEM_STATUS 27 26 = 1 → s.dev.spare < 17 → s.dev.spare ≠ k → Answers .migrationDone s fun t =>
        t.dev.chanOf l = s.dev.spare ∧ t.dev.chState s.dev.spare = 0 ∧ t.dev.chLogical s.dev.spare = l ∧ t.dev.chState k = 6 ∧
        t.dev.chLogical k = 0x1F ∧ t.dev.spare = 0x1F ∧ t.dev.fld Reg.MEM_STATUS 27 26 = 0 ∧ s.dev.counted Reg.MEM_CNT_LO 5 1 t.dev ∧
        s.dev.raised Src.MEM_MIGRATE_DONE t.dev ∧ s.dev.changesOnly [.regs, .evt, .out] t.dev ∧ s.keepsMem t) ∧
      (s.dev.fld Reg.MEM_STATUS 27 26 = 2 → Answers .restoreDone s fun t =>
        t.dev.chState k = 0 ∧ t.dev.fld Reg.MEM_STATUS 27 26 = 0 ∧ s.dev.keepsRegs [Reg.MEM_STATUS, Reg.MEM_CH_STAT + memOfs k] t.dev ∧
        s.dev.changesOnly [.regs] t.dev ∧ s.keepsMem t))) ∧
  (∀ (s : State) (p : Path) (v : Word) (k : Nat), s.ready = true →
    k = (if bits v 12 8 ≤ 16 then bits v 12 8 else s.dev.fld Reg.MEM_CTRL 12 8) → s.dev.mem.cmd = none → s.dev.flag Reg.MEM_STATUS 29 = false →
    (s.dev.mode.memCmd = false → (bit v 30 = true → Answers (.memRetest p v) s fun t =>
        t.dev.reg Reg.MEM_RESULT = 0x80000006 ∧ s.dev.keepsRegs [Reg.MEM_CTRL, Reg.MEM_RESULT] t.dev ∧ s.dev.changesOnly [.regs] t.dev ∧ s.keepsMem t) ∧
      (bit v 29 = true → Answers (.memRetrain p v) s fun t =>
        t.dev.reg Reg.MEM_RESULT = 0x80000006 ∧ s.dev.keepsRegs [Reg.MEM_CTRL, Reg.MEM_RESULT] t.dev ∧ s.dev.changesOnly [.regs] t.dev ∧ s.keepsMem t)) ∧
    (s.dev.mode.memCmd = true → bit v 29 = true → Answers (.memRetrain p v) s fun t =>
      t.dev.reg Reg.MEM_RESULT = 0 ∧ t.dev.mem.cmd = some (2, k) ∧ s.dev.keepsRegs [Reg.MEM_CTRL, Reg.MEM_RESULT] t.dev ∧
      s.dev.changesOnly [.regs, .mem] t.dev ∧ s.keepsMem t) ∧
    (s.dev.mode.memCmd = true → bit v 30 = true → k < 17 → Answers (.memRetest p v) s fun t =>
      (if s.dev.chState k = 6 then t.dev.reg Reg.MEM_RESULT = 0 ∧ t.dev.mem.cmd = some (1, k) ∧ t.dev.chState k = 7 ∧
          s.dev.keepsRegs [Reg.MEM_CTRL, Reg.MEM_RESULT, Reg.MEM_CH_STAT + memOfs k] t.dev
       else t.dev.reg Reg.MEM_RESULT = 0x80000003 ∧ t.dev.mem = s.dev.mem ∧ s.dev.keepsRegs [Reg.MEM_CTRL, Reg.MEM_RESULT] t.dev) ∧
      s.dev.changesOnly [.regs, .mem] t.dev ∧ s.keepsMem t)) ∧
  (∀ (s : State) (p : Path) (v : Word), s.ready = true → s.dev.mem.cmd.isSome = true ∨ s.dev.flag Reg.MEM_STATUS 29 = true →
    (bit v 30 = true → Answers (.memRetest p v) s fun t => t.dev.reg Reg.MEM_RESULT = 0x80000001 ∧
      s.dev.keepsRegs [Reg.MEM_CTRL, Reg.MEM_RESULT] t.dev ∧ s.dev.changesOnly [.regs] t.dev ∧ s.keepsMem t) ∧
    (bit v 29 = true → Answers (.memRetrain p v) s fun t => t.dev.reg Reg.MEM_RESULT = 0x80000001 ∧
      s.dev.keepsRegs [Reg.MEM_CTRL, Reg.MEM_RESULT] t.dev ∧ s.dev.changesOnly [.regs] t.dev ∧ s.keepsMem t)) ∧
  (∀ (s : State) (k m0 m1 : Nat), s.ready = true →
    (s.dev.mem.cmd ≠ some (1, k) → exec (.retestDone k m0 m1) s = .next s) ∧
    (s.dev.mem.cmd = some (1, k) → k < 17 → m0 < 256 → m1 < 256 → Answers (.retestDone k m0 m1) s fun t =>
      t.dev.fld (Reg.MEM_CH_MARGIN + memOfs k) 7 0 = m0 ∧ t.dev.fld (Reg.MEM_CH_MARGIN + memOfs k) 15 8 = m1 ∧
      (if s.dev.fld Reg.MEM_CFG 7 0 ≤ m0 ∧ s.dev.fld Reg.MEM_CFG 7 0 ≤ m1 then t.dev.chState k = 1 ∧ t.dev.spare = k
       else t.dev.chState k = 6 ∧ t.dev.spare = s.dev.spare) ∧
      t.dev.mem.cmd = none ∧ t.dev.reg Reg.MEM_RESULT = 0x80000000 ∧
      s.dev.keepsRegs [Reg.MEM_CH_MARGIN + memOfs k, Reg.MEM_CH_STAT + memOfs k, Reg.MEM_STATUS, Reg.MEM_RESULT] t.dev ∧
      s.dev.changesOnly [.regs, .mem] t.dev ∧ s.keepsMem t))

/-- A frame over a link that is down, or a device's own, does nothing; one with a bad CRC is counted. A frame taken has its effect:
MEDIA joins its brood's input, PARTIAL is an AFRAME operand, TALKERS a candidate list at HOME, DEMAND sets the point for that
member, or takes it back, TIME is stamped and gives the round trip and samples, HEARTBEAT shows the device reachable and brings
the Rooster's news, DIRECTORY writes, copies, acknowledges or commits, CREDIT frees cells and lets waiting frames go, TUN_NAK
sends what is kept again. (Choices of the model it rests on: log 14, 70, 71, 72.) (R312, R314, R316, R318, R319, R320, R321, R322,
R324) -/
def Obligations.MuleFramesIn : Prop :=
  (∀ (s : State) (k : Nat) (f : MuleFrame), s.ready = true → s.dev.linkOk k = false ∨ (f.crcOk = true ∧ f.src = s.dev.devId) →
    ∀ c ∈ [Instr.muleMedia k f, .mulePartial k f, .muleTalkers k f, .muleDemand k f, .muleTime k f, .muleHeartbeat k f, .muleDirectory k f,
      .muleCredit k f, .muleTunNak k f], exec c s = .next s) ∧
  (∀ (s : State) (k : Nat) (f : MuleFrame), s.ready = true → s.dev.linkOk k = true → f.crcOk = false →
    ∀ c ∈ [Instr.muleMedia k f, .mulePartial k f, .muleTalkers k f, .muleDemand k f, .muleTime k f, .muleHeartbeat k f, .muleDirectory k f,
      .muleCredit k f, .muleTunNak k f],
    Answers c s fun t => s.dev.counted Reg.MUL_CNT_LO 7 1 t.dev ∧ s.dev.keepsRegs [Reg.MUL_CNT_LO + 56, Reg.MUL_CNT_LO + 60] t.dev ∧
      s.dev.changesOnly [.regs] t.dev ∧ s.keepsMem t) ∧
  (∀ (d : Dev) (k kind : Nat) (f : MuleFrame), d.linkOk k = true → f.crcOk = true → f.src ≠ d.devId →
    (d.tunnel k = false → (d.muleIn k kind f).1 = (f.bcast || f.dst == d.devId)) ∧
    (∀ last, d.tunnel k = true → f.cls ≠ 0 → (d.mulLink k).inSeq = some last → (d.mulLink k).missing = [] → d.mesh = true → f.seqn < 65536 →
      ∀ n, n = toField 16 ((f.seqn : Int) - last - 1) →
      (32768 ≤ n → d.muleIn k kind f = (false, d)) ∧
      (n < 32768 → (d.muleIn k kind f).1 = (f.bcast || f.dst == d.devId) ∧ ((d.muleIn k kind f).2.mulLink k).inSeq = some f.seqn ∧
        (((d.muleIn k kind f).2.mulLink k).missing = (List.range n).map (fun i => ((last + 1 + i) % 65536, 1, d.now))) ∧
        d.counted Reg.MUL_CNT_LO 3 (if n = 0 then 0 else 1) (d.muleIn k kind f).2))) ∧
  (∀ (s : State) (k : Nat) (f : MuleFrame) (e : Dev) (be : Entry), s.ready = true → s.dev.linkOk k = true → f.crcOk = true → f.src ≠ s.dev.devId →
    e = (s.dev.muleIn k muleMedia f).2 → be = e.broodEnt f.brood → be.b 0 31 = true → e.relayLink (be.f 0 13 0) = some k → e.mode.carries = true →
    Does (.muleMedia k f) s fun d => ∀ ns, ns = Config.muleRead muleMedia f.payload →
      tabFind d.mul.sources f.brood = some f.src ∧ ∃ it : Item, .packet it ∈ d.tsk.todo ∧ it.md.brood = f.brood ∧ it.md.leg = be.f 0 13 0 ∧
        it.md.stream = ns.getD 0 0 ∧ it.md.layer = ns.getD 1 0 ∧ it.md.seq = be16 f.payload 2 ∧ it.md.ts = be32 f.payload 4 ∧
        it.rtpLen = f.payload.length ∧ (∃ pl, d.payload it.uid = some pl ∧ pl.bytes = f.payload) ∧
        .enqueue ((e.historyQueue f.brood (ns.getD 0 0)).getD (Config.broodQueue f.brood (ns.getD 0 0))) it ∈ d.tsk.todo) ∧
  (∀ (s : State) (k : Nat) (f : MuleFrame) (e : Dev) (w : Entry) (media tag : Nat), s.ready = true → (s.dev.muleIn k mulePartial f).1 = true →
    e = (s.dev.muleIn k mulePartial f).2 → e.wide f.flock = some w → media = (posNear e.beat f.beat).toNat →
    tag = mkTag f.flock f.brood Cl.aframe (media % 2 ^ 32) →
    Does (.mulePartial k f) s fun d => .arrive tag (2 ^ 38 + f.src) 0 ∈ d.tsk.todo ∧
      ∃ fr : AFrame, tabFind d.aud.partials tag = some fr ∧ fr.media = media ∧
        fr.left = (partSides ((e.mixEnt f.flock).b 0 30) f.payload).getD 0 []) ∧
  (∀ (s : State) (k : Nat) (f : MuleFrame) (e : Dev) (w : Entry), s.ready = true → (s.dev.muleIn k muleTalkers f).1 = true →
    e = (s.dev.muleIn k muleTalkers f).2 → e.wide f.flock = some w →
    Does (.muleTalkers k f) s fun d => ∀ ns, ns = Config.muleRead muleTalkers f.payload →
      (dirHome w = e.devId → d.mul = { e.mul with cands := recSet e.mul.cands (dirIdx e.devId f.flock * 8 + f.src) (pairsOf ns) } ∧
        e.changesOnly [.mul] d) ∧
      (dirHome w ≠ e.devId → f.src = dirHome w → (e.mix f.flock).isSome = true →
        tabFind d.aud.sels (selKey f.flock ((posNear e.beat f.beat).toNat % 2 ^ 32)) =
          some ((List.range 8).map (fun i => if ns.getD i 65536 < 65536 then some (ns.getD i 65536) else none), ns.drop 8)) ∧
      (dirHome w ≠ e.devId → f.src ≠ dirHome w → d = e)) ∧
  (∀ (s : State) (k : Nat) (f : MuleFrame) (e : Dev), s.ready = true → (s.dev.muleIn k muleDemand f).1 = true → e = (s.dev.muleIn k muleDemand f).2 →
    Does (.muleDemand k f) s fun d => ∀ (ns : List Nat) (key : Nat) (pt : Nat × Nat), ns = Config.muleRead muleDemand f.payload →
      key = ns.getD 1 0 % 65536 * 8 + f.src → pt = (ns.getD 2 0, ns.getD 3 0 % 8) → ns.getD 0 0 ≠ 1 → ns.getD 4 0 = 0 →
      (∀ i, i ≠ key → tabFind d.mul.demands i = tabFind e.mul.demands i) ∧
      (tabFind e.mul.demands key = none → tabFind d.mul.demands key = if ns.getD 2 0 < 4 then some (pt, none) else none) ∧
      (∀ cur o, tabFind e.mul.demands key = some (cur, o) → tabFind d.mul.demands key =
        if 4 ≤ ns.getD 2 0 then some (cur, some (8, 0))
        else if cur.1 ≤ pt.1 ∧ cur.2 ≤ pt.2 then some (pt, none) else some ((max cur.1 pt.1, max cur.2 pt.2), some pt)) ∧ e.changesOnly [.mul] d) ∧
  (∀ (s : State) (k : Nat) (f : MuleFrame) (e : Dev), s.ready = true → (s.dev.muleIn k muleTime f).1 = true → e = (s.dev.muleIn k muleTime f).2 →
    k < 4 → Does (.muleTime k f) s fun d => (d.mulLink k).t2 = some e.stampNow ∧
      ((e.mulLink k).t1 = none → e.changesOnly [.mul] d) ∧
      (∀ (sent : Stamp) (out back : Nat) (trip : Int), (e.mulLink k).t1 = some sent → Config.muleRead muleTime f.payload = [out, back] →
        trip = ((e.tim.dt : Int) / (nsUnit / 4 : Nat) - out) + (back - (sent.dt : Int) / (nsUnit / 4 : Nat)) →
        (trip.toNat / 4000 < 2 ^ 20 → d.fld (Reg.MUL_LINK_STAT + mulOfs k) 19 0 = trip.toNat / 4000) ∧
        (d.mulLink k).lag = max 1 (ceilDiv (trip.toNat / 4000 * 3) 10000) ∧
        (e.isRooster = true → d.tim = e.tim) ∧
        (e.isRooster = false → ∃ g : Dev, g.tim = e.tim ∧
          d = foldDev ((List.range 6).filter (fun i => g.timeLink i == some k)) (fun i x => timDomSample i .mule
            (roundOpen (((((e.tim.doms.map (·.clock)).getD i 0 : Nat) : Int) / (nsUnit / 4 : Nat) - out -
              (back - ((sent.doms.getD i 0 : Nat) : Int) / (nsUnit / 4 : Nat)) : Int) * 8192 -
              (signed 32 (e.reg (Reg.MUL_LINK_ASYM + mulOfs k)).toNat : Rat) * 16384)) x) g))) ∧
  (∀ (s : State) (k : Nat) (f : MuleFrame) (e : Dev), s.ready = true → (s.dev.muleIn k muleHeartbeat f).1 = true →
    e = (s.dev.muleIn k muleHeartbeat f).2 → f.src < 8 →
    Does (.muleHeartbeat k f) s fun d => ∀ ns, ns = Config.muleRead muleHeartbeat f.payload →
      tabFind d.mul.reports f.src = some (ns.getD 1 0) ∧ d.reaches f.src = true ∧
      (ns.getD 0 0 ≠ 1 → d.standbyReady = (e.standbyReady || (e.isRooster && f.src == e.standbyId && ns.getD 2 0 == 1))) ∧
      (ns.getD 0 0 = 1 → (e.inStack = true → e.isRooster = false → d.fld Reg.TIM_BEAT_OFFSET 20 0 = min 1666666 (ns.getD 7 0)) ∧
        d.mul.roosterBeat = max e.mul.roosterBeat (posNear e.beat f.beat).toNat ∧
        (e.mulState = 5 → e.mode = .service → e.pwr.want = none → d.pwr.want = some (.join, e.beat)) ∧
        (e.mulState = 2 ∨ e.mulState = 4 → ns.getD 3 8 < 8 → ns.getD 5 0 < 256 → d.roosterId = f.src ∧ d.standbyId = ns.getD 3 8 ∧
          d.standbyReady = (ns.getD 4 0 == 1) ∧ d.fld Reg.MUL_STATUS 15 8 = ns.getD 5 0 ∧ d.mulState = (if ns.getD 3 8 = e.devId then 4 else 2) ∧
          (ns.getD 6 8 = e.devId → d.mul.taking = true) ∧
          (e.roosterId ≠ f.src → e.counted Reg.MUL_CNT_LO 6 1 d ∧ e.raised Src.ROOSTER_CHANGED d ∧ d.mul.ownWrite = none)))) ∧
  (∀ (s : State) (k : Nat) (f : MuleFrame) (e : Dev), s.ready = true → (s.dev.muleIn k muleDirectory f).1 = true →
    e = (s.dev.muleIn k muleDirectory f).2 → e.mulState ≠ 5 →
    Does (.muleDirectory k f) s fun d => ∀ (ns : List Nat) (idx dev : Nat) (n : Entry), ns = Config.muleRead muleDirectory f.payload →
      idx = ns.getD 1 0 % 32768 → dev = ns.getD 2 0 % 8 → n = entOf (ns.drop 3) →
      (ns.getD 0 4 = 0 → e.isRooster = true →
        (e.standbyReady = true → d.mul.writes = e.mul.writes ++ [{ idx := idx, ent := n, dev := dev, sent := some e.beat }]) ∧
        (e.standbyReady = false → { idx := idx, ent := n, dev := dev, sent := some e.beat } ∉ e.mul.writes →
          e.dirCommitted { idx := idx, ent := n, dev := dev, sent := some e.beat } d)) ∧
      (ns.getD 0 4 = 1 → e.mulState = 4 → d.mul.writes = e.mul.writes ++ [{ idx := idx, ent := n, dev := dev }]) ∧
      (∀ w, ns.getD 0 4 = 2 → e.isRooster = true → e.mul.writes.find? (fun w => w.idx == idx) = some w → e.dirCommitted w d) ∧
      (ns.getD 0 4 = 3 → d.ent .mul 0 idx = n ∧ d.mul.commits = e.mul.commits ++ [(idx, n, (posNear e.beat (n.f 6 31 0)).toNat)] ∧
        (∀ w ∈ d.mul.writes, w.idx ≠ idx) ∧ (∀ x, dev = e.devId → e.mul.ownWrite = some (idx, x) → d.mul.ownWrite = none ∧
          d.flag Reg.MUL_TAB_CMD 0 = false ∧ d.tabStat Reg.MUL_TAB_CMD 0))) ∧
  (∀ (s : State) (k cls : Nat) (f : MuleFrame) (e : Dev), s.ready = true → (s.dev.muleIn k muleCredit f).1 = true →
    e = (s.dev.muleIn k muleCredit f).2 → cls < 4 →
    (e.tunnel k = true → Does (.muleCredit k f) s fun d => d = e) ∧
    (e.tunnel k = false → Does (.muleCredit k f) s fun d => ∀ n old, Config.muleRead muleCredit f.payload = [cls, n] →
      old = (tabFind (e.mulLink k).used cls).getD 0 →
      ((e.mulLink k).wait = [] → tabFind (d.mulLink k).used cls = some (old - n) ∧ d.out = e.out) ∧
      (∀ w, (e.mulLink k).wait = [w] → w.2.cls = cls →
        if old - n + muleCells w.2 ≤ 1024 then .mule k w.1 w.2 ∈ d.out ∧ (d.mulLink k).wait = [] ∧
          tabFind (d.mulLink k).used cls = some (old - n + muleCells w.2)
        else (d.mulLink k).wait = [w] ∧ tabFind (d.mulLink k).used cls = some (old - n) ∧ d.out = e.out))) ∧
  (∀ (s : State) (k p : Nat) (f : MuleFrame) (e : Dev), s.ready = true → (s.dev.muleIn k muleTunNak f).1 = true →
    e = (s.dev.muleIn k muleTunNak f).2 → p = e.fld (Reg.MUL_LINK_CFG + mulOfs k) 26 24 →
    Does (.muleTunNak k f) s fun d => ∀ kept,
      kept = (e.mulLink k).hist.filter (fun h => (Config.muleRead muleTunNak f.payload).contains h.1 && decide (e.beat ≤ h.2.2.1 + e.tunHist k)) →
      (d.egPort p).raw.map (·.bytes) = (e.egPort p).raw.map (·.bytes) ++
        kept.map (fun h => Config.tunnelHeaders k (e.ent .mul 1 k) ++ muleWire h.2.1 h.2.2.2) ∧ e.changesOnly [.egs, .free] d)

/-- The bytes of a Mule frame (the 16-byte header of Table 15.2, the payload, the CRC-32 of both), read as a tunnel's datagram is
read, give the frame's TYPE, class, source, destination, broadcast bit, hop count, flock, brood, number, beat and payload again,
its CRC right, for every value of every field and whatever bytes follow. Bytes too short for their LEN, or whose version is not 1,
give no frame. (Choices of the model it rests on: log 123.) (R314, R315) -/
def Obligations.MuleFrameRoundTrip : Prop :=
  (∀ (kind : Nat) (f : MuleFrame) (rest : List Byte), kind < 16 → f.cls < 4 → f.src < 8 → f.dst < 8 → f.hops < 8 → f.flock < 65536 →
    f.brood < 65536 → f.seqn < 65536 → f.beat < 2 ^ 32 → f.payload.length < 65536 → f.crcOk = true →
    muleFrameOf (muleWire kind f ++ rest) = some (kind, f)) ∧
  (∀ (kind : Nat) (f : MuleFrame), (muleWire kind f).length = f.payload.length + 20 ∧ (f.payload.length < 65536 → ∀ n, n < f.payload.length + 20 →
    muleFrameOf ((muleWire kind f).take n) = none)) ∧
  (∀ bs : List Byte, byteAt bs 0 / 16 ≠ 1 → muleFrameOf bs = none)

/-- A link comes UP with its peer, or back from DEGRADED; losing a lane it is DEGRADED, losing the other DOWN, with its frames. A
tunnel frame still missing after a round trip is asked for once more, and after another is TUN_LOST. Every TIME_DIV beats a TIME
frame leaves on each link. A write the standby has not acknowledged within 6 beats is committed without it. A missing Rooster is
counted: the standby that reaches more than half of the stack takes the role at the next boundary, a Rooster that reaches less
than half, or a device with no Rooster, is ISOLATED, its own directory write ended with NO_ROOSTER. Entries apply at their beat.
(Choices of the model it rests on: log 14, 69, 70.) (R312, R316, R318, R319, R324, R325, R326) -/
def Obligations.MuleLinksAndRooster : Prop :=
  (∀ (s : State) (k : Nat), s.ready = true → 4 ≤ k →
    exec (.muleLinkUp k) s = .next s ∧ exec (.muleLinkDown k) s = .next s ∧ exec (.muleLaneLoss k) s = .next s) ∧
  (∀ (s : State) (k : Nat), s.ready = true → k < 4 →
    (s.dev.linkSt k = 0 → exec (.muleLinkDown k) s = .next s) ∧ (s.dev.linkSt k < 2 → exec (.muleLaneLoss k) s = .next s) ∧
    Answers (.muleLinkUp k) s (fun t => t.dev.linkSt k = 2 ∧
      (∀ m, s.dev.peerOf k = some m → m < 8 → t.dev.fld (Reg.MUL_LINK_STAT + mulOfs k) 29 27 = m) ∧ (t.dev.mulLink k).lanes = 2 ∧
      (s.dev.linkSt k = 3 → t.dev.mulLink k = { s.dev.mulLink k with lanes := 2 }) ∧
      (s.dev.linkSt k ≠ 3 → (t.dev.mulLink k).used = [] ∧ (t.dev.mulLink k).wait = [] ∧ (t.dev.mulLink k).inSeq = none ∧
        (t.dev.mulLink k).withheld = (s.dev.mulLink k).withheld) ∧ (∀ j, j ≠ k → t.dev.mulLink j = s.dev.mulLink j) ∧
      s.dev.keepsRegs [Reg.MUL_LINK_STAT + mulOfs k] t.dev ∧ s.dev.changesOnly [.regs, .mul] t.dev ∧ s.keepsMem t) ∧
    (s.dev.linkSt k = 2 → Answers (.muleLaneLoss k) s fun t => t.dev.linkSt k = 3 ∧ t.dev.mulLink k = { s.dev.mulLink k with lanes := 1 } ∧
      s.dev.raised Src.MULE_LINK_DEGRADED t.dev ∧ s.dev.keepsRegsE [Reg.MUL_LINK_STAT + mulOfs k] t.dev ∧
      s.dev.changesOnly [.regs, .mul, .evt, .out] t.dev ∧ s.keepsMem t) ∧
    (∀ c, (c = Instr.muleLinkDown k ∧ s.dev.linkSt k ≠ 0) ∨ (c = Instr.muleLaneLoss k ∧ s.dev.linkSt k = 3) → Answers c s fun t =>
      t.dev.linkSt k = 0 ∧ (t.dev.mulLink k).lanes = 0 ∧ (t.dev.mulLink k).wait = [] ∧ (t.dev.mulLink k).hist = [] ∧
      (t.dev.mulLink k).missing = [] ∧ (t.dev.mulLink k).used = [] ∧ (t.dev.mulLink k).t1 = none ∧ (t.dev.mulLink k).t2 = none ∧ (∀ j, j ≠ k → t.dev.mulLink j = s.dev.mulLink j) ∧ s.dev.raised Src.MULE_LINK_DOWN t.dev ∧
      s.dev.keepsRegsE [Reg.MUL_LINK_STAT + mulOfs k] t.dev ∧ s.dev.changesOnly [.regs, .mul, .evt, .out] t.dev ∧ s.keepsMem t) ∧
    (s.dev.linkSt k ≠ 0 → ∃ t, exec (.muleLinkDown k) s = .next t) ∧ (s.dev.linkSt k = 3 → ∃ t, exec (.muleLaneLoss k) s = .next t)) ∧
  (∀ (s : State) (k q n sent a : Nat), s.ready = true →
    ((s.dev.mulLink k).missing.find? (fun m => m.1 == q) = none → exec (.tunNakRetry k q) s = .next s) ∧
    ((s.dev.mulLink k).missing.find? (fun m => m.1 == q) = some (n, sent, a) →
      (s.dev.now < a + s.dev.fld (Reg.MUL_LINK_STAT + mulOfs k) 19 0 * 1500 → exec (.tunNakRetry k q) s = .next s) ∧
      (a + s.dev.fld (Reg.MUL_LINK_STAT + mulOfs k) 19 0 * 1500 ≤ s.dev.now → sent < 2 → Answers (.tunNakRetry k q) s fun t =>
        s.dev.counted Reg.MUL_CNT_LO 3 1 t.dev ∧
        (t.dev.mulLink k).missing = (s.dev.mulLink k).missing.map (fun m => if m.1 = q then (q, 2, s.dev.now) else m) ∧
        s.dev.keepsRegs [Reg.MUL_CNT_LO + 24, Reg.MUL_CNT_LO + 28] t.dev ∧ s.dev.changesOnly [.regs, .mul, .egs, .out, .free] t.dev ∧ s.keepsMem t) ∧
      (a + s.dev.fld (Reg.MUL_LINK_STAT + mulOfs k) 19 0 * 1500 ≤ s.dev.now → 2 ≤ sent → Answers (.tunNakRetry k q) s fun t =>
        s.dev.counted Reg.MUL_CNT_LO 4 1 t.dev ∧ (Src.TUNNEL_LOSS ∉ s.dev.evt.once → s.dev.raised Src.TUNNEL_LOSS t.dev) ∧
        (t.dev.mulLink k).missing = (s.dev.mulLink k).missing.filter (fun m => m.1 != q) ∧
        s.dev.keepsRegsE [Reg.MUL_CNT_LO + 32, Reg.MUL_CNT_LO + 36] t.dev ∧ s.dev.changesOnly [.regs, .mul, .evt, .out] t.dev ∧ s.keepsMem t))) ∧
  (∀ s : State, s.ready = true →
    ((s.dev.inStack = false ∧ s.dev.mulState ≠ 1) ∨ (∃ b, s.dev.mul.timeAt = some b ∧ s.dev.beat < b + s.dev.fld Reg.MUL_CFG 7 0) →
      exec .muleTimeExchange s = .next s) ∧
    (s.dev.inStack = true ∨ s.dev.mulState = 1 → (∀ b, s.dev.mul.timeAt = some b → b + s.dev.fld Reg.MUL_CFG 7 0 ≤ s.dev.beat) →
      Answers .muleTimeExchange s fun t => t.dev.mul.timeAt = some s.dev.beat ∧
        (∀ k, s.dev.linkOk k = false → t.dev.mulLink k = s.dev.mulLink k) ∧
        (∀ k, k < 4 → s.dev.linkOk k = true → (t.dev.mulLink k).t1 = some s.dev.stampNow ∧
          (s.dev.tunnel k = false → ∃ f : MuleFrame, f.cls = 0 ∧ f.src = s.dev.devId ∧
            (.mule k muleTime f ∈ t.dev.out ∨ (muleTime, f) ∈ (t.dev.mulLink k).wait))) ∧
        s.dev.changesOnly [.mul, .egs, .out, .free] t.dev ∧ s.keepsMem t)) ∧
  (∀ (s : State) (i : Nat), s.ready = true →
    (s.dev.mul.writes.find? (fun w => w.idx == i) = none ∨ s.dev.isRooster = false ∨
      (∃ w, s.dev.mul.writes.find? (fun w => w.idx == i) = some w ∧ (w.sent = none ∨ ∃ b, w.sent = some b ∧ s.dev.beat < b + 6)) →
      exec (.standbyAckTimeout i) s = .next s) ∧
    (∀ w b, s.dev.mul.writes.find? (fun w => w.idx == i) = some w → s.dev.isRooster = true → w.sent = some b → b + 6 ≤ s.dev.beat →
      Answers (.standbyAckTimeout i) s fun t => s.dev.dirCommitted w t.dev ∧ t.dev.standbyReady = false ∧ t.dev.isRooster = true ∧
        (w.dev = s.dev.devId → (s.dev.mul.ownWrite.map (·.1)) = some i → t.dev.mul.ownWrite = none ∧ t.dev.flag Reg.MUL_TAB_CMD 0 = false) ∧
        s.dev.changesOnly [.regs, .tabs, .mul, .egs, .out, .free] t.dev ∧ s.keepsMem t)) ∧
  (∀ (s : State) (seen others : List Nat), s.ready = true → others = s.dev.others.filter (fun m => seen.contains m) →
    (s.dev.inStack = false → exec (.heartbeatTimeout seen) s = .next s) ∧
    (s.dev.inStack = true →
      (s.dev.isRooster = true → Answers (.heartbeatTimeout seen) s fun t =>
        (2 * (others.length + 1) < s.dev.stackSize → t.dev.mulState = 5 ∧ s.dev.raised Src.CASCADE_ISOLATED t.dev) ∧
        (s.dev.stackSize ≤ 2 * (others.length + 1) → t.dev.isRooster = true ∧ t.dev.mul = s.dev.mul) ∧
        (t.dev.mulState = 5 → s.dev.mul.ownWrite.isSome = true →
          t.dev.mul.ownWrite = none ∧ t.dev.flag Reg.MUL_TAB_CMD 0 = false ∧ t.dev.tabStat Reg.MUL_TAB_CMD 1) ∧
        s.dev.keepsRegsE [Reg.MUL_STATUS, Reg.MUL_TAB_CMD] t.dev ∧ s.dev.changesOnly [.regs, .mul, .evt, .out] t.dev ∧ s.keepsMem t) ∧
      (s.dev.isRooster = false → Answers (.heartbeatTimeout seen) s fun t => s.dev.counted Reg.MUL_CNT_LO 0 1 t.dev ∧
        (s.dev.roosterId ∈ others → t.dev.mulState = s.dev.mulState ∧ t.dev.mul = s.dev.mul) ∧
        (s.dev.roosterId ∉ others →
          (∀ m ∈ others, (tabFind s.dev.mul.reports m).getD 0 + (s.dev.mulLink ((s.dev.linkTo m).getD 0)).lag + 1 < s.dev.beat) →
          (s.dev.mulState = 4 → s.dev.stackSize < 2 * (others.length + 1) → t.dev.mulState = 4 ∧ t.dev.mul = { s.dev.mul with taking := true }) ∧
          (2 * (others.length + 1) ≤ s.dev.stackSize → t.dev.mulState = 5 ∧ t.dev.mul.taking = false ∧ s.dev.raised Src.CASCADE_ISOLATED t.dev) ∧
          (s.dev.mulState = 2 → s.dev.standbyId ∉ others → t.dev.mulState = 5 ∧ s.dev.raised Src.CASCADE_ISOLATED t.dev) ∧
          (s.dev.mulState = 2 → s.dev.standbyId ∈ others → s.dev.stackSize < 2 * (others.length + 1) → t.dev.mulState = 2)) ∧
        (t.dev.mulState = 5 → s.dev.mul.ownWrite.isSome = true →
          t.dev.mul.ownWrite = none ∧ t.dev.flag Reg.MUL_TAB_CMD 0 = false ∧ t.dev.tabStat Reg.MUL_TAB_CMD 1) ∧
        s.dev.keepsRegsE [Reg.MUL_STATUS, Reg.MUL_TAB_CMD, Reg.MUL_CNT_LO, Reg.MUL_CNT_LO + 4] t.dev ∧ s.dev.changesOnly [.regs, .mul, .evt, .out] t.dev ∧
        s.keepsMem t))) ∧
  (∀ (s : State) (i : Nat), s.ready = true →
    ((∀ c ∈ s.dev.mul.commits, c.1 = i → s.dev.beat + 1 < c.2.2) → exec (.directoryApply i) s = .next s) ∧
    ((∃ c ∈ s.dev.mul.commits, c.1 = i ∧ c.2.2 ≤ s.dev.beat) → Answers (.directoryApply i) s fun t =>
      t.dev.mul.commits = s.dev.mul.commits.filter (fun c => !(decide (c.2.2 ≤ s.dev.beat) && c.1 == i)) ∧
      (∀ j, j ≠ i → tabFind t.dev.mul.applied j = tabFind s.dev.mul.applied j) ∧
      (∀ cs c, s.dev.mul.commits.filter (fun c => decide (c.2.2 ≤ s.dev.beat) && c.1 == i) = cs ++ [c] →
        tabFind t.dev.mul.applied i = if (c.2.1).b 0 31 then some c.2.1 else none) ∧ s.dev.changesOnly [.mul] t.dev ∧ s.keepsMem t) ∧
    ((∀ c ∈ s.dev.mul.commits, c.1 = i → s.dev.beat < c.2.2) → (∃ c ∈ s.dev.mul.commits, c.1 = i ∧ c.2.2 = s.dev.beat + 1) →
      Does (.directoryApply i) s fun d => d = s.dev.boundary id))

/-- JOIN is asked for in SERVICE, BUSY while a step or another change is in progress, refused in another mode. LEAVE stands the device
alone, its directory writes ended with NO_ROOSTER. HANDOVER needs the Rooster and a READY standby. Each step of JOIN goes on to
the next or fails with its code, the mode before JOIN returning: HELLO (DUP_ID, TOPOLOGY, TOO_MANY; 6 beats), TIME (10 s), ALIGN
(loaded, or slewed with live tasks, APART), DIRECTORY (60 beats). It ends as MEMBER, or as Rooster where there is none and the
device's pair is the highest or it is alone, with CASCADE_JOINED; a device of the stack that meets it takes the devices met as its
peers (assumption 69). (Choices of the model it rests on: log 69.) (R313, R317, R323) -/
def Obligations.JoinLeaveAndHandover : Prop :=
  (∀ (s : State) (p : Path) (v : Word), s.ready = true → bit v 30 = false → bit v 29 = false →
    (s.dev.mul.step ≠ 0 ∨ s.dev.pwr.want.isSome = true ∨ s.dev.pwr.toRecovery = true ∨ s.dev.cfgBusy = true → Answers (.cascadeJoin p v) s fun t =>
      t.dev.reg Reg.MUL_RESULT = 0x80000001 ∧ s.dev.keepsRegs [Reg.MUL_RESULT] t.dev ∧ s.dev.changesOnly [.regs] t.dev ∧ s.keepsMem t) ∧
    (s.dev.mul.step = 0 → s.dev.pwr.want = none → s.dev.pwr.toRecovery = false → s.dev.cfgBusy = false →
      (s.dev.mode ≠ .service → Answers (.cascadeJoin p v) s fun t =>
        t.dev.reg Reg.MUL_RESULT = 0x80000009 ∧ s.dev.keepsRegs [Reg.MUL_RESULT] t.dev ∧ s.dev.changesOnly [.regs] t.dev ∧ s.keepsMem t) ∧
      (s.dev.mode = .service → Answers (.cascadeJoin p v) s fun t =>
        t.dev.reg Reg.MUL_RESULT = 0 ∧ t.dev.pwr = { s.dev.pwr with want := some (.join, s.dev.beat) } ∧
        s.dev.keepsRegs [Reg.MUL_RESULT] t.dev ∧ s.dev.changesOnly [.regs, .pwr] t.dev ∧ s.keepsMem t))) ∧
  (∀ (s : State) (p : Path) (v : Word), s.ready = true → bit v 31 = false → bit v 29 = false →
    (s.dev.mul.step ≠ 0 → Answers (.cascadeLeave p v) s fun t =>
      t.dev.reg Reg.MUL_RESULT = 0x80000001 ∧ s.dev.keepsRegs [Reg.MUL_RESULT] t.dev ∧ s.dev.changesOnly [.regs] t.dev ∧ s.keepsMem t) ∧
    (s.dev.mul.step = 0 → Answers (.cascadeLeave p v) s fun t =>
      t.dev.reg Reg.MUL_RESULT = 0x80000000 ∧ t.dev.mulState = 0 ∧ t.dev.devId = s.dev.devId ∧ t.dev.standbyReady = false ∧
      t.dev.fld Reg.MUL_STATUS 15 8 = 0 ∧ t.dev.mul.peers = [] ∧ t.dev.mul.ownWrite = none ∧ t.dev.mul.writes = [] ∧ t.dev.mul.commits = [] ∧
      t.dev.mul.applied = [] ∧ t.dev.mul.links = s.dev.mul.links ∧
      (s.dev.flag Reg.MUL_TAB_CMD 0 = true → t.dev.flag Reg.MUL_TAB_CMD 0 = false ∧ t.dev.tabStat Reg.MUL_TAB_CMD 1) ∧
      s.dev.keepsRegs [Reg.MUL_RESULT, Reg.MUL_STATUS, Reg.MUL_TAB_CMD] t.dev ∧ s.dev.changesOnly [.regs, .mul] t.dev ∧ s.keepsMem t)) ∧
  (∀ (s : State) (p : Path) (v : Word), s.ready = true → bit v 31 = false → bit v 30 = false →
    Answers (.handover p v) s fun t =>
      (if s.dev.isRooster = false then t.dev.reg Reg.MUL_RESULT = 0x80000007 ∧ t.dev.mul = s.dev.mul
       else if s.dev.mul.handing = true then t.dev.reg Reg.MUL_RESULT = 0x80000001 ∧ t.dev.mul = s.dev.mul
       else if s.dev.standbyReady = false then t.dev.reg Reg.MUL_RESULT = 0x80000008 ∧ t.dev.mul = s.dev.mul
       else t.dev.reg Reg.MUL_RESULT = 0 ∧ t.dev.mul = { s.dev.mul with handing := true }) ∧
      s.dev.keepsRegs [Reg.MUL_RESULT] t.dev ∧ s.dev.changesOnly [.regs, .mul] t.dev ∧ s.keepsMem t) ∧
  (∀ (s : State) (h : Hello) (ids : List Nat), s.ready = true → ids = h.devices.map (·.1) →
    (h.up = false ∨ (s.dev.mul.step ≠ 1 ∧ (s.dev.mul.step ≠ 0 ∨ s.dev.inStack = false)) → exec (.joinHelloDone h) s = .next s) ∧
    (s.dev.mul.step = 0 → s.dev.inStack = true → h.up = true → Answers (.joinHelloDone h) s fun t =>
      t.dev.mul = (if s.dev.devId ∈ ids ∨ ¬ ids.Nodup ∨ h.badTopology = true ∨ s.dev.stackSize < ids.length + 1 then s.dev.mul
        else { s.dev.mul with peers := h.devices }) ∧ s.dev.changesOnly [.mul] t.dev ∧ s.keepsMem t) ∧
    (s.dev.mul.step = 1 → h.up = true →
      (s.dev.devId ∈ ids ∨ ¬ ids.Nodup → Does (.joinHelloDone h) s fun d => s.dev.joinFails 2 d) ∧
      (s.dev.devId ∉ ids → ids.Nodup →
        (h.badTopology = true ∨ (s.dev.mesh = true ∧ 5 < ids.length + 1) → Does (.joinHelloDone h) s fun d => s.dev.joinFails 3 d) ∧
        (h.badTopology = false → (s.dev.mesh = true → ids.length + 1 ≤ 5) →
          (s.dev.stackSize < ids.length + 1 ∨ 8 < ids.length + 1 → Does (.joinHelloDone h) s fun d => s.dev.joinFails 4 d) ∧
          (ids.length + 1 ≤ s.dev.stackSize → (∀ m ∈ ids, m < 8) →
            (∀ r, h.rooster = some r → r < 8 → Does (.joinHelloDone h) s fun d => d.roosterId = r ∧ d.mul.peers = h.devices ∧ d.mul.step = 2 ∧
              d.mul.stepAt = s.dev.now ∧ d.mul.stepBeat = s.dev.beat ∧
              (∀ m, m < 8 → ((d.fld Reg.MUL_STATUS 15 8).testBit m = true ↔ m = s.dev.devId ∨ m ∈ ids)) ∧
              (∀ m, m < 8 → (d.reaches m = true ↔ m = s.dev.devId ∨ m ∈ ids))) ∧
            (h.rooster = none → s.dev.pairOf.1 ≠ 0 → (∀ x ∈ h.devices, x.2.1 ≠ 0 → pairBelow s.dev.pairOf (x.2.1, x.2.2.1) = false) →
              Does (.joinHelloDone h) s fun d => s.dev.joinEnds 3 d ∧ d.roosterId = s.dev.devId ∧ d.mul.peers = h.devices)))))) ∧
  (∀ s : State, s.ready = true →
    ((s.dev.mul.step ≠ 2 ∨ ∃ k, (k = 4 ∨ k = 5) ∧ ((s.dev.dom k).st ≠ 3 ∨ s.dev.fld (Reg.TIM_DOM_CFG + domOfs k) 30 28 ≠ 3)) →
      exec .joinTimeLocked s = .next s) ∧
    (s.dev.mul.step = 2 → (∀ k, k = 4 ∨ k = 5 → (s.dev.dom k).st = 3 ∧ s.dev.fld (Reg.TIM_DOM_CFG + domOfs k) 30 28 = 3) →
      Answers .joinTimeLocked s fun t => t.dev.mul = { s.dev.mul with step := 3, stepAt := s.dev.now, stepBeat := s.dev.beat } ∧
        s.dev.changesOnly [.mul] t.dev ∧ s.keepsMem t)) ∧
  (∀ (s : State) (live : Bool), s.ready = true → live = (s.dev.mul.joinFrom == .service && s.dev.tsk.tasks.any (fun x => decide (x.2.st < 5))) →
    (s.dev.mul.step ≠ 3 → exec .joinAlign s = .next s) ∧
    (s.dev.mul.step = 3 → live = false → Answers .joinAlign s fun t =>
      t.dev.tim.dt = (s.dev.dom s.dev.active).clock ∧ t.dev.tim.doms = s.dev.tim.doms ∧
      t.dev.beat = ((s.dev.dom s.dev.active).clock - s.dev.tim.ofs * nsUnit) * 3 / beat3Unit ∧ t.dev.flag Reg.TIM_BEAT_STAT 2 = true ∧
      s.dev.raised Src.BEAT_RELOADED t.dev ∧ t.dev.mul.step = 4 ∧ t.dev.mul.stepBeat = t.dev.beat ∧
      s.dev.keepsRegsE [Reg.TIM_BEAT_STAT] t.dev ∧ s.dev.changesOnly [.beat, .fclk, .regs, .tim, .mul, .evt, .out] t.dev ∧ s.keepsMem t) ∧
    (s.dev.mul.step = 3 → live = true → s.dev.jumpLimit < s.dev.dtErr.natAbs → Does .joinAlign s fun d => s.dev.joinFails 6 d) ∧
    (s.dev.mul.step = 3 → live = true → s.dev.dtErr.natAbs ≤ s.dev.jumpLimit →
      (s.dev.dtErr.natAbs ≤ nsUnit / 4 → Answers .joinAlign s fun t =>
        t.dev.mul = { s.dev.mul with step := 4, stepAt := s.dev.now, stepBeat := s.dev.beat } ∧ s.dev.changesOnly [.mul] t.dev ∧ s.keepsMem t) ∧
      (nsUnit / 4 < s.dev.dtErr.natAbs → exec .joinAlign s = .next s))) ∧
  (∀ (s : State) (es : List DirEnt), s.ready = true →
    (s.dev.mul.step ≠ 4 → exec (.joinDirectoryDone es) s = .next s) ∧
    (s.dev.mul.step = 4 → (es.map (·.idx)).Nodup → (∀ x ∈ es, x.idx < 32768) → Does (.joinDirectoryDone es) s fun d =>
      s.dev.joinEnds 2 d ∧ d.mul.commits = [] ∧
      (∀ x ∈ es, d.ent .mul 0 x.idx = x.d ∧ tabFind d.mul.applied x.idx = if x.d.b 0 31 then some x.d else none) ∧
      (∀ i, i < 32768 → (∀ x ∈ es, x.idx ≠ i) → d.ent .mul 0 i = {} ∧ tabFind d.mul.applied i = none))) ∧
  (∀ s : State, s.ready = true →
    (s.dev.mul.step = 0 ∨ (s.dev.mul.step = 1 ∧ s.dev.beat < s.dev.mul.stepBeat + 6) ∨
      (s.dev.mul.step = 2 ∧ s.dev.now < s.dev.mul.stepAt + 15000000000) ∨
      (s.dev.mul.step = 3 ∧ (s.dev.mul.joinFrom = .service ∨ s.dev.beat ≤ s.dev.mul.stepBeat + 1)) ∨
      (s.dev.mul.step = 4 ∧ s.dev.beat < s.dev.mul.stepBeat + 60) → exec .joinStepTimeout s = .next s) ∧
    (s.dev.mul.step = 1 → s.dev.mul.stepBeat + 6 ≤ s.dev.beat →
      (s.dev.pairOf.1 = 0 → Does .joinStepTimeout s fun d => s.dev.joinFails 3 d) ∧
      (s.dev.pairOf.1 ≠ 0 → Does .joinStepTimeout s fun d => s.dev.joinEnds 3 d ∧ d.roosterId = s.dev.devId ∧ d.mul.peers = [] ∧
        d.standbyReady = false)) ∧
    (s.dev.mul.step = 2 → s.dev.mul.stepAt + 15000000000 ≤ s.dev.now → Does .joinStepTimeout s fun d => s.dev.joinFails 5 d) ∧
    (s.dev.mul.step = 3 → s.dev.mul.joinFrom ≠ .service → s.dev.mul.stepBeat + 1 < s.dev.beat → Does .joinStepTimeout s fun d => s.dev.joinFails 6 d) ∧
    (s.dev.mul.step = 4 → s.dev.mul.stepBeat + 60 ≤ s.dev.beat → Does .joinStepTimeout s fun d => s.dev.joinFails 7 d))

/-- RESET_N low for 1 µs, a brown-out, a lost SYS_REFCLK or an uncancelled CHIP_FAULT after 600 beats reset the chip and set their
cause; pulses of at most 0.5 µs do nothing, and those between do either. VDD_AUX resets the always-on domain too. Released with
rails and clock good, the device samples its straps and enters BOOT; a copy that verifies leads to CONFIGURE, or back to ZEROIZE,
and with none BOOT_FAIL is set. A lost reference takes its links down. (Choices of the model it rests on: log 3, 34, 35, 46, 90.)
(R333, R335, R345, R352, R387, R390, R393, R395, R396, R397) -/
def Obligations.ResetBootAndRails : Prop :=
  (∀ (s : State) (n : Nat), s.ready = true →
    (n ≤ 500 → exec (.resetNAssert n) s = .next s) ∧
    (1000 ≤ n → Answers (.resetNAssert n) s fun t => s.resetTo 3 t ∧ t.dev.pwr.waitRails = s.dev.pwr.waitRails ∧ t.dev.pwr.waitClk = s.dev.pwr.waitClk) ∧
    (500 < n → n < 1000 → Answers (.resetNAssert n) s fun t =>
      t = { s with dev := { s.dev with free := s.dev.free + 1 } } ∨ s.resetTo 3 t)) ∧
  (∀ s : State, s.ready = true →
    (∀ b, s.dev.pwr.fault = some b → b + 600 ≤ s.dev.beat → Answers .chipFaultResetTimer s fun t => s.resetTo 0 t) ∧
    ((∀ b, s.dev.pwr.fault = some b → s.dev.beat < b + 600) → exec .chipFaultResetTimer s = .next s) ∧
    (Answers .sysRefclkLost s fun t => s.resetTo 1 t ∧ t.dev.pwr.waitClk = true) ∧
    exec .refclkReturn s = .next { s with dev := { s.dev with pwr := { s.dev.pwr with waitClk := false } } } ∧
    exec .railsGood s = .next { s with dev := { s.dev with pwr := { s.dev.pwr with waitRails := false } } } ∧
    (Answers .auxPowerOn s fun t => s.auxResetTo t)) ∧
  (∀ (s : State) (r : Nat), s.ready = true →
    (8 ≤ r → exec (.brownOut r) s = .next s) ∧ (r = 3 → Answers (.brownOut r) s fun t => s.auxResetTo t) ∧
    (r < 8 → r ≠ 3 → Answers (.brownOut r) s fun t => s.resetTo 2 t ∧ t.dev.pwr.waitRails = true)) ∧
  (∀ (s : State) (id pri : Nat), s.ready = true →
    (s.dev.mode ≠ .reset ∨ s.dev.pwr.waitRails = true ∨ s.dev.pwr.waitClk = true → exec (.resetRelease id pri) s = .next s) ∧
    (s.dev.mode = .reset → s.dev.pwr.waitRails = false → s.dev.pwr.waitClk = false → id < 8 → pri < 8 → s.dev.que.stall = none →
      Answers (.resetRelease id pri) s fun t => t.dev.mode = .boot ∧ t.dev.fld Reg.TOP_MODE 3 0 = 1 ∧ t.dev.devId = id ∧
        t.dev.fld Reg.MUL_ROOSTER 2 0 = pri ∧ s.dev.raised Src.MODE_CHANGE t.dev ∧
        s.dev.keepsRegsE [Reg.TOP_MODE, Reg.MUL_STATUS, Reg.MUL_ROOSTER] t.dev ∧ s.dev.changesOnly [.mode, .regs, .evt, .out] t.dev ∧ s.keepsMem t)) ∧
  (∀ (s : State) (a b : Bool), s.ready = true →
    (s.dev.mode ≠ .boot ∨ s.dev.flag Reg.TOP_STATUS 31 = true → exec (.bootFwVerified a b) s = .next s) ∧
    (∀ okA okB, s.dev.mode = .boot → s.dev.flag Reg.TOP_STATUS 31 = false → s.dev.que.stall = none →
      okA = (a && s.dev.pwr.fwOk.getD 0 true) → okB = (b && s.dev.pwr.fwOk.getD 1 true) →
      Answers (.bootFwVerified a b) s fun t =>
        t.dev.pwr = { s.dev.pwr with fwOk := [okA, okB] } ∧
        (okA = false → okB = false → t.dev.mode = .boot ∧ t.dev.flag Reg.TOP_STATUS 31 = true ∧ s.dev.keepsRegs [Reg.TOP_STATUS] t.dev ∧
          s.dev.changesOnly [.regs, .pwr] t.dev) ∧
        (okA = true ∨ okB = true →
          t.dev.mode = (if s.dev.vlt.erasing = true ∨ s.dev.flag Reg.VLT_STATUS 8 = true then Mode.zeroize else Mode.configure) ∧
          t.dev.flag Reg.TOP_STATUS 31 = false ∧ (okA = false → t.dev.flag Reg.TOP_STATUS 30 = true ∧ s.dev.raised Src.BOOT_FALLBACK t.dev) ∧
          (okA = true → t.dev.flag Reg.TOP_STATUS 30 = s.dev.flag Reg.TOP_STATUS 30) ∧ s.dev.raised Src.MODE_CHANGE t.dev ∧
          s.dev.keepsRegsE [Reg.TOP_MODE, Reg.TOP_STATUS] t.dev ∧ s.dev.changesOnly [.mode, .regs, .pwr, .evt, .out] t.dev) ∧ s.keepsMem t)) ∧
  (∀ (s : State) (p : Nat), s.ready = true →
    (8 ≤ p ∨ s.dev.mode = .reset → exec (.portLinkUp p) s = .next s) ∧
    (p < 8 → s.dev.mode ≠ .reset → Answers (.portLinkUp p) s fun t => t.dev.macPort p = { s.dev.macPort p with up := true } ∧
      (∀ q, q ≠ p → t.dev.macPort q = s.dev.macPort q) ∧ s.dev.changesOnly [.mac] t.dev ∧ s.keepsMem t) ∧
    (8 ≤ p ∨ (s.dev.macPort p).up = false → exec (.portLinkDown p) s = .next s) ∧
    (p < 8 → (s.dev.macPort p).up = true → Answers (.portLinkDown p) s fun t => t.dev.macPort p = { s.dev.macPort p with up := false } ∧
      (∀ q, q ≠ p → t.dev.macPort q = s.dev.macPort q) ∧ s.dev.raised (Src.PORT_LINK_DOWN + p) t.dev ∧ s.dev.keepsRegsE [] t.dev ∧
      s.dev.changesOnly [.regs, .mac, .evt, .out] t.dev ∧ s.keepsMem t)) ∧
  (∀ (s : State) (r : RefClk), s.ready = true →
    (s.dev.mode = .reset ∨ r = .freqIn ∨ r = .ppsIn ∨ (∃ n, 2 ≤ n ∧ r = .eth n) → exec (.referenceClockLost r) s = .next s) ∧
    (∀ n, r = .eth n → n < 2 → s.dev.mode ≠ .reset → Answers (.referenceClockLost r) s fun t =>
      (∀ p, p / 4 = n → (t.dev.macPort p).up = false ∧ ((s.dev.macPort p).up = true → s.dev.raised (Src.PORT_LINK_DOWN + p) t.dev)) ∧
      (∀ p, p / 4 ≠ n → t.dev.macPort p = s.dev.macPort p) ∧ s.dev.keepsRegsE [] t.dev ∧ s.dev.changesOnly [.regs, .mac, .evt, .out] t.dev ∧ s.keepsMem t) ∧
    (r = .mule → s.dev.mode ≠ .reset → Answers (.referenceClockLost r) s fun t =>
      (∀ k, k < 4 → t.dev.linkSt k = 0 ∧ (s.dev.linkSt k ≠ 0 → s.dev.raised Src.MULE_LINK_DOWN t.dev)) ∧
      s.dev.keepsRegsE ((List.range 4).map (fun k => Reg.MUL_LINK_STAT + mulOfs k)) t.dev ∧ s.dev.changesOnly [.regs, .mul, .evt, .out] t.dev ∧ s.keepsMem t) ∧
    (r = .pcie → s.dev.mode ≠ .reset → exec (.referenceClockLost r) s = exec .pcieLinkDown s) ∧
    (r = .tap → s.dev.mode ≠ .reset → Answers (.referenceClockLost r) s fun t =>
      (∀ l, t.dev.tap.outUp.getD l false = false ∨ 4 ≤ l) ∧ (∀ l, t.dev.tap.inUp.getD l false = false ∨ 2 ≤ l) ∧
      s.dev.raised Src.TAP_LANE_DOWN t.dev ∧ s.dev.keepsRegsE ([Reg.TAP_CNT_LO + 16, Reg.TAP_CNT_LO + 20]) t.dev ∧
      s.dev.changesOnly [.regs, .tap, .evt, .out] t.dev ∧ s.keepsMem t))

/-- A boundary begins the next beat, raises BEAT_OUT and advances the dwell, which a level that stood at any moment of the beat sets
to 0; what falls at a boundary waits for it. A mode request is answered BUSY, ILLEGAL, NOT_READY or OK, in that order, and is made
at the next boundary between traffic modes; RECOVERY ends a JOIN under way, with MODE. Rails give their stage; every stage up to
the deepest called for by some moment since the last boundary is entered, counted and reported, SHED replaces the traffic mode,
and the stage held lifts once its conditions have held for 30 beats. (Choices of the model it rests on: log 2, 3, 26, 27, 89, 91,
102.) (R20, R266, R328, R329, R330, R331, R337, R339, R340, R341, R342, R343) -/
def Obligations.ModesStagesAndSprint : Prop :=
  (∀ s : State, s.ready = true → Does .beatBoundary s fun d => d = s.dev.boundary id) ∧
  (∀ s : State, s.ready = true → s.dev.fclk ≠ 0 → s.dev.pwr.want.isSome = true ∨ s.dev.pwr.toRecovery = true →
    Does .modeTransition s fun d => d = s.dev.boundary Dev.makeChange) ∧
  (∀ (s : State) (rails : List Nat), s.ready = true → s.dev.fclk ≠ 0 →
    Does (.shedStageEnter rails) s fun d => d = s.dev.boundary (fun d => (d.setRails rails).enterStages)) ∧
  (∀ (s : State) (rails bad : List Nat), s.ready = true → s.dev.fclk ≠ 0 →
    Does (.shedStageLift rails bad) s fun d => d = s.dev.boundary (fun d => (d.setRails rails).liftStage bad)) ∧
  (∀ (d : Dev) (f : Dev → Dev), d.mode = .reset → d.boundary f = f d.toBoundary.powerBeat) ∧
  (∀ (d : Dev) (f : Dev → Dev), d.mode ≠ .reset → ∃ e : Dev,
    d.boundary f = ((f e.makeChange).enterStages.sprintFinish.sprintBegin).configureBeat.cascadeBeat.beatWork ∧
    e.now = d.now + d.fclkToBoundary ∧ e.mode = d.mode ∧ e.stage = d.stage ∧ e.evt.once = [] ∧ e.tim.beatOut = true ∧ .pin 6 1 ∈ e.out ∧
    (d.mode.live = true → e.beat = d.beat + 1 ∧ e.fclk = 0) ∧
    e.tim.dt = ((d.judgeGroups.settleTime).runMem d.fclkToBoundary).dtAfter d.fclkToBoundary ∧
    e.pwr.beats = d.pwr.beats + 1 ∧ e.pwr.dip = false ∧ e.pwr.deep = d.pwr.deep ∧
    e.fld Reg.PWR_STATUS 4 0 = (if 0 < d.stage ∧ d.calm d.stage = true ∧ d.pwr.dip = false then min 30 (d.fld Reg.PWR_STATUS 4 0 + 1) else 0) ∧
    (d.pwr.throttled = true → d.counted Reg.PWR_CNT_LO 5 1 e ∧ e.fld Reg.PWR_STATUS 17 14 = throttleK d.pwr.tj) ∧
    (d.fld Reg.PWR_STATUS 22 20 = 4 → (∃ b, d.pwr.cool = some b ∧ b + 30 ≤ e.beat) → e.fld Reg.PWR_STATUS 22 20 = 0) ∧
    (d.fld Reg.PWR_STATUS 22 20 ≠ 4 ∨ (∀ b, d.pwr.cool = some b → e.beat < b + 30) → e.fld Reg.PWR_STATUS 22 20 = d.fld Reg.PWR_STATUS 22 20)) ∧
  (∀ s : State, s.ready = true → s.dev.fclk = 0 →
    (s.dev.pwr.want = none → s.dev.pwr.toRecovery = false → exec .modeTransition s = .next s) ∧
    (∀ m b, s.dev.pwr.want = some (m, b) → s.dev.pwr.toRecovery = false → Does .modeTransition s fun d => d.mode = m ∧ d.pwr.want = none ∧
      (m ≠ s.dev.mode → d.fld Reg.TOP_MODE 3 0 = m.code) ∧ (m = .join → d.mul.step = 1 ∧ d.mul.joinFrom = s.dev.mode) ∧
      (m = .recovery → d.mul.step = 0 ∧ d.sprinting = false ∧ (s.dev.mul.step ≠ 0 → d.reg Reg.MUL_RESULT = 0x80000009))) ∧
    (s.dev.pwr.toRecovery = true → Does .modeTransition s fun d => d.pwr.toRecovery = false ∧ d.pwr.want = none ∧
      d.mode = (if s.dev.mode.carries then Mode.recovery else s.dev.mode))) ∧
  (∀ (s : State) (p : Path) (v : Word) (code : Nat), s.ready = true →
    code = (if s.dev.pwr.want.isSome = true ∨ s.dev.pwr.toRecovery = true ∨ s.dev.cfgBusy = true ∨ s.dev.mul.step ≠ 0 then 1
      else if (s.dev.mode, bits v 3 0) ∉ [(Mode.configure, 4), (.join, 4), (.recovery, 4), (.reload, 4), (.shed, 4), (.sprint, 4), (.configure, 8),
        (.service, 8), (.service, 9), (.reload, 9), (.shed, 9), (.sprint, 9), (.join, 9), (.configure, 10)] then 2
      else if (bits v 3 0 = 4 ∨ bits v 3 0 = 8) ∧ 0 < s.dev.stage then 3
      else if bits v 3 0 = 4 ∧ s.dev.mode = .configure ∧ (s.dev.flag Reg.MEM_STATUS 31 = false ∨ (List.range 6).any (fun n => s.dev.regionState n != 0) = true ∨
        (s.dev.locked = false ∧ bit v 31 = false)) then 3 else 0) →
    (code ≠ 0 → Answers (.topModeReq p v) s fun t => t.dev.reg Reg.TOP_MODE_RESULT = BitVec.ofNat 32 (2 ^ 31 + code) ∧
      s.dev.keepsRegs [Reg.TOP_MODE_RESULT] t.dev ∧ s.dev.changesOnly [.regs] t.dev ∧ s.keepsMem t) ∧
    (code = 0 → s.dev.mode.carries = true → Answers (.topModeReq p v) s fun t => t.dev.reg Reg.TOP_MODE_RESULT = 0x80000000 ∧
      t.dev.pwr.want = (modeOf (bits v 3 0)).map (fun m => (m, s.dev.beat)) ∧ (bits v 3 0 = 9 → t.dev.pwr.fault = none) ∧
      s.dev.keepsRegs [Reg.TOP_MODE_RESULT] t.dev ∧ s.dev.changesOnly [.regs, .pwr] t.dev ∧ s.keepsMem t) ∧
    (code = 0 → s.dev.mode.carries = false → Does (.topModeReq p v) s fun d => d.reg Reg.TOP_MODE_RESULT = 0x80000000 ∧
      some d.mode = modeOf (bits v 3 0) ∧ d.fld Reg.TOP_MODE 3 0 = bits v 3 0)) ∧
  (∀ (d : Dev) (rails : List Nat), d.mode ≠ .reset → (∀ r m, r < 8 → rails[r]? = some m → m < 65536 →
      (d.setRails rails).fld (Reg.PWR_RAIL + 4 * r) 31 16 = m ∧ (∀ k, 1 ≤ k → k ≤ 6 →
        (k ≤ (d.setRails rails).fld (Reg.PWR_RAIL + 4 * r) 2 0 ↔ (k + 2) * railNominal r ≤ (railNominal r - m) * 100))) ∧
    (d.setRails rails).keepsRegs ((List.range 8).map (fun r => Reg.PWR_RAIL + 4 * r) ++ [Reg.PWR_STATUS]) d ∧ d.changesOnly [.regs, .pwr] (d.setRails rails) ∧
    (∀ e, e = d.setRails rails → e.pwr = { d.pwr with deep := max d.pwr.deep e.wantedStage, dip := d.pwr.dip || !e.calm e.stage })) ∧
  (∀ (s : State) (rails : List Nat) (e : Dev), s.ready = true → s.dev.fclk = 0 → s.dev.mode ≠ .reset → e = s.dev.setRails rails →
    (e.pwr.deep ≤ e.stage → Does (.shedStageEnter rails) s fun d => d = { e with pwr := { e.pwr with deep := 0 } }) ∧
    (e.stage < e.pwr.deep → e.pwr.deep < 8 → Does (.shedStageEnter rails) s fun d => ∃ g h : Dev, g.stage = e.pwr.deep ∧ g.fld Reg.PWR_STATUS 4 0 = 0 ∧
      g.pwr = { e.pwr with deep := 0, dip := false } ∧
      e.counted Reg.PWR_CNT_LO 0 (e.pwr.deep - e.stage) g ∧ e.raised Src.SHED_ENTER g ∧
      e.keepsRegsE [Reg.PWR_STATUS, Reg.PWR_CNT_LO, Reg.PWR_CNT_LO + 4] g ∧ e.changesOnly [.regs, .evt, .out, .pwr] g ∧
      h = g.stageActions e.stage e.pwr.deep ∧ h.mode = e.mode ∧
      d = (if e.mode.carries = true ∧ e.mode ≠ .shed then ({ h with before := if e.mode = .sprint then .service else e.mode } : Dev).setMode .shed else h))) ∧
  (∀ (d : Dev) (k : Nat), (d.mode.carries = true ∨ d.mode = .test ∨ d.mode = .recovery) →
    (d.stageActions 0 1).sprinting = false ∧ (d.stageActions 0 1).tap.stopped = true ∧
    (∀ x, d.enc k = some x → 1 < enLayers (d.encEnt k) →
      (d.stageActions 1 2).enc k = some { x with dropped := true }) ∧ d.changesOnly [.ven] (d.stageActions 1 2) ∧
    (d.aud.mixes = [] → d.aud.ents = [] → d.composingFlocks = [] → tabSorted d.tsk.tasks = true →
      (∀ n, n = 4 ∨ n = 5 → (d.stageActions 2 3).regionState n = if d.regionState n = 0 then 6 else d.regionState n) ∧
      (∀ x, d.task k = some x → (d.stageActions 2 3).task k = some (if x.st < 5 ∧ 2 ≤ x.region then { x with ending := 1 } else x))) ∧
    (∀ x, d.task k = some x → tabSorted d.tsk.tasks = true → d.composingFlocks = [] → (d.stageActions 3 4).task k =
      some (if x.st < 5 ∧ x.kind ≤ Kd.compose then { x with ending := 1 } else x)) ∧ (d.stageActions 4 5) = d ∧
    (∀ x, d.task k = some x → tabSorted d.tsk.tasks = true → (d.stageActions 5 6).task k =
      some (if x.st < 5 ∧ (x.kind = Kd.mix ∨ x.kind = Kd.aencode) then { x with ending := 1 } else x))) ∧
  (∀ (s : State) (rails bad : List Nat) (e : Dev), s.ready = true → s.dev.fclk = 0 → s.dev.mode ≠ .reset → e = s.dev.setRails rails →
    (e.stage = 0 ∨ e.fld Reg.PWR_STATUS 4 0 < 30 ∨ (∃ r, r < 8 ∧ (e.stage + 1) * railNominal r ≤ (railNominal r - e.railMean r) * 100) ∨
      e.stage ≤ e.pinStageNow ∨ e.stage ≤ e.fld Reg.PWR_STATUS 22 20 → Does (.shedStageLift rails bad) s fun d => d = e) ∧
    (0 < e.stage → 30 ≤ e.fld Reg.PWR_STATUS 4 0 → (∀ r, r < 8 → (railNominal r - e.railMean r) * 100 < (e.stage + 1) * railNominal r) →
      e.pinStageNow < e.stage → e.fld Reg.PWR_STATUS 22 20 < e.stage → Does (.shedStageLift rails bad) s fun d => ∃ g : Dev,
        g.stage = e.stage - 1 ∧ g.fld Reg.PWR_STATUS 4 0 = 0 ∧ g.pwr = { e.pwr with dip := false } ∧ e.raised Src.SHED_LIFT g ∧
        e.keepsRegsE [Reg.PWR_STATUS] g ∧ e.changesOnly [.regs, .evt, .out, .pwr] g ∧ (e.stage = 2 ∨ 5 ≤ e.stage ∨ e.mode = .zeroize → d = g) ∧
        (e.stage = 1 → e.mode ≠ .shed → e.mode ≠ .zeroize → d = { g with tap := { g.tap with stopped := false } }) ∧
        (e.stage = 1 → e.mode = .shed → d.tap.stopped = false ∧ d.mode = e.afterShed) ∧
        (e.stage = 4 → e.mode ≠ .zeroize → d = (g.testCells ((List.range 2).flatMap (fun r => (regionCells (r + 2)).filter (fun c => decide (cellType c ≤ 1)))) bad).wakeVideo
          (fun r => decide (r < 2))) ∧
        (e.stage = 3 → e.mode ≠ .zeroize → bad = [] ∨ e.tsk.tasks = [] → ∃ h : Dev, (∀ n, n = 4 ∨ n = 5 → h.regionState n = if g.regionState n = 6 then 0 else g.regionState n) ∧
          d = ((({ h.wakeVideo (fun r => decide (2 ≤ r)) with pwr := { (h.wakeVideo (fun r => decide (2 ≤ r))).pwr with loud := [] } } : Dev).regionBack 2).regionBack
            3).fspFollow)))

/-- A SPRINT request names the first condition that fails, and is counted where one does; SPRINT begins at a boundary, its conditions
judged once more, and ends at one on END, 95 degrees, a full window of 120 s in 600 s, or a full lifetime of 2,000 h, with
SPRINT_END. SAG_N asks for its stage while SAG_EN is 1; every level counts for the beat in which it stands. A sample of the
sensors gives Tj, the hottest and the lowest; Tj of 100, 110 and 120 throttles, enters S4, and trips. (Choices of the model it
rests on: log 3, 91.) (R337, R339, R343, R346, R347, R348, R349, R350, R351) -/
def Obligations.SprintAndHeat : Prop :=
  (∀ (s : State) (p : Path) (v : Word) (code : Nat), s.ready = true →
    code = (if s.dev.flag Reg.PWR_CFG 30 = false then 1 else if s.dev.mode ≠ .service then 2 else if 0 < s.dev.stage then 3
      else if s.dev.pwr.throttled = true ∨ (s.dev.pwr.sampled = true ∧ 95 ≤ s.dev.pwr.tj) then 4 else if 72000 ≤ s.dev.sprintWindow then 5
      else if 4320000000 ≤ s.dev.pwr.residue then 6 else 0) →
    (Answers (.sprintRequest p v) s fun t => t.dev.fld Reg.PWR_SPRINT_STAT 30 28 = code ∧
      s.dev.counted Reg.PWR_CNT_LO 4 (if code = 0 then 0 else 1) t.dev ∧ t.dev.pwr.sprintReq = (s.dev.pwr.sprintReq || decide (code = 0)) ∧
      t.dev.pwr.sprintEnd = (s.dev.pwr.sprintEnd || (bit v 30 && s.dev.sprinting)) ∧
      s.dev.keepsRegs [Reg.PWR_SPRINT_STAT, Reg.PWR_CNT_LO + 32, Reg.PWR_CNT_LO + 36] t.dev ∧ s.dev.changesOnly [.regs, .pwr] t.dev ∧ s.keepsMem t) ∧
    (bit v 31 = true → exec (.sprintEndRequest p v) s = exec (.sprintRequest p (v ||| 0x40000000)) s) ∧
    (bit v 31 = false → Answers (.sprintEndRequest p v) s fun t => t.dev.pwr = { s.dev.pwr with sprintEnd := s.dev.pwr.sprintEnd || s.dev.sprinting } ∧
      s.dev.changesOnly [.pwr] t.dev ∧ s.keepsMem t) ∧
    (s.dev.pwr.sprintReq = false → exec .sprintEnter s = .next s) ∧
    (s.dev.pwr.sprintReq = true → s.dev.fclk = 0 → Answers .sprintEnter s fun t => t.dev.pwr.sprintReq = false ∧
      (code ≠ 0 → t.dev.fld Reg.PWR_SPRINT_STAT 30 28 = code ∧ s.dev.counted Reg.PWR_CNT_LO 4 1 t.dev ∧ t.dev.mode = s.dev.mode) ∧
      (code = 0 → t.dev.mode = .sprint ∧ t.dev.sprinting = true ∧ t.dev.flag Reg.PWR_SPRINT_STAT 31 = true ∧ s.dev.counted Reg.PWR_CNT_LO 3 1 t.dev ∧
        t.dev.pwr.runs = s.dev.pwr.runs ++ [(s.dev.pwr.beats, none)] ∧ s.dev.raised Src.MODE_CHANGE t.dev ∧
        t.dev.pwr.burnt = s.dev.pwr.burnt + (if s.dev.pwr.burnt * 216000 ≤ s.dev.pwr.residue ∧ s.dev.pwr.burnt < 20000 then 1 else 0)) ∧ s.keepsMem t) ∧
    (s.dev.sprinting = false ∨ (s.dev.pwr.sprintEnd = false ∧ s.dev.pwr.sprintHot = false ∧ s.dev.sprintWindow < 72000 ∧ s.dev.pwr.residue < 4320000000) →
      exec .sprintAutoEnd s = .next s) ∧
    (s.dev.sprinting = true → s.dev.fclk = 0 →
      s.dev.pwr.sprintEnd = true ∨ s.dev.pwr.sprintHot = true ∨ 72000 ≤ s.dev.sprintWindow ∨ 4320000000 ≤ s.dev.pwr.residue →
      Answers .sprintAutoEnd s fun t => t.dev.sprinting = false ∧ t.dev.flag Reg.PWR_SPRINT_STAT 31 = false ∧ s.dev.raised Src.SPRINT_END t.dev ∧
        t.dev.mode = (if s.dev.mode = .sprint then Mode.service else s.dev.mode) ∧ (∀ r ∈ t.dev.pwr.runs, r.2 ≠ none) ∧ s.keepsMem t)) ∧
  (∀ (s : State) (lvl : Nat), s.ready = true → Answers (.sagPinChange lvl) s fun t => t.dev.pwr.sag = lvl % 4 ∧
    (s.dev.mode = .reset → t.dev.pwr = { s.dev.pwr with sag := lvl % 4 } ∧ t.dev.regs = s.dev.regs) ∧
    (s.dev.mode ≠ .reset → t.dev.pwr = { s.dev.pwr with sag := lvl % 4, deep := max s.dev.pwr.deep t.dev.wantedStage, dip := s.dev.pwr.dip || !t.dev.calm t.dev.stage }) ∧
    (s.dev.mode ≠ .reset → t.dev.fld Reg.PWR_STATUS 25 23 = if s.dev.flag Reg.PWR_CFG 31 then [6, 4, 2, 0].getD (lvl % 4) 0 else 0) ∧
    s.dev.keepsRegs [Reg.PWR_STATUS] t.dev ∧ s.dev.changesOnly [.regs, .pwr] t.dev ∧ s.keepsMem t) ∧
  (∀ (s : State) (temps : List Int) (tj lo : Int) (hot : Nat) (c : Instr), s.ready = true → c ∈ [Instr.thermThrottle temps, .thermEmergency temps, .thermTrip temps] →
    (s.dev.mode = .reset ∨ temps = [] → exec c s = .next s) ∧
    (s.dev.mode ≠ .reset → temps.length ≤ 24 → (∀ x ∈ temps, -128 ≤ x ∧ x ≤ 127 ∧ x ≤ tj ∧ lo ≤ x) → lo ∈ temps → temps[hot]? = some tj →
      (∀ j, j < hot → temps[j]? ≠ some tj) → Answers c s fun t =>
        t.dev.pwr.tj = tj ∧ t.dev.pwr.sampled = true ∧ t.dev.pwr.deep = max s.dev.pwr.deep t.dev.wantedStage ∧
        t.dev.pwr.cool = (if tj < 105 then some (s.dev.pwr.cool.getD s.dev.beat) else none) ∧ t.dev.fld Reg.PWR_THERM 31 24 = (tj % 256).toNat ∧ t.dev.fld Reg.PWR_THERM 20 16 = hot ∧
        t.dev.fld Reg.PWR_THERM 7 0 = (lo % 256).toNat ∧ (∀ (j : Nat) (x : Int), temps[j]? = some x → t.dev.fld (Reg.PWR_SENSOR + 4 * j) 7 0 = (x % 256).toNat) ∧
        t.dev.pwr.sprintHot = (s.dev.pwr.sprintHot || (s.dev.sprinting && decide (95 ≤ tj))) ∧
        t.dev.pwr.throttled = (if 100 ≤ tj then true else if tj < 98 then false else s.dev.pwr.throttled) ∧
        (100 ≤ tj → s.dev.pwr.throttled = false → t.dev.fld Reg.PWR_STATUS 17 14 = (min 8 (tj - 99)).toNat ∧ s.dev.raised Src.THERM_THROTTLE t.dev) ∧
        (110 ≤ tj → s.dev.fld Reg.PWR_STATUS 22 20 = 0 → s.dev.raised Src.THERM_EMERGENCY t.dev) ∧
        (120 ≤ tj → s.dev.flag Reg.PWR_STATUS 18 = false → s.dev.raised Src.THERM_TRIP t.dev ∧ .pin 4 0 ∈ t.dev.out ∧ t.dev.flag Reg.PWR_STATUS 18 = true) ∧
        t.dev.fld Reg.PWR_STATUS 22 20 = (if 120 ≤ tj ∧ s.dev.flag Reg.PWR_STATUS 18 = false then 6
          else if 110 ≤ tj ∧ s.dev.fld Reg.PWR_STATUS 22 20 = 0 then 4 else s.dev.fld Reg.PWR_STATUS 22 20) ∧
        s.dev.keepsRegsE ([Reg.PWR_STATUS, Reg.PWR_THERM] ++ (List.range 24).map (fun j => Reg.PWR_SENSOR + 4 * j)) t.dev ∧
        s.dev.changesOnly [.regs, .pwr, .evt, .out] t.dev ∧ s.keepsMem t))

/-- LM_PRESENT_N falling shows the module; 2 s later its wear record is found or made, it comes to ModuleReady or, unsuited, stays in
low power, and LM_INSERTED is raised. Rising, the port's link goes down, an undrained module's frames in flight are dropped, and
LM_REMOVED is raised. A poll takes temperature, state and alarm. Every hour the record advances, and a lane at 100 + BIAS_EOL
percent of its baseline ends the module's life, once. DRAIN stops the port and the module; its end brings it back. (Choices of the
model it rests on: log 3, 5, 48, 92.) (R354, R355, R356, R357, R359, R386, R400) -/
def Obligations.LineModules : Prop :=
  (∀ (s : State) (m : Nat), s.ready = true →
    (8 ≤ m ∨ s.dev.mode = .reset → exec (.lmPresentFall m) s = .next s) ∧
    (m < 8 → s.dev.mode ≠ .reset → Answers (.lmPresentFall m) s fun t => t.dev.modPresent m = true ∧ t.dev.flag Reg.LMD_STATUS (8 + m) = true ∧
      t.dev.lmd = { s.dev.lmd with fell := recSet s.dev.lmd.fell m s.dev.now } ∧ s.dev.keepsRegs [modStat m, Reg.LMD_STATUS] t.dev ∧
      s.dev.changesOnly [.regs, .lmd] t.dev ∧ s.keepsMem t)) ∧
  (∀ (s : State) (m at_ : Nat) (id : ModuleId), s.ready = true → m < 8 →
    (tabFind s.dev.lmd.fell m = none → exec (.lmInsertDelay m id) s = .next s) ∧
    (tabFind s.dev.lmd.fell m = some at_ → s.dev.reachNow (at_ + 3000000000) = none → exec (.lmInsertDelay m id) s = .next s) ∧
    (∀ e, tabFind s.dev.lmd.fell m = some at_ → s.dev.reachNow (at_ + 3000000000) = some e →
      (id.ok = false → exec (.lmInsertDelay m id) s = .next { s with dev := e }) ∧
      (id.ok = true → tabSorted e.lmd.recs = true → (∀ r ∈ e.lmd.recs, r.1 < 128) → id.cmis < 16 → Answers (.lmInsertDelay m id) s fun t =>
        ∃ (k : Nat) (w : Wear), tabFind t.dev.lmd.recs k = some w ∧ k < 128 ∧ (∀ j, j ≠ k → tabFind t.dev.lmd.recs j = tabFind e.lmd.recs j) ∧
          w.key = id.vendor ++ id.serial ∧ w.lastPort = m ∧ w.lastSeen = clkSec e.tim.dt ∧ w.serial = id.serial ∧
          (∀ r, e.lmd.recs.find? (fun r => r.2.key == id.vendor ++ id.serial) = some r →
            k = r.1 ∧ w = { r.2 with lastPort := m, lastSeen := clkSec e.tim.dt, serial := id.serial }) ∧
          ((∀ r ∈ e.lmd.recs, r.2.key ≠ id.vendor ++ id.serial) →
            w = { key := id.vendor ++ id.serial, lastPort := m, lastSeen := clkSec e.tim.dt, serial := id.serial } ∧
            ((∃ j, j < 128 ∧ tabFind e.lmd.recs j = none) → tabFind e.lmd.recs k = none) ∧
            (∀ r ∈ e.lmd.recs, (∀ j ∈ tabKeys e.lmd.hourAt, e.fld (modStat j) 6 0 ≠ r.1) → (∀ j, j < 128 → tabFind e.lmd.recs j ≠ none) →
              ∃ o, tabFind e.lmd.recs k = some o ∧ o.lastSeen ≤ r.2.lastSeen)) ∧
          t.dev.fld (modStat m) 6 0 = k ∧ t.dev.flag (modStat m) 30 = id.suits ∧ t.dev.flag (modStat m) 29 = !id.suits ∧
          t.dev.fld (modStat m) 27 24 = (if id.suits then 3 else id.cmis) ∧ t.dev.flag Reg.LMD_STATUS (16 + m) = w.eol ∧
          t.dev.lmd.hourAt = recSet e.lmd.hourAt m e.now ∧ t.dev.lmd.fell = tabErase e.lmd.fell m ∧ e.raised Src.LM_INSERTED t.dev ∧
          e.keepsRegsE [modStat m, Reg.LMD_STATUS] t.dev ∧ e.changesOnly [.regs, .lmd, .evt, .out] t.dev ∧ s.keepsMem t))) ∧
  (∀ (s : State) (m : Nat), s.ready = true →
    (8 ≤ m ∨ s.dev.mode = .reset ∨ s.dev.modPresent m = false → exec (.lmPresentRise m) s = .next s) ∧
    (m < 8 → s.dev.mode ≠ .reset → s.dev.modPresent m = true → (∀ x ∈ s.dev.pci.inFlight, x.ring < 33) → Answers (.lmPresentRise m) s fun t =>
      t.dev.reg (modStat m) = (if s.dev.drainedMod m then 0x10000000 else 0) ∧
      (∀ j, j = m ∨ j = 8 + m ∨ j = 16 + m → t.dev.flag Reg.LMD_STATUS j = false) ∧ (t.dev.macPort m).up = false ∧
      ((s.dev.macPort m).up = true → s.dev.raised (Src.PORT_LINK_DOWN + m) t.dev) ∧ s.dev.raised Src.LM_REMOVED t.dev ∧
      t.dev.lmd = { s.dev.lmd with fell := tabErase s.dev.lmd.fell m, hourAt := tabErase s.dev.lmd.hourAt m } ∧
      (s.dev.drainedMod m = true → s.dev.keepsRegsE [modStat m, Reg.LMD_STATUS] t.dev ∧ s.dev.changesOnly [.regs, .mac, .lmd, .evt, .out] t.dev ∧ s.keepsMem t) ∧
      (s.dev.drainedMod m = false → (t.dev.egPort m).sel = [] ∧ (t.dev.egPort m).fifo = [] ∧ (∀ q, q ≠ m → t.dev.egPort q = s.dev.egPort q)))) ∧
  (∀ (s : State) (m : Nat) (mon : ModuleMon), s.ready = true →
    (tabFind s.dev.lmd.hourAt m = none → exec (.lmPoll m mon) s = .next s) ∧
    (∀ x, tabFind s.dev.lmd.hourAt m = some x → m < 8 → mon.cmis < 16 → Answers (.lmPoll m mon) s fun t =>
      t.dev.fld (modStat m) 15 8 = (mon.temp % 256).toNat ∧ t.dev.fld (modStat m) 27 24 = mon.cmis ∧ t.dev.flag Reg.LMD_STATUS m = mon.alarm ∧
      (mon.alarm = true → s.dev.flag Reg.LMD_STATUS m = false → s.dev.raised Src.LM_ALARM t.dev) ∧
      s.dev.keepsRegsE [modStat m, Reg.LMD_STATUS] t.dev ∧ s.dev.changesOnly [.regs, .evt, .out] t.dev ∧ s.keepsMem t)) ∧
  (∀ (s : State) (mons : List ModuleMon), s.ready = true → (∀ x ∈ mons, x.cmis < 16) → Answers (.lmInt mons) s fun t =>
    (∀ m mon, m < 8 → mons[m]? = some mon → (tabFind s.dev.lmd.hourAt m).isSome = true →
      t.dev.fld (modStat m) 15 8 = (mon.temp % 256).toNat ∧ t.dev.fld (modStat m) 27 24 = mon.cmis ∧ t.dev.flag Reg.LMD_STATUS m = mon.alarm ∧
      (mon.alarm = true → s.dev.flag Reg.LMD_STATUS m = false → s.dev.raised Src.LM_ALARM t.dev)) ∧
    (∀ m, m < 8 → mons[m]? = none ∨ tabFind s.dev.lmd.hourAt m = none → t.dev.reg (modStat m) = s.dev.reg (modStat m) ∧
      t.dev.flag Reg.LMD_STATUS m = s.dev.flag Reg.LMD_STATUS m) ∧
    s.dev.keepsRegsE (Reg.LMD_STATUS :: (List.range 8).map modStat) t.dev ∧ s.dev.changesOnly [.regs, .evt, .out] t.dev ∧ s.keepsMem t) ∧
  (∀ (w : Wear) (h : WearHour) (m now : Nat), (w.hour h m now).lastSeen = now ∧ (w.hour h m now).lastPort = m ∧ (w.hour h m now).eol = w.eol ∧
    (w.hour h m now).laserHours = min (2 ^ 20 - 1) (w.laserHours + if h.laser then 1 else 0) ∧
    (w.hour h m now).excHours = min 65535 (w.excHours + if h.hot then 1 else 0) ∧ (w.hour h m now).excursions = min 65535 (w.excursions + h.rises) ∧
    (w.hour h m now).maxTemp = max w.maxTemp h.maxTemp ∧ (h.laser = false → (w.hour h m now).hours = w.hours ∧ (w.hour h m now).baseSum = w.baseSum) ∧
    (h.laser = true → (w.hour h m now).hours = (h.bias :: w.hours).take 720) ∧
    (h.laser = true → w.baseHours < 100 → (w.hour h m now).baseHours = w.baseHours + 1 ∧
      ∀ i, (w.hour h m now).baseSum.getD i 0 = w.baseSum.getD i 0 + h.bias.getD i 0) ∧
    (100 ≤ w.baseHours → (w.hour h m now).baseHours = w.baseHours ∧ (w.hour h m now).baseSum = w.baseSum)) ∧
  (∀ (s : State) (m at_ : Nat) (h : WearHour), s.ready = true → m < 8 →
    (tabFind s.dev.lmd.hourAt m = none → exec (.wearRecordUpdate m h) s = .next s) ∧
    (tabFind s.dev.lmd.hourAt m = some at_ → s.dev.reachNow (at_ + 5400000000000) = none → exec (.wearRecordUpdate m h) s = .next s) ∧
    (∀ e w w', tabFind s.dev.lmd.hourAt m = some at_ → s.dev.reachNow (at_ + 5400000000000) = some e →
      (tabFind e.lmd.recs (e.fld (modStat m) 6 0) = none → exec (.wearRecordUpdate m h) s = .next { s with dev := e }) ∧
      (tabFind e.lmd.recs (e.fld (modStat m) 6 0) = some w → w' = w.hour h m (clkSec e.tim.dt) → Answers (.wearRecordUpdate m h) s fun t =>
        tabFind t.dev.lmd.recs (e.fld (modStat m) 6 0) = some { w' with eol := w.eol || (List.range w'.baseSum.length).any (fun i => decide (((100 + e.fld Reg.LMD_CFG 23 16 : Nat) : Rat) ≤ laneTrend w' i)) } ∧
        t.dev.lmd.hourAt = recSet e.lmd.hourAt m e.now ∧
        (∀ i, i < w'.baseSum.length → ((100 + e.fld Reg.LMD_CFG 23 16 : Nat) : Rat) ≤ laneTrend w' i → w.eol = false →
          t.dev.flag Reg.LMD_STATUS (16 + m) = true ∧ e.raised Src.LM_END_OF_LIFE t.dev) ∧
        (w.eol = true → e.keepsRegs [] t.dev ∧ e.changesOnly [.lmd] t.dev) ∧ e.keepsRegsE [Reg.LMD_STATUS] t.dev ∧
        e.changesOnly [.regs, .lmd, .evt, .out] t.dev ∧ s.keepsMem t))) ∧
  (∀ (s : State) (p : Path) (m : Nat) (v w : Word) (c : Instr), s.ready = true →
    (c = Instr.lmdDrain p m v ∧ w = v ||| 0x80000000) ∨ (c = Instr.lmdModReset p m v ∧ w = v ||| 0x40000000) →
    (8 ≤ m → exec c s = .next s) ∧
    (m < 8 → Answers c s fun t => t.dev.flag (modCtrl m) 31 = bit w 31 ∧
      t.dev.out = (if bit w 30 then [.pin (8 + m) 1, .pin (8 + m) 0] ++ s.dev.out else s.dev.out) ∧
      (bit w 31 = true → s.dev.flag (modCtrl m) 31 = false → t.dev.flag (Reg.EGS_PORT_CFG + portOfs m) 31 = false ∧ t.dev.drainedMod m = true ∧
        t.dev.flag (modStat m) 30 = false ∧ t.dev.fld (modStat m) 27 24 = (if s.dev.modPresent m then 1 else 0)) ∧
      (bit w 31 = false → s.dev.flag (modCtrl m) 31 = true → t.dev.drainedMod m = false ∧
        (s.dev.modPresent m = true → s.dev.flag (modStat m) 29 = false → t.dev.flag (modStat m) 30 = true ∧ t.dev.fld (modStat m) 27 24 = 3)) ∧
      (bit w 31 = s.dev.flag (modCtrl m) 31 → s.dev.keepsRegs [] t.dev) ∧
      s.dev.keepsRegs [modCtrl m, modStat m, Reg.EGS_PORT_CFG + portOfs m] t.dev ∧ s.dev.changesOnly [.regs, .out] t.dev ∧ s.keepsMem t)) ∧
  (∀ (s : State) (b : Nat), s.ready = true → (4 ≤ b ∨ s.dev.mode = .reset → exec (.lmBusStuck b) s = .next s) ∧
    (b < 4 → s.dev.mode ≠ .reset → Answers (.lmBusStuck b) s fun t => t.dev.out = .pin (16 + b) 9 :: s.dev.out ∧ s.dev.changesOnly [.out] t.dev ∧ s.keepsMem t))

/-- A read by the window returns DRAM, zero beyond the capacity and in the vault area, with EP for a poisoned block; a write changes
those of its bytes that lie in no critical allocation nor beyond the capacity, and nothing else. A doorbell sets TAIL, from the
next clock on. A punted item fills descriptors from HEAD, OWN cleared, and HEAD advances. An injected item is judged BAD_DESC,
MODE or NO_LEG, or goes to its port, leg or parser, and is written back. A task's record is written while the ring has room and
frees its entry. A ring's message goes out COAL_US after the first completion. (Choices of the model it rests on: log 3, 12, 52,
53, 54.) (R55, R362, R364, R365, R366, R367, R368) -/
def Obligations.WindowAndRings : Prop :=
  (∀ (s : State) (ofs len a : Nat), s.ready = true → a = s.dev.fld Reg.PCI_WIN_BASE 8 0 * 2 ^ 28 + ofs % 2 ^ 32 → Answers (.bar2Read ofs len) s fun t =>
    ∃ data ep, t.dev.out.head? = some (.bar2 data ep) ∧ (ep = false → t.dev.out.tail = s.dev.out) ∧ data.length = len ∧
      (ep = true ↔ ∃ i, i < len ∧ a + i < s.dev.capBytes ∧ s.dev.poisoned (a + i) = true) ∧
      (∀ i, i < len → (s.dev.capBytes ≤ a + i → data[i]? = some 0) ∧
        (∀ x, a + i < s.dev.capBytes → s.dev.allocAt (a + i) = some x → x.use = 5 → data[i]? = some 0) ∧
        (a + i < s.dev.capBytes → s.dev.poisoned (a + i) = false → (∀ x, s.dev.allocAt (a + i) = some x → x.use = 0x20) →
          data[i]? = some (memByte s.dram (a + i)))) ∧
      (ep = false → s.dev.changesOnly [.free, .out, .mem] t.dev) ∧
      (ep = true → s.dev.counted Reg.MEM_CNT_LO 2 ((touchedBlocks a len).filter (fun b => decide (b * 128 < s.dev.capBytes) && s.dev.poisoned (b * 128))).length t.dev ∧
        (Src.MEM_UE_BULK ∉ s.dev.evt.once → s.dev.raised Src.MEM_UE_BULK t.dev)) ∧
      (∀ i, t.dev.poisoned i = s.dev.poisoned i) ∧
      t.dev.free = s.dev.free + len ∧ s.dev.changesOnly [.regs, .evt, .free, .out, .mem] t.dev ∧ s.keepsMem t) ∧
  (∀ (s : State) (ofs a : Nat) (data : List Byte), s.ready = true → s.dev.mode ≠ .reset →
    a = s.dev.fld Reg.PCI_WIN_BASE 8 0 * 2 ^ 28 + ofs % 2 ^ 32 → Answers (.bar2Write ofs data) s fun t =>
    (∀ b, memByte t.dram b = if a ≤ b ∧ b < a + data.length ∧ b < s.dev.capBytes ∧ s.dev.criticalAt b = false ∧ b < 2 ^ 36 then data.getD (b - a) 0
      else memByte s.dram b) ∧
    (∀ k, (∀ b, k * 128 ≤ b → b < k * 128 + 128 → a ≤ b ∧ b < a + data.length) →
      (∀ i, i < data.length → a + i < s.dev.capBytes ∧ s.dev.criticalAt (a + i) = false) → t.dev.poisoned (k * 128) = false) ∧
    ((∃ i, i < data.length ∧ a + i < s.dev.capBytes ∧ s.dev.criticalAt (a + i) = true) →
      s.dev.counted Reg.PCI_CNT_LO 1 1 t.dev ∧ (Src.WIN_REFUSED ∉ s.dev.evt.once → s.dev.raised Src.WIN_REFUSED t.dev)) ∧
    ((∀ i, i < data.length → a + i < s.dev.capBytes → s.dev.criticalAt (a + i) = false) → s.dev.changesOnly [.mem, .free] t.dev) ∧
    s.dev.keepsRegsE [Reg.PCI_CNT_LO + 8, Reg.PCI_CNT_LO + 12] t.dev ∧ s.dev.changesOnly [.regs, .mem, .evt, .out, .free] t.dev ∧
    t.hostMem = s.hostMem ∧ t.pending = s.pending) ∧
  (∀ (s : State) (ring tail : Nat) (hw : HostWrites), s.ready = true →
    (16 ≤ ring → exec (.puntRingDoorbell ring tail hw) s = .next (s.stored hw) ∧ exec (.injectRingDoorbell ring tail hw) s = .next (s.stored hw)) ∧
    (∀ c r, ring < 16 → tail < 65536 → (c = Instr.puntRingDoorbell ring tail hw ∧ r = ring) ∨ (c = Instr.injectRingDoorbell ring tail hw ∧ r = 16 + ring) →
      Answers c s fun t => t.dev.fld (Reg.RING_TAIL + ringOfs r) 15 0 = tail ∧ s.dev.keepsRegs [Reg.RING_TAIL + ringOfs r] t.dev ∧
        t.dev.ringTail r = s.dev.ringTail r ∧ (∀ e : Dev, e.now ≠ s.dev.now → e.pci = t.dev.pci → e.regs = t.dev.regs → e.ringTail r = tail) ∧
        t.dev.ringRec r = { s.dev.ringRec r with bell := some (s.dev.now, s.dev.ringTail r) } ∧ (∀ x, x ≠ r → t.dev.ringRec x = s.dev.ringRec x) ∧
        s.dev.changesOnly [.regs, .pci] t.dev ∧ (s.stored hw).keepsMem t)) ∧
  (∀ (it : Item) (auth total k n len : Nat) (lost : Bool) (p : Punt), it.punt = some p → len < 65536 → total < 65536 →
    (puntDesc it auth total k n len lost).length = 24 ∧ byteAt (puntDesc it auth total k n len lost) 2 = p.reason % 256 ∧
    le16 (puntDesc it auth total k n len lost) 4 = len ∧ le16 (puntDesc it auth total k n len lost) 16 = total ∧
    (auth < 4 → byteAt (puntDesc it auth total k n len lost) 3 = (if k = 0 then 64 else 0) + (if k + 1 = n then 32 else 0) +
      (if p.partialRtcp then 16 else 0) + (if p.sampled then 8 else 0) + (if lost then 4 else 0) + auth)) ∧
  (∀ (s : State) (ring : Nat), s.ready = true →
    (16 ≤ ring ∨ s.dev.ringOn ring = false ∨ s.dev.hostQueue ring = none → exec (.puntDeliver ring) s = .next s) ∧
    (∀ q, s.dev.hostQueue ring = some q → (s.dev.queue q).front = none → exec (.puntDeliver ring) s = .next s) ∧
    (∀ q it pl bytes size n, ring < 16 → s.dev.ringOn ring = true → s.dev.hostQueue ring = some q → (s.dev.queue q).front = some it →
      s.dev.payload it.uid = some pl → bytes = pl.bytes.take (pl.bytes.length - 4) → size = s.dev.fld (Reg.RING_CFG + ringOfs ring) 6 0 * 256 →
      n = max 1 (ceilDiv bytes.length size) →
      ((∃ k, k < n ∧ (s.dev.ringPosted ring ≤ k ∨ byteAt (memBytes s.hostMem (s.dev.ringSlot ring k) 12) 11 < 128)) → exec (.puntDeliver ring) s = .next s) ∧
      ((∀ k, k < n → k < s.dev.ringPosted ring ∧ 128 ≤ byteAt (memBytes s.hostMem (s.dev.ringSlot ring k) 12) 11) →
        (s.dev.queue q).release ≤ (s.dev.queue q).read → (∀ x ∈ s.dev.pci.inFlight, 16 ≤ x.ring ∧ x.ring < 32) →
        Does (.puntDeliver ring) s fun d =>
          (∃ rest, d.pci.writes = (List.range n).flatMap (fun k =>
            [(leNat (memBytes s.hostMem (s.dev.ringSlot ring k) 8), slice bytes (k * size) size),
             (s.dev.ringSlot ring k + 8, puntDesc it pl.auth bytes.length k n (slice bytes (k * size) size).length ((s.dev.ringRec ring).lost && k == 0))]) ++ rest) ∧
          d.fld (Reg.RING_HEAD + ringOfs ring) 15 0 = (s.dev.ringHead ring + n) % s.dev.ringSize ring % 65536 ∧ (d.ringRec ring).lost = false ∧
          (d.queue q).read = (s.dev.queue q).read + 1))) ∧
  (∀ (s : State) (ring kind : Nat) (c : Instr), s.ready = true →
    c = .injectRawPort ring ∧ kind = 1 ∨ c = .injectLegCtrl ring ∧ kind = 2 ∨ c = .injectReparse ring ∧ kind = 3 →
    (16 ≤ ring ∨ s.dev.ringOn (16 + ring) = false → exec c s = .next s) ∧
    (∀ own, ring < 16 → s.dev.ringOn (16 + ring) = true →
      own = ((List.range (s.dev.ringPosted (16 + ring) - (s.dev.ringRec (16 + ring)).taken)).map (fun k =>
        injDesc s.hostMem (s.dev.ringSlot (16 + ring) ((s.dev.ringRec (16 + ring)).taken + k)))).takeWhile (fun x => decide (128 ≤ x.flags)) →
      (injItem own [] = none → exec c s = .next s) ∧
      (∀ x xs marks, injItem own [] = some (x :: xs, marks) →
        (x.kind ≠ kind → 1 ≤ x.kind → x.kind ≤ 3 → exec c s = .next s) ∧
        (∀ (e : Dev) (bytes : List Byte) (w : Nat) (status : Nat), bytes = (x :: xs).flatMap (fun y => memBytes s.hostMem y.addr y.len) → w = 16 + ring →
          e = s.dev.setRing w { s.dev.ringRec w with taken := (s.dev.ringRec w).taken + (x :: xs).length } →
          x.kind = kind ∨ x.kind = 0 ∨ 3 < x.kind →
          status = (if marks = false ∨ 9216 < bytes.length ∨ x.kind ≠ kind then 1
            else if s.dev.mode = .reset ∨ s.dev.mode = .boot ∨ s.dev.mode = .zeroize then 4
            else if kind = 2 ∧ (s.dev.egsLeg x.leg).b 0 31 = false then 2
            else if kind = 3 ∧ s.dev.traffic = false ∧ s.dev.mode ≠ .test then 3 else 0) →
          Does c s fun d =>
            (status ≠ 0 → d = (e.putStatus w ((s.dev.ringHead w + (s.dev.ringRec w).taken) % s.dev.ringSize w)
              ((x :: xs).map (fun y => BitVec.ofNat 8 y.flags)) status 0).ringAdvance w) ∧
            (status = 0 → kind = 3 → d = ((e.ingress x.port (bytes ++ toLe 4 (crc32 bytes)) s.dev.dtNs []).putStatus w
              ((s.dev.ringHead w + (s.dev.ringRec w).taken) % s.dev.ringSize w) ((x :: xs).map (fun y => BitVec.ofNat 8 y.flags)) 0
              (e.ingress x.port (bytes ++ toLe 4 (crc32 bytes)) s.dev.dtNs []).dtNs).ringAdvance w) ∧
            (status = 0 → kind = 1 → ∃ f : EgFrame, (d.egPort x.port).raw = (s.dev.egPort x.port).raw ++ [f] ∧ f.cls = x.cls ∧ f.bytes = bytes ∧
              f.len = bytes.length + 4 ∧ f.launch = (if x.flags.testBit 3 then some x.launch else none) ∧
              (∃ y ∈ d.pci.inFlight, y.uid = f.item.uid ∧ y.ring = w ∧ y.flags = (x :: xs).map (fun y => BitVec.ofNat 8 y.flags)) ∧
              (∀ p, p ≠ x.port → d.egPort p = s.dev.egPort p) ∧ s.dev.changesOnly [.que, .pci, .egs] d) ∧
            (∀ q, status = 0 → kind = 2 → e.streamQueue ((e.egsLeg x.leg).f 1 17 0) = some q → ∃ (g : Dev) (it : Item), d = g.enqueue q it ∧
              it.protect = x.flags.testBit 4 ∧ it.desc.f 2 13 0 = x.leg % 16384 ∧ (∃ pl, g.payload it.uid = some pl ∧ pl.bytes = bytes) ∧
              (∃ y ∈ g.pci.inFlight, y.uid = it.uid ∧ y.ring = w) ∧ s.dev.changesOnly [.que, .pci] g))))) ∧
  (∀ (s : State) (ring : Nat), s.ready = true →
    ((s.dev.ringRec ring).firstAt = none → exec (.ringCoalTimer ring) s = .next s) ∧
    (∀ at_, (s.dev.ringRec ring).firstAt = some at_ → ring < 33 →
      (s.dev.reachNow (at_ + s.dev.fld (Reg.RING_IRQ + ringOfs ring) 23 16 * 1500) = none → exec (.ringCoalTimer ring) s = .next s) ∧
      (∀ e, s.dev.reachNow (at_ + s.dev.fld (Reg.RING_IRQ + ringOfs ring) 23 16 * 1500) = some e → Answers (.ringCoalTimer ring) s fun t =>
        t.dev.ringRec ring = { s.dev.ringRec ring with since := 0, firstAt := none } ∧ (∀ r, r ≠ ring → t.dev.ringRec r = s.dev.ringRec r) ∧
        (∀ v, v = e.fld (Reg.RING_IRQ + ringOfs ring) 29 24 → e.flag (Reg.RING_IRQ + ringOfs ring) 31 = true → e.flag Reg.PCI_STATUS 31 = true →
          v ∉ e.evt.sent → if e.flag (Reg.MSIX_CTRL + 16 * v) 0 then t.dev.flag (Reg.MSIX_PBA + 4 * (v / 32)) (v % 32) = true else t.dev.out = .msix v :: e.out) ∧
        e.keepsRegsE [] t.dev ∧ e.changesOnly [.regs, .pci, .evt, .out] t.dev ∧ s.keepsMem t))) ∧
  (∀ (h : Nat) (x : Task), x.kind < 16 → 5 ≤ x.st → x.st < 9 → x.tmpl < 256 → x.region < 256 → (completionRec h x).length = 32 ∧
    le32 (completionRec h x) 0 = h % 2 ^ 24 + x.kind * 2 ^ 24 + (x.st - 5) * 2 ^ 28 ∧ byteAt (completionRec h x) 4 = x.tmpl ∧
    byteAt (completionRec h x) 5 = x.region ∧ le16 (completionRec h x) 6 = x.flock % 65536 ∧ le32 (completionRec h x) 8 = x.media % 2 ^ 32 ∧
    le32 (completionRec h x) 12 = x.ended % 2 ^ 32 ∧ byteAt (completionRec h x) 16 = x.quality % 256 ∧ ∀ k, 17 ≤ k → byteAt (completionRec h x) k = 0) ∧
  (∀ (s : State) (k : Nat), s.ready = true →
    (s.dev.task k = none → exec (.completionRecordWrite k) s = .next s) ∧
    (∀ x, s.dev.task k = some x →
      (x.st < 5 ∨ x.notify = false ∨ x.filling = true ∨ s.dev.ringOn 32 = false ∨ s.dev.ringPosted 32 = 0 → exec (.completionRecordWrite k) s = .next s) ∧
      (5 ≤ x.st → x.notify = true → x.filling = false → s.dev.ringOn 32 = true → 0 < s.dev.ringPosted 32 → Answers (.completionRecordWrite k) s fun t =>
        t.hostMem = memPut (2 ^ 64) s.hostMem (s.dev.ringSlot 32 0) (completionRec (s.dev.handle k) x) ∧ t.dram = s.dram ∧ t.pending = s.pending ∧
        t.dev.task k = none ∧ (∀ j, j ≠ k → t.dev.task j = s.dev.task j) ∧
        t.dev.fld (Reg.RING_HEAD + ringOfs 32) 15 0 = (s.dev.ringHead 32 + 1) % s.dev.ringSize 32 % 65536 ∧
        s.dev.keepsRegsE [Reg.RING_HEAD + ringOfs 32] t.dev ∧ s.dev.changesOnly [.regs, .tsk, .pci, .evt, .out] t.dev)))

/-- The link going down clears LINK_UP and raises PCIE_LINK_DOWN, to no host vector; coming up it shows its width and rate. A
function-level reset clears rings, mailbox and MSI-X table, counts itself, and silences the command in progress. An uncorrectable
error is raised. A write of EVT_STAT clears the bits written, those set in the same clock stay, every enabled source left at 1 but
PCIE_LINK_DOWN signals its vector again, and EVENT_N stays low for that clock. Unmasking sends a pending message. (Choices of the
model it rests on: log 50, 51, 80, 125.) (R10, R361, R363, R375) -/
def Obligations.LinkEventsAndReset : Prop :=
  (∀ s : State, s.ready = true →
    (s.dev.flag Reg.PCI_STATUS 31 = false → exec .pcieLinkDown s = .next s) ∧
    (s.dev.flag Reg.PCI_STATUS 31 = true → Answers .pcieLinkDown s fun t => t.dev.flag Reg.PCI_STATUS 31 = false ∧ s.dev.raised Src.PCIE_LINK_DOWN t.dev ∧
      (∀ v, Emission.msix v ∈ t.dev.out → .msix v ∈ s.dev.out) ∧ s.dev.keepsRegsE [Reg.PCI_STATUS] t.dev ∧ s.dev.changesOnly [.regs, .evt, .out] t.dev ∧ s.keepsMem t) ∧
    (s.dev.mode = .reset ∨ s.dev.flag Reg.PCI_STATUS 31 = true → exec .pcieLinkUp s = .next s) ∧
    (s.dev.mode ≠ .reset → s.dev.flag Reg.PCI_STATUS 31 = false → Answers .pcieLinkUp s fun t => t.dev.flag Reg.PCI_STATUS 31 = true ∧
      t.dev.fld Reg.PCI_STATUS 27 24 ∈ [1, 2, 4, 8] ∧ 1 ≤ t.dev.fld Reg.PCI_STATUS 19 16 ∧ t.dev.fld Reg.PCI_STATUS 19 16 ≤ 5 ∧
      t.dev.free = s.dev.free + 2 ∧ s.dev.keepsRegs [Reg.PCI_STATUS] t.dev ∧ s.dev.changesOnly [.regs, .free] t.dev ∧ s.keepsMem t) ∧
    (s.dev.mode = .reset → exec .pcieUncorrectableError s = .next s) ∧
    (s.dev.mode ≠ .reset → Answers .pcieUncorrectableError s fun t => s.dev.raised Src.PCIE_ERROR t.dev ∧ s.dev.keepsRegsE [] t.dev ∧
      s.dev.changesOnly [.regs, .evt, .out] t.dev ∧ s.keepsMem t) ∧
    Answers .functionLevelReset s (fun t => t.dev.pci.rings = [] ∧ t.dev.pci.inFlight = [] ∧ t.dev.pci.mbx = {} ∧
      (∀ o, (Reg.RING_BASE_LO ≤ o ∧ o < Reg.RING_BASE_LO + 0x840) ∨ (Reg.MSIX_ADDR_LO ≤ o ∧ o < Reg.MSIX_PBA) → t.dev.reg o = regReset o) ∧
      (∀ r, r < 33 → t.dev.ringOn r = false) ∧ t.dev.fld Reg.PCI_STATUS 7 0 = min 255 (s.dev.fld Reg.PCI_STATUS 7 0 + 1) ∧
      s.dev.raised Src.FLR_DONE t.dev ∧
      (∀ o, ¬(Reg.RING_BASE_LO ≤ o ∧ o < Reg.RING_BASE_LO + 0x840) → ¬(Reg.MSIX_ADDR_LO ≤ o ∧ o < Reg.MSIX_PBA + 8) → o ≠ Reg.PCI_STATUS →
        evtReg o = false → t.dev.reg o = s.dev.reg o) ∧ s.dev.changesOnly [.regs, .pci, .evt, .out] t.dev ∧ s.keepsMem t)) ∧
  (∀ (d : Dev) (op seq at_ st : Nat) (q : Bool) (data : List Byte), d.pci.mbx.busy = some (op, seq, at_, q) →
    (functionLevelReset d).pci.mbx.busy = some (op, seq, at_, true) ∧ (functionLevelReset d).pci.mbx.resp = none ∧
    ((functionLevelReset d).mbxEnd st data).pci.mbx.busy = none ∧ ((functionLevelReset d).mbxEnd st data).pci.mbx.resp = none ∧
    ((functionLevelReset d).mbxEnd st data).out = (functionLevelReset d).out) ∧
  (∀ (s : State) (p : Path) (w : Nat) (v sets : Word), s.ready = true →
    (20 ≤ w → exec (.evtStatWrite p w v sets) s = .next s) ∧
    (w < 20 → Answers (.evtStatWrite p w v sets) s fun t =>
      (∀ i, i < 32 → 32 * w + i ≠ Src.EVENT_LOG_OVERRUN → t.dev.evtStat (32 * w + i) = (if bit sets i = true ∧ s.dev.evtEnabled (32 * w + i) = true ∧
        (evtSeverity (32 * w + i)).isSome = true then true else s.dev.evtStat (32 * w + i) && !bit v i)) ∧
      (∀ x, x / 32 ≠ w → x ≠ Src.EVENT_LOG_OVERRUN → x < 640 → t.dev.evtStat x = s.dev.evtStat x) ∧
      (∀ x u, x < 640 → x ≠ Src.PCIE_LINK_DOWN → t.dev.evtStat x = true → t.dev.evtEnabled x = true → bit (t.dev.evtCfg x) 28 = true → u = bits (t.dev.evtCfg x) 5 0 →
        t.dev.flag Reg.PCI_STATUS 31 = true → u ∈ t.dev.evt.sent ∨ t.dev.flag (Reg.MSIX_PBA + 4 * (u / 32)) (u % 32) = true) ∧
      (s.dev.pinCause = true → t.dev.eventPin = true) ∧
      s.dev.keepsRegsE [] t.dev ∧ s.dev.changesOnly [.regs, .evt, .out] t.dev ∧ s.keepsMem t)) ∧
  (∀ (s : State) (v : Nat), s.ready = true →
    (64 ≤ v → exec (.msixUnmask v) s = .next s) ∧
    (v < 64 → Answers (.msixUnmask v) s fun t => t.dev.flag (Reg.MSIX_CTRL + 16 * v) 0 = false ∧
      (s.dev.flag (Reg.MSIX_PBA + 4 * (v / 32)) (v % 32) = true → s.dev.flag Reg.PCI_STATUS 31 = true →
        t.dev.flag (Reg.MSIX_PBA + 4 * (v / 32)) (v % 32) = false ∧ (v ∉ s.dev.evt.sent → t.dev.out = .msix v :: s.dev.out)) ∧
      (s.dev.flag (Reg.MSIX_PBA + 4 * (v / 32)) (v % 32) = false ∨ s.dev.flag Reg.PCI_STATUS 31 = false → s.dev.changesOnly [.regs] t.dev ∧
        s.dev.keepsRegs [Reg.MSIX_CTRL + 16 * v] t.dev) ∧
      s.dev.keepsRegsE [Reg.MSIX_CTRL + 16 * v] t.dev ∧ s.dev.changesOnly [.regs, .evt, .out] t.dev ∧ s.keepsMem t))

/-- A command is taken in the modes of Table 17.4, with neither firmware copy running only GET_INFO and FW_WRITE; elsewhere it answers
MODE, and a GO under BUSY sets REFUSED. GET_INFO, EVENT_LOG, PORT_READ, LM_READ, ROLLBACK_SET, FW_WRITE answer with their data or
BAD_LEN, DENIED, TIMEOUT; MODE_SET answers the result of its request, SPRINT_REQ the condition that fails, LOAD_REGION the code of
its load once that ends, FW_SWITCH after the restart. A command still in progress at its limit ends with TIMEOUT. (Choices of the
model it rests on: log 10, 44, 45, 79.) (R330, R333, R349, R369, R370, R371, R372) -/
def Obligations.MailboxCommands : Prop :=
  (∀ (d : Dev) (op : Nat), d.mbxTakes op = true ↔ (d.flag Reg.TOP_STATUS 31 = false ∨ op = 1 ∨ op = 10) ∧
    ((op ∈ [1, 2, 10] ∧ d.mode ≠ .reset) ∨ (op ∈ [3, 12, 14] ∧ d.mode ∈ [Mode.configure, .service]) ∨
     (op ∈ [4, 8, 13] ∧ d.mode ∉ [Mode.reset, .boot]) ∨ (op = 5 ∧ d.mode ∉ [Mode.reset, .boot, .test, .zeroize]) ∨
     (op ∈ [6, 11] ∧ d.mode ∉ [Mode.reset, .boot, .zeroize]) ∨ (op = 7 ∧ d.mode ∈ [Mode.service, .sprint]) ∨ (op = 9 ∧ d.mode = .zeroize))) ∧
  (∀ (s : State) (seq a b n op : Nat) (f : Bool) (v : Word) (bs : List Byte) (rs : List (List Byte)) (c : Instr), s.ready = true →
    (c, op) ∈ [(Instr.getInfo seq, 1), (.modeSet seq a f, 2), (.loadRegion seq v a b [], 3), (.attest seq bs, 4), (.importOpen seq bs bs, 5),
      (.importWrap seq a rs, 5), (.importClose seq a, 5), (.blobGet seq a b, 5), (.blobPut seq a b rs, 5), (.lmRead seq a b n n n bs, 6), (.sprintReq seq a, 7),
      (.eventLog seq a b, 8), (.provision seq, 9), (.fwWrite seq a b bs f, 10), (.fwSwitch seq, 11), (.rollbackSet seq a, 12), (.portRead seq a, 13),
      (.policySet seq bs, 14)] →
    (s.dev.mode = .reset → exec c s = .next s) ∧
    (s.dev.mode ≠ .reset → s.dev.mbxTakes op = false → Mails c op seq s fun st data d => st = 4 ∧ data = [] ∧ s.dev.keepsRegsE [] d ∧
      s.dev.changesOnly [.regs, .pci, .evt, .out] d)) ∧
  (∀ (s : State) (seq x y z : Nat) (q : Bool), s.sound = true → s.dev.tsk.todo = [] → s.dev.mode ≠ .reset → s.dev.pci.mbx.busy = some (x, y, z, q) → x ≠ 3 → x ≠ 7 →
    Answers (.getInfo seq) s fun t => t.dev = s.dev.setMbx { s.dev.pci.mbx with refused := true } ∧ s.keepsMem t) ∧
  (∀ (s : State) (seq : Nat), s.ready = true → s.dev.mbxTakes 1 = true → Mails (.getInfo seq) 1 seq s fun st data d => st = 0 ∧
    data = le4 (s.dev.reg Reg.TOP_ID).toNat ++ le4 s.dev.mode.code ++ Config.fwInfo (s.dev.fwChunks 0) ++ Config.fwInfo (s.dev.fwChunks 1) ++
      le4 (s.dev.fld Reg.TOP_STATUS 30 30) ++ le4 (s.dev.reg Reg.CFG_ROLLBACK).toNat ++ toLe 8 (s.dev.reg64 Reg.MUL_SERIAL_LO Reg.MUL_SERIAL_HI) ++
      Config.identityPublic ++ Config.kemPublic s.dev.vlt.kem ++ s.dev.cfg.otp.bytes ∧ s.dev.keepsRegsE [] d ∧ s.dev.changesOnly [.regs, .pci, .evt, .out] d) ∧
  (∀ (s : State) (seq target code : Nat) (f : Bool), s.ready = true → s.dev.mbxTakes 2 = true → code = s.dev.judgeMode (target % 16) f →
    (code ≠ 0 → Mails (.modeSet seq target f) 2 seq s fun st _ d => st = 0x100 + code ∧ d.reg Reg.TOP_MODE_RESULT = BitVec.ofNat 32 (2 ^ 31 + code) ∧
      d.mode = s.dev.mode ∧ d.pwr = s.dev.pwr) ∧
    (code = 0 → s.dev.mode.carries = true → Mails (.modeSet seq target f) 2 seq s fun st _ d => st = 0 ∧ d.reg Reg.TOP_MODE_RESULT = 0x80000000 ∧
      d.pwr.want = (modeOf (target % 16)).map (fun m => (m, s.dev.beat)) ∧ d.mode = s.dev.mode) ∧
    (code = 0 → s.dev.mode.carries = false → Does (.modeSet seq target f) s fun d => d.pci.mbx.resp = some (2, seq, 0, []) ∧ d.pci.mbx.busy = none ∧
      d.reg Reg.TOP_MODE_RESULT = 0x80000000 ∧ some d.mode = modeOf (target % 16))) ∧
  (∀ (s : State) (seq addr len : Nat) (v : Word) (hw : HostWrites), s.ready = true → s.dev.mbxTakes 3 = true →
    (s.dev.cfgBusy = true → cmdField Reg.CFG_CTRL 31 28 v ≠ 3 → DoesAfter (.loadRegion seq v addr len hw) hw s fun d =>
      d.pci.mbx.resp = some (3, seq, 0x101, []) ∧ d.pci.mbx.done = true ∧ d.cfg = s.dev.cfg) ∧
    (s.dev.cfgBusy = false ∨ cmdField Reg.CFG_CTRL 31 28 v = 3 → DoesAfter (.loadRegion seq v addr len hw) hw s fun d => ∃ e : Dev,
      d = cfgCtrl (hostPut s.hostMem hw) s.dram v e ∧ e.reg64 Reg.CFG_SRC_LO Reg.CFG_SRC_HI = addr % 2 ^ 64 ∧ e.reg Reg.CFG_SRC_LEN = BitVec.ofNat 32 len ∧
      e.pci.mbx.busy = some (3, seq, s.dev.now, false) ∧ s.dev.keepsRegs [Reg.CFG_SRC_LO, Reg.CFG_SRC_HI, Reg.CFG_SRC_LEN] e ∧ s.dev.changesOnly [.regs, .pci] e)) ∧
  (∀ (d : Dev) (seq at_ : Nat), (d.pci.mbx.busy = some (3, seq, at_, false) → d.cfgBusy = true → d.mailPoll = d) ∧
    (∀ code, d.pci.mbx.busy = some (3, seq, at_, false) → d.cfgBusy = false → code = d.fld Reg.CFG_STATUS 7 0 → d.mailPoll.pci.mbx.busy = none ∧
      d.mailPoll.pci.mbx.resp = some (3, seq, if code = 0 then 0 else 0x100 + code, toLe 4 (d.reg Reg.CFG_ERR_DETAIL).toNat) ∧ d.raised Src.MBX_DONE d.mailPoll) ∧
    (∀ code, d.pci.mbx.busy = some (7, seq, at_, false) → d.pwr.sprintReq = false → code = d.fld Reg.PWR_SPRINT_STAT 30 28 →
      d.mailPoll.pci.mbx.resp = some (7, seq, if code = 0 then 0 else 0x100 + code, []) ∧ d.mailPoll.pci.mbx.busy = none)) ∧
  (∀ (s : State) (seq op : Nat), s.ready = true → s.dev.mbxTakes 7 = true →
    (op = 1 → s.dev.sprintRefusal ≠ 0 → Mails (.sprintReq seq op) 7 seq s fun st _ d => st = 0x100 + s.dev.sprintRefusal ∧
      d.fld Reg.PWR_SPRINT_STAT 30 28 = s.dev.sprintRefusal ∧ s.dev.counted Reg.PWR_CNT_LO 4 1 d) ∧
    (op = 1 → s.dev.sprintRefusal = 0 → Answers (.sprintReq seq op) s fun t => t.dev.pwr.sprintReq = true ∧
      t.dev.pci.mbx = { s.dev.pci.mbx with busy := some (7, seq, s.dev.now, false) } ∧ s.dev.changesOnly [.regs, .pwr, .pci] t.dev ∧ s.keepsMem t) ∧
    (op = 2 → Mails (.sprintReq seq op) 7 seq s fun st _ d => st = 0 ∧ d.pwr.sprintEnd = (s.dev.pwr.sprintEnd || s.dev.sprinting)) ∧
    (op ≠ 1 → op ≠ 2 → Mails (.sprintReq seq op) 7 seq s fun st _ d => st = 3 ∧ d.pwr = s.dev.pwr)) ∧
  (∀ (s : State) (seq first count : Nat), s.ready = true → s.dev.mbxTakes 8 = true →
    (count = 0 ∨ 1024 < count → Mails (.eventLog seq first count) 8 seq s fun st data _ => st = 3 ∧ data = []) ∧
    (0 < count → count ≤ 1024 → Mails (.eventLog seq first count) 8 seq s fun st data _ => st = 0 ∧ data.length = 32 * count ∧
      ∀ k r, k < count → tabFind s.dev.evt.log ((first + k) % 4096) = some r → slice data (32 * k) 32 = r.bytes)) ∧
  (∀ (s : State) (seq p : Nat), s.ready = true → s.dev.mbxTakes 13 = true →
    (8 ≤ p → Mails (.portRead seq p) 13 seq s fun st _ _ => st = 3) ∧
    (p < 8 → Mails (.portRead seq p) 13 seq s fun st data d => st = 0 ∧ data.length = 96 ∧ slice data 0 4 = toLe 4 (s.dev.macPort p).up.toNat ∧
      data.drop 24 = toLe 8 (s.dev.macPort p).rxFrames ++ toLe 8 (s.dev.macPort p).rxBytes ++ toLe 8 (s.dev.macPort p).fcsErr ++ toLe 8 (s.dev.macPort p).runt ++
        toLe 8 (s.dev.macPort p).oversize ++ toLe 8 (s.dev.macPort p).txFrames ++ toLe 8 (s.dev.macPort p).txBytes ++ toLe 8 (s.dev.macPort p).pauseTx ++
        toLe 8 (s.dev.macPort p).pfcTx ∧ d.mac = s.dev.mac)) ∧
  (∀ (s : State) (seq fl : Nat), s.ready = true → s.dev.mbxTakes 12 = true →
    (fl % 2 ^ 32 < (s.dev.reg Reg.CFG_ROLLBACK).toNat ∨ s.dev.cfg.secVer < fl % 2 ^ 32 → Mails (.rollbackSet seq fl) 12 seq s fun st data d =>
      st = 5 ∧ data = toLe 4 (s.dev.reg Reg.CFG_ROLLBACK).toNat ∧ d.reg Reg.CFG_ROLLBACK = s.dev.reg Reg.CFG_ROLLBACK) ∧
    ((s.dev.reg Reg.CFG_ROLLBACK).toNat ≤ fl % 2 ^ 32 → fl % 2 ^ 32 ≤ s.dev.cfg.secVer → Mails (.rollbackSet seq fl) 12 seq s fun st data d =>
      st = 0 ∧ data = toLe 4 (fl % 2 ^ 32) ∧ d.reg Reg.CFG_ROLLBACK = BitVec.ofNat 32 fl ∧ s.dev.keepsRegsE [Reg.CFG_ROLLBACK] d)) ∧
  (∀ (s : State) (seq m bank page ofs len : Nat) (data : List Byte), s.ready = true → s.dev.mbxTakes 6 = true → Mails (.lmRead seq m bank page ofs len data) 6 seq s fun st r d =>
    (len = 0 ∨ 128 < len ∨ 8 ≤ m → st = 3) ∧ (0 < len → len ≤ 128 → m < 8 → s.dev.modPresent m = false → st = 6) ∧
    (0 < len → len ≤ 128 → m < 8 → s.dev.modPresent m = true → st = 0 ∧ r.length = len ∧ ∀ k, k < len → r.getD k 0 = data.getD k 0) ∧ d.lmd = s.dev.lmd) ∧
  (∀ (s : State) (seq copy ofs : Nat) (data : List Byte) (last : Bool) (chunks : List (Nat × List Byte)), s.ready = true → s.dev.mbxTakes 10 = true →
    s.dev.pwr.fw.length = 2 → s.dev.pwr.fwOk.length = 2 → chunks = (ofs, data) :: s.dev.pwr.fw.getD copy [] →
    Mails (.fwWrite seq copy ofs data last) 10 seq s fun st _ d =>
    (2 ≤ copy ∨ 32000 < data.length → st = 3 ∧ d.pwr = s.dev.pwr) ∧
    (copy < 2 → data.length ≤ 32000 → copy = s.dev.fld Reg.TOP_STATUS 30 30 → s.dev.flag Reg.TOP_STATUS 31 = false → st = 5 ∧ d.pwr = s.dev.pwr) ∧
    (copy < 2 → data.length ≤ 32000 → copy ≠ s.dev.fld Reg.TOP_STATUS 30 30 ∨ s.dev.flag Reg.TOP_STATUS 31 = true →
      d.pwr.fw.getD copy [] = chunks ∧ d.pwr.fw.getD (1 - copy) [] = s.dev.pwr.fw.getD (1 - copy) [] ∧
      d.pwr.fwOk.getD copy true = (last && Config.fwSigOk chunks) ∧ st = if last = true ∧ Config.fwSigOk chunks = false then 0x101 else 0)) ∧
  (∀ (s : State) (seq : Nat), s.ready = true → s.dev.mbxTakes 11 = true →
    (s.dev.pwr.fwOk.getD (1 - s.dev.fld Reg.TOP_STATUS 30 30) false = false → Mails (.fwSwitch seq) 11 seq s fun st _ d => st = 0x101 ∧ d.pwr = s.dev.pwr) ∧
    (s.dev.pwr.fwOk.getD (1 - s.dev.fld Reg.TOP_STATUS 30 30) false = true → Answers (.fwSwitch seq) s fun t =>
      t.dev.pwr = { s.dev.pwr with fwTo := some (1 - s.dev.fld Reg.TOP_STATUS 30 30) } ∧ t.dev.evt = { s.dev.evt with mcDown := true } ∧
      t.dev.pci.mbx = { s.dev.pci.mbx with busy := some (11, seq, s.dev.now, false) } ∧ s.dev.changesOnly [.pwr, .evt, .pci] t.dev ∧ s.keepsMem t)) ∧
  (∀ s : State, s.sound = true → s.dev.tsk.todo = [] →
    (s.dev.evt.mcDown = false → s.dev.pci.mbx.busy = none → exec .mcRestart s = .next s) ∧
    (s.dev.evt.mcDown = true → s.dev.pci.mbx.busy = none ∨ (∃ seq a, s.dev.pci.mbx.busy = some (11, seq, a, false)) → Answers .mcRestart s fun t =>
      t.dev.evt.mcDown = false ∧ t.dev.pwr = { s.dev.pwr with fwTo := none } ∧ (∀ x ∈ s.dev.evt.mcWait, .mcEvent x ∈ t.dev.out) ∧ s.dev.raised Src.MC_RESTART t.dev ∧
      (∀ n, s.dev.pwr.fwTo = some n → n < 2 → t.dev.fld Reg.TOP_STATUS 30 30 = n) ∧
      (∀ seq a, s.dev.pci.mbx.busy = some (11, seq, a, false) →
        t.dev.pci.mbx = { s.dev.pci.mbx with busy := none, done := true, resp := some (11, seq, 0, []) } ∧ s.dev.raised Src.MBX_DONE t.dev) ∧
      s.dev.keepsRegsE [Reg.TOP_STATUS] t.dev ∧ s.dev.changesOnly [.regs, .pwr, .evt, .pci, .out] t.dev ∧ s.keepsMem t)) ∧
  (∀ (s : State) (op seq at_ : Nat), s.sound = true → s.dev.tsk.todo = [] →
    (s.dev.pci.mbx.busy = none → exec .mailboxCommandTimeout s = .next s) ∧
    (s.dev.pci.mbx.busy = some (op, seq, at_, false) → op = 11 ∨ (op = 3 ∧ s.dev.cfgBusy = true) ∨ (op = 7 ∧ s.dev.pwr.sprintReq = true) →
      (s.dev.reachNow (at_ + if op = 3 then 1500000000 else if op = 7 then 5000000 else 150000000) = none → exec .mailboxCommandTimeout s = .next s) ∧
      (∀ e, s.dev.reachNow (at_ + if op = 3 then 1500000000 else if op = 7 then 5000000 else 150000000) = some e →
        Answers .mailboxCommandTimeout s fun t => t.dev.pci.mbx = { s.dev.pci.mbx with busy := none, done := true, resp := some (op, seq, 6, []) } ∧
          e.raised Src.MBX_DONE t.dev ∧ e.keepsRegsE [] t.dev ∧ e.changesOnly [.regs, .pci, .evt, .out] t.dev ∧ s.keepsMem t)))

/-- A lane that is up and not held sends the next segment of a stream, PCM and EVENT before video, under the header of Table 17.8.
TAP_HOLD_N starts and ends the hold; held for HOLD_WARN units of 60 beats, TAP_HOLD_LONG is raised once. A lane that goes down, or
whose OUT_EN is cleared, loses the items begun on it. An input frame with a bad header CRC, payload CRC or kind is discarded and
counted; segments join their item in order, a segment out of place discards it; a complete access unit goes to its queue and is
posted, a picture goes to a free buffer. An item incomplete for SEG_WAIT beats is discarded. Items of several entries may lie
between each other on a lane (log 124). (Choices of the model it rests on: log 3, 88, 124.) (R378, R379, R380, R381, R382) -/
def Obligations.TapPort : Prop :=
  (∀ (dev n : Nat) (it : TapItem), it.kind < 16 → it.sub < 16 → it.flags < 16 → dev < 8 → it.flock < 4096 → it.ident < 65536 → it.seg < 4096 → it.segs < 4096 → 0 < n → n ≤ 65536 →
    ∀ h, h = tapHeader dev it n → h.length = 16 ∧ byteAt h 0 = 16 + it.kind ∧ byteAt h 1 = it.sub * 16 + it.flags ∧ be16 h 2 = dev * 4096 + it.flock ∧
      be16 h 4 = it.ident ∧ be32 h 6 = it.beat % 2 ^ 32 ∧ beNat (slice h 10 3) = it.seg * 4096 + it.segs ∧ be16 h 13 = n - 1 ∧ byteAt h 15 = crc8 (h.take 15)) ∧
  (∀ (s : State) (lane : Nat), s.ready = true →
    (s.dev.laneUp lane = false ∨ s.dev.tap.held ≠ none → exec (.tapFrameTx lane) s = .next s) ∧
    (s.dev.tapPick lane = none → exec (.tapFrameTx lane) s = .next s) ∧
    (∀ e video it rest n, s.dev.laneUp lane = true → s.dev.tap.held = none → s.dev.tapPick lane = some (e, video) → (s.dev.tapStream e).items = it :: rest →
      n = (if it.seg + 1 = it.segs then it.len - it.seg * 65536 else 65536) → Answers (.tapFrameTx lane) s fun t =>
        t.dev.out = .tap lane (tapHeader s.dev.devId it n) n (slice it.known (it.seg * 65536) n) :: s.dev.out ∧
        s.dev.counted Reg.TAP_CNT_LO 0 1 t.dev ∧ s.dev.counted Reg.TAP_CNT_LO 1 (n + 20) t.dev ∧
        (it.seg + 1 = it.segs → (t.dev.tapStream e).items = rest ∧ (t.dev.tapStream e).lane = none) ∧
        (it.seg + 1 ≠ it.segs → (t.dev.tapStream e).items = { it with seg := it.seg + 1 } :: rest ∧ (t.dev.tapStream e).lane = some lane) ∧
        (∀ x, x ≠ e → t.dev.tapStream x = s.dev.tapStream x) ∧
        (video = true → ∀ p ∈ s.dev.tapEntries, p.2.f 0 30 28 ≠ 2 → p.2.f 0 30 28 ≠ 3 → (s.dev.tapStream p.1).items ≠ [] →
          (s.dev.tapStream p.1).lane ≠ some lane ∧ ((s.dev.tapStream p.1).lane = none → s.dev.laneOf p.1 ≠ some lane)) ∧
        s.dev.keepsRegs [Reg.TAP_CNT_LO, Reg.TAP_CNT_LO + 4, Reg.TAP_CNT_LO + 8, Reg.TAP_CNT_LO + 12] t.dev ∧ s.dev.changesOnly [.regs, .tap, .out] t.dev ∧ s.keepsMem t)) ∧
  (∀ s : State, s.ready = true →
    (s.dev.tap.held ≠ none → exec .tapHoldAssert s = .next s) ∧
    (s.dev.tap.held = none → Answers .tapHoldAssert s fun t => t.dev.tap = { s.dev.tap with held := some s.dev.now, longSent := false } ∧ s.dev.changesOnly [.tap] t.dev ∧ s.keepsMem t) ∧
    Answers .tapHoldRelease s (fun t => t.dev.tap = { s.dev.tap with held := none, longSent := false } ∧ s.dev.changesOnly [.tap] t.dev ∧ s.keepsMem t) ∧
    (s.dev.tap.held = none ∨ s.dev.tap.longSent = true → exec .tapHoldLong s = .next s) ∧
    (∀ at_, s.dev.tap.held = some at_ → s.dev.tap.longSent = false →
      (s.dev.reachNow (at_ + s.dev.fld Reg.TAP_CFG 7 0 * 150000000) = none → exec .tapHoldLong s = .next s) ∧
      (∀ e, s.dev.reachNow (at_ + s.dev.fld Reg.TAP_CFG 7 0 * 150000000) = some e → Answers .tapHoldLong s fun t => t.dev.tap = { e.tap with longSent := true } ∧
        e.raised Src.TAP_HOLD_LONG t.dev ∧ e.keepsRegsE [] t.dev ∧ e.changesOnly [.regs, .tap, .evt, .out] t.dev ∧ s.keepsMem t))) ∧
  (∀ (s : State) (lane : Nat), s.ready = true → s.dev.tap.outUp.length = 4 → s.dev.tap.inUp.length = 2 →
    (Answers (.tapLaneDown lane) s fun t =>
      (lane < 4 → t.dev.tap.outUp.getD lane false = false ∧ t.dev.tap.inUp = s.dev.tap.inUp ∧ (∀ j, j ≠ lane → t.dev.tap.outUp.getD j false = s.dev.tap.outUp.getD j false) ∧
        (∀ p ∈ s.dev.tapEntries, (s.dev.tapStream p.1).lane = some lane →
          t.dev.tapStream p.1 = { s.dev.tapStream p.1 with items := (s.dev.tapStream p.1).items.drop 1, lane := none })) ∧
      (4 ≤ lane → t.dev.tap.inUp.getD (lane - 4) false = false ∧ t.dev.tap.outUp = s.dev.tap.outUp) ∧
      (∀ x, (s.dev.tapStream x).lane ≠ some lane → t.dev.tapStream x = s.dev.tapStream x) ∧ s.dev.raised Src.TAP_LANE_DOWN t.dev ∧
      s.dev.keepsRegsE [Reg.TAP_CNT_LO + 16, Reg.TAP_CNT_LO + 20] t.dev ∧ s.dev.changesOnly [.regs, .tap, .evt, .out] t.dev ∧ s.keepsMem t) ∧
    (Answers (.tapLaneUp lane) s fun t => (lane < 4 → t.dev.tap = { s.dev.tap with outUp := s.dev.tap.outUp.set lane true } ∧ t.dev.tap.outUp.getD lane false = true) ∧
      (4 ≤ lane → t.dev.tap = { s.dev.tap with inUp := s.dev.tap.inUp.set (lane - 4) true } ∧ (lane < 6 → t.dev.tap.inUp.getD (lane - 4) false = true)) ∧
      s.dev.changesOnly [.tap] t.dev ∧ s.keepsMem t)) ∧
  (∀ (s : State) (lane : Nat) (bs : List Byte), s.ready = true →
    (s.dev.tap.inUp.getD lane false = false ∨ s.dev.flag Reg.TAP_CFG (26 + lane) = false → exec (.tapInputFrame lane bs) s = .next s) ∧
    (s.dev.tap.inUp.getD lane false = true → s.dev.flag Reg.TAP_CFG (26 + lane) = true →
      (bs.length < 16 ∨ byteAt bs 15 ≠ crc8 (bs.take 15) ∨ byteAt bs 0 / 16 ≠ 1 → Answers (.tapInputFrame lane bs) s fun t =>
        s.dev.counted Reg.TAP_CNT_LO 5 1 t.dev ∧ (Src.TAP_RX_ERR ∉ s.dev.evt.once → s.dev.raised Src.TAP_RX_ERR t.dev) ∧
        s.dev.keepsRegsE [Reg.TAP_CNT_LO + 40, Reg.TAP_CNT_LO + 44] t.dev ∧ s.dev.changesOnly [.regs, .evt, .out] t.dev ∧ s.keepsMem t) ∧
      (∀ n sub flock ident beat seg good, 16 ≤ bs.length → byteAt bs 15 = crc8 (bs.take 15) → byteAt bs 0 / 16 = 1 → n = be16 bs 13 + 1 → sub = byteAt bs 1 / 16 →
        flock = be16 bs 2 % 4096 → ident = be16 bs 4 → beat = be32 bs 6 → seg = beNat (slice bs 10 3) →
        good = decide (bs.length = n + 20 ∧ be32 bs (16 + n) = crc32 (slice bs 16 n)) →
        (∀ k, byteAt bs 0 % 16 ≠ 5 ∨ s.dev.inEntry sub flock ident = none → k = (if good then 7 else 6) → Answers (.tapInputFrame lane bs) s fun t =>
          s.dev.counted Reg.TAP_CNT_LO 4 1 t.dev ∧ s.dev.counted Reg.TAP_CNT_LO k 1 t.dev ∧ (Src.TAP_RX_ERR ∉ s.dev.evt.once → s.dev.raised Src.TAP_RX_ERR t.dev) ∧
          s.dev.changesOnly [.regs, .evt, .out] t.dev ∧ s.keepsMem t) ∧
        (∀ e key, byteAt bs 0 % 16 = 5 → s.dev.inEntry sub flock ident = some e → key = inKey lane e →
          (sub = 2 ∨ sub = 3) ∧ (s.dev.tapIn e).b 0 31 = true ∧ (s.dev.tapIn e).f 0 27 24 = sub ∧ (s.dev.tapIn e).f 1 31 20 = flock ∧ (s.dev.tapIn e).f 0 15 0 = ident ∧
          (good = false → Answers (.tapInputFrame lane bs) s fun t => s.dev.counted Reg.TAP_CNT_LO 4 1 t.dev ∧ s.dev.counted Reg.TAP_CNT_LO 6 1 t.dev ∧
            tabFind t.dev.tap.ins key = none ∧ (∀ j, j ≠ key → tabFind t.dev.tap.ins j = tabFind s.dev.tap.ins j) ∧
            (Src.TAP_RX_ERR ∉ s.dev.evt.once → s.dev.raised Src.TAP_RX_ERR t.dev) ∧ s.dev.changesOnly [.regs, .tap, .evt, .out] t.dev ∧ s.keepsMem t) ∧
          (good = true → ((tabFind s.dev.tap.ins key = none ∧ seg / 4096 ≠ 0) ∨ (tabFind s.dev.tap.ins key = none ∧ seg % 4096 = 0) ∨
              (∃ x, tabFind s.dev.tap.ins key = some x ∧ seg / 4096 ≠ 0 ∧
              (seg / 4096 ≠ x.next ∨ seg % 4096 ≠ x.count ∨ beat ≠ x.beat ∨ seg % 4096 ≤ seg / 4096))) → Answers (.tapInputFrame lane bs) s fun t =>
            s.dev.counted Reg.TAP_CNT_LO 7 1 t.dev ∧ tabFind t.dev.tap.ins key = none ∧ (∀ j, j ≠ key → tabFind t.dev.tap.ins j = tabFind s.dev.tap.ins j) ∧
            (Src.TAP_RX_ERR ∉ s.dev.evt.once → s.dev.raised Src.TAP_RX_ERR t.dev) ∧ s.dev.changesOnly [.regs, .tap, .evt, .out] t.dev ∧ s.keepsMem t) ∧
          (good = true → seg / 4096 = 0 → 1 < seg % 4096 → Answers (.tapInputFrame lane bs) s fun t => s.dev.counted Reg.TAP_CNT_LO 4 1 t.dev ∧
            tabFind t.dev.tap.ins key = some { entry := e, sub := sub, flock := flock, ident := ident, beat := beat, count := seg % 4096, next := 1, bytes := slice bs 16 n, first := s.dev.beat } ∧
            (∀ j, j ≠ key → tabFind t.dev.tap.ins j = tabFind s.dev.tap.ins j) ∧
            (tabFind s.dev.tap.ins key ≠ none → s.dev.counted Reg.TAP_CNT_LO 7 1 t.dev) ∧
            (tabFind s.dev.tap.ins key = none → s.dev.keepsRegs [Reg.TAP_CNT_LO + 32, Reg.TAP_CNT_LO + 36] t.dev ∧ s.dev.changesOnly [.regs, .tap] t.dev) ∧
            s.dev.changesOnly [.regs, .tap, .evt, .out] t.dev ∧ s.keepsMem t) ∧
          (∀ x, good = true → tabFind s.dev.tap.ins key = some x → seg / 4096 = x.next → seg / 4096 ≠ 0 → seg % 4096 = x.count → beat = x.beat → x.next + 1 < x.count →
            Answers (.tapInputFrame lane bs) s fun t => s.dev.counted Reg.TAP_CNT_LO 4 1 t.dev ∧
              tabFind t.dev.tap.ins key = some { x with next := x.next + 1, bytes := x.bytes ++ slice bs 16 n } ∧
              (∀ j, j ≠ key → tabFind t.dev.tap.ins j = tabFind s.dev.tap.ins j) ∧
              s.dev.keepsRegs [Reg.TAP_CNT_LO + 32, Reg.TAP_CNT_LO + 36] t.dev ∧ s.dev.changesOnly [.regs, .tap] t.dev ∧ s.keepsMem t) ∧
          (∀ x items q, good = true → x.entry = e → x.sub = sub → x.flock = flock → x.ident = ident → x.beat = beat →
            (seg / 4096 = 0 ∧ seg % 4096 = 1 ∧ tabFind s.dev.tap.ins key = none ∧ x.bytes = [] ∨
              tabFind s.dev.tap.ins key = some x ∧ seg / 4096 = x.next ∧ seg / 4096 ≠ 0 ∧ seg % 4096 = x.count ∧ x.next + 1 = x.count) →
            items = x.bytes ++ slice bs 16 n → q = (s.dev.tapIn e).f 1 17 0 →
            (sub = 3 → Does (.tapInputFrame lane bs) s fun d => ∃ (g : Dev) (it : Item), (∃ pl, g.payload it.uid = some pl ∧ pl.bytes = items) ∧ it.md.brood = ident ∧ it.md.flen = items.length ∧
              it.desc.f 0 31 28 = 4 ∧ g.queue q = s.dev.queue q ∧ g.tsk = s.dev.tsk ∧ tabFind g.tap.ins key = none ∧ s.dev.changesOnly [.regs, .tap, .que] g ∧
              d = (if ((g.enqueue q it).queue q).tail = (g.queue q).tail then g.enqueue q it
                else (g.enqueue q it).push (.arrive (mkTag flock ident 1 beat) it.uid 0))) ∧
            (∀ k base, sub = 2 → k < (s.dev.tapIn e).f 4 7 0 → (∀ b ∈ s.dev.tap.bufs, b.1 = e → b.2.1 ≠ k) → (∀ j, j < k → ∃ b ∈ s.dev.tap.bufs, b.1 = e ∧ b.2.1 = j) →
              base = ((s.dev.tapIn e).word 2).toNat + 2 ^ 32 * ((s.dev.tapIn e).word 3).toNat + k * (s.dev.tapIn e).f 4 31 8 * 4096 →
              pictureSize items ≤ (s.dev.tapIn e).f 4 31 8 * 4096 → HandsOn (.tapInputFrame lane bs) s [.arrive (mkTag flock ident 15 beat) base 0] fun d =>
                d.tap.bufs = s.dev.tap.bufs ++ [(e, k, mkTag flock ident 15 beat)] ∧ d.pci.dramWrites = s.dev.pci.dramWrites ++ pictureWrites base items ∧
                tabFind d.tap.ins key = none ∧ s.dev.counted Reg.TAP_CNT_LO 4 1 d ∧ s.dev.changesOnly [.regs, .tap, .pci, .tsk, .mem, .free] d) ∧
            (sub = 2 → (s.dev.tapIn e).f 4 31 8 * 4096 < pictureSize items ∨ (∀ j, j < (s.dev.tapIn e).f 4 7 0 → ∃ b ∈ s.dev.tap.bufs, b.1 = e ∧ b.2.1 = j) →
              Answers (.tapInputFrame lane bs) s fun t => s.dev.counted Reg.TAP_CNT_LO 7 1 t.dev ∧ tabFind t.dev.tap.ins key = none ∧ t.dev.tap.bufs = s.dev.tap.bufs ∧
                s.dev.changesOnly [.regs, .tap, .evt, .out] t.dev ∧ s.keepsMem t)))))) ∧
  (∀ (s : State) (lane : Nat) (gone : List (Nat × TapIn)), s.ready = true →
    gone = s.dev.tap.ins.filter (fun x => x.1 / 256 == lane && decide (x.2.first + s.dev.fld Reg.TAP_CFG 15 8 ≤ s.dev.beat)) →
    (gone = [] → exec (.tapSegWaitExpiry lane) s = .next s) ∧
    (gone ≠ [] → Answers (.tapSegWaitExpiry lane) s fun t => s.dev.counted Reg.TAP_CNT_LO 7 gone.length t.dev ∧
      (∀ j, tabFind t.dev.tap.ins j = if gone.any (fun x => x.1 == j) then none else tabFind s.dev.tap.ins j) ∧
      (Src.TAP_RX_ERR ∉ s.dev.evt.once → s.dev.raised Src.TAP_RX_ERR t.dev) ∧ s.dev.keepsRegsE [Reg.TAP_CNT_LO + 56, Reg.TAP_CNT_LO + 60] t.dev ∧
      s.dev.changesOnly [.regs, .tap, .evt, .out] t.dev ∧ s.keepsMem t)) ∧
  (∀ (s : State) (p : Path) (v : Word), s.ready = true → s.dev.tap.outUp.length = 4 → Answers (.registerWrite p Reg.TAP_CFG v) s fun t =>
    t.dev.reg Reg.TAP_CFG = (s.dev.writeReg Reg.TAP_CFG v).reg Reg.TAP_CFG ∧
    (∀ lane, lane < 4 → bit v (28 + lane) = false → t.dev.laneUp lane = false) ∧
    (∀ x ∈ s.dev.tapEntries, ∀ lane, lane < 4 → (s.dev.tapStream x.1).lane = some lane → s.dev.flag Reg.TAP_CFG (28 + lane) = true → bit v (28 + lane) = false →
      t.dev.tapStream x.1 = { s.dev.tapStream x.1 with items := (s.dev.tapStream x.1).items.drop 1, lane := none }) ∧
    (∀ x, (s.dev.tapStream x).lane = none → t.dev.tapStream x = s.dev.tapStream x) ∧
    s.dev.keepsRegs [Reg.TAP_CFG, Reg.TAP_CNT_LO + 16, Reg.TAP_CNT_LO + 20] t.dev ∧ t.dev.tap.outUp = s.dev.tap.outUp ∧ t.dev.tap.ins = s.dev.tap.ins ∧ s.dev.changesOnly [.regs, .tap] t.dev ∧ s.keepsMem t)

/-- READ of each table access register: TABLE takes the value written (a reserved one keeps the previous), the entry that it and the
index name stands in the DATA words, ERR and ERRCODE read 0. An index beyond the table, a template id of 255 and a model beyond an
entry's three among them, sets ERR, with the chapter's BAD_ENTRY code where the register has ERRCODE, and no DATA word changes. No
entry and nothing else changes. A vault handle's and slot's state have no layout in the spec: their words are open values (log 4).
(Choices of the model it rests on: log 4.) (R404, R72, R93, R118, R135, R160, R161, R186, R205, R226, R289, R382) -/
def Obligations.TableReads : Prop :=
  ReadsTable .tskTabRead Reg.TSK_TAB_CMD Reg.TSK_TAB_ADDR Reg.TSK_TAB_DATA 8 16 tskBeyond Dev.tskView 1 4 ∧
  ReadsTable .matTabRead Reg.MAT_TAB_CMD Reg.MAT_TAB_ADDR Reg.MAT_TAB_DATA 8 24 (pastEnd matTabSize) Dev.matView 5 7 ∧
  ReadsTable .metTabRead Reg.MET_TAB_CMD Reg.MET_TAB_ADDR Reg.MET_TAB_DATA 8 20 (pastEnd metTabSize) Dev.metView 5 2 ∧
  ReadsTable .queTabRead Reg.QUE_TAB_CMD Reg.QUE_TAB_ADDR Reg.QUE_TAB_DATA 8 17 (pastEnd queTabSize) Dev.queTabRead 1 3 ∧
  ReadsTable .fwdTabRead Reg.FWD_TAB_CMD Reg.FWD_TAB_ADDR Reg.FWD_TAB_DATA 8 22 (pastEnd fwdTabSize) Dev.fwdView 1 5 ∧
  ReadsTable .legTabRead Reg.LEG_TAB_CMD Reg.LEG_TAB_ADDR Reg.LEG_TAB_DATA 8 13 (pastEnd fun _ => 16384) (fun d _ i => d.legView i) 1 1 ∧
  ReadsTable .vdcTabRead Reg.VDC_TAB_CMD Reg.VDC_TAB_ADDR Reg.VDC_TAB_DATA 8 13 (pastEnd vdcTabSize) Dev.vdcView 4 4 ∧
  ReadsTable .cmpTabRead Reg.CMP_TAB_CMD Reg.CMP_TAB_ADDR Reg.CMP_TAB_DATA 8 17 (pastEnd cmpTabSize) Dev.cmpView 3 4 ∧
  ReadsTable .venTabRead Reg.VEN_TAB_CMD Reg.VEN_TAB_ADDR Reg.VEN_TAB_DATA 8 13 venBeyond Dev.venView 4 2 ∧
  ReadsTable .audTabRead Reg.AUD_TAB_CMD Reg.AUD_TAB_ADDR Reg.AUD_TAB_DATA 8 13 (pastEnd audTabSize) Dev.audView 4 2 ∧
  ReadsTable .fltTabRead Reg.FLT_TAB_CMD Reg.FLT_TAB_ADDR Reg.FLT_TAB_DATA 8 13 (pastEnd fltTabSize) Dev.fltView 4 2 ∧
  ReadsTable .gatTabRead Reg.GAT_TAB_CMD Reg.GAT_TAB_ADDR Reg.GAT_TAB_DATA 2 9 (fun t _ => decide (8 ≤ t)) (fun d q i => d.ent .gat q (gateIdx (d.gatBank q) i)) 5 8 ∧
  ReadsTable .egsTabRead Reg.EGS_TAB_CMD Reg.EGS_TAB_ADDR Reg.EGS_TAB_DATA 8 17 (pastEnd egsTabSize) Dev.egsView 5 4 ∧
  ReadsTable .mulTabRead Reg.MUL_TAB_CMD Reg.MUL_TAB_ADDR Reg.MUL_TAB_DATA 8 14 (pastEnd mulTabSize) Dev.mulView 5 2 ∧
  ReadsTable .lmdTabRead Reg.LMD_TAB_CMD Reg.LMD_TAB_ADDR Reg.LMD_TAB_DATA 8 6 (pastEnd fun t => if t = 0 then 128 else 0) (fun d _ i => match tabFind d.lmd.recs i with | some w => wearEntry w | none => {}) 5 1 ∧
  ReadsTable .tapTabRead Reg.TAP_TAB_CMD Reg.TAP_TAB_ADDR Reg.TAP_TAB_DATA 8 9 (pastEnd tapTabSize) (fun d t i => d.ent .tap t i) 5 2 ∧
  (∀ (s : State) (p : Path) (v : Word) (t i : Nat), s.ready = true →
    t = (if bits v 27 24 < 3 then bits v 27 24 else s.dev.fld Reg.VLT_TAB_CMD 27 24) → i = s.dev.fld Reg.VLT_TAB_ADDR 15 0 →
    Answers (.vltTabRead p v) s fun u =>
      u.dev.fld Reg.VLT_TAB_CMD 27 24 = t ∧
      (i < vltTabSize t → u.dev.tabStat Reg.VLT_TAB_CMD 0 ∧ (t = 0 → ∀ k, k < 8 → u.dev.reg (Reg.VLT_TAB_DATA + 4 * k) = Entry.word (s.dev.binding i) k) ∧
        s.dev.keepsRegs (Reg.VLT_TAB_CMD :: dataRegs Reg.VLT_TAB_DATA 8) u.dev ∧ u.dev.free = s.dev.free + (if t = 0 then 0 else 8)) ∧
      (vltTabSize t ≤ i → u.dev.tabStat Reg.VLT_TAB_CMD 5 ∧ s.dev.keepsRegs [Reg.VLT_TAB_CMD] u.dev ∧ u.dev.free = s.dev.free) ∧
      s.dev.changesOnly [.regs, .free] u.dev ∧ s.keepsMem u)

/-- WRITE of each table access register whose entry stands alone: where the command is in order the entry named holds the DATA words,
fields of its table that are not writable keeping 0 or what they held and reserved encodings keeping their field; ERR and ERRCODE
read 0; no other entry and no other register changes. Rule-set tables take a write in the shadow bank alone, once the previous
epoch is reclaimed, and an action of index 0 never; an entry of a gate list in the shadow bank alone while no list is pending; a
meter within its ranges; a tile that fits its layout; a filter phase of sets 2 to 7 that sums to 256; a filter profile within its
ranges. (Choices of the model it rests on: log 13, 96.) (R90, R93, R88, R135, R160, R161, R205, R252, R273, R289, R382) -/
def Obligations.TableWrites : Prop :=
  WritesTable .metTabWrite Reg.MET_TAB_CMD Reg.MET_TAB_ADDR Reg.MET_TAB_DATA 20 2 .met [.regs, .tabs, .pkt]
    (fun _ _ i => (0, i))
    (fun _ _ _ n => { d0 := n.d0 &&& 0xC0000000, d1 := n.d1, d2 := n.d2, d3 := n.d3 &&& 0xFFFFFF, d4 := n.d4 &&& 0xFFFFFF })
    (fun _ t i n => t = 0 ∧ i < 262144 ∧ 9279 ≤ n.f 3 23 0 ∧ (9279 ≤ n.f 4 23 0 ∨ n.b 0 31 = true)) ∧
  WritesTable .matTabWrite Reg.MAT_TAB_CMD Reg.MAT_TAB_ADDR Reg.MAT_TAB_DATA 24 7 .mat [.regs, .tabs]
    (fun d t i => (bankTable t d.bankOf, i))
    (fun d t i n => if t = 5 then actionWrite (d.ent .mat (bankTable 5 d.bankOf) i) n else n)
    (fun d t i _ => t ≠ 2 ∧ i < matTabSize t ∧ (banked t = true → d.flag Reg.MAT_TAB_CMD 23 = true ∧ d.flag Reg.MAT_EPOCH 30 = true) ∧ (t = 5 → i ≠ 0)) ∧
  WritesTable .queTabWrite Reg.QUE_TAB_CMD Reg.QUE_TAB_ADDR Reg.QUE_TAB_DATA 17 3 .que [.regs, .tabs, .que]
    (fun _ t i => (t, i))
    (fun d t i n => if t = 0 then ((if 64 ≤ n.f 5 26 16 ∧ n.f 5 26 16 ≤ 2000 then (d.ent .que 0 i).setF 5 26 16 (n.f 5 26 16) else d.ent .que 0 i).setF 5 15 0 (n.f 5 15 0)).setF 6 23 0 (if n.f 6 23 0 = 0 ∨ 36 ≤ n.f 6 23 0 then n.f 6 23 0 else (d.ent .que 0 i).f 6 23 0)
      else if t = 1 then (((d.group i).setF 3 27 0 (n.f 3 27 0)).setF 4 27 0 (n.f 4 27 0)).setF 6 23 0 (n.f 6 23 0)
      else (d.fcOut i).setF 0 15 0 (n.f 0 15 0))
    (fun d t i n => (t = 0 ∧ i < 262144) ∨ (t = 1 ∧ i < queTabSize 1 ∧ n.word 0 = (d.group i).word 0 ∧ n.word 1 = (d.group i).word 1 ∧ n.word 2 = (d.group i).word 2 ∧
      n.word 5 = (d.group i).word 5 ∧ n.f 4 27 0 < n.f 3 27 0) ∨ (t = 2 ∧ i < 16 ∧ n.f 0 31 28 = (d.fcOut i).f 0 31 28 ∧ n.f 0 26 16 = (d.fcOut i).f 0 26 16 ∧ n.f 0 15 0 ≠ 0)) ∧
  WritesTable .fwdTabWrite Reg.FWD_TAB_CMD Reg.FWD_TAB_ADDR Reg.FWD_TAB_DATA 22 5 .fwd [.regs, .tabs, .fwd]
    (fun _ t i => (t, i))
    (fun d t i n => if t = 0 then broodWrite (d.broodEnt i) n else if t = 1 then subWrite (d.subEnt i) n
      else if t = 2 then { d0 := n.d0 &&& 0x80000000, d1 := n.d1 &&& 0xFFFF } else { d0 := n.d0, d1 := n.d1, d2 := n.d2, d3 := n.d3 })
    (fun d t i _ => t < 4 ∧ i < fwdTabSize t ∧ (t = 2 → d.composedSubs i = [])) ∧
  WritesTable .legTabWrite Reg.LEG_TAB_CMD Reg.LEG_TAB_ADDR Reg.LEG_TAB_DATA 13 1 .leg [.regs, .tabs, .fwd]
    (fun _ _ i => (0, i))
    (fun d _ i n => legWrite (d.legEnt i) n)
    (fun _ _ _ _ => True) ∧
  WritesTable .cmpTabWrite Reg.CMP_TAB_CMD Reg.CMP_TAB_ADDR Reg.CMP_TAB_DATA 17 4 .cmp [.regs, .tabs]
    (fun _ t i => (t, i))
    (fun d t i n => if t = 1 then Entry.legal (d.ent .cmp 1 i) { d0 := n.d0, d1 := n.d1, d2 := n.d2 &&& 0xF8FFFFFF, d3 := n.d3 &&& 0x0FFFFFFF } [(2, 31, 30, [(0, 2)]), (2, 29, 28, [(0, 2)])]
      else if t = 2 then { d0 := n.d0 &&& 0x80FF0000, d1 := n.d1, d2 := n.d2, d3 := n.d3 &&& 0xFFFFF000, d4 := n.d4 }
      else { d0 := n.d0, d1 := n.d1, d2 := n.d2 &&& 0xFFFF })
    (fun d t i n => (t = 1 ∧ i < 262144 ∧ tileOk (d.layEnt (i / 64)) (Entry.legal (d.ent .cmp 1 i) { d0 := n.d0, d1 := n.d1, d2 := n.d2 &&& 0xF8FFFFFF, d3 := n.d3 &&& 0x0FFFFFFF } [(2, 31, 30, [(0, 2)]), (2, 29, 28, [(0, 2)])]) = true) ∨
      (t = 2 ∧ i < 4096) ∨ (t = 3 ∧ 128 ≤ i ∧ i < 512 ∧ tapsSum { d0 := n.d0, d1 := n.d1, d2 := n.d2 &&& 0xFFFF } = 256)) ∧
  WritesTable .fltTabWrite Reg.FLT_TAB_CMD Reg.FLT_TAB_ADDR Reg.FLT_TAB_DATA 13 2 .flt [.regs, .tabs]
    (fun _ _ i => (1, i))
    (fun _ _ _ n => { d0 := n.d0 &&& 0xC7FFFFFF, d1 := n.d1, d2 := n.d2, d3 := n.d3 &&& 0xFF })
    (fun _ t i n => t = 1 ∧ i < 8 ∧ profileOk { d0 := n.d0 &&& 0xC7FFFFFF, d1 := n.d1, d2 := n.d2, d3 := n.d3 &&& 0xFF } = true) ∧
  WritesTable .gatTabWrite Reg.GAT_TAB_CMD Reg.GAT_TAB_ADDR Reg.GAT_TAB_DATA 9 8 .gat [.regs, .tabs]
    (fun d t i => (t, gateIdx (1 - (d.gate t).bank) i))
    (fun _ _ _ n => { d0 := n.d0, d1 := n.d1 })
    (fun d t _ n => t < 8 ∧ d.flag Reg.GAT_TAB_CMD 23 = true ∧ d.flag (Reg.GAT_CTRL + gatePort t) 28 = false ∧ n.f 1 31 0 ≠ 0 ∧ n.f 1 31 0 ≤ 1000000000 ∧ n.f 0 31 8 = 0) ∧
  WritesTable .egsTabWrite Reg.EGS_TAB_CMD Reg.EGS_TAB_ADDR Reg.EGS_TAB_DATA 17 4 .egs [.regs, .tabs, .egs]
    (fun _ t i => (t, i))
    (fun d t i n => if t = 0 then Entry.legal (d.ent .egs 0 i) { d0 := n.d0 &&& 0xFF003FFF, d1 := n.d1 &&& 0x3FFFF } [(0, 25, 24, [(0, 2)])]
      else if t = 2 then { d0 := n.d0 &&& 0xFF } else { d0 := n.d0, d1 := n.d1 &&& 0x80FFFFFF })
    (fun _ t i n => (t = 0 ∧ i < 262144) ∨ (t = 3 ∧ i < 72 ∧ (n.f 0 31 0 = 0 ∨ 1536 ≤ n.f 1 23 0)) ∨ (t = 2 ∧ i < 1024 ∧ n.f 0 7 0 ≠ 0)) ∧
  WritesTable .tapTabWrite Reg.TAP_TAB_CMD Reg.TAP_TAB_ADDR Reg.TAP_TAB_DATA 9 2 .tap [.regs, .tabs, .tap]
    (fun _ t i => (t, i))
    (fun _ t _ n => if t = 0 then { d0 := n.d0 &&& 0xFFC0FFFF, d1 := n.d1 &&& 0xFFF000FF, d2 := n.d2 &&& 0xFFFF }
      else { d0 := n.d0 &&& 0x8F00FFFF, d1 := n.d1 &&& 0xFFF3FFFF, d2 := n.d2, d3 := n.d3, d4 := n.d4 })
    (fun _ t i _ => (t = 0 ∧ i < 1024) ∨ (t = 1 ∧ i < 256))

/-- WRITE of an index beyond the table named, of a table or an entry that is read only, or (MAT_TAB, GAT_TAB) of the active bank, of
the shadow bank before the previous epoch is reclaimed or of a list that is pending sets ERR with the chapter's code where the
register has ERRCODE, and changes no entry, no DATA word and nothing else. (R404, R90, R93, R118, R186, R226, R252, R273, R289,
R160) -/
def Obligations.TableWritesRefused : Prop :=
  RefusesTable .tskTabWrite Reg.TSK_TAB_CMD 1 (fun d _ => d.fld Reg.TSK_TAB_CMD 27 24 ≠ 0 ∨ 4096 ≤ d.fld Reg.TSK_TAB_ADDR 16 0) ∧
  RefusesTable .matTabWrite Reg.MAT_TAB_CMD 5 (fun d _ => matTabSize (d.fld Reg.MAT_TAB_CMD 27 24) ≤ d.fld Reg.MAT_TAB_ADDR 24 0) ∧
  RefusesTable .matTabWrite Reg.MAT_TAB_CMD 2 (fun d _ => d.fld Reg.MAT_TAB_ADDR 24 0 < matTabSize (d.fld Reg.MAT_TAB_CMD 27 24) ∧ banked (d.fld Reg.MAT_TAB_CMD 27 24) = true ∧ d.flag Reg.MAT_TAB_CMD 23 = false) ∧
  RefusesTable .matTabWrite Reg.MAT_TAB_CMD 1 (fun d _ => d.fld Reg.MAT_TAB_ADDR 24 0 < matTabSize (d.fld Reg.MAT_TAB_CMD 27 24) ∧ banked (d.fld Reg.MAT_TAB_CMD 27 24) = true ∧ d.flag Reg.MAT_TAB_CMD 23 = true ∧ d.flag Reg.MAT_EPOCH 30 = false) ∧
  RefusesTable .metTabWrite Reg.MET_TAB_CMD 5 (fun d _ => metTabSize (d.fld Reg.MET_TAB_CMD 27 24) ≤ d.fld Reg.MET_TAB_ADDR 20 0) ∧
  RefusesTable .vltTabWrite Reg.VLT_TAB_CMD 5 (fun d _ => vltTabSize (d.fld Reg.VLT_TAB_CMD 27 24) ≤ d.fld Reg.VLT_TAB_ADDR 15 0) ∧
  RefusesTable .vltTabWrite Reg.VLT_TAB_CMD 5 (fun d _ => d.fld Reg.VLT_TAB_ADDR 15 0 < vltTabSize (d.fld Reg.VLT_TAB_CMD 27 24) ∧ d.fld Reg.VLT_TAB_CMD 27 24 ≠ 0) ∧
  RefusesTable .queTabWrite Reg.QUE_TAB_CMD 1 (fun d _ => queTabSize (d.fld Reg.QUE_TAB_CMD 27 24) ≤ d.fld Reg.QUE_TAB_ADDR 17 0) ∧
  RefusesTable .fwdTabWrite Reg.FWD_TAB_CMD 1 (fun d _ => fwdTabSize (d.fld Reg.FWD_TAB_CMD 27 24) ≤ d.fld Reg.FWD_TAB_ADDR 22 0 ∨ d.fld Reg.FWD_TAB_CMD 27 24 = 4) ∧
  RefusesTable .vdcTabWrite Reg.VDC_TAB_CMD 5 (fun d _ => d.fld Reg.VDC_TAB_CMD 27 24 ≠ 0 ∧ d.fld Reg.VDC_TAB_ADDR 13 0 < vdcTabSize (d.fld Reg.VDC_TAB_CMD 27 24)) ∧
  RefusesTable .vdcTabWrite Reg.VDC_TAB_CMD 4 (fun d _ => vdcTabSize (d.fld Reg.VDC_TAB_CMD 27 24) ≤ d.fld Reg.VDC_TAB_ADDR 13 0) ∧
  RefusesTable .cmpTabWrite Reg.CMP_TAB_CMD 3 (fun d _ => cmpTabSize (d.fld Reg.CMP_TAB_CMD 27 24) ≤ d.fld Reg.CMP_TAB_ADDR 17 0) ∧
  RefusesTable .cmpTabWrite Reg.CMP_TAB_CMD 5 (fun d _ => d.fld Reg.CMP_TAB_CMD 27 24 = 3 ∧ d.fld Reg.CMP_TAB_ADDR 17 0 < 128) ∧
  RefusesTable .venTabWrite Reg.VEN_TAB_CMD 5 (fun d _ => d.fld Reg.VEN_TAB_CMD 27 24 ≠ 0 ∧ venBeyond (d.fld Reg.VEN_TAB_CMD 27 24) (d.fld Reg.VEN_TAB_ADDR 13 0) = false) ∧
  RefusesTable .venTabWrite Reg.VEN_TAB_CMD 4 (fun d _ => venBeyond (d.fld Reg.VEN_TAB_CMD 27 24) (d.fld Reg.VEN_TAB_ADDR 13 0) = true) ∧
  RefusesTable .audTabWrite Reg.AUD_TAB_CMD 4 (fun d _ => audTabSize (d.fld Reg.AUD_TAB_CMD 27 24) ≤ d.fld Reg.AUD_TAB_ADDR 13 0) ∧
  RefusesTable .fltTabWrite Reg.FLT_TAB_CMD 5 (fun d _ => d.fld Reg.FLT_TAB_CMD 27 24 ≠ 1 ∧ d.fld Reg.FLT_TAB_ADDR 13 0 < fltTabSize (d.fld Reg.FLT_TAB_CMD 27 24)) ∧
  RefusesTable .fltTabWrite Reg.FLT_TAB_CMD 4 (fun d _ => fltTabSize (d.fld Reg.FLT_TAB_CMD 27 24) ≤ d.fld Reg.FLT_TAB_ADDR 13 0) ∧
  RefusesTable .gatTabWrite Reg.GAT_TAB_CMD 2 (fun d _ => d.fld Reg.GAT_TAB_CMD 27 24 < 8 ∧ d.flag Reg.GAT_TAB_CMD 23 = false) ∧
  RefusesTable .gatTabWrite Reg.GAT_TAB_CMD 1 (fun d _ => d.fld Reg.GAT_TAB_CMD 27 24 < 8 ∧ d.flag Reg.GAT_TAB_CMD 23 = true ∧ d.flag (Reg.GAT_CTRL + gatePort (d.fld Reg.GAT_TAB_CMD 27 24)) 28 = true) ∧
  RefusesTable .egsTabWrite Reg.EGS_TAB_CMD 5 (fun d _ => egsTabSize (d.fld Reg.EGS_TAB_CMD 27 24) ≤ d.fld Reg.EGS_TAB_ADDR 17 0) ∧
  RefusesTable .tapTabWrite Reg.TAP_TAB_CMD 5 (fun d _ => tapTabSize (d.fld Reg.TAP_TAB_CMD 27 24) ≤ d.fld Reg.TAP_TAB_ADDR 9 0) ∧
  (∀ (s : State) (p : Path) (v : Word), s.ready = true → s.dev.flag Reg.MUL_TAB_CMD 0 = false →
    mulTabSize ((s.dev.writeReg Reg.MUL_TAB_CMD v).fld Reg.MUL_TAB_CMD 27 24) ≤ s.dev.fld Reg.MUL_TAB_ADDR 14 0 →
    Answers (.mulTabWrite p v) s fun u => u.dev.tabStat Reg.MUL_TAB_CMD 5 ∧ s.dev.keepsRegs [Reg.MUL_TAB_CMD] u.dev ∧
      s.dev.changesOnly [.regs] u.dev ∧ s.keepsMem u)
end

