-- ==== Sys2Proof/Laws/Store.lean ====
section
/-! SUPPORT. What the sparse stores do: reading after a write, and that writing keeps the canonical form; the same for bytes of a
memory. -/

namespace Sys2Proof.Machine
open Sys2Proof

section Tab
variable {α : Type}

theorem tabFind_tabErase (t : Tab α) (k k' : Nat) :
    tabFind (tabErase t k) k' = if k' = k then none else tabFind t k' := by
  induction t with
  | nil => simp [tabErase, tabFind]
  | cons e t ih =>
    obtain ⟨j, v⟩ := e
    by_cases h : k = j
    · subst h
      rw [tabErase, if_pos rfl, ih]
      by_cases h' : k' = k <;> simp [tabFind, h']
    · rw [tabErase, if_neg h]
      by_cases h' : k' = j
      · subst h'
        simp [tabFind, Ne.symm h]
      · simp [tabFind, h', ih]

theorem tabFind_tabInsert (t : Tab α) (k : Nat) (v : α) (k' : Nat) :
    tabFind (tabInsert t k v) k' = if k' = k then some v else tabFind t k' := by
  induction t with
  | nil => simp [tabInsert, tabFind]
  | cons e t ih =>
    obtain ⟨j, u⟩ := e
    rw [tabInsert]
    split
    · simp [tabFind]
    · split
      · subst_vars
        by_cases h : k' = j <;> simp [tabFind, h]
      · rename_i h1 h2
        by_cases h : k' = j
        · subst h
          simp [tabFind, Ne.symm h2]
        · simp [tabFind, h, ih]

/-- Reading after a write: the value written, and every other key as before. -/
theorem tabGet_tabSet [DecidableEq α] (d : Nat → α) (t : Tab α) (k : Nat) (v : α) (k' : Nat) :
    tabGet d (tabSet d t k v) k' = if k' = k then v else tabGet d t k' := by
  unfold tabGet tabSet
  split
  · subst_vars
    rw [tabFind_tabErase]
    split <;> simp_all
  · rw [tabFind_tabInsert]
    split <;> simp_all

@[simp] theorem tabGet_tabSet_self [DecidableEq α] (d : Nat → α) (t : Tab α) (k : Nat) (v : α) :
    tabGet d (tabSet d t k v) k = v := by rw [tabGet_tabSet, if_pos rfl]

theorem tabGet_tabSet_ne [DecidableEq α] (d : Nat → α) (t : Tab α) (k : Nat) (v : α) {k' : Nat} (h : k' ≠ k) :
    tabGet d (tabSet d t k v) k' = tabGet d t k' := by rw [tabGet_tabSet, if_neg h]

@[simp] theorem tabFind_recSet_self (t : Tab α) (k : Nat) (v : α) : tabFind (recSet t k v) k = some v := by
  rw [recSet, tabFind_tabInsert, if_pos rfl]

theorem tabFind_recSet_ne (t : Tab α) (k : Nat) (v : α) {k' : Nat} (h : k' ≠ k) :
    tabFind (recSet t k v) k' = tabFind t k' := by rw [recSet, tabFind_tabInsert, if_neg h]

/-! ### The canonical form -/

theorem tabSorted_cons (k : Nat) (v : α) (t : Tab α) :
    tabSorted ((k, v) :: t) = true ↔ (∀ p ∈ t, k < p.1) ∧ tabSorted t = true := by
  induction t generalizing k v with
  | nil => simp [tabSorted]
  | cons e t ih =>
    obtain ⟨j, u⟩ := e
    rw [tabSorted, Bool.and_eq_true, decide_eq_true_iff]
    constructor
    · rintro ⟨h, hs⟩
      refine ⟨?_, hs⟩
      intro p hp
      rcases List.mem_cons.1 hp with rfl | hp
      · exact h
      · exact Nat.lt_trans h (((ih j u).1 hs).1 p hp)
    · rintro ⟨h, hs⟩
      exact ⟨h (j, u) (List.mem_cons_self ..), hs⟩

theorem mem_tabErase {t : Tab α} {k : Nat} {p : Nat × α} (h : p ∈ tabErase t k) : p ∈ t := by
  induction t with
  | nil => simp [tabErase] at h
  | cons e t ih =>
    obtain ⟨j, v⟩ := e
    rw [tabErase] at h
    split at h
    · exact List.mem_cons_of_mem _ (ih h)
    · rcases List.mem_cons.1 h with rfl | h
      · exact List.mem_cons_self ..
      · exact List.mem_cons_of_mem _ (ih h)

theorem mem_tabInsert {t : Tab α} {k : Nat} {v : α} {p : Nat × α} (h : p ∈ tabInsert t k v) : p = (k, v) ∨ p ∈ t := by
  induction t with
  | nil => simpa [tabInsert] using h
  | cons e t ih =>
    obtain ⟨j, u⟩ := e
    rw [tabInsert] at h
    split at h
    · rcases List.mem_cons.1 h with rfl | h
      · exact .inl rfl
      · exact .inr h
    · split at h
      · rcases List.mem_cons.1 h with rfl | h
        · exact .inl rfl
        · exact .inr (List.mem_cons_of_mem _ h)
      · rcases List.mem_cons.1 h with rfl | h
        · exact .inr (List.mem_cons_self ..)
        · rcases ih h with h | h
          · exact .inl h
          · exact .inr (List.mem_cons_of_mem _ h)

theorem tabSorted_tabErase {t : Tab α} (k : Nat) (h : tabSorted t = true) : tabSorted (tabErase t k) = true := by
  induction t with
  | nil => exact h
  | cons e t ih =>
    obtain ⟨j, v⟩ := e
    obtain ⟨h1, h2⟩ := (tabSorted_cons j v t).1 h
    rw [tabErase]
    split
    · exact ih h2
    · exact (tabSorted_cons j v _).2 ⟨fun p hp => h1 p (mem_tabErase hp), ih h2⟩

theorem tabSorted_tabInsert {t : Tab α} (k : Nat) (v : α) (h : tabSorted t = true) :
    tabSorted (tabInsert t k v) = true := by
  induction t with
  | nil => rfl
  | cons e t ih =>
    obtain ⟨j, u⟩ := e
    obtain ⟨h1, h2⟩ := (tabSorted_cons j u t).1 h
    rw [tabInsert]
    split
    · rename_i hk
      refine (tabSorted_cons k v _).2 ⟨?_, h⟩
      intro p hp
      rcases List.mem_cons.1 hp with rfl | hp
      · exact hk
      · exact Nat.lt_trans hk (h1 p hp)
    · split
      · rename_i hk
        subst hk
        exact (tabSorted_cons k v t).2 ⟨h1, h2⟩
      · rename_i hlt hne
        refine (tabSorted_cons j u _).2 ⟨?_, ih h2⟩
        intro p hp
        rcases mem_tabInsert hp with rfl | hp
        · exact Nat.lt_of_le_of_ne (Nat.le_of_not_lt hlt) (Ne.symm hne)
        · exact h1 p hp

/-- A write keeps the canonical form. -/
theorem tabWf_tabSet [DecidableEq α] (d : Nat → α) {t : Tab α} (k : Nat) (v : α) (h : tabWf d t = true) :
    tabWf d (tabSet d t k v) = true := by
  rw [tabWf, Bool.and_eq_true, List.all_eq_true] at h ⊢
  obtain ⟨hs, hv⟩ := h
  unfold tabSet
  split
  · exact ⟨tabSorted_tabErase k hs, fun p hp => hv p (mem_tabErase hp)⟩
  · rename_i hne
    refine ⟨tabSorted_tabInsert k v hs, fun p hp => ?_⟩
    rcases mem_tabInsert hp with rfl | hp
    · exact decide_eq_true hne
    · exact hv p hp

end Tab

/-! ### Memories -/

theorem memByte_memPut_one (m : List Host.Cell) (a : Nat) (b : Byte) (x : Nat) :
    memByte (tabSet zeroByte m a b) x = if x = a then b else memByte m x := tabGet_tabSet zeroByte m a b x

theorem below_tabSet {limit : Nat} {m : List Host.Cell} {a : Nat} (b : Byte) (ha : a < limit)
    (h : Memory.below limit m = true) : Memory.below limit (tabSet zeroByte m a b) = true := by
  rw [Memory.below, List.all_eq_true] at h ⊢
  intro p hp
  unfold tabSet at hp
  split at hp
  · exact h p (mem_tabErase hp)
  · rcases mem_tabInsert hp with rfl | hp
    · exact decide_eq_true ha
    · exact h p hp

end Sys2Proof.Machine
end

