-- ==== Sys2Proof/Laws/State.lean ====
section
/-! SUPPORT. What each shared operation on the device changes, and that it changes nothing else: one lemma for each field and
operation, so that no proof unfolds a record update. -/

namespace Sys2Proof.Machine
open Sys2Proof

/-! ### Operations that are more than one update: what they change -/

/-- The device with other registers. -/
def Dev.withRegs (d : Dev) (r : Tab Word) : Dev := { d with regs := r }

/-- The device with other registers, event unit and outputs. -/
def Dev.withEvt (d : Dev) (r : Tab Word) (v : Evt) (o : List Emission) : Dev := { d with regs := r, evt := v, out := o }

/-- Registers only. -/
def Dev.regOnly (d e : Dev) : Prop := ∃ r, e = d.withRegs r

/-- Registers, the event unit and the outputs only. -/
def Dev.evtOnly (d e : Dev) : Prop := ∃ r v o, e = d.withEvt r v o

theorem Dev.withRegs_self (d : Dev) : d.withRegs d.regs = d := rfl

theorem Dev.withEvt_self (d : Dev) : d.withEvt d.regs d.evt d.out = d := rfl

theorem Dev.regOnly_refl (d : Dev) : d.regOnly d := ⟨d.regs, rfl⟩

theorem Dev.regOnly_setReg {d e : Dev} (h : d.regOnly e) (o : Nat) (w : Word) : d.regOnly (e.setReg o w) := by
  obtain ⟨r, rfl⟩ := h
  exact ⟨tabSet regReset r o w, rfl⟩

theorem Dev.evtOnly_refl (d : Dev) : d.evtOnly d := ⟨d.regs, d.evt, d.out, rfl⟩

theorem Dev.evtOnly_setReg {d e : Dev} (h : d.evtOnly e) (o : Nat) (w : Word) : d.evtOnly (e.setReg o w) := by
  obtain ⟨r, v, x, rfl⟩ := h
  exact ⟨tabSet regReset r o w, v, x, rfl⟩

theorem Dev.evtOnly_evt {d e : Dev} (h : d.evtOnly e) (v : Evt) : d.evtOnly { e with evt := v } := by
  obtain ⟨r, _, x, rfl⟩ := h
  exact ⟨r, v, x, rfl⟩

theorem Dev.evtOnly_emit {d e : Dev} (h : d.evtOnly e) (x : Emission) : d.evtOnly (e.emit x) := by
  obtain ⟨r, v, o, rfl⟩ := h
  exact ⟨r, v, x :: o, rfl⟩

theorem Dev.evtOnly_noteOnce {d e : Dev} (h : d.evtOnly e) (s : Nat) : d.evtOnly (e.noteOnce s) := Dev.evtOnly_evt h _

theorem Dev.evtOnly_setFlag {d e : Dev} (h : d.evtOnly e) (o i : Nat) (b : Bool) : d.evtOnly (e.setFlag o i b) :=
  Dev.evtOnly_setReg h _ _

theorem Dev.evtOnly_setFld {d e : Dev} (h : d.evtOnly e) (o a b v : Nat) : d.evtOnly (e.setFld o a b v) :=
  Dev.evtOnly_setReg h _ _

theorem Dev.evtOnly_cnt {d e : Dev} (h : d.evtOnly e) (b c n : Nat) : d.evtOnly (e.cnt b c n) :=
  Dev.evtOnly_setReg (Dev.evtOnly_setReg h _ _) _ _

theorem Dev.putData_only (d : Dev) (b n : Nat) (e : Entry) : d.regOnly (d.putData b n e) := by
  unfold Dev.putData
  have h : ∀ (l : List Nat) (x : Dev), d.regOnly x →
      d.regOnly (l.foldl (fun d k => d.setReg (b + 4 * k) (Entry.word e k)) x) := by
    intro l
    induction l with
    | nil => exact fun x hx => hx
    | cons k ks ih => exact fun x hx => ih _ (Dev.regOnly_setReg hx _ _)
  exact h _ d d.regOnly_refl

theorem Dev.writeReg_only (d : Dev) (o : Nat) (v : Word) : d.regOnly (d.writeReg o v) := by
  unfold Dev.writeReg
  split
  · exact Dev.regOnly_setReg d.regOnly_refl _ _
  · exact d.regOnly_refl

theorem Dev.setFld_only (d : Dev) (o hi lo v : Nat) : d.regOnly (d.setFld o hi lo v) :=
  Dev.regOnly_setReg d.regOnly_refl _ _

theorem Dev.setFlag_only (d : Dev) (o i : Nat) (b : Bool) : d.regOnly (d.setFlag o i b) :=
  Dev.regOnly_setReg d.regOnly_refl _ _

theorem Dev.setReg64_only (d : Dev) (lo hi v : Nat) : d.regOnly (d.setReg64 lo hi v) :=
  Dev.regOnly_setReg (Dev.regOnly_setReg d.regOnly_refl _ _) _ _

theorem Dev.count_only (d : Dev) (lo n : Nat) : d.regOnly (d.count lo n) :=
  Dev.regOnly_setReg (Dev.regOnly_setReg d.regOnly_refl _ _) _ _

theorem Dev.cnt_only (d : Dev) (b c n : Nat) : d.regOnly (d.cnt b c n) :=
  Dev.regOnly_setReg (Dev.regOnly_setReg d.regOnly_refl _ _) _ _

theorem Dev.tabCmd_only (d : Dev) (o : Nat) (v : Word) : d.regOnly (d.tabCmd o v) := d.writeReg_only o v

theorem Dev.tabErr_only (d : Dev) (o c : Nat) : d.regOnly (d.tabErr o c) := by
  unfold Dev.tabErr
  dsimp only
  split
  · exact Dev.regOnly_setReg d.regOnly_refl _ _
  · exact d.regOnly_refl

theorem Dev.evtOnly_message {d e : Dev} (h : d.evtOnly e) (v : Nat) : d.evtOnly (e.message v) := by
  unfold Dev.message
  split
  · exact h
  · split
    · exact h
    · split
      · exact Dev.evtOnly_setFlag h _ _ _
      · exact Dev.evtOnly_emit (Dev.evtOnly_cnt (Dev.evtOnly_evt h _) _ _ _) _

theorem Dev.evtOnly_logWrite {d e : Dev} (h : d.evtOnly e) (r : LogRec) : d.evtOnly (e.logWrite r).1 := by
  unfold Dev.logWrite
  dsimp only
  have h' := Dev.evtOnly_cnt (Dev.evtOnly_setFld (Dev.evtOnly_evt h
    { e.evt with log := tabSet (fun _ => {}) e.evt.log (e.fld Reg.EVT_LOG_HEAD 11 0) r })
    Reg.EVT_LOG_HEAD 11 0 ((e.fld Reg.EVT_LOG_HEAD 11 0 + 1) % 4096)) Reg.EVT_CNT_LO 1 1
  split
  · exact Dev.evtOnly_cnt (Dev.evtOnly_setFld h' _ _ _ _) _ _ _
  · exact h'

theorem Dev.evtOnly_logIf {d e : Dev} (h : d.evtOnly e) (b : Prop) [Decidable b] (r : LogRec) :
    d.evtOnly (if b then e.logWrite r else (e, false)).1 := by
  split
  · exact Dev.evtOnly_logWrite h r
  · exact h

theorem Dev.evtOnly_raiseCore {d e : Dev} (h : d.evtOnly e) (src d0 d1 blk : Nat) (vec : Option Nat) :
    d.evtOnly (e.raiseCore src d0 d1 blk vec).1 := by
  unfold Dev.raiseCore
  split
  · exact h
  · dsimp only
    split
    · exact h
    · have h1 := Dev.evtOnly_cnt (Dev.evtOnly_setFlag h (Reg.EVT_STAT + 4 * (src / 32)) (src % 32) true) Reg.EVT_CNT_LO 0 1
      refine Dev.evtOnly_logIf ?_ _ _
      split
      · refine Dev.evtOnly_message ?_ _
        split
        · split
          · exact Dev.evtOnly_evt h1 _
          · exact Dev.evtOnly_emit h1 _
        · exact h1
      · split
        · refine Dev.evtOnly_message ?_ _
          split
          · split
            · exact Dev.evtOnly_evt h1 _
            · exact Dev.evtOnly_emit h1 _
          · exact h1
        · split
          · split
            · exact Dev.evtOnly_evt h1 _
            · exact Dev.evtOnly_emit h1 _
          · exact h1

theorem Dev.evtOnly_raiseFull {d e : Dev} (h : d.evtOnly e) (src d0 d1 blk : Nat) (vec : Option Nat) :
    d.evtOnly (e.raiseFull src d0 d1 blk vec) := by
  have h' := Dev.evtOnly_raiseCore h src d0 d1 blk vec
  unfold Dev.raiseFull
  split
  · rename_i f hf
    rw [hf] at h'
    exact h'
  · rename_i f hf
    rw [hf] at h'
    split
    · exact h'
    · exact Dev.evtOnly_raiseCore (Dev.evtOnly_noteOnce h' _) _ _ _ _ _

theorem Dev.message_evtOnly (d : Dev) (v : Nat) : d.evtOnly (d.message v) := Dev.evtOnly_message d.evtOnly_refl v

theorem Dev.raiseFull_evtOnly (d : Dev) (src d0 d1 blk : Nat) (vec : Option Nat) :
    d.evtOnly (d.raiseFull src d0 d1 blk vec) := Dev.evtOnly_raiseFull d.evtOnly_refl src d0 d1 blk vec

theorem Dev.raise_evtOnly (d : Dev) (src d0 d1 : Nat) : d.evtOnly (d.raise src d0 d1) := Dev.raiseFull_evtOnly ..

theorem Dev.raiseOn_evtOnly (d : Dev) (src vec d0 d1 : Nat) : d.evtOnly (d.raiseOn src vec d0 d1) := Dev.raiseFull_evtOnly ..

theorem Dev.raiseMem_evtOnly (d : Dev) (src d0 d1 blk : Nat) : d.evtOnly (d.raiseMem src d0 d1 blk) := Dev.raiseFull_evtOnly ..

theorem Dev.raiseOnce_evtOnly (d : Dev) (src d0 d1 : Nat) : d.evtOnly (d.raiseOnce src d0 d1) := by
  unfold Dev.raiseOnce
  split
  · exact d.evtOnly_refl
  · exact Dev.evtOnly_raiseFull (Dev.evtOnly_noteOnce d.evtOnly_refl src) _ _ _ _ _

/-! ### Field by field -/

theorem Dev.regOnly.now_eq {d e : Dev} (h : d.regOnly e) : e.now = d.now := by
  obtain ⟨_, rfl⟩ := h
  rfl
theorem Dev.evtOnly.now_eq {d e : Dev} (h : d.evtOnly e) : e.now = d.now := by
  obtain ⟨_, _, _, rfl⟩ := h
  rfl
theorem Dev.regOnly.beat_eq {d e : Dev} (h : d.regOnly e) : e.beat = d.beat := by
  obtain ⟨_, rfl⟩ := h
  rfl
theorem Dev.evtOnly.beat_eq {d e : Dev} (h : d.evtOnly e) : e.beat = d.beat := by
  obtain ⟨_, _, _, rfl⟩ := h
  rfl
theorem Dev.regOnly.fclk_eq {d e : Dev} (h : d.regOnly e) : e.fclk = d.fclk := by
  obtain ⟨_, rfl⟩ := h
  rfl
theorem Dev.evtOnly.fclk_eq {d e : Dev} (h : d.evtOnly e) : e.fclk = d.fclk := by
  obtain ⟨_, _, _, rfl⟩ := h
  rfl
theorem Dev.regOnly.mode_eq {d e : Dev} (h : d.regOnly e) : e.mode = d.mode := by
  obtain ⟨_, rfl⟩ := h
  rfl
theorem Dev.evtOnly.mode_eq {d e : Dev} (h : d.evtOnly e) : e.mode = d.mode := by
  obtain ⟨_, _, _, rfl⟩ := h
  rfl
theorem Dev.regOnly.before_eq {d e : Dev} (h : d.regOnly e) : e.before = d.before := by
  obtain ⟨_, rfl⟩ := h
  rfl
theorem Dev.evtOnly.before_eq {d e : Dev} (h : d.evtOnly e) : e.before = d.before := by
  obtain ⟨_, _, _, rfl⟩ := h
  rfl
theorem Dev.regOnly.latches_eq {d e : Dev} (h : d.regOnly e) : e.latches = d.latches := by
  obtain ⟨_, rfl⟩ := h
  rfl
theorem Dev.evtOnly.latches_eq {d e : Dev} (h : d.evtOnly e) : e.latches = d.latches := by
  obtain ⟨_, _, _, rfl⟩ := h
  rfl
theorem Dev.regOnly.held_eq {d e : Dev} (h : d.regOnly e) : e.held = d.held := by
  obtain ⟨_, rfl⟩ := h
  rfl
theorem Dev.evtOnly.held_eq {d e : Dev} (h : d.evtOnly e) : e.held = d.held := by
  obtain ⟨_, _, _, rfl⟩ := h
  rfl
theorem Dev.regOnly.setNow_eq {d e : Dev} (h : d.regOnly e) : e.setNow = d.setNow := by
  obtain ⟨_, rfl⟩ := h
  rfl
theorem Dev.evtOnly.setNow_eq {d e : Dev} (h : d.evtOnly e) : e.setNow = d.setNow := by
  obtain ⟨_, _, _, rfl⟩ := h
  rfl
theorem Dev.regOnly.tabs_eq {d e : Dev} (h : d.regOnly e) : e.tabs = d.tabs := by
  obtain ⟨_, rfl⟩ := h
  rfl
theorem Dev.evtOnly.tabs_eq {d e : Dev} (h : d.evtOnly e) : e.tabs = d.tabs := by
  obtain ⟨_, _, _, rfl⟩ := h
  rfl
theorem Dev.regOnly.free_eq {d e : Dev} (h : d.regOnly e) : e.free = d.free := by
  obtain ⟨_, rfl⟩ := h
  rfl
theorem Dev.evtOnly.free_eq {d e : Dev} (h : d.evtOnly e) : e.free = d.free := by
  obtain ⟨_, _, _, rfl⟩ := h
  rfl
theorem Dev.regOnly.out_eq {d e : Dev} (h : d.regOnly e) : e.out = d.out := by
  obtain ⟨_, rfl⟩ := h
  rfl
theorem Dev.regOnly.tim_eq {d e : Dev} (h : d.regOnly e) : e.tim = d.tim := by
  obtain ⟨_, rfl⟩ := h
  rfl
theorem Dev.evtOnly.tim_eq {d e : Dev} (h : d.evtOnly e) : e.tim = d.tim := by
  obtain ⟨_, _, _, rfl⟩ := h
  rfl
theorem Dev.regOnly.evt_eq {d e : Dev} (h : d.regOnly e) : e.evt = d.evt := by
  obtain ⟨_, rfl⟩ := h
  rfl
theorem Dev.regOnly.pkt_eq {d e : Dev} (h : d.regOnly e) : e.pkt = d.pkt := by
  obtain ⟨_, rfl⟩ := h
  rfl
theorem Dev.evtOnly.pkt_eq {d e : Dev} (h : d.evtOnly e) : e.pkt = d.pkt := by
  obtain ⟨_, _, _, rfl⟩ := h
  rfl
theorem Dev.regOnly.que_eq {d e : Dev} (h : d.regOnly e) : e.que = d.que := by
  obtain ⟨_, rfl⟩ := h
  rfl
theorem Dev.evtOnly.que_eq {d e : Dev} (h : d.evtOnly e) : e.que = d.que := by
  obtain ⟨_, _, _, rfl⟩ := h
  rfl
theorem Dev.regOnly.tsk_eq {d e : Dev} (h : d.regOnly e) : e.tsk = d.tsk := by
  obtain ⟨_, rfl⟩ := h
  rfl
theorem Dev.evtOnly.tsk_eq {d e : Dev} (h : d.evtOnly e) : e.tsk = d.tsk := by
  obtain ⟨_, _, _, rfl⟩ := h
  rfl
theorem Dev.regOnly.regions_eq {d e : Dev} (h : d.regOnly e) : e.regions = d.regions := by
  obtain ⟨_, rfl⟩ := h
  rfl
theorem Dev.evtOnly.regions_eq {d e : Dev} (h : d.evtOnly e) : e.regions = d.regions := by
  obtain ⟨_, _, _, rfl⟩ := h
  rfl
theorem Dev.regOnly.fwd_eq {d e : Dev} (h : d.regOnly e) : e.fwd = d.fwd := by
  obtain ⟨_, rfl⟩ := h
  rfl
theorem Dev.evtOnly.fwd_eq {d e : Dev} (h : d.evtOnly e) : e.fwd = d.fwd := by
  obtain ⟨_, _, _, rfl⟩ := h
  rfl
theorem Dev.regOnly.vdc_eq {d e : Dev} (h : d.regOnly e) : e.vdc = d.vdc := by
  obtain ⟨_, rfl⟩ := h
  rfl
theorem Dev.evtOnly.vdc_eq {d e : Dev} (h : d.evtOnly e) : e.vdc = d.vdc := by
  obtain ⟨_, _, _, rfl⟩ := h
  rfl
theorem Dev.regOnly.cmp_eq {d e : Dev} (h : d.regOnly e) : e.cmp = d.cmp := by
  obtain ⟨_, rfl⟩ := h
  rfl
theorem Dev.evtOnly.cmp_eq {d e : Dev} (h : d.evtOnly e) : e.cmp = d.cmp := by
  obtain ⟨_, _, _, rfl⟩ := h
  rfl
theorem Dev.regOnly.ven_eq {d e : Dev} (h : d.regOnly e) : e.ven = d.ven := by
  obtain ⟨_, rfl⟩ := h
  rfl
theorem Dev.evtOnly.ven_eq {d e : Dev} (h : d.evtOnly e) : e.ven = d.ven := by
  obtain ⟨_, _, _, rfl⟩ := h
  rfl
theorem Dev.regOnly.aud_eq {d e : Dev} (h : d.regOnly e) : e.aud = d.aud := by
  obtain ⟨_, rfl⟩ := h
  rfl
theorem Dev.evtOnly.aud_eq {d e : Dev} (h : d.evtOnly e) : e.aud = d.aud := by
  obtain ⟨_, _, _, rfl⟩ := h
  rfl
theorem Dev.regOnly.egs_eq {d e : Dev} (h : d.regOnly e) : e.egs = d.egs := by
  obtain ⟨_, rfl⟩ := h
  rfl
theorem Dev.evtOnly.egs_eq {d e : Dev} (h : d.evtOnly e) : e.egs = d.egs := by
  obtain ⟨_, _, _, rfl⟩ := h
  rfl
theorem Dev.regOnly.vlt_eq {d e : Dev} (h : d.regOnly e) : e.vlt = d.vlt := by
  obtain ⟨_, rfl⟩ := h
  rfl
theorem Dev.evtOnly.vlt_eq {d e : Dev} (h : d.evtOnly e) : e.vlt = d.vlt := by
  obtain ⟨_, _, _, rfl⟩ := h
  rfl
theorem Dev.regOnly.mac_eq {d e : Dev} (h : d.regOnly e) : e.mac = d.mac := by
  obtain ⟨_, rfl⟩ := h
  rfl
theorem Dev.evtOnly.mac_eq {d e : Dev} (h : d.evtOnly e) : e.mac = d.mac := by
  obtain ⟨_, _, _, rfl⟩ := h
  rfl
theorem Dev.regOnly.tap_eq {d e : Dev} (h : d.regOnly e) : e.tap = d.tap := by
  obtain ⟨_, rfl⟩ := h
  rfl
theorem Dev.evtOnly.tap_eq {d e : Dev} (h : d.evtOnly e) : e.tap = d.tap := by
  obtain ⟨_, _, _, rfl⟩ := h
  rfl
theorem Dev.regOnly.pci_eq {d e : Dev} (h : d.regOnly e) : e.pci = d.pci := by
  obtain ⟨_, rfl⟩ := h
  rfl
theorem Dev.evtOnly.pci_eq {d e : Dev} (h : d.evtOnly e) : e.pci = d.pci := by
  obtain ⟨_, _, _, rfl⟩ := h
  rfl
theorem Dev.regOnly.mem_eq {d e : Dev} (h : d.regOnly e) : e.mem = d.mem := by
  obtain ⟨_, rfl⟩ := h
  rfl
theorem Dev.evtOnly.mem_eq {d e : Dev} (h : d.evtOnly e) : e.mem = d.mem := by
  obtain ⟨_, _, _, rfl⟩ := h
  rfl
theorem Dev.regOnly.pwr_eq {d e : Dev} (h : d.regOnly e) : e.pwr = d.pwr := by
  obtain ⟨_, rfl⟩ := h
  rfl
theorem Dev.evtOnly.pwr_eq {d e : Dev} (h : d.evtOnly e) : e.pwr = d.pwr := by
  obtain ⟨_, _, _, rfl⟩ := h
  rfl
theorem Dev.regOnly.mul_eq {d e : Dev} (h : d.regOnly e) : e.mul = d.mul := by
  obtain ⟨_, rfl⟩ := h
  rfl
theorem Dev.evtOnly.mul_eq {d e : Dev} (h : d.evtOnly e) : e.mul = d.mul := by
  obtain ⟨_, _, _, rfl⟩ := h
  rfl
theorem Dev.regOnly.cfg_eq {d e : Dev} (h : d.regOnly e) : e.cfg = d.cfg := by
  obtain ⟨_, rfl⟩ := h
  rfl
theorem Dev.evtOnly.cfg_eq {d e : Dev} (h : d.evtOnly e) : e.cfg = d.cfg := by
  obtain ⟨_, _, _, rfl⟩ := h
  rfl
theorem Dev.regOnly.lmd_eq {d e : Dev} (h : d.regOnly e) : e.lmd = d.lmd := by
  obtain ⟨_, rfl⟩ := h
  rfl
theorem Dev.evtOnly.lmd_eq {d e : Dev} (h : d.evtOnly e) : e.lmd = d.lmd := by
  obtain ⟨_, _, _, rfl⟩ := h
  rfl

theorem Dev.setReg_only (d : Dev) (o : Nat) (w : Word) : ∃ y, d.setReg o w = { d with regs := y } := ⟨_, rfl⟩
theorem Dev.setEnt_only (d : Dev) (u : TabUnit) (t i : Nat) (e : Entry) : ∃ y, d.setEnt u t i e = { d with tabs := y } := ⟨_, rfl⟩
theorem Dev.emit_only (d : Dev) (x : Emission) : ∃ y, d.emit x = { d with out := y } := ⟨_, rfl⟩
theorem Dev.latchHi_only (d : Dev) (p : Path) (w : Word) : ∃ y, d.latchHi p w = { d with latches := y } := ⟨_, rfl⟩
theorem Dev.hold_only (d : Dev) (p : Path) (w : Word) : ∃ y, d.hold p w = { d with held := y } := ⟨_, rfl⟩
theorem Dev.noteOnce_only (d : Dev) (src : Nat) : ∃ y, d.noteOnce src = { d with evt := y } := ⟨_, rfl⟩
theorem Dev.push_only (d : Dev) (a : Act) : ∃ y, d.push a = { d with tsk := y } := ⟨_, rfl⟩

@[simp] theorem Dev.setReg_now (d : Dev) (o : Nat) (w : Word) : (d.setReg o w).now = d.now := by
  obtain ⟨y, h⟩ := Dev.setReg_only d o w
  rw [h]
@[simp] theorem Dev.setReg_beat (d : Dev) (o : Nat) (w : Word) : (d.setReg o w).beat = d.beat := by
  obtain ⟨y, h⟩ := Dev.setReg_only d o w
  rw [h]
@[simp] theorem Dev.setReg_fclk (d : Dev) (o : Nat) (w : Word) : (d.setReg o w).fclk = d.fclk := by
  obtain ⟨y, h⟩ := Dev.setReg_only d o w
  rw [h]
@[simp] theorem Dev.setReg_mode (d : Dev) (o : Nat) (w : Word) : (d.setReg o w).mode = d.mode := by
  obtain ⟨y, h⟩ := Dev.setReg_only d o w
  rw [h]
@[simp] theorem Dev.setReg_before (d : Dev) (o : Nat) (w : Word) : (d.setReg o w).before = d.before := by
  obtain ⟨y, h⟩ := Dev.setReg_only d o w
  rw [h]
@[simp] theorem Dev.setReg_latches (d : Dev) (o : Nat) (w : Word) : (d.setReg o w).latches = d.latches := by
  obtain ⟨y, h⟩ := Dev.setReg_only d o w
  rw [h]
@[simp] theorem Dev.setReg_held (d : Dev) (o : Nat) (w : Word) : (d.setReg o w).held = d.held := by
  obtain ⟨y, h⟩ := Dev.setReg_only d o w
  rw [h]
@[simp] theorem Dev.setReg_setNow (d : Dev) (o : Nat) (w : Word) : (d.setReg o w).setNow = d.setNow := by
  obtain ⟨y, h⟩ := Dev.setReg_only d o w
  rw [h]
@[simp] theorem Dev.setReg_tabs (d : Dev) (o : Nat) (w : Word) : (d.setReg o w).tabs = d.tabs := by
  obtain ⟨y, h⟩ := Dev.setReg_only d o w
  rw [h]
@[simp] theorem Dev.setReg_free (d : Dev) (o : Nat) (w : Word) : (d.setReg o w).free = d.free := by
  obtain ⟨y, h⟩ := Dev.setReg_only d o w
  rw [h]
@[simp] theorem Dev.setReg_out (d : Dev) (o : Nat) (w : Word) : (d.setReg o w).out = d.out := by
  obtain ⟨y, h⟩ := Dev.setReg_only d o w
  rw [h]
@[simp] theorem Dev.setReg_tim (d : Dev) (o : Nat) (w : Word) : (d.setReg o w).tim = d.tim := by
  obtain ⟨y, h⟩ := Dev.setReg_only d o w
  rw [h]
@[simp] theorem Dev.setReg_evt (d : Dev) (o : Nat) (w : Word) : (d.setReg o w).evt = d.evt := by
  obtain ⟨y, h⟩ := Dev.setReg_only d o w
  rw [h]
@[simp] theorem Dev.setReg_pkt (d : Dev) (o : Nat) (w : Word) : (d.setReg o w).pkt = d.pkt := by
  obtain ⟨y, h⟩ := Dev.setReg_only d o w
  rw [h]
@[simp] theorem Dev.setReg_que (d : Dev) (o : Nat) (w : Word) : (d.setReg o w).que = d.que := by
  obtain ⟨y, h⟩ := Dev.setReg_only d o w
  rw [h]
@[simp] theorem Dev.setReg_tsk (d : Dev) (o : Nat) (w : Word) : (d.setReg o w).tsk = d.tsk := by
  obtain ⟨y, h⟩ := Dev.setReg_only d o w
  rw [h]
@[simp] theorem Dev.setReg_regions (d : Dev) (o : Nat) (w : Word) : (d.setReg o w).regions = d.regions := by
  obtain ⟨y, h⟩ := Dev.setReg_only d o w
  rw [h]
@[simp] theorem Dev.setReg_fwd (d : Dev) (o : Nat) (w : Word) : (d.setReg o w).fwd = d.fwd := by
  obtain ⟨y, h⟩ := Dev.setReg_only d o w
  rw [h]
@[simp] theorem Dev.setReg_vdc (d : Dev) (o : Nat) (w : Word) : (d.setReg o w).vdc = d.vdc := by
  obtain ⟨y, h⟩ := Dev.setReg_only d o w
  rw [h]
@[simp] theorem Dev.setReg_cmp (d : Dev) (o : Nat) (w : Word) : (d.setReg o w).cmp = d.cmp := by
  obtain ⟨y, h⟩ := Dev.setReg_only d o w
  rw [h]
@[simp] theorem Dev.setReg_ven (d : Dev) (o : Nat) (w : Word) : (d.setReg o w).ven = d.ven := by
  obtain ⟨y, h⟩ := Dev.setReg_only d o w
  rw [h]
@[simp] theorem Dev.setReg_aud (d : Dev) (o : Nat) (w : Word) : (d.setReg o w).aud = d.aud := by
  obtain ⟨y, h⟩ := Dev.setReg_only d o w
  rw [h]
@[simp] theorem Dev.setReg_egs (d : Dev) (o : Nat) (w : Word) : (d.setReg o w).egs = d.egs := by
  obtain ⟨y, h⟩ := Dev.setReg_only d o w
  rw [h]
@[simp] theorem Dev.setReg_vlt (d : Dev) (o : Nat) (w : Word) : (d.setReg o w).vlt = d.vlt := by
  obtain ⟨y, h⟩ := Dev.setReg_only d o w
  rw [h]
@[simp] theorem Dev.setReg_mac (d : Dev) (o : Nat) (w : Word) : (d.setReg o w).mac = d.mac := by
  obtain ⟨y, h⟩ := Dev.setReg_only d o w
  rw [h]
@[simp] theorem Dev.setReg_tap (d : Dev) (o : Nat) (w : Word) : (d.setReg o w).tap = d.tap := by
  obtain ⟨y, h⟩ := Dev.setReg_only d o w
  rw [h]
@[simp] theorem Dev.setReg_pci (d : Dev) (o : Nat) (w : Word) : (d.setReg o w).pci = d.pci := by
  obtain ⟨y, h⟩ := Dev.setReg_only d o w
  rw [h]
@[simp] theorem Dev.setReg_mem (d : Dev) (o : Nat) (w : Word) : (d.setReg o w).mem = d.mem := by
  obtain ⟨y, h⟩ := Dev.setReg_only d o w
  rw [h]
@[simp] theorem Dev.setReg_pwr (d : Dev) (o : Nat) (w : Word) : (d.setReg o w).pwr = d.pwr := by
  obtain ⟨y, h⟩ := Dev.setReg_only d o w
  rw [h]
@[simp] theorem Dev.setReg_mul (d : Dev) (o : Nat) (w : Word) : (d.setReg o w).mul = d.mul := by
  obtain ⟨y, h⟩ := Dev.setReg_only d o w
  rw [h]
@[simp] theorem Dev.setReg_cfg (d : Dev) (o : Nat) (w : Word) : (d.setReg o w).cfg = d.cfg := by
  obtain ⟨y, h⟩ := Dev.setReg_only d o w
  rw [h]
@[simp] theorem Dev.setReg_lmd (d : Dev) (o : Nat) (w : Word) : (d.setReg o w).lmd = d.lmd := by
  obtain ⟨y, h⟩ := Dev.setReg_only d o w
  rw [h]
@[simp] theorem Dev.setFld_now (d : Dev) (o hi lo v : Nat) : (d.setFld o hi lo v).now = d.now := (Dev.setFld_only d o hi lo v).now_eq
@[simp] theorem Dev.setFld_beat (d : Dev) (o hi lo v : Nat) : (d.setFld o hi lo v).beat = d.beat := (Dev.setFld_only d o hi lo v).beat_eq
@[simp] theorem Dev.setFld_fclk (d : Dev) (o hi lo v : Nat) : (d.setFld o hi lo v).fclk = d.fclk := (Dev.setFld_only d o hi lo v).fclk_eq
@[simp] theorem Dev.setFld_mode (d : Dev) (o hi lo v : Nat) : (d.setFld o hi lo v).mode = d.mode := (Dev.setFld_only d o hi lo v).mode_eq
@[simp] theorem Dev.setFld_before (d : Dev) (o hi lo v : Nat) : (d.setFld o hi lo v).before = d.before := (Dev.setFld_only d o hi lo v).before_eq
@[simp] theorem Dev.setFld_latches (d : Dev) (o hi lo v : Nat) : (d.setFld o hi lo v).latches = d.latches := (Dev.setFld_only d o hi lo v).latches_eq
@[simp] theorem Dev.setFld_held (d : Dev) (o hi lo v : Nat) : (d.setFld o hi lo v).held = d.held := (Dev.setFld_only d o hi lo v).held_eq
@[simp] theorem Dev.setFld_setNow (d : Dev) (o hi lo v : Nat) : (d.setFld o hi lo v).setNow = d.setNow := (Dev.setFld_only d o hi lo v).setNow_eq
@[simp] theorem Dev.setFld_tabs (d : Dev) (o hi lo v : Nat) : (d.setFld o hi lo v).tabs = d.tabs := (Dev.setFld_only d o hi lo v).tabs_eq
@[simp] theorem Dev.setFld_free (d : Dev) (o hi lo v : Nat) : (d.setFld o hi lo v).free = d.free := (Dev.setFld_only d o hi lo v).free_eq
@[simp] theorem Dev.setFld_out (d : Dev) (o hi lo v : Nat) : (d.setFld o hi lo v).out = d.out := (Dev.setFld_only d o hi lo v).out_eq
@[simp] theorem Dev.setFld_tim (d : Dev) (o hi lo v : Nat) : (d.setFld o hi lo v).tim = d.tim := (Dev.setFld_only d o hi lo v).tim_eq
@[simp] theorem Dev.setFld_evt (d : Dev) (o hi lo v : Nat) : (d.setFld o hi lo v).evt = d.evt := (Dev.setFld_only d o hi lo v).evt_eq
@[simp] theorem Dev.setFld_pkt (d : Dev) (o hi lo v : Nat) : (d.setFld o hi lo v).pkt = d.pkt := (Dev.setFld_only d o hi lo v).pkt_eq
@[simp] theorem Dev.setFld_que (d : Dev) (o hi lo v : Nat) : (d.setFld o hi lo v).que = d.que := (Dev.setFld_only d o hi lo v).que_eq
@[simp] theorem Dev.setFld_tsk (d : Dev) (o hi lo v : Nat) : (d.setFld o hi lo v).tsk = d.tsk := (Dev.setFld_only d o hi lo v).tsk_eq
@[simp] theorem Dev.setFld_regions (d : Dev) (o hi lo v : Nat) : (d.setFld o hi lo v).regions = d.regions := (Dev.setFld_only d o hi lo v).regions_eq
@[simp] theorem Dev.setFld_fwd (d : Dev) (o hi lo v : Nat) : (d.setFld o hi lo v).fwd = d.fwd := (Dev.setFld_only d o hi lo v).fwd_eq
@[simp] theorem Dev.setFld_vdc (d : Dev) (o hi lo v : Nat) : (d.setFld o hi lo v).vdc = d.vdc := (Dev.setFld_only d o hi lo v).vdc_eq
@[simp] theorem Dev.setFld_cmp (d : Dev) (o hi lo v : Nat) : (d.setFld o hi lo v).cmp = d.cmp := (Dev.setFld_only d o hi lo v).cmp_eq
@[simp] theorem Dev.setFld_ven (d : Dev) (o hi lo v : Nat) : (d.setFld o hi lo v).ven = d.ven := (Dev.setFld_only d o hi lo v).ven_eq
@[simp] theorem Dev.setFld_aud (d : Dev) (o hi lo v : Nat) : (d.setFld o hi lo v).aud = d.aud := (Dev.setFld_only d o hi lo v).aud_eq
@[simp] theorem Dev.setFld_egs (d : Dev) (o hi lo v : Nat) : (d.setFld o hi lo v).egs = d.egs := (Dev.setFld_only d o hi lo v).egs_eq
@[simp] theorem Dev.setFld_vlt (d : Dev) (o hi lo v : Nat) : (d.setFld o hi lo v).vlt = d.vlt := (Dev.setFld_only d o hi lo v).vlt_eq
@[simp] theorem Dev.setFld_mac (d : Dev) (o hi lo v : Nat) : (d.setFld o hi lo v).mac = d.mac := (Dev.setFld_only d o hi lo v).mac_eq
@[simp] theorem Dev.setFld_tap (d : Dev) (o hi lo v : Nat) : (d.setFld o hi lo v).tap = d.tap := (Dev.setFld_only d o hi lo v).tap_eq
@[simp] theorem Dev.setFld_pci (d : Dev) (o hi lo v : Nat) : (d.setFld o hi lo v).pci = d.pci := (Dev.setFld_only d o hi lo v).pci_eq
@[simp] theorem Dev.setFld_mem (d : Dev) (o hi lo v : Nat) : (d.setFld o hi lo v).mem = d.mem := (Dev.setFld_only d o hi lo v).mem_eq
@[simp] theorem Dev.setFld_pwr (d : Dev) (o hi lo v : Nat) : (d.setFld o hi lo v).pwr = d.pwr := (Dev.setFld_only d o hi lo v).pwr_eq
@[simp] theorem Dev.setFld_mul (d : Dev) (o hi lo v : Nat) : (d.setFld o hi lo v).mul = d.mul := (Dev.setFld_only d o hi lo v).mul_eq
@[simp] theorem Dev.setFld_cfg (d : Dev) (o hi lo v : Nat) : (d.setFld o hi lo v).cfg = d.cfg := (Dev.setFld_only d o hi lo v).cfg_eq
@[simp] theorem Dev.setFld_lmd (d : Dev) (o hi lo v : Nat) : (d.setFld o hi lo v).lmd = d.lmd := (Dev.setFld_only d o hi lo v).lmd_eq
@[simp] theorem Dev.setFlag_now (d : Dev) (o i : Nat) (b : Bool) : (d.setFlag o i b).now = d.now := (Dev.setFlag_only d o i b).now_eq
@[simp] theorem Dev.setFlag_beat (d : Dev) (o i : Nat) (b : Bool) : (d.setFlag o i b).beat = d.beat := (Dev.setFlag_only d o i b).beat_eq
@[simp] theorem Dev.setFlag_fclk (d : Dev) (o i : Nat) (b : Bool) : (d.setFlag o i b).fclk = d.fclk := (Dev.setFlag_only d o i b).fclk_eq
@[simp] theorem Dev.setFlag_mode (d : Dev) (o i : Nat) (b : Bool) : (d.setFlag o i b).mode = d.mode := (Dev.setFlag_only d o i b).mode_eq
@[simp] theorem Dev.setFlag_before (d : Dev) (o i : Nat) (b : Bool) : (d.setFlag o i b).before = d.before := (Dev.setFlag_only d o i b).before_eq
@[simp] theorem Dev.setFlag_latches (d : Dev) (o i : Nat) (b : Bool) : (d.setFlag o i b).latches = d.latches := (Dev.setFlag_only d o i b).latches_eq
@[simp] theorem Dev.setFlag_held (d : Dev) (o i : Nat) (b : Bool) : (d.setFlag o i b).held = d.held := (Dev.setFlag_only d o i b).held_eq
@[simp] theorem Dev.setFlag_setNow (d : Dev) (o i : Nat) (b : Bool) : (d.setFlag o i b).setNow = d.setNow := (Dev.setFlag_only d o i b).setNow_eq
@[simp] theorem Dev.setFlag_tabs (d : Dev) (o i : Nat) (b : Bool) : (d.setFlag o i b).tabs = d.tabs := (Dev.setFlag_only d o i b).tabs_eq
@[simp] theorem Dev.setFlag_free (d : Dev) (o i : Nat) (b : Bool) : (d.setFlag o i b).free = d.free := (Dev.setFlag_only d o i b).free_eq
@[simp] theorem Dev.setFlag_out (d : Dev) (o i : Nat) (b : Bool) : (d.setFlag o i b).out = d.out := (Dev.setFlag_only d o i b).out_eq
@[simp] theorem Dev.setFlag_tim (d : Dev) (o i : Nat) (b : Bool) : (d.setFlag o i b).tim = d.tim := (Dev.setFlag_only d o i b).tim_eq
@[simp] theorem Dev.setFlag_evt (d : Dev) (o i : Nat) (b : Bool) : (d.setFlag o i b).evt = d.evt := (Dev.setFlag_only d o i b).evt_eq
@[simp] theorem Dev.setFlag_pkt (d : Dev) (o i : Nat) (b : Bool) : (d.setFlag o i b).pkt = d.pkt := (Dev.setFlag_only d o i b).pkt_eq
@[simp] theorem Dev.setFlag_que (d : Dev) (o i : Nat) (b : Bool) : (d.setFlag o i b).que = d.que := (Dev.setFlag_only d o i b).que_eq
@[simp] theorem Dev.setFlag_tsk (d : Dev) (o i : Nat) (b : Bool) : (d.setFlag o i b).tsk = d.tsk := (Dev.setFlag_only d o i b).tsk_eq
@[simp] theorem Dev.setFlag_regions (d : Dev) (o i : Nat) (b : Bool) : (d.setFlag o i b).regions = d.regions := (Dev.setFlag_only d o i b).regions_eq
@[simp] theorem Dev.setFlag_fwd (d : Dev) (o i : Nat) (b : Bool) : (d.setFlag o i b).fwd = d.fwd := (Dev.setFlag_only d o i b).fwd_eq
@[simp] theorem Dev.setFlag_vdc (d : Dev) (o i : Nat) (b : Bool) : (d.setFlag o i b).vdc = d.vdc := (Dev.setFlag_only d o i b).vdc_eq
@[simp] theorem Dev.setFlag_cmp (d : Dev) (o i : Nat) (b : Bool) : (d.setFlag o i b).cmp = d.cmp := (Dev.setFlag_only d o i b).cmp_eq
@[simp] theorem Dev.setFlag_ven (d : Dev) (o i : Nat) (b : Bool) : (d.setFlag o i b).ven = d.ven := (Dev.setFlag_only d o i b).ven_eq
@[simp] theorem Dev.setFlag_aud (d : Dev) (o i : Nat) (b : Bool) : (d.setFlag o i b).aud = d.aud := (Dev.setFlag_only d o i b).aud_eq
@[simp] theorem Dev.setFlag_egs (d : Dev) (o i : Nat) (b : Bool) : (d.setFlag o i b).egs = d.egs := (Dev.setFlag_only d o i b).egs_eq
@[simp] theorem Dev.setFlag_vlt (d : Dev) (o i : Nat) (b : Bool) : (d.setFlag o i b).vlt = d.vlt := (Dev.setFlag_only d o i b).vlt_eq
@[simp] theorem Dev.setFlag_mac (d : Dev) (o i : Nat) (b : Bool) : (d.setFlag o i b).mac = d.mac := (Dev.setFlag_only d o i b).mac_eq
@[simp] theorem Dev.setFlag_tap (d : Dev) (o i : Nat) (b : Bool) : (d.setFlag o i b).tap = d.tap := (Dev.setFlag_only d o i b).tap_eq
@[simp] theorem Dev.setFlag_pci (d : Dev) (o i : Nat) (b : Bool) : (d.setFlag o i b).pci = d.pci := (Dev.setFlag_only d o i b).pci_eq
@[simp] theorem Dev.setFlag_mem (d : Dev) (o i : Nat) (b : Bool) : (d.setFlag o i b).mem = d.mem := (Dev.setFlag_only d o i b).mem_eq
@[simp] theorem Dev.setFlag_pwr (d : Dev) (o i : Nat) (b : Bool) : (d.setFlag o i b).pwr = d.pwr := (Dev.setFlag_only d o i b).pwr_eq
@[simp] theorem Dev.setFlag_mul (d : Dev) (o i : Nat) (b : Bool) : (d.setFlag o i b).mul = d.mul := (Dev.setFlag_only d o i b).mul_eq
@[simp] theorem Dev.setFlag_cfg (d : Dev) (o i : Nat) (b : Bool) : (d.setFlag o i b).cfg = d.cfg := (Dev.setFlag_only d o i b).cfg_eq
@[simp] theorem Dev.setFlag_lmd (d : Dev) (o i : Nat) (b : Bool) : (d.setFlag o i b).lmd = d.lmd := (Dev.setFlag_only d o i b).lmd_eq
@[simp] theorem Dev.setReg64_now (d : Dev) (lo hi v : Nat) : (d.setReg64 lo hi v).now = d.now := (Dev.setReg64_only d lo hi v).now_eq
@[simp] theorem Dev.setReg64_beat (d : Dev) (lo hi v : Nat) : (d.setReg64 lo hi v).beat = d.beat := (Dev.setReg64_only d lo hi v).beat_eq
@[simp] theorem Dev.setReg64_fclk (d : Dev) (lo hi v : Nat) : (d.setReg64 lo hi v).fclk = d.fclk := (Dev.setReg64_only d lo hi v).fclk_eq
@[simp] theorem Dev.setReg64_mode (d : Dev) (lo hi v : Nat) : (d.setReg64 lo hi v).mode = d.mode := (Dev.setReg64_only d lo hi v).mode_eq
@[simp] theorem Dev.setReg64_before (d : Dev) (lo hi v : Nat) : (d.setReg64 lo hi v).before = d.before := (Dev.setReg64_only d lo hi v).before_eq
@[simp] theorem Dev.setReg64_latches (d : Dev) (lo hi v : Nat) : (d.setReg64 lo hi v).latches = d.latches := (Dev.setReg64_only d lo hi v).latches_eq
@[simp] theorem Dev.setReg64_held (d : Dev) (lo hi v : Nat) : (d.setReg64 lo hi v).held = d.held := (Dev.setReg64_only d lo hi v).held_eq
@[simp] theorem Dev.setReg64_setNow (d : Dev) (lo hi v : Nat) : (d.setReg64 lo hi v).setNow = d.setNow := (Dev.setReg64_only d lo hi v).setNow_eq
@[simp] theorem Dev.setReg64_tabs (d : Dev) (lo hi v : Nat) : (d.setReg64 lo hi v).tabs = d.tabs := (Dev.setReg64_only d lo hi v).tabs_eq
@[simp] theorem Dev.setReg64_free (d : Dev) (lo hi v : Nat) : (d.setReg64 lo hi v).free = d.free := (Dev.setReg64_only d lo hi v).free_eq
@[simp] theorem Dev.setReg64_out (d : Dev) (lo hi v : Nat) : (d.setReg64 lo hi v).out = d.out := (Dev.setReg64_only d lo hi v).out_eq
@[simp] theorem Dev.setReg64_tim (d : Dev) (lo hi v : Nat) : (d.setReg64 lo hi v).tim = d.tim := (Dev.setReg64_only d lo hi v).tim_eq
@[simp] theorem Dev.setReg64_evt (d : Dev) (lo hi v : Nat) : (d.setReg64 lo hi v).evt = d.evt := (Dev.setReg64_only d lo hi v).evt_eq
@[simp] theorem Dev.setReg64_pkt (d : Dev) (lo hi v : Nat) : (d.setReg64 lo hi v).pkt = d.pkt := (Dev.setReg64_only d lo hi v).pkt_eq
@[simp] theorem Dev.setReg64_que (d : Dev) (lo hi v : Nat) : (d.setReg64 lo hi v).que = d.que := (Dev.setReg64_only d lo hi v).que_eq
@[simp] theorem Dev.setReg64_tsk (d : Dev) (lo hi v : Nat) : (d.setReg64 lo hi v).tsk = d.tsk := (Dev.setReg64_only d lo hi v).tsk_eq
@[simp] theorem Dev.setReg64_regions (d : Dev) (lo hi v : Nat) : (d.setReg64 lo hi v).regions = d.regions := (Dev.setReg64_only d lo hi v).regions_eq
@[simp] theorem Dev.setReg64_fwd (d : Dev) (lo hi v : Nat) : (d.setReg64 lo hi v).fwd = d.fwd := (Dev.setReg64_only d lo hi v).fwd_eq
@[simp] theorem Dev.setReg64_vdc (d : Dev) (lo hi v : Nat) : (d.setReg64 lo hi v).vdc = d.vdc := (Dev.setReg64_only d lo hi v).vdc_eq
@[simp] theorem Dev.setReg64_cmp (d : Dev) (lo hi v : Nat) : (d.setReg64 lo hi v).cmp = d.cmp := (Dev.setReg64_only d lo hi v).cmp_eq
@[simp] theorem Dev.setReg64_ven (d : Dev) (lo hi v : Nat) : (d.setReg64 lo hi v).ven = d.ven := (Dev.setReg64_only d lo hi v).ven_eq
@[simp] theorem Dev.setReg64_aud (d : Dev) (lo hi v : Nat) : (d.setReg64 lo hi v).aud = d.aud := (Dev.setReg64_only d lo hi v).aud_eq
@[simp] theorem Dev.setReg64_egs (d : Dev) (lo hi v : Nat) : (d.setReg64 lo hi v).egs = d.egs := (Dev.setReg64_only d lo hi v).egs_eq
@[simp] theorem Dev.setReg64_vlt (d : Dev) (lo hi v : Nat) : (d.setReg64 lo hi v).vlt = d.vlt := (Dev.setReg64_only d lo hi v).vlt_eq
@[simp] theorem Dev.setReg64_mac (d : Dev) (lo hi v : Nat) : (d.setReg64 lo hi v).mac = d.mac := (Dev.setReg64_only d lo hi v).mac_eq
@[simp] theorem Dev.setReg64_tap (d : Dev) (lo hi v : Nat) : (d.setReg64 lo hi v).tap = d.tap := (Dev.setReg64_only d lo hi v).tap_eq
@[simp] theorem Dev.setReg64_pci (d : Dev) (lo hi v : Nat) : (d.setReg64 lo hi v).pci = d.pci := (Dev.setReg64_only d lo hi v).pci_eq
@[simp] theorem Dev.setReg64_mem (d : Dev) (lo hi v : Nat) : (d.setReg64 lo hi v).mem = d.mem := (Dev.setReg64_only d lo hi v).mem_eq
@[simp] theorem Dev.setReg64_pwr (d : Dev) (lo hi v : Nat) : (d.setReg64 lo hi v).pwr = d.pwr := (Dev.setReg64_only d lo hi v).pwr_eq
@[simp] theorem Dev.setReg64_mul (d : Dev) (lo hi v : Nat) : (d.setReg64 lo hi v).mul = d.mul := (Dev.setReg64_only d lo hi v).mul_eq
@[simp] theorem Dev.setReg64_cfg (d : Dev) (lo hi v : Nat) : (d.setReg64 lo hi v).cfg = d.cfg := (Dev.setReg64_only d lo hi v).cfg_eq
@[simp] theorem Dev.setReg64_lmd (d : Dev) (lo hi v : Nat) : (d.setReg64 lo hi v).lmd = d.lmd := (Dev.setReg64_only d lo hi v).lmd_eq
@[simp] theorem Dev.count_now (d : Dev) (lo n : Nat) : (d.count lo n).now = d.now := (Dev.count_only d lo n).now_eq
@[simp] theorem Dev.count_beat (d : Dev) (lo n : Nat) : (d.count lo n).beat = d.beat := (Dev.count_only d lo n).beat_eq
@[simp] theorem Dev.count_fclk (d : Dev) (lo n : Nat) : (d.count lo n).fclk = d.fclk := (Dev.count_only d lo n).fclk_eq
@[simp] theorem Dev.count_mode (d : Dev) (lo n : Nat) : (d.count lo n).mode = d.mode := (Dev.count_only d lo n).mode_eq
@[simp] theorem Dev.count_before (d : Dev) (lo n : Nat) : (d.count lo n).before = d.before := (Dev.count_only d lo n).before_eq
@[simp] theorem Dev.count_latches (d : Dev) (lo n : Nat) : (d.count lo n).latches = d.latches := (Dev.count_only d lo n).latches_eq
@[simp] theorem Dev.count_held (d : Dev) (lo n : Nat) : (d.count lo n).held = d.held := (Dev.count_only d lo n).held_eq
@[simp] theorem Dev.count_setNow (d : Dev) (lo n : Nat) : (d.count lo n).setNow = d.setNow := (Dev.count_only d lo n).setNow_eq
@[simp] theorem Dev.count_tabs (d : Dev) (lo n : Nat) : (d.count lo n).tabs = d.tabs := (Dev.count_only d lo n).tabs_eq
@[simp] theorem Dev.count_free (d : Dev) (lo n : Nat) : (d.count lo n).free = d.free := (Dev.count_only d lo n).free_eq
@[simp] theorem Dev.count_out (d : Dev) (lo n : Nat) : (d.count lo n).out = d.out := (Dev.count_only d lo n).out_eq
@[simp] theorem Dev.count_tim (d : Dev) (lo n : Nat) : (d.count lo n).tim = d.tim := (Dev.count_only d lo n).tim_eq
@[simp] theorem Dev.count_evt (d : Dev) (lo n : Nat) : (d.count lo n).evt = d.evt := (Dev.count_only d lo n).evt_eq
@[simp] theorem Dev.count_pkt (d : Dev) (lo n : Nat) : (d.count lo n).pkt = d.pkt := (Dev.count_only d lo n).pkt_eq
@[simp] theorem Dev.count_que (d : Dev) (lo n : Nat) : (d.count lo n).que = d.que := (Dev.count_only d lo n).que_eq
@[simp] theorem Dev.count_tsk (d : Dev) (lo n : Nat) : (d.count lo n).tsk = d.tsk := (Dev.count_only d lo n).tsk_eq
@[simp] theorem Dev.count_regions (d : Dev) (lo n : Nat) : (d.count lo n).regions = d.regions := (Dev.count_only d lo n).regions_eq
@[simp] theorem Dev.count_fwd (d : Dev) (lo n : Nat) : (d.count lo n).fwd = d.fwd := (Dev.count_only d lo n).fwd_eq
@[simp] theorem Dev.count_vdc (d : Dev) (lo n : Nat) : (d.count lo n).vdc = d.vdc := (Dev.count_only d lo n).vdc_eq
@[simp] theorem Dev.count_cmp (d : Dev) (lo n : Nat) : (d.count lo n).cmp = d.cmp := (Dev.count_only d lo n).cmp_eq
@[simp] theorem Dev.count_ven (d : Dev) (lo n : Nat) : (d.count lo n).ven = d.ven := (Dev.count_only d lo n).ven_eq
@[simp] theorem Dev.count_aud (d : Dev) (lo n : Nat) : (d.count lo n).aud = d.aud := (Dev.count_only d lo n).aud_eq
@[simp] theorem Dev.count_egs (d : Dev) (lo n : Nat) : (d.count lo n).egs = d.egs := (Dev.count_only d lo n).egs_eq
@[simp] theorem Dev.count_vlt (d : Dev) (lo n : Nat) : (d.count lo n).vlt = d.vlt := (Dev.count_only d lo n).vlt_eq
@[simp] theorem Dev.count_mac (d : Dev) (lo n : Nat) : (d.count lo n).mac = d.mac := (Dev.count_only d lo n).mac_eq
@[simp] theorem Dev.count_tap (d : Dev) (lo n : Nat) : (d.count lo n).tap = d.tap := (Dev.count_only d lo n).tap_eq
@[simp] theorem Dev.count_pci (d : Dev) (lo n : Nat) : (d.count lo n).pci = d.pci := (Dev.count_only d lo n).pci_eq
@[simp] theorem Dev.count_mem (d : Dev) (lo n : Nat) : (d.count lo n).mem = d.mem := (Dev.count_only d lo n).mem_eq
@[simp] theorem Dev.count_pwr (d : Dev) (lo n : Nat) : (d.count lo n).pwr = d.pwr := (Dev.count_only d lo n).pwr_eq
@[simp] theorem Dev.count_mul (d : Dev) (lo n : Nat) : (d.count lo n).mul = d.mul := (Dev.count_only d lo n).mul_eq
@[simp] theorem Dev.count_cfg (d : Dev) (lo n : Nat) : (d.count lo n).cfg = d.cfg := (Dev.count_only d lo n).cfg_eq
@[simp] theorem Dev.count_lmd (d : Dev) (lo n : Nat) : (d.count lo n).lmd = d.lmd := (Dev.count_only d lo n).lmd_eq
@[simp] theorem Dev.cnt_now (d : Dev) (b c n : Nat) : (d.cnt b c n).now = d.now := (Dev.cnt_only d b c n).now_eq
@[simp] theorem Dev.cnt_beat (d : Dev) (b c n : Nat) : (d.cnt b c n).beat = d.beat := (Dev.cnt_only d b c n).beat_eq
@[simp] theorem Dev.cnt_fclk (d : Dev) (b c n : Nat) : (d.cnt b c n).fclk = d.fclk := (Dev.cnt_only d b c n).fclk_eq
@[simp] theorem Dev.cnt_mode (d : Dev) (b c n : Nat) : (d.cnt b c n).mode = d.mode := (Dev.cnt_only d b c n).mode_eq
@[simp] theorem Dev.cnt_before (d : Dev) (b c n : Nat) : (d.cnt b c n).before = d.before := (Dev.cnt_only d b c n).before_eq
@[simp] theorem Dev.cnt_latches (d : Dev) (b c n : Nat) : (d.cnt b c n).latches = d.latches := (Dev.cnt_only d b c n).latches_eq
@[simp] theorem Dev.cnt_held (d : Dev) (b c n : Nat) : (d.cnt b c n).held = d.held := (Dev.cnt_only d b c n).held_eq
@[simp] theorem Dev.cnt_setNow (d : Dev) (b c n : Nat) : (d.cnt b c n).setNow = d.setNow := (Dev.cnt_only d b c n).setNow_eq
@[simp] theorem Dev.cnt_tabs (d : Dev) (b c n : Nat) : (d.cnt b c n).tabs = d.tabs := (Dev.cnt_only d b c n).tabs_eq
@[simp] theorem Dev.cnt_free (d : Dev) (b c n : Nat) : (d.cnt b c n).free = d.free := (Dev.cnt_only d b c n).free_eq
@[simp] theorem Dev.cnt_out (d : Dev) (b c n : Nat) : (d.cnt b c n).out = d.out := (Dev.cnt_only d b c n).out_eq
@[simp] theorem Dev.cnt_tim (d : Dev) (b c n : Nat) : (d.cnt b c n).tim = d.tim := (Dev.cnt_only d b c n).tim_eq
@[simp] theorem Dev.cnt_evt (d : Dev) (b c n : Nat) : (d.cnt b c n).evt = d.evt := (Dev.cnt_only d b c n).evt_eq
@[simp] theorem Dev.cnt_pkt (d : Dev) (b c n : Nat) : (d.cnt b c n).pkt = d.pkt := (Dev.cnt_only d b c n).pkt_eq
@[simp] theorem Dev.cnt_que (d : Dev) (b c n : Nat) : (d.cnt b c n).que = d.que := (Dev.cnt_only d b c n).que_eq
@[simp] theorem Dev.cnt_tsk (d : Dev) (b c n : Nat) : (d.cnt b c n).tsk = d.tsk := (Dev.cnt_only d b c n).tsk_eq
@[simp] theorem Dev.cnt_regions (d : Dev) (b c n : Nat) : (d.cnt b c n).regions = d.regions := (Dev.cnt_only d b c n).regions_eq
@[simp] theorem Dev.cnt_fwd (d : Dev) (b c n : Nat) : (d.cnt b c n).fwd = d.fwd := (Dev.cnt_only d b c n).fwd_eq
@[simp] theorem Dev.cnt_vdc (d : Dev) (b c n : Nat) : (d.cnt b c n).vdc = d.vdc := (Dev.cnt_only d b c n).vdc_eq
@[simp] theorem Dev.cnt_cmp (d : Dev) (b c n : Nat) : (d.cnt b c n).cmp = d.cmp := (Dev.cnt_only d b c n).cmp_eq
@[simp] theorem Dev.cnt_ven (d : Dev) (b c n : Nat) : (d.cnt b c n).ven = d.ven := (Dev.cnt_only d b c n).ven_eq
@[simp] theorem Dev.cnt_aud (d : Dev) (b c n : Nat) : (d.cnt b c n).aud = d.aud := (Dev.cnt_only d b c n).aud_eq
@[simp] theorem Dev.cnt_egs (d : Dev) (b c n : Nat) : (d.cnt b c n).egs = d.egs := (Dev.cnt_only d b c n).egs_eq
@[simp] theorem Dev.cnt_vlt (d : Dev) (b c n : Nat) : (d.cnt b c n).vlt = d.vlt := (Dev.cnt_only d b c n).vlt_eq
@[simp] theorem Dev.cnt_mac (d : Dev) (b c n : Nat) : (d.cnt b c n).mac = d.mac := (Dev.cnt_only d b c n).mac_eq
@[simp] theorem Dev.cnt_tap (d : Dev) (b c n : Nat) : (d.cnt b c n).tap = d.tap := (Dev.cnt_only d b c n).tap_eq
@[simp] theorem Dev.cnt_pci (d : Dev) (b c n : Nat) : (d.cnt b c n).pci = d.pci := (Dev.cnt_only d b c n).pci_eq
@[simp] theorem Dev.cnt_mem (d : Dev) (b c n : Nat) : (d.cnt b c n).mem = d.mem := (Dev.cnt_only d b c n).mem_eq
@[simp] theorem Dev.cnt_pwr (d : Dev) (b c n : Nat) : (d.cnt b c n).pwr = d.pwr := (Dev.cnt_only d b c n).pwr_eq
@[simp] theorem Dev.cnt_mul (d : Dev) (b c n : Nat) : (d.cnt b c n).mul = d.mul := (Dev.cnt_only d b c n).mul_eq
@[simp] theorem Dev.cnt_cfg (d : Dev) (b c n : Nat) : (d.cnt b c n).cfg = d.cfg := (Dev.cnt_only d b c n).cfg_eq
@[simp] theorem Dev.cnt_lmd (d : Dev) (b c n : Nat) : (d.cnt b c n).lmd = d.lmd := (Dev.cnt_only d b c n).lmd_eq
@[simp] theorem Dev.setEnt_now (d : Dev) (u : TabUnit) (t i : Nat) (e : Entry) : (d.setEnt u t i e).now = d.now := by
  obtain ⟨y, h⟩ := Dev.setEnt_only d u t i e
  rw [h]
@[simp] theorem Dev.setEnt_beat (d : Dev) (u : TabUnit) (t i : Nat) (e : Entry) : (d.setEnt u t i e).beat = d.beat := by
  obtain ⟨y, h⟩ := Dev.setEnt_only d u t i e
  rw [h]
@[simp] theorem Dev.setEnt_fclk (d : Dev) (u : TabUnit) (t i : Nat) (e : Entry) : (d.setEnt u t i e).fclk = d.fclk := by
  obtain ⟨y, h⟩ := Dev.setEnt_only d u t i e
  rw [h]
@[simp] theorem Dev.setEnt_mode (d : Dev) (u : TabUnit) (t i : Nat) (e : Entry) : (d.setEnt u t i e).mode = d.mode := by
  obtain ⟨y, h⟩ := Dev.setEnt_only d u t i e
  rw [h]
@[simp] theorem Dev.setEnt_before (d : Dev) (u : TabUnit) (t i : Nat) (e : Entry) : (d.setEnt u t i e).before = d.before := by
  obtain ⟨y, h⟩ := Dev.setEnt_only d u t i e
  rw [h]
@[simp] theorem Dev.setEnt_regs (d : Dev) (u : TabUnit) (t i : Nat) (e : Entry) : (d.setEnt u t i e).regs = d.regs := by
  obtain ⟨y, h⟩ := Dev.setEnt_only d u t i e
  rw [h]
@[simp] theorem Dev.setEnt_latches (d : Dev) (u : TabUnit) (t i : Nat) (e : Entry) : (d.setEnt u t i e).latches = d.latches := by
  obtain ⟨y, h⟩ := Dev.setEnt_only d u t i e
  rw [h]
@[simp] theorem Dev.setEnt_held (d : Dev) (u : TabUnit) (t i : Nat) (e : Entry) : (d.setEnt u t i e).held = d.held := by
  obtain ⟨y, h⟩ := Dev.setEnt_only d u t i e
  rw [h]
@[simp] theorem Dev.setEnt_setNow (d : Dev) (u : TabUnit) (t i : Nat) (e : Entry) : (d.setEnt u t i e).setNow = d.setNow := by
  obtain ⟨y, h⟩ := Dev.setEnt_only d u t i e
  rw [h]
@[simp] theorem Dev.setEnt_free (d : Dev) (u : TabUnit) (t i : Nat) (e : Entry) : (d.setEnt u t i e).free = d.free := by
  obtain ⟨y, h⟩ := Dev.setEnt_only d u t i e
  rw [h]
@[simp] theorem Dev.setEnt_out (d : Dev) (u : TabUnit) (t i : Nat) (e : Entry) : (d.setEnt u t i e).out = d.out := by
  obtain ⟨y, h⟩ := Dev.setEnt_only d u t i e
  rw [h]
@[simp] theorem Dev.setEnt_tim (d : Dev) (u : TabUnit) (t i : Nat) (e : Entry) : (d.setEnt u t i e).tim = d.tim := by
  obtain ⟨y, h⟩ := Dev.setEnt_only d u t i e
  rw [h]
@[simp] theorem Dev.setEnt_evt (d : Dev) (u : TabUnit) (t i : Nat) (e : Entry) : (d.setEnt u t i e).evt = d.evt := by
  obtain ⟨y, h⟩ := Dev.setEnt_only d u t i e
  rw [h]
@[simp] theorem Dev.setEnt_pkt (d : Dev) (u : TabUnit) (t i : Nat) (e : Entry) : (d.setEnt u t i e).pkt = d.pkt := by
  obtain ⟨y, h⟩ := Dev.setEnt_only d u t i e
  rw [h]
@[simp] theorem Dev.setEnt_que (d : Dev) (u : TabUnit) (t i : Nat) (e : Entry) : (d.setEnt u t i e).que = d.que := by
  obtain ⟨y, h⟩ := Dev.setEnt_only d u t i e
  rw [h]
@[simp] theorem Dev.setEnt_tsk (d : Dev) (u : TabUnit) (t i : Nat) (e : Entry) : (d.setEnt u t i e).tsk = d.tsk := by
  obtain ⟨y, h⟩ := Dev.setEnt_only d u t i e
  rw [h]
@[simp] theorem Dev.setEnt_regions (d : Dev) (u : TabUnit) (t i : Nat) (e : Entry) : (d.setEnt u t i e).regions = d.regions := by
  obtain ⟨y, h⟩ := Dev.setEnt_only d u t i e
  rw [h]
@[simp] theorem Dev.setEnt_fwd (d : Dev) (u : TabUnit) (t i : Nat) (e : Entry) : (d.setEnt u t i e).fwd = d.fwd := by
  obtain ⟨y, h⟩ := Dev.setEnt_only d u t i e
  rw [h]
@[simp] theorem Dev.setEnt_vdc (d : Dev) (u : TabUnit) (t i : Nat) (e : Entry) : (d.setEnt u t i e).vdc = d.vdc := by
  obtain ⟨y, h⟩ := Dev.setEnt_only d u t i e
  rw [h]
@[simp] theorem Dev.setEnt_cmp (d : Dev) (u : TabUnit) (t i : Nat) (e : Entry) : (d.setEnt u t i e).cmp = d.cmp := by
  obtain ⟨y, h⟩ := Dev.setEnt_only d u t i e
  rw [h]
@[simp] theorem Dev.setEnt_ven (d : Dev) (u : TabUnit) (t i : Nat) (e : Entry) : (d.setEnt u t i e).ven = d.ven := by
  obtain ⟨y, h⟩ := Dev.setEnt_only d u t i e
  rw [h]
@[simp] theorem Dev.setEnt_aud (d : Dev) (u : TabUnit) (t i : Nat) (e : Entry) : (d.setEnt u t i e).aud = d.aud := by
  obtain ⟨y, h⟩ := Dev.setEnt_only d u t i e
  rw [h]
@[simp] theorem Dev.setEnt_egs (d : Dev) (u : TabUnit) (t i : Nat) (e : Entry) : (d.setEnt u t i e).egs = d.egs := by
  obtain ⟨y, h⟩ := Dev.setEnt_only d u t i e
  rw [h]
@[simp] theorem Dev.setEnt_vlt (d : Dev) (u : TabUnit) (t i : Nat) (e : Entry) : (d.setEnt u t i e).vlt = d.vlt := by
  obtain ⟨y, h⟩ := Dev.setEnt_only d u t i e
  rw [h]
@[simp] theorem Dev.setEnt_mac (d : Dev) (u : TabUnit) (t i : Nat) (e : Entry) : (d.setEnt u t i e).mac = d.mac := by
  obtain ⟨y, h⟩ := Dev.setEnt_only d u t i e
  rw [h]
@[simp] theorem Dev.setEnt_tap (d : Dev) (u : TabUnit) (t i : Nat) (e : Entry) : (d.setEnt u t i e).tap = d.tap := by
  obtain ⟨y, h⟩ := Dev.setEnt_only d u t i e
  rw [h]
@[simp] theorem Dev.setEnt_pci (d : Dev) (u : TabUnit) (t i : Nat) (e : Entry) : (d.setEnt u t i e).pci = d.pci := by
  obtain ⟨y, h⟩ := Dev.setEnt_only d u t i e
  rw [h]
@[simp] theorem Dev.setEnt_mem (d : Dev) (u : TabUnit) (t i : Nat) (e : Entry) : (d.setEnt u t i e).mem = d.mem := by
  obtain ⟨y, h⟩ := Dev.setEnt_only d u t i e
  rw [h]
@[simp] theorem Dev.setEnt_pwr (d : Dev) (u : TabUnit) (t i : Nat) (e : Entry) : (d.setEnt u t i e).pwr = d.pwr := by
  obtain ⟨y, h⟩ := Dev.setEnt_only d u t i e
  rw [h]
@[simp] theorem Dev.setEnt_mul (d : Dev) (u : TabUnit) (t i : Nat) (e : Entry) : (d.setEnt u t i e).mul = d.mul := by
  obtain ⟨y, h⟩ := Dev.setEnt_only d u t i e
  rw [h]
@[simp] theorem Dev.setEnt_cfg (d : Dev) (u : TabUnit) (t i : Nat) (e : Entry) : (d.setEnt u t i e).cfg = d.cfg := by
  obtain ⟨y, h⟩ := Dev.setEnt_only d u t i e
  rw [h]
@[simp] theorem Dev.setEnt_lmd (d : Dev) (u : TabUnit) (t i : Nat) (e : Entry) : (d.setEnt u t i e).lmd = d.lmd := by
  obtain ⟨y, h⟩ := Dev.setEnt_only d u t i e
  rw [h]
@[simp] theorem Dev.emit_now (d : Dev) (x : Emission) : (d.emit x).now = d.now := by
  obtain ⟨y, h⟩ := Dev.emit_only d x
  rw [h]
@[simp] theorem Dev.emit_beat (d : Dev) (x : Emission) : (d.emit x).beat = d.beat := by
  obtain ⟨y, h⟩ := Dev.emit_only d x
  rw [h]
@[simp] theorem Dev.emit_fclk (d : Dev) (x : Emission) : (d.emit x).fclk = d.fclk := by
  obtain ⟨y, h⟩ := Dev.emit_only d x
  rw [h]
@[simp] theorem Dev.emit_mode (d : Dev) (x : Emission) : (d.emit x).mode = d.mode := by
  obtain ⟨y, h⟩ := Dev.emit_only d x
  rw [h]
@[simp] theorem Dev.emit_before (d : Dev) (x : Emission) : (d.emit x).before = d.before := by
  obtain ⟨y, h⟩ := Dev.emit_only d x
  rw [h]
@[simp] theorem Dev.emit_regs (d : Dev) (x : Emission) : (d.emit x).regs = d.regs := by
  obtain ⟨y, h⟩ := Dev.emit_only d x
  rw [h]
@[simp] theorem Dev.emit_latches (d : Dev) (x : Emission) : (d.emit x).latches = d.latches := by
  obtain ⟨y, h⟩ := Dev.emit_only d x
  rw [h]
@[simp] theorem Dev.emit_held (d : Dev) (x : Emission) : (d.emit x).held = d.held := by
  obtain ⟨y, h⟩ := Dev.emit_only d x
  rw [h]
@[simp] theorem Dev.emit_setNow (d : Dev) (x : Emission) : (d.emit x).setNow = d.setNow := by
  obtain ⟨y, h⟩ := Dev.emit_only d x
  rw [h]
@[simp] theorem Dev.emit_tabs (d : Dev) (x : Emission) : (d.emit x).tabs = d.tabs := by
  obtain ⟨y, h⟩ := Dev.emit_only d x
  rw [h]
@[simp] theorem Dev.emit_free (d : Dev) (x : Emission) : (d.emit x).free = d.free := by
  obtain ⟨y, h⟩ := Dev.emit_only d x
  rw [h]
@[simp] theorem Dev.emit_tim (d : Dev) (x : Emission) : (d.emit x).tim = d.tim := by
  obtain ⟨y, h⟩ := Dev.emit_only d x
  rw [h]
@[simp] theorem Dev.emit_evt (d : Dev) (x : Emission) : (d.emit x).evt = d.evt := by
  obtain ⟨y, h⟩ := Dev.emit_only d x
  rw [h]
@[simp] theorem Dev.emit_pkt (d : Dev) (x : Emission) : (d.emit x).pkt = d.pkt := by
  obtain ⟨y, h⟩ := Dev.emit_only d x
  rw [h]
@[simp] theorem Dev.emit_que (d : Dev) (x : Emission) : (d.emit x).que = d.que := by
  obtain ⟨y, h⟩ := Dev.emit_only d x
  rw [h]
@[simp] theorem Dev.emit_tsk (d : Dev) (x : Emission) : (d.emit x).tsk = d.tsk := by
  obtain ⟨y, h⟩ := Dev.emit_only d x
  rw [h]
@[simp] theorem Dev.emit_regions (d : Dev) (x : Emission) : (d.emit x).regions = d.regions := by
  obtain ⟨y, h⟩ := Dev.emit_only d x
  rw [h]
@[simp] theorem Dev.emit_fwd (d : Dev) (x : Emission) : (d.emit x).fwd = d.fwd := by
  obtain ⟨y, h⟩ := Dev.emit_only d x
  rw [h]
@[simp] theorem Dev.emit_vdc (d : Dev) (x : Emission) : (d.emit x).vdc = d.vdc := by
  obtain ⟨y, h⟩ := Dev.emit_only d x
  rw [h]
@[simp] theorem Dev.emit_cmp (d : Dev) (x : Emission) : (d.emit x).cmp = d.cmp := by
  obtain ⟨y, h⟩ := Dev.emit_only d x
  rw [h]
@[simp] theorem Dev.emit_ven (d : Dev) (x : Emission) : (d.emit x).ven = d.ven := by
  obtain ⟨y, h⟩ := Dev.emit_only d x
  rw [h]
@[simp] theorem Dev.emit_aud (d : Dev) (x : Emission) : (d.emit x).aud = d.aud := by
  obtain ⟨y, h⟩ := Dev.emit_only d x
  rw [h]
@[simp] theorem Dev.emit_egs (d : Dev) (x : Emission) : (d.emit x).egs = d.egs := by
  obtain ⟨y, h⟩ := Dev.emit_only d x
  rw [h]
@[simp] theorem Dev.emit_vlt (d : Dev) (x : Emission) : (d.emit x).vlt = d.vlt := by
  obtain ⟨y, h⟩ := Dev.emit_only d x
  rw [h]
@[simp] theorem Dev.emit_mac (d : Dev) (x : Emission) : (d.emit x).mac = d.mac := by
  obtain ⟨y, h⟩ := Dev.emit_only d x
  rw [h]
@[simp] theorem Dev.emit_tap (d : Dev) (x : Emission) : (d.emit x).tap = d.tap := by
  obtain ⟨y, h⟩ := Dev.emit_only d x
  rw [h]
@[simp] theorem Dev.emit_pci (d : Dev) (x : Emission) : (d.emit x).pci = d.pci := by
  obtain ⟨y, h⟩ := Dev.emit_only d x
  rw [h]
@[simp] theorem Dev.emit_mem (d : Dev) (x : Emission) : (d.emit x).mem = d.mem := by
  obtain ⟨y, h⟩ := Dev.emit_only d x
  rw [h]
@[simp] theorem Dev.emit_pwr (d : Dev) (x : Emission) : (d.emit x).pwr = d.pwr := by
  obtain ⟨y, h⟩ := Dev.emit_only d x
  rw [h]
@[simp] theorem Dev.emit_mul (d : Dev) (x : Emission) : (d.emit x).mul = d.mul := by
  obtain ⟨y, h⟩ := Dev.emit_only d x
  rw [h]
@[simp] theorem Dev.emit_cfg (d : Dev) (x : Emission) : (d.emit x).cfg = d.cfg := by
  obtain ⟨y, h⟩ := Dev.emit_only d x
  rw [h]
@[simp] theorem Dev.emit_lmd (d : Dev) (x : Emission) : (d.emit x).lmd = d.lmd := by
  obtain ⟨y, h⟩ := Dev.emit_only d x
  rw [h]
@[simp] theorem Dev.latchHi_now (d : Dev) (p : Path) (w : Word) : (d.latchHi p w).now = d.now := by
  obtain ⟨y, h⟩ := Dev.latchHi_only d p w
  rw [h]
@[simp] theorem Dev.latchHi_beat (d : Dev) (p : Path) (w : Word) : (d.latchHi p w).beat = d.beat := by
  obtain ⟨y, h⟩ := Dev.latchHi_only d p w
  rw [h]
@[simp] theorem Dev.latchHi_fclk (d : Dev) (p : Path) (w : Word) : (d.latchHi p w).fclk = d.fclk := by
  obtain ⟨y, h⟩ := Dev.latchHi_only d p w
  rw [h]
@[simp] theorem Dev.latchHi_mode (d : Dev) (p : Path) (w : Word) : (d.latchHi p w).mode = d.mode := by
  obtain ⟨y, h⟩ := Dev.latchHi_only d p w
  rw [h]
@[simp] theorem Dev.latchHi_before (d : Dev) (p : Path) (w : Word) : (d.latchHi p w).before = d.before := by
  obtain ⟨y, h⟩ := Dev.latchHi_only d p w
  rw [h]
@[simp] theorem Dev.latchHi_regs (d : Dev) (p : Path) (w : Word) : (d.latchHi p w).regs = d.regs := by
  obtain ⟨y, h⟩ := Dev.latchHi_only d p w
  rw [h]
@[simp] theorem Dev.latchHi_held (d : Dev) (p : Path) (w : Word) : (d.latchHi p w).held = d.held := by
  obtain ⟨y, h⟩ := Dev.latchHi_only d p w
  rw [h]
@[simp] theorem Dev.latchHi_setNow (d : Dev) (p : Path) (w : Word) : (d.latchHi p w).setNow = d.setNow := by
  obtain ⟨y, h⟩ := Dev.latchHi_only d p w
  rw [h]
@[simp] theorem Dev.latchHi_tabs (d : Dev) (p : Path) (w : Word) : (d.latchHi p w).tabs = d.tabs := by
  obtain ⟨y, h⟩ := Dev.latchHi_only d p w
  rw [h]
@[simp] theorem Dev.latchHi_free (d : Dev) (p : Path) (w : Word) : (d.latchHi p w).free = d.free := by
  obtain ⟨y, h⟩ := Dev.latchHi_only d p w
  rw [h]
@[simp] theorem Dev.latchHi_out (d : Dev) (p : Path) (w : Word) : (d.latchHi p w).out = d.out := by
  obtain ⟨y, h⟩ := Dev.latchHi_only d p w
  rw [h]
@[simp] theorem Dev.latchHi_tim (d : Dev) (p : Path) (w : Word) : (d.latchHi p w).tim = d.tim := by
  obtain ⟨y, h⟩ := Dev.latchHi_only d p w
  rw [h]
@[simp] theorem Dev.latchHi_evt (d : Dev) (p : Path) (w : Word) : (d.latchHi p w).evt = d.evt := by
  obtain ⟨y, h⟩ := Dev.latchHi_only d p w
  rw [h]
@[simp] theorem Dev.latchHi_pkt (d : Dev) (p : Path) (w : Word) : (d.latchHi p w).pkt = d.pkt := by
  obtain ⟨y, h⟩ := Dev.latchHi_only d p w
  rw [h]
@[simp] theorem Dev.latchHi_que (d : Dev) (p : Path) (w : Word) : (d.latchHi p w).que = d.que := by
  obtain ⟨y, h⟩ := Dev.latchHi_only d p w
  rw [h]
@[simp] theorem Dev.latchHi_tsk (d : Dev) (p : Path) (w : Word) : (d.latchHi p w).tsk = d.tsk := by
  obtain ⟨y, h⟩ := Dev.latchHi_only d p w
  rw [h]
@[simp] theorem Dev.latchHi_regions (d : Dev) (p : Path) (w : Word) : (d.latchHi p w).regions = d.regions := by
  obtain ⟨y, h⟩ := Dev.latchHi_only d p w
  rw [h]
@[simp] theorem Dev.latchHi_fwd (d : Dev) (p : Path) (w : Word) : (d.latchHi p w).fwd = d.fwd := by
  obtain ⟨y, h⟩ := Dev.latchHi_only d p w
  rw [h]
@[simp] theorem Dev.latchHi_vdc (d : Dev) (p : Path) (w : Word) : (d.latchHi p w).vdc = d.vdc := by
  obtain ⟨y, h⟩ := Dev.latchHi_only d p w
  rw [h]
@[simp] theorem Dev.latchHi_cmp (d : Dev) (p : Path) (w : Word) : (d.latchHi p w).cmp = d.cmp := by
  obtain ⟨y, h⟩ := Dev.latchHi_only d p w
  rw [h]
@[simp] theorem Dev.latchHi_ven (d : Dev) (p : Path) (w : Word) : (d.latchHi p w).ven = d.ven := by
  obtain ⟨y, h⟩ := Dev.latchHi_only d p w
  rw [h]
@[simp] theorem Dev.latchHi_aud (d : Dev) (p : Path) (w : Word) : (d.latchHi p w).aud = d.aud := by
  obtain ⟨y, h⟩ := Dev.latchHi_only d p w
  rw [h]
@[simp] theorem Dev.latchHi_egs (d : Dev) (p : Path) (w : Word) : (d.latchHi p w).egs = d.egs := by
  obtain ⟨y, h⟩ := Dev.latchHi_only d p w
  rw [h]
@[simp] theorem Dev.latchHi_vlt (d : Dev) (p : Path) (w : Word) : (d.latchHi p w).vlt = d.vlt := by
  obtain ⟨y, h⟩ := Dev.latchHi_only d p w
  rw [h]
@[simp] theorem Dev.latchHi_mac (d : Dev) (p : Path) (w : Word) : (d.latchHi p w).mac = d.mac := by
  obtain ⟨y, h⟩ := Dev.latchHi_only d p w
  rw [h]
@[simp] theorem Dev.latchHi_tap (d : Dev) (p : Path) (w : Word) : (d.latchHi p w).tap = d.tap := by
  obtain ⟨y, h⟩ := Dev.latchHi_only d p w
  rw [h]
@[simp] theorem Dev.latchHi_pci (d : Dev) (p : Path) (w : Word) : (d.latchHi p w).pci = d.pci := by
  obtain ⟨y, h⟩ := Dev.latchHi_only d p w
  rw [h]
@[simp] theorem Dev.latchHi_mem (d : Dev) (p : Path) (w : Word) : (d.latchHi p w).mem = d.mem := by
  obtain ⟨y, h⟩ := Dev.latchHi_only d p w
  rw [h]
@[simp] theorem Dev.latchHi_pwr (d : Dev) (p : Path) (w : Word) : (d.latchHi p w).pwr = d.pwr := by
  obtain ⟨y, h⟩ := Dev.latchHi_only d p w
  rw [h]
@[simp] theorem Dev.latchHi_mul (d : Dev) (p : Path) (w : Word) : (d.latchHi p w).mul = d.mul := by
  obtain ⟨y, h⟩ := Dev.latchHi_only d p w
  rw [h]
@[simp] theorem Dev.latchHi_cfg (d : Dev) (p : Path) (w : Word) : (d.latchHi p w).cfg = d.cfg := by
  obtain ⟨y, h⟩ := Dev.latchHi_only d p w
  rw [h]
@[simp] theorem Dev.latchHi_lmd (d : Dev) (p : Path) (w : Word) : (d.latchHi p w).lmd = d.lmd := by
  obtain ⟨y, h⟩ := Dev.latchHi_only d p w
  rw [h]
@[simp] theorem Dev.hold_now (d : Dev) (p : Path) (w : Word) : (d.hold p w).now = d.now := by
  obtain ⟨y, h⟩ := Dev.hold_only d p w
  rw [h]
@[simp] theorem Dev.hold_beat (d : Dev) (p : Path) (w : Word) : (d.hold p w).beat = d.beat := by
  obtain ⟨y, h⟩ := Dev.hold_only d p w
  rw [h]
@[simp] theorem Dev.hold_fclk (d : Dev) (p : Path) (w : Word) : (d.hold p w).fclk = d.fclk := by
  obtain ⟨y, h⟩ := Dev.hold_only d p w
  rw [h]
@[simp] theorem Dev.hold_mode (d : Dev) (p : Path) (w : Word) : (d.hold p w).mode = d.mode := by
  obtain ⟨y, h⟩ := Dev.hold_only d p w
  rw [h]
@[simp] theorem Dev.hold_before (d : Dev) (p : Path) (w : Word) : (d.hold p w).before = d.before := by
  obtain ⟨y, h⟩ := Dev.hold_only d p w
  rw [h]
@[simp] theorem Dev.hold_regs (d : Dev) (p : Path) (w : Word) : (d.hold p w).regs = d.regs := by
  obtain ⟨y, h⟩ := Dev.hold_only d p w
  rw [h]
@[simp] theorem Dev.hold_latches (d : Dev) (p : Path) (w : Word) : (d.hold p w).latches = d.latches := by
  obtain ⟨y, h⟩ := Dev.hold_only d p w
  rw [h]
@[simp] theorem Dev.hold_setNow (d : Dev) (p : Path) (w : Word) : (d.hold p w).setNow = d.setNow := by
  obtain ⟨y, h⟩ := Dev.hold_only d p w
  rw [h]
@[simp] theorem Dev.hold_tabs (d : Dev) (p : Path) (w : Word) : (d.hold p w).tabs = d.tabs := by
  obtain ⟨y, h⟩ := Dev.hold_only d p w
  rw [h]
@[simp] theorem Dev.hold_free (d : Dev) (p : Path) (w : Word) : (d.hold p w).free = d.free := by
  obtain ⟨y, h⟩ := Dev.hold_only d p w
  rw [h]
@[simp] theorem Dev.hold_out (d : Dev) (p : Path) (w : Word) : (d.hold p w).out = d.out := by
  obtain ⟨y, h⟩ := Dev.hold_only d p w
  rw [h]
@[simp] theorem Dev.hold_tim (d : Dev) (p : Path) (w : Word) : (d.hold p w).tim = d.tim := by
  obtain ⟨y, h⟩ := Dev.hold_only d p w
  rw [h]
@[simp] theorem Dev.hold_evt (d : Dev) (p : Path) (w : Word) : (d.hold p w).evt = d.evt := by
  obtain ⟨y, h⟩ := Dev.hold_only d p w
  rw [h]
@[simp] theorem Dev.hold_pkt (d : Dev) (p : Path) (w : Word) : (d.hold p w).pkt = d.pkt := by
  obtain ⟨y, h⟩ := Dev.hold_only d p w
  rw [h]
@[simp] theorem Dev.hold_que (d : Dev) (p : Path) (w : Word) : (d.hold p w).que = d.que := by
  obtain ⟨y, h⟩ := Dev.hold_only d p w
  rw [h]
@[simp] theorem Dev.hold_tsk (d : Dev) (p : Path) (w : Word) : (d.hold p w).tsk = d.tsk := by
  obtain ⟨y, h⟩ := Dev.hold_only d p w
  rw [h]
@[simp] theorem Dev.hold_regions (d : Dev) (p : Path) (w : Word) : (d.hold p w).regions = d.regions := by
  obtain ⟨y, h⟩ := Dev.hold_only d p w
  rw [h]
@[simp] theorem Dev.hold_fwd (d : Dev) (p : Path) (w : Word) : (d.hold p w).fwd = d.fwd := by
  obtain ⟨y, h⟩ := Dev.hold_only d p w
  rw [h]
@[simp] theorem Dev.hold_vdc (d : Dev) (p : Path) (w : Word) : (d.hold p w).vdc = d.vdc := by
  obtain ⟨y, h⟩ := Dev.hold_only d p w
  rw [h]
@[simp] theorem Dev.hold_cmp (d : Dev) (p : Path) (w : Word) : (d.hold p w).cmp = d.cmp := by
  obtain ⟨y, h⟩ := Dev.hold_only d p w
  rw [h]
@[simp] theorem Dev.hold_ven (d : Dev) (p : Path) (w : Word) : (d.hold p w).ven = d.ven := by
  obtain ⟨y, h⟩ := Dev.hold_only d p w
  rw [h]
@[simp] theorem Dev.hold_aud (d : Dev) (p : Path) (w : Word) : (d.hold p w).aud = d.aud := by
  obtain ⟨y, h⟩ := Dev.hold_only d p w
  rw [h]
@[simp] theorem Dev.hold_egs (d : Dev) (p : Path) (w : Word) : (d.hold p w).egs = d.egs := by
  obtain ⟨y, h⟩ := Dev.hold_only d p w
  rw [h]
@[simp] theorem Dev.hold_vlt (d : Dev) (p : Path) (w : Word) : (d.hold p w).vlt = d.vlt := by
  obtain ⟨y, h⟩ := Dev.hold_only d p w
  rw [h]
@[simp] theorem Dev.hold_mac (d : Dev) (p : Path) (w : Word) : (d.hold p w).mac = d.mac := by
  obtain ⟨y, h⟩ := Dev.hold_only d p w
  rw [h]
@[simp] theorem Dev.hold_tap (d : Dev) (p : Path) (w : Word) : (d.hold p w).tap = d.tap := by
  obtain ⟨y, h⟩ := Dev.hold_only d p w
  rw [h]
@[simp] theorem Dev.hold_pci (d : Dev) (p : Path) (w : Word) : (d.hold p w).pci = d.pci := by
  obtain ⟨y, h⟩ := Dev.hold_only d p w
  rw [h]
@[simp] theorem Dev.hold_mem (d : Dev) (p : Path) (w : Word) : (d.hold p w).mem = d.mem := by
  obtain ⟨y, h⟩ := Dev.hold_only d p w
  rw [h]
@[simp] theorem Dev.hold_pwr (d : Dev) (p : Path) (w : Word) : (d.hold p w).pwr = d.pwr := by
  obtain ⟨y, h⟩ := Dev.hold_only d p w
  rw [h]
@[simp] theorem Dev.hold_mul (d : Dev) (p : Path) (w : Word) : (d.hold p w).mul = d.mul := by
  obtain ⟨y, h⟩ := Dev.hold_only d p w
  rw [h]
@[simp] theorem Dev.hold_cfg (d : Dev) (p : Path) (w : Word) : (d.hold p w).cfg = d.cfg := by
  obtain ⟨y, h⟩ := Dev.hold_only d p w
  rw [h]
@[simp] theorem Dev.hold_lmd (d : Dev) (p : Path) (w : Word) : (d.hold p w).lmd = d.lmd := by
  obtain ⟨y, h⟩ := Dev.hold_only d p w
  rw [h]
@[simp] theorem Dev.noteOnce_now (d : Dev) (src : Nat) : (d.noteOnce src).now = d.now := by
  obtain ⟨y, h⟩ := Dev.noteOnce_only d src
  rw [h]
@[simp] theorem Dev.noteOnce_beat (d : Dev) (src : Nat) : (d.noteOnce src).beat = d.beat := by
  obtain ⟨y, h⟩ := Dev.noteOnce_only d src
  rw [h]
@[simp] theorem Dev.noteOnce_fclk (d : Dev) (src : Nat) : (d.noteOnce src).fclk = d.fclk := by
  obtain ⟨y, h⟩ := Dev.noteOnce_only d src
  rw [h]
@[simp] theorem Dev.noteOnce_mode (d : Dev) (src : Nat) : (d.noteOnce src).mode = d.mode := by
  obtain ⟨y, h⟩ := Dev.noteOnce_only d src
  rw [h]
@[simp] theorem Dev.noteOnce_before (d : Dev) (src : Nat) : (d.noteOnce src).before = d.before := by
  obtain ⟨y, h⟩ := Dev.noteOnce_only d src
  rw [h]
@[simp] theorem Dev.noteOnce_regs (d : Dev) (src : Nat) : (d.noteOnce src).regs = d.regs := by
  obtain ⟨y, h⟩ := Dev.noteOnce_only d src
  rw [h]
@[simp] theorem Dev.noteOnce_latches (d : Dev) (src : Nat) : (d.noteOnce src).latches = d.latches := by
  obtain ⟨y, h⟩ := Dev.noteOnce_only d src
  rw [h]
@[simp] theorem Dev.noteOnce_held (d : Dev) (src : Nat) : (d.noteOnce src).held = d.held := by
  obtain ⟨y, h⟩ := Dev.noteOnce_only d src
  rw [h]
@[simp] theorem Dev.noteOnce_setNow (d : Dev) (src : Nat) : (d.noteOnce src).setNow = d.setNow := by
  obtain ⟨y, h⟩ := Dev.noteOnce_only d src
  rw [h]
@[simp] theorem Dev.noteOnce_tabs (d : Dev) (src : Nat) : (d.noteOnce src).tabs = d.tabs := by
  obtain ⟨y, h⟩ := Dev.noteOnce_only d src
  rw [h]
@[simp] theorem Dev.noteOnce_free (d : Dev) (src : Nat) : (d.noteOnce src).free = d.free := by
  obtain ⟨y, h⟩ := Dev.noteOnce_only d src
  rw [h]
@[simp] theorem Dev.noteOnce_out (d : Dev) (src : Nat) : (d.noteOnce src).out = d.out := by
  obtain ⟨y, h⟩ := Dev.noteOnce_only d src
  rw [h]
@[simp] theorem Dev.noteOnce_tim (d : Dev) (src : Nat) : (d.noteOnce src).tim = d.tim := by
  obtain ⟨y, h⟩ := Dev.noteOnce_only d src
  rw [h]
@[simp] theorem Dev.noteOnce_pkt (d : Dev) (src : Nat) : (d.noteOnce src).pkt = d.pkt := by
  obtain ⟨y, h⟩ := Dev.noteOnce_only d src
  rw [h]
@[simp] theorem Dev.noteOnce_que (d : Dev) (src : Nat) : (d.noteOnce src).que = d.que := by
  obtain ⟨y, h⟩ := Dev.noteOnce_only d src
  rw [h]
@[simp] theorem Dev.noteOnce_tsk (d : Dev) (src : Nat) : (d.noteOnce src).tsk = d.tsk := by
  obtain ⟨y, h⟩ := Dev.noteOnce_only d src
  rw [h]
@[simp] theorem Dev.noteOnce_regions (d : Dev) (src : Nat) : (d.noteOnce src).regions = d.regions := by
  obtain ⟨y, h⟩ := Dev.noteOnce_only d src
  rw [h]
@[simp] theorem Dev.noteOnce_fwd (d : Dev) (src : Nat) : (d.noteOnce src).fwd = d.fwd := by
  obtain ⟨y, h⟩ := Dev.noteOnce_only d src
  rw [h]
@[simp] theorem Dev.noteOnce_vdc (d : Dev) (src : Nat) : (d.noteOnce src).vdc = d.vdc := by
  obtain ⟨y, h⟩ := Dev.noteOnce_only d src
  rw [h]
@[simp] theorem Dev.noteOnce_cmp (d : Dev) (src : Nat) : (d.noteOnce src).cmp = d.cmp := by
  obtain ⟨y, h⟩ := Dev.noteOnce_only d src
  rw [h]
@[simp] theorem Dev.noteOnce_ven (d : Dev) (src : Nat) : (d.noteOnce src).ven = d.ven := by
  obtain ⟨y, h⟩ := Dev.noteOnce_only d src
  rw [h]
@[simp] theorem Dev.noteOnce_aud (d : Dev) (src : Nat) : (d.noteOnce src).aud = d.aud := by
  obtain ⟨y, h⟩ := Dev.noteOnce_only d src
  rw [h]
@[simp] theorem Dev.noteOnce_egs (d : Dev) (src : Nat) : (d.noteOnce src).egs = d.egs := by
  obtain ⟨y, h⟩ := Dev.noteOnce_only d src
  rw [h]
@[simp] theorem Dev.noteOnce_vlt (d : Dev) (src : Nat) : (d.noteOnce src).vlt = d.vlt := by
  obtain ⟨y, h⟩ := Dev.noteOnce_only d src
  rw [h]
@[simp] theorem Dev.noteOnce_mac (d : Dev) (src : Nat) : (d.noteOnce src).mac = d.mac := by
  obtain ⟨y, h⟩ := Dev.noteOnce_only d src
  rw [h]
@[simp] theorem Dev.noteOnce_tap (d : Dev) (src : Nat) : (d.noteOnce src).tap = d.tap := by
  obtain ⟨y, h⟩ := Dev.noteOnce_only d src
  rw [h]
@[simp] theorem Dev.noteOnce_pci (d : Dev) (src : Nat) : (d.noteOnce src).pci = d.pci := by
  obtain ⟨y, h⟩ := Dev.noteOnce_only d src
  rw [h]
@[simp] theorem Dev.noteOnce_mem (d : Dev) (src : Nat) : (d.noteOnce src).mem = d.mem := by
  obtain ⟨y, h⟩ := Dev.noteOnce_only d src
  rw [h]
@[simp] theorem Dev.noteOnce_pwr (d : Dev) (src : Nat) : (d.noteOnce src).pwr = d.pwr := by
  obtain ⟨y, h⟩ := Dev.noteOnce_only d src
  rw [h]
@[simp] theorem Dev.noteOnce_mul (d : Dev) (src : Nat) : (d.noteOnce src).mul = d.mul := by
  obtain ⟨y, h⟩ := Dev.noteOnce_only d src
  rw [h]
@[simp] theorem Dev.noteOnce_cfg (d : Dev) (src : Nat) : (d.noteOnce src).cfg = d.cfg := by
  obtain ⟨y, h⟩ := Dev.noteOnce_only d src
  rw [h]
@[simp] theorem Dev.noteOnce_lmd (d : Dev) (src : Nat) : (d.noteOnce src).lmd = d.lmd := by
  obtain ⟨y, h⟩ := Dev.noteOnce_only d src
  rw [h]
@[simp] theorem Dev.push_now (d : Dev) (a : Act) : (d.push a).now = d.now := by
  obtain ⟨y, h⟩ := Dev.push_only d a
  rw [h]
@[simp] theorem Dev.push_beat (d : Dev) (a : Act) : (d.push a).beat = d.beat := by
  obtain ⟨y, h⟩ := Dev.push_only d a
  rw [h]
@[simp] theorem Dev.push_fclk (d : Dev) (a : Act) : (d.push a).fclk = d.fclk := by
  obtain ⟨y, h⟩ := Dev.push_only d a
  rw [h]
@[simp] theorem Dev.push_mode (d : Dev) (a : Act) : (d.push a).mode = d.mode := by
  obtain ⟨y, h⟩ := Dev.push_only d a
  rw [h]
@[simp] theorem Dev.push_before (d : Dev) (a : Act) : (d.push a).before = d.before := by
  obtain ⟨y, h⟩ := Dev.push_only d a
  rw [h]
@[simp] theorem Dev.push_regs (d : Dev) (a : Act) : (d.push a).regs = d.regs := by
  obtain ⟨y, h⟩ := Dev.push_only d a
  rw [h]
@[simp] theorem Dev.push_latches (d : Dev) (a : Act) : (d.push a).latches = d.latches := by
  obtain ⟨y, h⟩ := Dev.push_only d a
  rw [h]
@[simp] theorem Dev.push_held (d : Dev) (a : Act) : (d.push a).held = d.held := by
  obtain ⟨y, h⟩ := Dev.push_only d a
  rw [h]
@[simp] theorem Dev.push_setNow (d : Dev) (a : Act) : (d.push a).setNow = d.setNow := by
  obtain ⟨y, h⟩ := Dev.push_only d a
  rw [h]
@[simp] theorem Dev.push_tabs (d : Dev) (a : Act) : (d.push a).tabs = d.tabs := by
  obtain ⟨y, h⟩ := Dev.push_only d a
  rw [h]
@[simp] theorem Dev.push_free (d : Dev) (a : Act) : (d.push a).free = d.free := by
  obtain ⟨y, h⟩ := Dev.push_only d a
  rw [h]
@[simp] theorem Dev.push_out (d : Dev) (a : Act) : (d.push a).out = d.out := by
  obtain ⟨y, h⟩ := Dev.push_only d a
  rw [h]
@[simp] theorem Dev.push_tim (d : Dev) (a : Act) : (d.push a).tim = d.tim := by
  obtain ⟨y, h⟩ := Dev.push_only d a
  rw [h]
@[simp] theorem Dev.push_evt (d : Dev) (a : Act) : (d.push a).evt = d.evt := by
  obtain ⟨y, h⟩ := Dev.push_only d a
  rw [h]
@[simp] theorem Dev.push_pkt (d : Dev) (a : Act) : (d.push a).pkt = d.pkt := by
  obtain ⟨y, h⟩ := Dev.push_only d a
  rw [h]
@[simp] theorem Dev.push_que (d : Dev) (a : Act) : (d.push a).que = d.que := by
  obtain ⟨y, h⟩ := Dev.push_only d a
  rw [h]
@[simp] theorem Dev.push_regions (d : Dev) (a : Act) : (d.push a).regions = d.regions := by
  obtain ⟨y, h⟩ := Dev.push_only d a
  rw [h]
@[simp] theorem Dev.push_fwd (d : Dev) (a : Act) : (d.push a).fwd = d.fwd := by
  obtain ⟨y, h⟩ := Dev.push_only d a
  rw [h]
@[simp] theorem Dev.push_vdc (d : Dev) (a : Act) : (d.push a).vdc = d.vdc := by
  obtain ⟨y, h⟩ := Dev.push_only d a
  rw [h]
@[simp] theorem Dev.push_cmp (d : Dev) (a : Act) : (d.push a).cmp = d.cmp := by
  obtain ⟨y, h⟩ := Dev.push_only d a
  rw [h]
@[simp] theorem Dev.push_ven (d : Dev) (a : Act) : (d.push a).ven = d.ven := by
  obtain ⟨y, h⟩ := Dev.push_only d a
  rw [h]
@[simp] theorem Dev.push_aud (d : Dev) (a : Act) : (d.push a).aud = d.aud := by
  obtain ⟨y, h⟩ := Dev.push_only d a
  rw [h]
@[simp] theorem Dev.push_egs (d : Dev) (a : Act) : (d.push a).egs = d.egs := by
  obtain ⟨y, h⟩ := Dev.push_only d a
  rw [h]
@[simp] theorem Dev.push_vlt (d : Dev) (a : Act) : (d.push a).vlt = d.vlt := by
  obtain ⟨y, h⟩ := Dev.push_only d a
  rw [h]
@[simp] theorem Dev.push_mac (d : Dev) (a : Act) : (d.push a).mac = d.mac := by
  obtain ⟨y, h⟩ := Dev.push_only d a
  rw [h]
@[simp] theorem Dev.push_tap (d : Dev) (a : Act) : (d.push a).tap = d.tap := by
  obtain ⟨y, h⟩ := Dev.push_only d a
  rw [h]
@[simp] theorem Dev.push_pci (d : Dev) (a : Act) : (d.push a).pci = d.pci := by
  obtain ⟨y, h⟩ := Dev.push_only d a
  rw [h]
@[simp] theorem Dev.push_mem (d : Dev) (a : Act) : (d.push a).mem = d.mem := by
  obtain ⟨y, h⟩ := Dev.push_only d a
  rw [h]
@[simp] theorem Dev.push_pwr (d : Dev) (a : Act) : (d.push a).pwr = d.pwr := by
  obtain ⟨y, h⟩ := Dev.push_only d a
  rw [h]
@[simp] theorem Dev.push_mul (d : Dev) (a : Act) : (d.push a).mul = d.mul := by
  obtain ⟨y, h⟩ := Dev.push_only d a
  rw [h]
@[simp] theorem Dev.push_cfg (d : Dev) (a : Act) : (d.push a).cfg = d.cfg := by
  obtain ⟨y, h⟩ := Dev.push_only d a
  rw [h]
@[simp] theorem Dev.push_lmd (d : Dev) (a : Act) : (d.push a).lmd = d.lmd := by
  obtain ⟨y, h⟩ := Dev.push_only d a
  rw [h]
@[simp] theorem Dev.putData_now (d : Dev) (b n : Nat) (e : Entry) : (d.putData b n e).now = d.now := (Dev.putData_only d b n e).now_eq
@[simp] theorem Dev.putData_beat (d : Dev) (b n : Nat) (e : Entry) : (d.putData b n e).beat = d.beat := (Dev.putData_only d b n e).beat_eq
@[simp] theorem Dev.putData_fclk (d : Dev) (b n : Nat) (e : Entry) : (d.putData b n e).fclk = d.fclk := (Dev.putData_only d b n e).fclk_eq
@[simp] theorem Dev.putData_mode (d : Dev) (b n : Nat) (e : Entry) : (d.putData b n e).mode = d.mode := (Dev.putData_only d b n e).mode_eq
@[simp] theorem Dev.putData_before (d : Dev) (b n : Nat) (e : Entry) : (d.putData b n e).before = d.before := (Dev.putData_only d b n e).before_eq
@[simp] theorem Dev.putData_latches (d : Dev) (b n : Nat) (e : Entry) : (d.putData b n e).latches = d.latches := (Dev.putData_only d b n e).latches_eq
@[simp] theorem Dev.putData_held (d : Dev) (b n : Nat) (e : Entry) : (d.putData b n e).held = d.held := (Dev.putData_only d b n e).held_eq
@[simp] theorem Dev.putData_setNow (d : Dev) (b n : Nat) (e : Entry) : (d.putData b n e).setNow = d.setNow := (Dev.putData_only d b n e).setNow_eq
@[simp] theorem Dev.putData_tabs (d : Dev) (b n : Nat) (e : Entry) : (d.putData b n e).tabs = d.tabs := (Dev.putData_only d b n e).tabs_eq
@[simp] theorem Dev.putData_free (d : Dev) (b n : Nat) (e : Entry) : (d.putData b n e).free = d.free := (Dev.putData_only d b n e).free_eq
@[simp] theorem Dev.putData_out (d : Dev) (b n : Nat) (e : Entry) : (d.putData b n e).out = d.out := (Dev.putData_only d b n e).out_eq
@[simp] theorem Dev.putData_tim (d : Dev) (b n : Nat) (e : Entry) : (d.putData b n e).tim = d.tim := (Dev.putData_only d b n e).tim_eq
@[simp] theorem Dev.putData_evt (d : Dev) (b n : Nat) (e : Entry) : (d.putData b n e).evt = d.evt := (Dev.putData_only d b n e).evt_eq
@[simp] theorem Dev.putData_pkt (d : Dev) (b n : Nat) (e : Entry) : (d.putData b n e).pkt = d.pkt := (Dev.putData_only d b n e).pkt_eq
@[simp] theorem Dev.putData_que (d : Dev) (b n : Nat) (e : Entry) : (d.putData b n e).que = d.que := (Dev.putData_only d b n e).que_eq
@[simp] theorem Dev.putData_tsk (d : Dev) (b n : Nat) (e : Entry) : (d.putData b n e).tsk = d.tsk := (Dev.putData_only d b n e).tsk_eq
@[simp] theorem Dev.putData_regions (d : Dev) (b n : Nat) (e : Entry) : (d.putData b n e).regions = d.regions := (Dev.putData_only d b n e).regions_eq
@[simp] theorem Dev.putData_fwd (d : Dev) (b n : Nat) (e : Entry) : (d.putData b n e).fwd = d.fwd := (Dev.putData_only d b n e).fwd_eq
@[simp] theorem Dev.putData_vdc (d : Dev) (b n : Nat) (e : Entry) : (d.putData b n e).vdc = d.vdc := (Dev.putData_only d b n e).vdc_eq
@[simp] theorem Dev.putData_cmp (d : Dev) (b n : Nat) (e : Entry) : (d.putData b n e).cmp = d.cmp := (Dev.putData_only d b n e).cmp_eq
@[simp] theorem Dev.putData_ven (d : Dev) (b n : Nat) (e : Entry) : (d.putData b n e).ven = d.ven := (Dev.putData_only d b n e).ven_eq
@[simp] theorem Dev.putData_aud (d : Dev) (b n : Nat) (e : Entry) : (d.putData b n e).aud = d.aud := (Dev.putData_only d b n e).aud_eq
@[simp] theorem Dev.putData_egs (d : Dev) (b n : Nat) (e : Entry) : (d.putData b n e).egs = d.egs := (Dev.putData_only d b n e).egs_eq
@[simp] theorem Dev.putData_vlt (d : Dev) (b n : Nat) (e : Entry) : (d.putData b n e).vlt = d.vlt := (Dev.putData_only d b n e).vlt_eq
@[simp] theorem Dev.putData_mac (d : Dev) (b n : Nat) (e : Entry) : (d.putData b n e).mac = d.mac := (Dev.putData_only d b n e).mac_eq
@[simp] theorem Dev.putData_tap (d : Dev) (b n : Nat) (e : Entry) : (d.putData b n e).tap = d.tap := (Dev.putData_only d b n e).tap_eq
@[simp] theorem Dev.putData_pci (d : Dev) (b n : Nat) (e : Entry) : (d.putData b n e).pci = d.pci := (Dev.putData_only d b n e).pci_eq
@[simp] theorem Dev.putData_mem (d : Dev) (b n : Nat) (e : Entry) : (d.putData b n e).mem = d.mem := (Dev.putData_only d b n e).mem_eq
@[simp] theorem Dev.putData_pwr (d : Dev) (b n : Nat) (e : Entry) : (d.putData b n e).pwr = d.pwr := (Dev.putData_only d b n e).pwr_eq
@[simp] theorem Dev.putData_mul (d : Dev) (b n : Nat) (e : Entry) : (d.putData b n e).mul = d.mul := (Dev.putData_only d b n e).mul_eq
@[simp] theorem Dev.putData_cfg (d : Dev) (b n : Nat) (e : Entry) : (d.putData b n e).cfg = d.cfg := (Dev.putData_only d b n e).cfg_eq
@[simp] theorem Dev.putData_lmd (d : Dev) (b n : Nat) (e : Entry) : (d.putData b n e).lmd = d.lmd := (Dev.putData_only d b n e).lmd_eq
@[simp] theorem Dev.writeReg_now (d : Dev) (o : Nat) (v : Word) : (d.writeReg o v).now = d.now := (Dev.writeReg_only d o v).now_eq
@[simp] theorem Dev.writeReg_beat (d : Dev) (o : Nat) (v : Word) : (d.writeReg o v).beat = d.beat := (Dev.writeReg_only d o v).beat_eq
@[simp] theorem Dev.writeReg_fclk (d : Dev) (o : Nat) (v : Word) : (d.writeReg o v).fclk = d.fclk := (Dev.writeReg_only d o v).fclk_eq
@[simp] theorem Dev.writeReg_mode (d : Dev) (o : Nat) (v : Word) : (d.writeReg o v).mode = d.mode := (Dev.writeReg_only d o v).mode_eq
@[simp] theorem Dev.writeReg_before (d : Dev) (o : Nat) (v : Word) : (d.writeReg o v).before = d.before := (Dev.writeReg_only d o v).before_eq
@[simp] theorem Dev.writeReg_latches (d : Dev) (o : Nat) (v : Word) : (d.writeReg o v).latches = d.latches := (Dev.writeReg_only d o v).latches_eq
@[simp] theorem Dev.writeReg_held (d : Dev) (o : Nat) (v : Word) : (d.writeReg o v).held = d.held := (Dev.writeReg_only d o v).held_eq
@[simp] theorem Dev.writeReg_setNow (d : Dev) (o : Nat) (v : Word) : (d.writeReg o v).setNow = d.setNow := (Dev.writeReg_only d o v).setNow_eq
@[simp] theorem Dev.writeReg_tabs (d : Dev) (o : Nat) (v : Word) : (d.writeReg o v).tabs = d.tabs := (Dev.writeReg_only d o v).tabs_eq
@[simp] theorem Dev.writeReg_free (d : Dev) (o : Nat) (v : Word) : (d.writeReg o v).free = d.free := (Dev.writeReg_only d o v).free_eq
@[simp] theorem Dev.writeReg_out (d : Dev) (o : Nat) (v : Word) : (d.writeReg o v).out = d.out := (Dev.writeReg_only d o v).out_eq
@[simp] theorem Dev.writeReg_tim (d : Dev) (o : Nat) (v : Word) : (d.writeReg o v).tim = d.tim := (Dev.writeReg_only d o v).tim_eq
@[simp] theorem Dev.writeReg_evt (d : Dev) (o : Nat) (v : Word) : (d.writeReg o v).evt = d.evt := (Dev.writeReg_only d o v).evt_eq
@[simp] theorem Dev.writeReg_pkt (d : Dev) (o : Nat) (v : Word) : (d.writeReg o v).pkt = d.pkt := (Dev.writeReg_only d o v).pkt_eq
@[simp] theorem Dev.writeReg_que (d : Dev) (o : Nat) (v : Word) : (d.writeReg o v).que = d.que := (Dev.writeReg_only d o v).que_eq
@[simp] theorem Dev.writeReg_tsk (d : Dev) (o : Nat) (v : Word) : (d.writeReg o v).tsk = d.tsk := (Dev.writeReg_only d o v).tsk_eq
@[simp] theorem Dev.writeReg_regions (d : Dev) (o : Nat) (v : Word) : (d.writeReg o v).regions = d.regions := (Dev.writeReg_only d o v).regions_eq
@[simp] theorem Dev.writeReg_fwd (d : Dev) (o : Nat) (v : Word) : (d.writeReg o v).fwd = d.fwd := (Dev.writeReg_only d o v).fwd_eq
@[simp] theorem Dev.writeReg_vdc (d : Dev) (o : Nat) (v : Word) : (d.writeReg o v).vdc = d.vdc := (Dev.writeReg_only d o v).vdc_eq
@[simp] theorem Dev.writeReg_cmp (d : Dev) (o : Nat) (v : Word) : (d.writeReg o v).cmp = d.cmp := (Dev.writeReg_only d o v).cmp_eq
@[simp] theorem Dev.writeReg_ven (d : Dev) (o : Nat) (v : Word) : (d.writeReg o v).ven = d.ven := (Dev.writeReg_only d o v).ven_eq
@[simp] theorem Dev.writeReg_aud (d : Dev) (o : Nat) (v : Word) : (d.writeReg o v).aud = d.aud := (Dev.writeReg_only d o v).aud_eq
@[simp] theorem Dev.writeReg_egs (d : Dev) (o : Nat) (v : Word) : (d.writeReg o v).egs = d.egs := (Dev.writeReg_only d o v).egs_eq
@[simp] theorem Dev.writeReg_vlt (d : Dev) (o : Nat) (v : Word) : (d.writeReg o v).vlt = d.vlt := (Dev.writeReg_only d o v).vlt_eq
@[simp] theorem Dev.writeReg_mac (d : Dev) (o : Nat) (v : Word) : (d.writeReg o v).mac = d.mac := (Dev.writeReg_only d o v).mac_eq
@[simp] theorem Dev.writeReg_tap (d : Dev) (o : Nat) (v : Word) : (d.writeReg o v).tap = d.tap := (Dev.writeReg_only d o v).tap_eq
@[simp] theorem Dev.writeReg_pci (d : Dev) (o : Nat) (v : Word) : (d.writeReg o v).pci = d.pci := (Dev.writeReg_only d o v).pci_eq
@[simp] theorem Dev.writeReg_mem (d : Dev) (o : Nat) (v : Word) : (d.writeReg o v).mem = d.mem := (Dev.writeReg_only d o v).mem_eq
@[simp] theorem Dev.writeReg_pwr (d : Dev) (o : Nat) (v : Word) : (d.writeReg o v).pwr = d.pwr := (Dev.writeReg_only d o v).pwr_eq
@[simp] theorem Dev.writeReg_mul (d : Dev) (o : Nat) (v : Word) : (d.writeReg o v).mul = d.mul := (Dev.writeReg_only d o v).mul_eq
@[simp] theorem Dev.writeReg_cfg (d : Dev) (o : Nat) (v : Word) : (d.writeReg o v).cfg = d.cfg := (Dev.writeReg_only d o v).cfg_eq
@[simp] theorem Dev.writeReg_lmd (d : Dev) (o : Nat) (v : Word) : (d.writeReg o v).lmd = d.lmd := (Dev.writeReg_only d o v).lmd_eq
@[simp] theorem Dev.tabCmd_now (d : Dev) (o : Nat) (v : Word) : (d.tabCmd o v).now = d.now := (Dev.tabCmd_only d o v).now_eq
@[simp] theorem Dev.tabCmd_beat (d : Dev) (o : Nat) (v : Word) : (d.tabCmd o v).beat = d.beat := (Dev.tabCmd_only d o v).beat_eq
@[simp] theorem Dev.tabCmd_fclk (d : Dev) (o : Nat) (v : Word) : (d.tabCmd o v).fclk = d.fclk := (Dev.tabCmd_only d o v).fclk_eq
@[simp] theorem Dev.tabCmd_mode (d : Dev) (o : Nat) (v : Word) : (d.tabCmd o v).mode = d.mode := (Dev.tabCmd_only d o v).mode_eq
@[simp] theorem Dev.tabCmd_before (d : Dev) (o : Nat) (v : Word) : (d.tabCmd o v).before = d.before := (Dev.tabCmd_only d o v).before_eq
@[simp] theorem Dev.tabCmd_latches (d : Dev) (o : Nat) (v : Word) : (d.tabCmd o v).latches = d.latches := (Dev.tabCmd_only d o v).latches_eq
@[simp] theorem Dev.tabCmd_held (d : Dev) (o : Nat) (v : Word) : (d.tabCmd o v).held = d.held := (Dev.tabCmd_only d o v).held_eq
@[simp] theorem Dev.tabCmd_setNow (d : Dev) (o : Nat) (v : Word) : (d.tabCmd o v).setNow = d.setNow := (Dev.tabCmd_only d o v).setNow_eq
@[simp] theorem Dev.tabCmd_tabs (d : Dev) (o : Nat) (v : Word) : (d.tabCmd o v).tabs = d.tabs := (Dev.tabCmd_only d o v).tabs_eq
@[simp] theorem Dev.tabCmd_free (d : Dev) (o : Nat) (v : Word) : (d.tabCmd o v).free = d.free := (Dev.tabCmd_only d o v).free_eq
@[simp] theorem Dev.tabCmd_out (d : Dev) (o : Nat) (v : Word) : (d.tabCmd o v).out = d.out := (Dev.tabCmd_only d o v).out_eq
@[simp] theorem Dev.tabCmd_tim (d : Dev) (o : Nat) (v : Word) : (d.tabCmd o v).tim = d.tim := (Dev.tabCmd_only d o v).tim_eq
@[simp] theorem Dev.tabCmd_evt (d : Dev) (o : Nat) (v : Word) : (d.tabCmd o v).evt = d.evt := (Dev.tabCmd_only d o v).evt_eq
@[simp] theorem Dev.tabCmd_pkt (d : Dev) (o : Nat) (v : Word) : (d.tabCmd o v).pkt = d.pkt := (Dev.tabCmd_only d o v).pkt_eq
@[simp] theorem Dev.tabCmd_que (d : Dev) (o : Nat) (v : Word) : (d.tabCmd o v).que = d.que := (Dev.tabCmd_only d o v).que_eq
@[simp] theorem Dev.tabCmd_tsk (d : Dev) (o : Nat) (v : Word) : (d.tabCmd o v).tsk = d.tsk := (Dev.tabCmd_only d o v).tsk_eq
@[simp] theorem Dev.tabCmd_regions (d : Dev) (o : Nat) (v : Word) : (d.tabCmd o v).regions = d.regions := (Dev.tabCmd_only d o v).regions_eq
@[simp] theorem Dev.tabCmd_fwd (d : Dev) (o : Nat) (v : Word) : (d.tabCmd o v).fwd = d.fwd := (Dev.tabCmd_only d o v).fwd_eq
@[simp] theorem Dev.tabCmd_vdc (d : Dev) (o : Nat) (v : Word) : (d.tabCmd o v).vdc = d.vdc := (Dev.tabCmd_only d o v).vdc_eq
@[simp] theorem Dev.tabCmd_cmp (d : Dev) (o : Nat) (v : Word) : (d.tabCmd o v).cmp = d.cmp := (Dev.tabCmd_only d o v).cmp_eq
@[simp] theorem Dev.tabCmd_ven (d : Dev) (o : Nat) (v : Word) : (d.tabCmd o v).ven = d.ven := (Dev.tabCmd_only d o v).ven_eq
@[simp] theorem Dev.tabCmd_aud (d : Dev) (o : Nat) (v : Word) : (d.tabCmd o v).aud = d.aud := (Dev.tabCmd_only d o v).aud_eq
@[simp] theorem Dev.tabCmd_egs (d : Dev) (o : Nat) (v : Word) : (d.tabCmd o v).egs = d.egs := (Dev.tabCmd_only d o v).egs_eq
@[simp] theorem Dev.tabCmd_vlt (d : Dev) (o : Nat) (v : Word) : (d.tabCmd o v).vlt = d.vlt := (Dev.tabCmd_only d o v).vlt_eq
@[simp] theorem Dev.tabCmd_mac (d : Dev) (o : Nat) (v : Word) : (d.tabCmd o v).mac = d.mac := (Dev.tabCmd_only d o v).mac_eq
@[simp] theorem Dev.tabCmd_tap (d : Dev) (o : Nat) (v : Word) : (d.tabCmd o v).tap = d.tap := (Dev.tabCmd_only d o v).tap_eq
@[simp] theorem Dev.tabCmd_pci (d : Dev) (o : Nat) (v : Word) : (d.tabCmd o v).pci = d.pci := (Dev.tabCmd_only d o v).pci_eq
@[simp] theorem Dev.tabCmd_mem (d : Dev) (o : Nat) (v : Word) : (d.tabCmd o v).mem = d.mem := (Dev.tabCmd_only d o v).mem_eq
@[simp] theorem Dev.tabCmd_pwr (d : Dev) (o : Nat) (v : Word) : (d.tabCmd o v).pwr = d.pwr := (Dev.tabCmd_only d o v).pwr_eq
@[simp] theorem Dev.tabCmd_mul (d : Dev) (o : Nat) (v : Word) : (d.tabCmd o v).mul = d.mul := (Dev.tabCmd_only d o v).mul_eq
@[simp] theorem Dev.tabCmd_cfg (d : Dev) (o : Nat) (v : Word) : (d.tabCmd o v).cfg = d.cfg := (Dev.tabCmd_only d o v).cfg_eq
@[simp] theorem Dev.tabCmd_lmd (d : Dev) (o : Nat) (v : Word) : (d.tabCmd o v).lmd = d.lmd := (Dev.tabCmd_only d o v).lmd_eq
@[simp] theorem Dev.tabErr_now (d : Dev) (o c : Nat) : (d.tabErr o c).now = d.now := (Dev.tabErr_only d o c).now_eq
@[simp] theorem Dev.tabErr_beat (d : Dev) (o c : Nat) : (d.tabErr o c).beat = d.beat := (Dev.tabErr_only d o c).beat_eq
@[simp] theorem Dev.tabErr_fclk (d : Dev) (o c : Nat) : (d.tabErr o c).fclk = d.fclk := (Dev.tabErr_only d o c).fclk_eq
@[simp] theorem Dev.tabErr_mode (d : Dev) (o c : Nat) : (d.tabErr o c).mode = d.mode := (Dev.tabErr_only d o c).mode_eq
@[simp] theorem Dev.tabErr_before (d : Dev) (o c : Nat) : (d.tabErr o c).before = d.before := (Dev.tabErr_only d o c).before_eq
@[simp] theorem Dev.tabErr_latches (d : Dev) (o c : Nat) : (d.tabErr o c).latches = d.latches := (Dev.tabErr_only d o c).latches_eq
@[simp] theorem Dev.tabErr_held (d : Dev) (o c : Nat) : (d.tabErr o c).held = d.held := (Dev.tabErr_only d o c).held_eq
@[simp] theorem Dev.tabErr_setNow (d : Dev) (o c : Nat) : (d.tabErr o c).setNow = d.setNow := (Dev.tabErr_only d o c).setNow_eq
@[simp] theorem Dev.tabErr_tabs (d : Dev) (o c : Nat) : (d.tabErr o c).tabs = d.tabs := (Dev.tabErr_only d o c).tabs_eq
@[simp] theorem Dev.tabErr_free (d : Dev) (o c : Nat) : (d.tabErr o c).free = d.free := (Dev.tabErr_only d o c).free_eq
@[simp] theorem Dev.tabErr_out (d : Dev) (o c : Nat) : (d.tabErr o c).out = d.out := (Dev.tabErr_only d o c).out_eq
@[simp] theorem Dev.tabErr_tim (d : Dev) (o c : Nat) : (d.tabErr o c).tim = d.tim := (Dev.tabErr_only d o c).tim_eq
@[simp] theorem Dev.tabErr_evt (d : Dev) (o c : Nat) : (d.tabErr o c).evt = d.evt := (Dev.tabErr_only d o c).evt_eq
@[simp] theorem Dev.tabErr_pkt (d : Dev) (o c : Nat) : (d.tabErr o c).pkt = d.pkt := (Dev.tabErr_only d o c).pkt_eq
@[simp] theorem Dev.tabErr_que (d : Dev) (o c : Nat) : (d.tabErr o c).que = d.que := (Dev.tabErr_only d o c).que_eq
@[simp] theorem Dev.tabErr_tsk (d : Dev) (o c : Nat) : (d.tabErr o c).tsk = d.tsk := (Dev.tabErr_only d o c).tsk_eq
@[simp] theorem Dev.tabErr_regions (d : Dev) (o c : Nat) : (d.tabErr o c).regions = d.regions := (Dev.tabErr_only d o c).regions_eq
@[simp] theorem Dev.tabErr_fwd (d : Dev) (o c : Nat) : (d.tabErr o c).fwd = d.fwd := (Dev.tabErr_only d o c).fwd_eq
@[simp] theorem Dev.tabErr_vdc (d : Dev) (o c : Nat) : (d.tabErr o c).vdc = d.vdc := (Dev.tabErr_only d o c).vdc_eq
@[simp] theorem Dev.tabErr_cmp (d : Dev) (o c : Nat) : (d.tabErr o c).cmp = d.cmp := (Dev.tabErr_only d o c).cmp_eq
@[simp] theorem Dev.tabErr_ven (d : Dev) (o c : Nat) : (d.tabErr o c).ven = d.ven := (Dev.tabErr_only d o c).ven_eq
@[simp] theorem Dev.tabErr_aud (d : Dev) (o c : Nat) : (d.tabErr o c).aud = d.aud := (Dev.tabErr_only d o c).aud_eq
@[simp] theorem Dev.tabErr_egs (d : Dev) (o c : Nat) : (d.tabErr o c).egs = d.egs := (Dev.tabErr_only d o c).egs_eq
@[simp] theorem Dev.tabErr_vlt (d : Dev) (o c : Nat) : (d.tabErr o c).vlt = d.vlt := (Dev.tabErr_only d o c).vlt_eq
@[simp] theorem Dev.tabErr_mac (d : Dev) (o c : Nat) : (d.tabErr o c).mac = d.mac := (Dev.tabErr_only d o c).mac_eq
@[simp] theorem Dev.tabErr_tap (d : Dev) (o c : Nat) : (d.tabErr o c).tap = d.tap := (Dev.tabErr_only d o c).tap_eq
@[simp] theorem Dev.tabErr_pci (d : Dev) (o c : Nat) : (d.tabErr o c).pci = d.pci := (Dev.tabErr_only d o c).pci_eq
@[simp] theorem Dev.tabErr_mem (d : Dev) (o c : Nat) : (d.tabErr o c).mem = d.mem := (Dev.tabErr_only d o c).mem_eq
@[simp] theorem Dev.tabErr_pwr (d : Dev) (o c : Nat) : (d.tabErr o c).pwr = d.pwr := (Dev.tabErr_only d o c).pwr_eq
@[simp] theorem Dev.tabErr_mul (d : Dev) (o c : Nat) : (d.tabErr o c).mul = d.mul := (Dev.tabErr_only d o c).mul_eq
@[simp] theorem Dev.tabErr_cfg (d : Dev) (o c : Nat) : (d.tabErr o c).cfg = d.cfg := (Dev.tabErr_only d o c).cfg_eq
@[simp] theorem Dev.tabErr_lmd (d : Dev) (o c : Nat) : (d.tabErr o c).lmd = d.lmd := (Dev.tabErr_only d o c).lmd_eq
@[simp] theorem Dev.message_now (d : Dev) (v : Nat) : (d.message v).now = d.now := (Dev.message_evtOnly d v).now_eq
@[simp] theorem Dev.message_beat (d : Dev) (v : Nat) : (d.message v).beat = d.beat := (Dev.message_evtOnly d v).beat_eq
@[simp] theorem Dev.message_fclk (d : Dev) (v : Nat) : (d.message v).fclk = d.fclk := (Dev.message_evtOnly d v).fclk_eq
@[simp] theorem Dev.message_mode (d : Dev) (v : Nat) : (d.message v).mode = d.mode := (Dev.message_evtOnly d v).mode_eq
@[simp] theorem Dev.message_before (d : Dev) (v : Nat) : (d.message v).before = d.before := (Dev.message_evtOnly d v).before_eq
@[simp] theorem Dev.message_latches (d : Dev) (v : Nat) : (d.message v).latches = d.latches := (Dev.message_evtOnly d v).latches_eq
@[simp] theorem Dev.message_held (d : Dev) (v : Nat) : (d.message v).held = d.held := (Dev.message_evtOnly d v).held_eq
@[simp] theorem Dev.message_setNow (d : Dev) (v : Nat) : (d.message v).setNow = d.setNow := (Dev.message_evtOnly d v).setNow_eq
@[simp] theorem Dev.message_tabs (d : Dev) (v : Nat) : (d.message v).tabs = d.tabs := (Dev.message_evtOnly d v).tabs_eq
@[simp] theorem Dev.message_free (d : Dev) (v : Nat) : (d.message v).free = d.free := (Dev.message_evtOnly d v).free_eq
@[simp] theorem Dev.message_tim (d : Dev) (v : Nat) : (d.message v).tim = d.tim := (Dev.message_evtOnly d v).tim_eq
@[simp] theorem Dev.message_pkt (d : Dev) (v : Nat) : (d.message v).pkt = d.pkt := (Dev.message_evtOnly d v).pkt_eq
@[simp] theorem Dev.message_que (d : Dev) (v : Nat) : (d.message v).que = d.que := (Dev.message_evtOnly d v).que_eq
@[simp] theorem Dev.message_tsk (d : Dev) (v : Nat) : (d.message v).tsk = d.tsk := (Dev.message_evtOnly d v).tsk_eq
@[simp] theorem Dev.message_regions (d : Dev) (v : Nat) : (d.message v).regions = d.regions := (Dev.message_evtOnly d v).regions_eq
@[simp] theorem Dev.message_fwd (d : Dev) (v : Nat) : (d.message v).fwd = d.fwd := (Dev.message_evtOnly d v).fwd_eq
@[simp] theorem Dev.message_vdc (d : Dev) (v : Nat) : (d.message v).vdc = d.vdc := (Dev.message_evtOnly d v).vdc_eq
@[simp] theorem Dev.message_cmp (d : Dev) (v : Nat) : (d.message v).cmp = d.cmp := (Dev.message_evtOnly d v).cmp_eq
@[simp] theorem Dev.message_ven (d : Dev) (v : Nat) : (d.message v).ven = d.ven := (Dev.message_evtOnly d v).ven_eq
@[simp] theorem Dev.message_aud (d : Dev) (v : Nat) : (d.message v).aud = d.aud := (Dev.message_evtOnly d v).aud_eq
@[simp] theorem Dev.message_egs (d : Dev) (v : Nat) : (d.message v).egs = d.egs := (Dev.message_evtOnly d v).egs_eq
@[simp] theorem Dev.message_vlt (d : Dev) (v : Nat) : (d.message v).vlt = d.vlt := (Dev.message_evtOnly d v).vlt_eq
@[simp] theorem Dev.message_mac (d : Dev) (v : Nat) : (d.message v).mac = d.mac := (Dev.message_evtOnly d v).mac_eq
@[simp] theorem Dev.message_tap (d : Dev) (v : Nat) : (d.message v).tap = d.tap := (Dev.message_evtOnly d v).tap_eq
@[simp] theorem Dev.message_pci (d : Dev) (v : Nat) : (d.message v).pci = d.pci := (Dev.message_evtOnly d v).pci_eq
@[simp] theorem Dev.message_mem (d : Dev) (v : Nat) : (d.message v).mem = d.mem := (Dev.message_evtOnly d v).mem_eq
@[simp] theorem Dev.message_pwr (d : Dev) (v : Nat) : (d.message v).pwr = d.pwr := (Dev.message_evtOnly d v).pwr_eq
@[simp] theorem Dev.message_mul (d : Dev) (v : Nat) : (d.message v).mul = d.mul := (Dev.message_evtOnly d v).mul_eq
@[simp] theorem Dev.message_cfg (d : Dev) (v : Nat) : (d.message v).cfg = d.cfg := (Dev.message_evtOnly d v).cfg_eq
@[simp] theorem Dev.message_lmd (d : Dev) (v : Nat) : (d.message v).lmd = d.lmd := (Dev.message_evtOnly d v).lmd_eq
@[simp] theorem Dev.raiseFull_now (d : Dev) (src d0 d1 blk : Nat) (vec : Option Nat) : (d.raiseFull src d0 d1 blk vec).now = d.now := (Dev.raiseFull_evtOnly d src d0 d1 blk vec).now_eq
@[simp] theorem Dev.raiseFull_beat (d : Dev) (src d0 d1 blk : Nat) (vec : Option Nat) : (d.raiseFull src d0 d1 blk vec).beat = d.beat := (Dev.raiseFull_evtOnly d src d0 d1 blk vec).beat_eq
@[simp] theorem Dev.raiseFull_fclk (d : Dev) (src d0 d1 blk : Nat) (vec : Option Nat) : (d.raiseFull src d0 d1 blk vec).fclk = d.fclk := (Dev.raiseFull_evtOnly d src d0 d1 blk vec).fclk_eq
@[simp] theorem Dev.raiseFull_mode (d : Dev) (src d0 d1 blk : Nat) (vec : Option Nat) : (d.raiseFull src d0 d1 blk vec).mode = d.mode := (Dev.raiseFull_evtOnly d src d0 d1 blk vec).mode_eq
@[simp] theorem Dev.raiseFull_before (d : Dev) (src d0 d1 blk : Nat) (vec : Option Nat) : (d.raiseFull src d0 d1 blk vec).before = d.before := (Dev.raiseFull_evtOnly d src d0 d1 blk vec).before_eq
@[simp] theorem Dev.raiseFull_latches (d : Dev) (src d0 d1 blk : Nat) (vec : Option Nat) : (d.raiseFull src d0 d1 blk vec).latches = d.latches := (Dev.raiseFull_evtOnly d src d0 d1 blk vec).latches_eq
@[simp] theorem Dev.raiseFull_held (d : Dev) (src d0 d1 blk : Nat) (vec : Option Nat) : (d.raiseFull src d0 d1 blk vec).held = d.held := (Dev.raiseFull_evtOnly d src d0 d1 blk vec).held_eq
@[simp] theorem Dev.raiseFull_setNow (d : Dev) (src d0 d1 blk : Nat) (vec : Option Nat) : (d.raiseFull src d0 d1 blk vec).setNow = d.setNow := (Dev.raiseFull_evtOnly d src d0 d1 blk vec).setNow_eq
@[simp] theorem Dev.raiseFull_tabs (d : Dev) (src d0 d1 blk : Nat) (vec : Option Nat) : (d.raiseFull src d0 d1 blk vec).tabs = d.tabs := (Dev.raiseFull_evtOnly d src d0 d1 blk vec).tabs_eq
@[simp] theorem Dev.raiseFull_free (d : Dev) (src d0 d1 blk : Nat) (vec : Option Nat) : (d.raiseFull src d0 d1 blk vec).free = d.free := (Dev.raiseFull_evtOnly d src d0 d1 blk vec).free_eq
@[simp] theorem Dev.raiseFull_tim (d : Dev) (src d0 d1 blk : Nat) (vec : Option Nat) : (d.raiseFull src d0 d1 blk vec).tim = d.tim := (Dev.raiseFull_evtOnly d src d0 d1 blk vec).tim_eq
@[simp] theorem Dev.raiseFull_pkt (d : Dev) (src d0 d1 blk : Nat) (vec : Option Nat) : (d.raiseFull src d0 d1 blk vec).pkt = d.pkt := (Dev.raiseFull_evtOnly d src d0 d1 blk vec).pkt_eq
@[simp] theorem Dev.raiseFull_que (d : Dev) (src d0 d1 blk : Nat) (vec : Option Nat) : (d.raiseFull src d0 d1 blk vec).que = d.que := (Dev.raiseFull_evtOnly d src d0 d1 blk vec).que_eq
@[simp] theorem Dev.raiseFull_tsk (d : Dev) (src d0 d1 blk : Nat) (vec : Option Nat) : (d.raiseFull src d0 d1 blk vec).tsk = d.tsk := (Dev.raiseFull_evtOnly d src d0 d1 blk vec).tsk_eq
@[simp] theorem Dev.raiseFull_regions (d : Dev) (src d0 d1 blk : Nat) (vec : Option Nat) : (d.raiseFull src d0 d1 blk vec).regions = d.regions := (Dev.raiseFull_evtOnly d src d0 d1 blk vec).regions_eq
@[simp] theorem Dev.raiseFull_fwd (d : Dev) (src d0 d1 blk : Nat) (vec : Option Nat) : (d.raiseFull src d0 d1 blk vec).fwd = d.fwd := (Dev.raiseFull_evtOnly d src d0 d1 blk vec).fwd_eq
@[simp] theorem Dev.raiseFull_vdc (d : Dev) (src d0 d1 blk : Nat) (vec : Option Nat) : (d.raiseFull src d0 d1 blk vec).vdc = d.vdc := (Dev.raiseFull_evtOnly d src d0 d1 blk vec).vdc_eq
@[simp] theorem Dev.raiseFull_cmp (d : Dev) (src d0 d1 blk : Nat) (vec : Option Nat) : (d.raiseFull src d0 d1 blk vec).cmp = d.cmp := (Dev.raiseFull_evtOnly d src d0 d1 blk vec).cmp_eq
@[simp] theorem Dev.raiseFull_ven (d : Dev) (src d0 d1 blk : Nat) (vec : Option Nat) : (d.raiseFull src d0 d1 blk vec).ven = d.ven := (Dev.raiseFull_evtOnly d src d0 d1 blk vec).ven_eq
@[simp] theorem Dev.raiseFull_aud (d : Dev) (src d0 d1 blk : Nat) (vec : Option Nat) : (d.raiseFull src d0 d1 blk vec).aud = d.aud := (Dev.raiseFull_evtOnly d src d0 d1 blk vec).aud_eq
@[simp] theorem Dev.raiseFull_egs (d : Dev) (src d0 d1 blk : Nat) (vec : Option Nat) : (d.raiseFull src d0 d1 blk vec).egs = d.egs := (Dev.raiseFull_evtOnly d src d0 d1 blk vec).egs_eq
@[simp] theorem Dev.raiseFull_vlt (d : Dev) (src d0 d1 blk : Nat) (vec : Option Nat) : (d.raiseFull src d0 d1 blk vec).vlt = d.vlt := (Dev.raiseFull_evtOnly d src d0 d1 blk vec).vlt_eq
@[simp] theorem Dev.raiseFull_mac (d : Dev) (src d0 d1 blk : Nat) (vec : Option Nat) : (d.raiseFull src d0 d1 blk vec).mac = d.mac := (Dev.raiseFull_evtOnly d src d0 d1 blk vec).mac_eq
@[simp] theorem Dev.raiseFull_tap (d : Dev) (src d0 d1 blk : Nat) (vec : Option Nat) : (d.raiseFull src d0 d1 blk vec).tap = d.tap := (Dev.raiseFull_evtOnly d src d0 d1 blk vec).tap_eq
@[simp] theorem Dev.raiseFull_pci (d : Dev) (src d0 d1 blk : Nat) (vec : Option Nat) : (d.raiseFull src d0 d1 blk vec).pci = d.pci := (Dev.raiseFull_evtOnly d src d0 d1 blk vec).pci_eq
@[simp] theorem Dev.raiseFull_mem (d : Dev) (src d0 d1 blk : Nat) (vec : Option Nat) : (d.raiseFull src d0 d1 blk vec).mem = d.mem := (Dev.raiseFull_evtOnly d src d0 d1 blk vec).mem_eq
@[simp] theorem Dev.raiseFull_pwr (d : Dev) (src d0 d1 blk : Nat) (vec : Option Nat) : (d.raiseFull src d0 d1 blk vec).pwr = d.pwr := (Dev.raiseFull_evtOnly d src d0 d1 blk vec).pwr_eq
@[simp] theorem Dev.raiseFull_mul (d : Dev) (src d0 d1 blk : Nat) (vec : Option Nat) : (d.raiseFull src d0 d1 blk vec).mul = d.mul := (Dev.raiseFull_evtOnly d src d0 d1 blk vec).mul_eq
@[simp] theorem Dev.raiseFull_cfg (d : Dev) (src d0 d1 blk : Nat) (vec : Option Nat) : (d.raiseFull src d0 d1 blk vec).cfg = d.cfg := (Dev.raiseFull_evtOnly d src d0 d1 blk vec).cfg_eq
@[simp] theorem Dev.raiseFull_lmd (d : Dev) (src d0 d1 blk : Nat) (vec : Option Nat) : (d.raiseFull src d0 d1 blk vec).lmd = d.lmd := (Dev.raiseFull_evtOnly d src d0 d1 blk vec).lmd_eq
@[simp] theorem Dev.raise_now (d : Dev) (src d0 d1 : Nat) : (d.raise src d0 d1).now = d.now := (Dev.raise_evtOnly d src d0 d1).now_eq
@[simp] theorem Dev.raise_beat (d : Dev) (src d0 d1 : Nat) : (d.raise src d0 d1).beat = d.beat := (Dev.raise_evtOnly d src d0 d1).beat_eq
@[simp] theorem Dev.raise_fclk (d : Dev) (src d0 d1 : Nat) : (d.raise src d0 d1).fclk = d.fclk := (Dev.raise_evtOnly d src d0 d1).fclk_eq
@[simp] theorem Dev.raise_mode (d : Dev) (src d0 d1 : Nat) : (d.raise src d0 d1).mode = d.mode := (Dev.raise_evtOnly d src d0 d1).mode_eq
@[simp] theorem Dev.raise_before (d : Dev) (src d0 d1 : Nat) : (d.raise src d0 d1).before = d.before := (Dev.raise_evtOnly d src d0 d1).before_eq
@[simp] theorem Dev.raise_latches (d : Dev) (src d0 d1 : Nat) : (d.raise src d0 d1).latches = d.latches := (Dev.raise_evtOnly d src d0 d1).latches_eq
@[simp] theorem Dev.raise_held (d : Dev) (src d0 d1 : Nat) : (d.raise src d0 d1).held = d.held := (Dev.raise_evtOnly d src d0 d1).held_eq
@[simp] theorem Dev.raise_setNow (d : Dev) (src d0 d1 : Nat) : (d.raise src d0 d1).setNow = d.setNow := (Dev.raise_evtOnly d src d0 d1).setNow_eq
@[simp] theorem Dev.raise_tabs (d : Dev) (src d0 d1 : Nat) : (d.raise src d0 d1).tabs = d.tabs := (Dev.raise_evtOnly d src d0 d1).tabs_eq
@[simp] theorem Dev.raise_free (d : Dev) (src d0 d1 : Nat) : (d.raise src d0 d1).free = d.free := (Dev.raise_evtOnly d src d0 d1).free_eq
@[simp] theorem Dev.raise_tim (d : Dev) (src d0 d1 : Nat) : (d.raise src d0 d1).tim = d.tim := (Dev.raise_evtOnly d src d0 d1).tim_eq
@[simp] theorem Dev.raise_pkt (d : Dev) (src d0 d1 : Nat) : (d.raise src d0 d1).pkt = d.pkt := (Dev.raise_evtOnly d src d0 d1).pkt_eq
@[simp] theorem Dev.raise_que (d : Dev) (src d0 d1 : Nat) : (d.raise src d0 d1).que = d.que := (Dev.raise_evtOnly d src d0 d1).que_eq
@[simp] theorem Dev.raise_tsk (d : Dev) (src d0 d1 : Nat) : (d.raise src d0 d1).tsk = d.tsk := (Dev.raise_evtOnly d src d0 d1).tsk_eq
@[simp] theorem Dev.raise_regions (d : Dev) (src d0 d1 : Nat) : (d.raise src d0 d1).regions = d.regions := (Dev.raise_evtOnly d src d0 d1).regions_eq
@[simp] theorem Dev.raise_fwd (d : Dev) (src d0 d1 : Nat) : (d.raise src d0 d1).fwd = d.fwd := (Dev.raise_evtOnly d src d0 d1).fwd_eq
@[simp] theorem Dev.raise_vdc (d : Dev) (src d0 d1 : Nat) : (d.raise src d0 d1).vdc = d.vdc := (Dev.raise_evtOnly d src d0 d1).vdc_eq
@[simp] theorem Dev.raise_cmp (d : Dev) (src d0 d1 : Nat) : (d.raise src d0 d1).cmp = d.cmp := (Dev.raise_evtOnly d src d0 d1).cmp_eq
@[simp] theorem Dev.raise_ven (d : Dev) (src d0 d1 : Nat) : (d.raise src d0 d1).ven = d.ven := (Dev.raise_evtOnly d src d0 d1).ven_eq
@[simp] theorem Dev.raise_aud (d : Dev) (src d0 d1 : Nat) : (d.raise src d0 d1).aud = d.aud := (Dev.raise_evtOnly d src d0 d1).aud_eq
@[simp] theorem Dev.raise_egs (d : Dev) (src d0 d1 : Nat) : (d.raise src d0 d1).egs = d.egs := (Dev.raise_evtOnly d src d0 d1).egs_eq
@[simp] theorem Dev.raise_vlt (d : Dev) (src d0 d1 : Nat) : (d.raise src d0 d1).vlt = d.vlt := (Dev.raise_evtOnly d src d0 d1).vlt_eq
@[simp] theorem Dev.raise_mac (d : Dev) (src d0 d1 : Nat) : (d.raise src d0 d1).mac = d.mac := (Dev.raise_evtOnly d src d0 d1).mac_eq
@[simp] theorem Dev.raise_tap (d : Dev) (src d0 d1 : Nat) : (d.raise src d0 d1).tap = d.tap := (Dev.raise_evtOnly d src d0 d1).tap_eq
@[simp] theorem Dev.raise_pci (d : Dev) (src d0 d1 : Nat) : (d.raise src d0 d1).pci = d.pci := (Dev.raise_evtOnly d src d0 d1).pci_eq
@[simp] theorem Dev.raise_mem (d : Dev) (src d0 d1 : Nat) : (d.raise src d0 d1).mem = d.mem := (Dev.raise_evtOnly d src d0 d1).mem_eq
@[simp] theorem Dev.raise_pwr (d : Dev) (src d0 d1 : Nat) : (d.raise src d0 d1).pwr = d.pwr := (Dev.raise_evtOnly d src d0 d1).pwr_eq
@[simp] theorem Dev.raise_mul (d : Dev) (src d0 d1 : Nat) : (d.raise src d0 d1).mul = d.mul := (Dev.raise_evtOnly d src d0 d1).mul_eq
@[simp] theorem Dev.raise_cfg (d : Dev) (src d0 d1 : Nat) : (d.raise src d0 d1).cfg = d.cfg := (Dev.raise_evtOnly d src d0 d1).cfg_eq
@[simp] theorem Dev.raise_lmd (d : Dev) (src d0 d1 : Nat) : (d.raise src d0 d1).lmd = d.lmd := (Dev.raise_evtOnly d src d0 d1).lmd_eq
@[simp] theorem Dev.raiseOn_now (d : Dev) (src vec d0 d1 : Nat) : (d.raiseOn src vec d0 d1).now = d.now := (Dev.raiseOn_evtOnly d src vec d0 d1).now_eq
@[simp] theorem Dev.raiseOn_beat (d : Dev) (src vec d0 d1 : Nat) : (d.raiseOn src vec d0 d1).beat = d.beat := (Dev.raiseOn_evtOnly d src vec d0 d1).beat_eq
@[simp] theorem Dev.raiseOn_fclk (d : Dev) (src vec d0 d1 : Nat) : (d.raiseOn src vec d0 d1).fclk = d.fclk := (Dev.raiseOn_evtOnly d src vec d0 d1).fclk_eq
@[simp] theorem Dev.raiseOn_mode (d : Dev) (src vec d0 d1 : Nat) : (d.raiseOn src vec d0 d1).mode = d.mode := (Dev.raiseOn_evtOnly d src vec d0 d1).mode_eq
@[simp] theorem Dev.raiseOn_before (d : Dev) (src vec d0 d1 : Nat) : (d.raiseOn src vec d0 d1).before = d.before := (Dev.raiseOn_evtOnly d src vec d0 d1).before_eq
@[simp] theorem Dev.raiseOn_latches (d : Dev) (src vec d0 d1 : Nat) : (d.raiseOn src vec d0 d1).latches = d.latches := (Dev.raiseOn_evtOnly d src vec d0 d1).latches_eq
@[simp] theorem Dev.raiseOn_held (d : Dev) (src vec d0 d1 : Nat) : (d.raiseOn src vec d0 d1).held = d.held := (Dev.raiseOn_evtOnly d src vec d0 d1).held_eq
@[simp] theorem Dev.raiseOn_setNow (d : Dev) (src vec d0 d1 : Nat) : (d.raiseOn src vec d0 d1).setNow = d.setNow := (Dev.raiseOn_evtOnly d src vec d0 d1).setNow_eq
@[simp] theorem Dev.raiseOn_tabs (d : Dev) (src vec d0 d1 : Nat) : (d.raiseOn src vec d0 d1).tabs = d.tabs := (Dev.raiseOn_evtOnly d src vec d0 d1).tabs_eq
@[simp] theorem Dev.raiseOn_free (d : Dev) (src vec d0 d1 : Nat) : (d.raiseOn src vec d0 d1).free = d.free := (Dev.raiseOn_evtOnly d src vec d0 d1).free_eq
@[simp] theorem Dev.raiseOn_tim (d : Dev) (src vec d0 d1 : Nat) : (d.raiseOn src vec d0 d1).tim = d.tim := (Dev.raiseOn_evtOnly d src vec d0 d1).tim_eq
@[simp] theorem Dev.raiseOn_pkt (d : Dev) (src vec d0 d1 : Nat) : (d.raiseOn src vec d0 d1).pkt = d.pkt := (Dev.raiseOn_evtOnly d src vec d0 d1).pkt_eq
@[simp] theorem Dev.raiseOn_que (d : Dev) (src vec d0 d1 : Nat) : (d.raiseOn src vec d0 d1).que = d.que := (Dev.raiseOn_evtOnly d src vec d0 d1).que_eq
@[simp] theorem Dev.raiseOn_tsk (d : Dev) (src vec d0 d1 : Nat) : (d.raiseOn src vec d0 d1).tsk = d.tsk := (Dev.raiseOn_evtOnly d src vec d0 d1).tsk_eq
@[simp] theorem Dev.raiseOn_regions (d : Dev) (src vec d0 d1 : Nat) : (d.raiseOn src vec d0 d1).regions = d.regions := (Dev.raiseOn_evtOnly d src vec d0 d1).regions_eq
@[simp] theorem Dev.raiseOn_fwd (d : Dev) (src vec d0 d1 : Nat) : (d.raiseOn src vec d0 d1).fwd = d.fwd := (Dev.raiseOn_evtOnly d src vec d0 d1).fwd_eq
@[simp] theorem Dev.raiseOn_vdc (d : Dev) (src vec d0 d1 : Nat) : (d.raiseOn src vec d0 d1).vdc = d.vdc := (Dev.raiseOn_evtOnly d src vec d0 d1).vdc_eq
@[simp] theorem Dev.raiseOn_cmp (d : Dev) (src vec d0 d1 : Nat) : (d.raiseOn src vec d0 d1).cmp = d.cmp := (Dev.raiseOn_evtOnly d src vec d0 d1).cmp_eq
@[simp] theorem Dev.raiseOn_ven (d : Dev) (src vec d0 d1 : Nat) : (d.raiseOn src vec d0 d1).ven = d.ven := (Dev.raiseOn_evtOnly d src vec d0 d1).ven_eq
@[simp] theorem Dev.raiseOn_aud (d : Dev) (src vec d0 d1 : Nat) : (d.raiseOn src vec d0 d1).aud = d.aud := (Dev.raiseOn_evtOnly d src vec d0 d1).aud_eq
@[simp] theorem Dev.raiseOn_egs (d : Dev) (src vec d0 d1 : Nat) : (d.raiseOn src vec d0 d1).egs = d.egs := (Dev.raiseOn_evtOnly d src vec d0 d1).egs_eq
@[simp] theorem Dev.raiseOn_vlt (d : Dev) (src vec d0 d1 : Nat) : (d.raiseOn src vec d0 d1).vlt = d.vlt := (Dev.raiseOn_evtOnly d src vec d0 d1).vlt_eq
@[simp] theorem Dev.raiseOn_mac (d : Dev) (src vec d0 d1 : Nat) : (d.raiseOn src vec d0 d1).mac = d.mac := (Dev.raiseOn_evtOnly d src vec d0 d1).mac_eq
@[simp] theorem Dev.raiseOn_tap (d : Dev) (src vec d0 d1 : Nat) : (d.raiseOn src vec d0 d1).tap = d.tap := (Dev.raiseOn_evtOnly d src vec d0 d1).tap_eq
@[simp] theorem Dev.raiseOn_pci (d : Dev) (src vec d0 d1 : Nat) : (d.raiseOn src vec d0 d1).pci = d.pci := (Dev.raiseOn_evtOnly d src vec d0 d1).pci_eq
@[simp] theorem Dev.raiseOn_mem (d : Dev) (src vec d0 d1 : Nat) : (d.raiseOn src vec d0 d1).mem = d.mem := (Dev.raiseOn_evtOnly d src vec d0 d1).mem_eq
@[simp] theorem Dev.raiseOn_pwr (d : Dev) (src vec d0 d1 : Nat) : (d.raiseOn src vec d0 d1).pwr = d.pwr := (Dev.raiseOn_evtOnly d src vec d0 d1).pwr_eq
@[simp] theorem Dev.raiseOn_mul (d : Dev) (src vec d0 d1 : Nat) : (d.raiseOn src vec d0 d1).mul = d.mul := (Dev.raiseOn_evtOnly d src vec d0 d1).mul_eq
@[simp] theorem Dev.raiseOn_cfg (d : Dev) (src vec d0 d1 : Nat) : (d.raiseOn src vec d0 d1).cfg = d.cfg := (Dev.raiseOn_evtOnly d src vec d0 d1).cfg_eq
@[simp] theorem Dev.raiseOn_lmd (d : Dev) (src vec d0 d1 : Nat) : (d.raiseOn src vec d0 d1).lmd = d.lmd := (Dev.raiseOn_evtOnly d src vec d0 d1).lmd_eq
@[simp] theorem Dev.raiseMem_now (d : Dev) (src d0 d1 blk : Nat) : (d.raiseMem src d0 d1 blk).now = d.now := (Dev.raiseMem_evtOnly d src d0 d1 blk).now_eq
@[simp] theorem Dev.raiseMem_beat (d : Dev) (src d0 d1 blk : Nat) : (d.raiseMem src d0 d1 blk).beat = d.beat := (Dev.raiseMem_evtOnly d src d0 d1 blk).beat_eq
@[simp] theorem Dev.raiseMem_fclk (d : Dev) (src d0 d1 blk : Nat) : (d.raiseMem src d0 d1 blk).fclk = d.fclk := (Dev.raiseMem_evtOnly d src d0 d1 blk).fclk_eq
@[simp] theorem Dev.raiseMem_mode (d : Dev) (src d0 d1 blk : Nat) : (d.raiseMem src d0 d1 blk).mode = d.mode := (Dev.raiseMem_evtOnly d src d0 d1 blk).mode_eq
@[simp] theorem Dev.raiseMem_before (d : Dev) (src d0 d1 blk : Nat) : (d.raiseMem src d0 d1 blk).before = d.before := (Dev.raiseMem_evtOnly d src d0 d1 blk).before_eq
@[simp] theorem Dev.raiseMem_latches (d : Dev) (src d0 d1 blk : Nat) : (d.raiseMem src d0 d1 blk).latches = d.latches := (Dev.raiseMem_evtOnly d src d0 d1 blk).latches_eq
@[simp] theorem Dev.raiseMem_held (d : Dev) (src d0 d1 blk : Nat) : (d.raiseMem src d0 d1 blk).held = d.held := (Dev.raiseMem_evtOnly d src d0 d1 blk).held_eq
@[simp] theorem Dev.raiseMem_setNow (d : Dev) (src d0 d1 blk : Nat) : (d.raiseMem src d0 d1 blk).setNow = d.setNow := (Dev.raiseMem_evtOnly d src d0 d1 blk).setNow_eq
@[simp] theorem Dev.raiseMem_tabs (d : Dev) (src d0 d1 blk : Nat) : (d.raiseMem src d0 d1 blk).tabs = d.tabs := (Dev.raiseMem_evtOnly d src d0 d1 blk).tabs_eq
@[simp] theorem Dev.raiseMem_free (d : Dev) (src d0 d1 blk : Nat) : (d.raiseMem src d0 d1 blk).free = d.free := (Dev.raiseMem_evtOnly d src d0 d1 blk).free_eq
@[simp] theorem Dev.raiseMem_tim (d : Dev) (src d0 d1 blk : Nat) : (d.raiseMem src d0 d1 blk).tim = d.tim := (Dev.raiseMem_evtOnly d src d0 d1 blk).tim_eq
@[simp] theorem Dev.raiseMem_pkt (d : Dev) (src d0 d1 blk : Nat) : (d.raiseMem src d0 d1 blk).pkt = d.pkt := (Dev.raiseMem_evtOnly d src d0 d1 blk).pkt_eq
@[simp] theorem Dev.raiseMem_que (d : Dev) (src d0 d1 blk : Nat) : (d.raiseMem src d0 d1 blk).que = d.que := (Dev.raiseMem_evtOnly d src d0 d1 blk).que_eq
@[simp] theorem Dev.raiseMem_tsk (d : Dev) (src d0 d1 blk : Nat) : (d.raiseMem src d0 d1 blk).tsk = d.tsk := (Dev.raiseMem_evtOnly d src d0 d1 blk).tsk_eq
@[simp] theorem Dev.raiseMem_regions (d : Dev) (src d0 d1 blk : Nat) : (d.raiseMem src d0 d1 blk).regions = d.regions := (Dev.raiseMem_evtOnly d src d0 d1 blk).regions_eq
@[simp] theorem Dev.raiseMem_fwd (d : Dev) (src d0 d1 blk : Nat) : (d.raiseMem src d0 d1 blk).fwd = d.fwd := (Dev.raiseMem_evtOnly d src d0 d1 blk).fwd_eq
@[simp] theorem Dev.raiseMem_vdc (d : Dev) (src d0 d1 blk : Nat) : (d.raiseMem src d0 d1 blk).vdc = d.vdc := (Dev.raiseMem_evtOnly d src d0 d1 blk).vdc_eq
@[simp] theorem Dev.raiseMem_cmp (d : Dev) (src d0 d1 blk : Nat) : (d.raiseMem src d0 d1 blk).cmp = d.cmp := (Dev.raiseMem_evtOnly d src d0 d1 blk).cmp_eq
@[simp] theorem Dev.raiseMem_ven (d : Dev) (src d0 d1 blk : Nat) : (d.raiseMem src d0 d1 blk).ven = d.ven := (Dev.raiseMem_evtOnly d src d0 d1 blk).ven_eq
@[simp] theorem Dev.raiseMem_aud (d : Dev) (src d0 d1 blk : Nat) : (d.raiseMem src d0 d1 blk).aud = d.aud := (Dev.raiseMem_evtOnly d src d0 d1 blk).aud_eq
@[simp] theorem Dev.raiseMem_egs (d : Dev) (src d0 d1 blk : Nat) : (d.raiseMem src d0 d1 blk).egs = d.egs := (Dev.raiseMem_evtOnly d src d0 d1 blk).egs_eq
@[simp] theorem Dev.raiseMem_vlt (d : Dev) (src d0 d1 blk : Nat) : (d.raiseMem src d0 d1 blk).vlt = d.vlt := (Dev.raiseMem_evtOnly d src d0 d1 blk).vlt_eq
@[simp] theorem Dev.raiseMem_mac (d : Dev) (src d0 d1 blk : Nat) : (d.raiseMem src d0 d1 blk).mac = d.mac := (Dev.raiseMem_evtOnly d src d0 d1 blk).mac_eq
@[simp] theorem Dev.raiseMem_tap (d : Dev) (src d0 d1 blk : Nat) : (d.raiseMem src d0 d1 blk).tap = d.tap := (Dev.raiseMem_evtOnly d src d0 d1 blk).tap_eq
@[simp] theorem Dev.raiseMem_pci (d : Dev) (src d0 d1 blk : Nat) : (d.raiseMem src d0 d1 blk).pci = d.pci := (Dev.raiseMem_evtOnly d src d0 d1 blk).pci_eq
@[simp] theorem Dev.raiseMem_mem (d : Dev) (src d0 d1 blk : Nat) : (d.raiseMem src d0 d1 blk).mem = d.mem := (Dev.raiseMem_evtOnly d src d0 d1 blk).mem_eq
@[simp] theorem Dev.raiseMem_pwr (d : Dev) (src d0 d1 blk : Nat) : (d.raiseMem src d0 d1 blk).pwr = d.pwr := (Dev.raiseMem_evtOnly d src d0 d1 blk).pwr_eq
@[simp] theorem Dev.raiseMem_mul (d : Dev) (src d0 d1 blk : Nat) : (d.raiseMem src d0 d1 blk).mul = d.mul := (Dev.raiseMem_evtOnly d src d0 d1 blk).mul_eq
@[simp] theorem Dev.raiseMem_cfg (d : Dev) (src d0 d1 blk : Nat) : (d.raiseMem src d0 d1 blk).cfg = d.cfg := (Dev.raiseMem_evtOnly d src d0 d1 blk).cfg_eq
@[simp] theorem Dev.raiseMem_lmd (d : Dev) (src d0 d1 blk : Nat) : (d.raiseMem src d0 d1 blk).lmd = d.lmd := (Dev.raiseMem_evtOnly d src d0 d1 blk).lmd_eq
@[simp] theorem Dev.raiseOnce_now (d : Dev) (src d0 d1 : Nat) : (d.raiseOnce src d0 d1).now = d.now := (Dev.raiseOnce_evtOnly d src d0 d1).now_eq
@[simp] theorem Dev.raiseOnce_beat (d : Dev) (src d0 d1 : Nat) : (d.raiseOnce src d0 d1).beat = d.beat := (Dev.raiseOnce_evtOnly d src d0 d1).beat_eq
@[simp] theorem Dev.raiseOnce_fclk (d : Dev) (src d0 d1 : Nat) : (d.raiseOnce src d0 d1).fclk = d.fclk := (Dev.raiseOnce_evtOnly d src d0 d1).fclk_eq
@[simp] theorem Dev.raiseOnce_mode (d : Dev) (src d0 d1 : Nat) : (d.raiseOnce src d0 d1).mode = d.mode := (Dev.raiseOnce_evtOnly d src d0 d1).mode_eq
@[simp] theorem Dev.raiseOnce_before (d : Dev) (src d0 d1 : Nat) : (d.raiseOnce src d0 d1).before = d.before := (Dev.raiseOnce_evtOnly d src d0 d1).before_eq
@[simp] theorem Dev.raiseOnce_latches (d : Dev) (src d0 d1 : Nat) : (d.raiseOnce src d0 d1).latches = d.latches := (Dev.raiseOnce_evtOnly d src d0 d1).latches_eq
@[simp] theorem Dev.raiseOnce_held (d : Dev) (src d0 d1 : Nat) : (d.raiseOnce src d0 d1).held = d.held := (Dev.raiseOnce_evtOnly d src d0 d1).held_eq
@[simp] theorem Dev.raiseOnce_setNow (d : Dev) (src d0 d1 : Nat) : (d.raiseOnce src d0 d1).setNow = d.setNow := (Dev.raiseOnce_evtOnly d src d0 d1).setNow_eq
@[simp] theorem Dev.raiseOnce_tabs (d : Dev) (src d0 d1 : Nat) : (d.raiseOnce src d0 d1).tabs = d.tabs := (Dev.raiseOnce_evtOnly d src d0 d1).tabs_eq
@[simp] theorem Dev.raiseOnce_free (d : Dev) (src d0 d1 : Nat) : (d.raiseOnce src d0 d1).free = d.free := (Dev.raiseOnce_evtOnly d src d0 d1).free_eq
@[simp] theorem Dev.raiseOnce_tim (d : Dev) (src d0 d1 : Nat) : (d.raiseOnce src d0 d1).tim = d.tim := (Dev.raiseOnce_evtOnly d src d0 d1).tim_eq
@[simp] theorem Dev.raiseOnce_pkt (d : Dev) (src d0 d1 : Nat) : (d.raiseOnce src d0 d1).pkt = d.pkt := (Dev.raiseOnce_evtOnly d src d0 d1).pkt_eq
@[simp] theorem Dev.raiseOnce_que (d : Dev) (src d0 d1 : Nat) : (d.raiseOnce src d0 d1).que = d.que := (Dev.raiseOnce_evtOnly d src d0 d1).que_eq
@[simp] theorem Dev.raiseOnce_tsk (d : Dev) (src d0 d1 : Nat) : (d.raiseOnce src d0 d1).tsk = d.tsk := (Dev.raiseOnce_evtOnly d src d0 d1).tsk_eq
@[simp] theorem Dev.raiseOnce_regions (d : Dev) (src d0 d1 : Nat) : (d.raiseOnce src d0 d1).regions = d.regions := (Dev.raiseOnce_evtOnly d src d0 d1).regions_eq
@[simp] theorem Dev.raiseOnce_fwd (d : Dev) (src d0 d1 : Nat) : (d.raiseOnce src d0 d1).fwd = d.fwd := (Dev.raiseOnce_evtOnly d src d0 d1).fwd_eq
@[simp] theorem Dev.raiseOnce_vdc (d : Dev) (src d0 d1 : Nat) : (d.raiseOnce src d0 d1).vdc = d.vdc := (Dev.raiseOnce_evtOnly d src d0 d1).vdc_eq
@[simp] theorem Dev.raiseOnce_cmp (d : Dev) (src d0 d1 : Nat) : (d.raiseOnce src d0 d1).cmp = d.cmp := (Dev.raiseOnce_evtOnly d src d0 d1).cmp_eq
@[simp] theorem Dev.raiseOnce_ven (d : Dev) (src d0 d1 : Nat) : (d.raiseOnce src d0 d1).ven = d.ven := (Dev.raiseOnce_evtOnly d src d0 d1).ven_eq
@[simp] theorem Dev.raiseOnce_aud (d : Dev) (src d0 d1 : Nat) : (d.raiseOnce src d0 d1).aud = d.aud := (Dev.raiseOnce_evtOnly d src d0 d1).aud_eq
@[simp] theorem Dev.raiseOnce_egs (d : Dev) (src d0 d1 : Nat) : (d.raiseOnce src d0 d1).egs = d.egs := (Dev.raiseOnce_evtOnly d src d0 d1).egs_eq
@[simp] theorem Dev.raiseOnce_vlt (d : Dev) (src d0 d1 : Nat) : (d.raiseOnce src d0 d1).vlt = d.vlt := (Dev.raiseOnce_evtOnly d src d0 d1).vlt_eq
@[simp] theorem Dev.raiseOnce_mac (d : Dev) (src d0 d1 : Nat) : (d.raiseOnce src d0 d1).mac = d.mac := (Dev.raiseOnce_evtOnly d src d0 d1).mac_eq
@[simp] theorem Dev.raiseOnce_tap (d : Dev) (src d0 d1 : Nat) : (d.raiseOnce src d0 d1).tap = d.tap := (Dev.raiseOnce_evtOnly d src d0 d1).tap_eq
@[simp] theorem Dev.raiseOnce_pci (d : Dev) (src d0 d1 : Nat) : (d.raiseOnce src d0 d1).pci = d.pci := (Dev.raiseOnce_evtOnly d src d0 d1).pci_eq
@[simp] theorem Dev.raiseOnce_mem (d : Dev) (src d0 d1 : Nat) : (d.raiseOnce src d0 d1).mem = d.mem := (Dev.raiseOnce_evtOnly d src d0 d1).mem_eq
@[simp] theorem Dev.raiseOnce_pwr (d : Dev) (src d0 d1 : Nat) : (d.raiseOnce src d0 d1).pwr = d.pwr := (Dev.raiseOnce_evtOnly d src d0 d1).pwr_eq
@[simp] theorem Dev.raiseOnce_mul (d : Dev) (src d0 d1 : Nat) : (d.raiseOnce src d0 d1).mul = d.mul := (Dev.raiseOnce_evtOnly d src d0 d1).mul_eq
@[simp] theorem Dev.raiseOnce_cfg (d : Dev) (src d0 d1 : Nat) : (d.raiseOnce src d0 d1).cfg = d.cfg := (Dev.raiseOnce_evtOnly d src d0 d1).cfg_eq
@[simp] theorem Dev.raiseOnce_lmd (d : Dev) (src d0 d1 : Nat) : (d.raiseOnce src d0 d1).lmd = d.lmd := (Dev.raiseOnce_evtOnly d src d0 d1).lmd_eq

/-! ### Registers and entries -/

theorem Dev.reg_setReg (d : Dev) (o : Nat) (w : Word) (o' : Nat) :
    (d.setReg o w).reg o' = if o' = o then w else d.reg o' := tabGet_tabSet regReset d.regs o w o'

@[simp] theorem Dev.reg_setReg_self (d : Dev) (o : Nat) (w : Word) : (d.setReg o w).reg o = w := by
  rw [Dev.reg_setReg, if_pos rfl]

theorem Dev.reg_setReg_ne (d : Dev) (o : Nat) (w : Word) {o' : Nat} (h : o' ≠ o) : (d.setReg o w).reg o' = d.reg o' := by
  rw [Dev.reg_setReg, if_neg h]

@[simp] theorem Dev.reg_setFld_ne (d : Dev) (o hi lo v : Nat) {o' : Nat} (h : o' ≠ o) :
    (d.setFld o hi lo v).reg o' = d.reg o' := Dev.reg_setReg_ne _ _ _ h

@[simp] theorem Dev.reg_setFlag_ne (d : Dev) (o i : Nat) (b : Bool) {o' : Nat} (h : o' ≠ o) :
    (d.setFlag o i b).reg o' = d.reg o' := Dev.reg_setReg_ne _ _ _ h

theorem Dev.reg_setReg64_ne (d : Dev) (lo hi v : Nat) {o : Nat} (h1 : o ≠ lo) (h2 : o ≠ hi) :
    (d.setReg64 lo hi v).reg o = d.reg o := by
  unfold Dev.setReg64
  rw [Dev.reg_setReg_ne _ _ _ h2, Dev.reg_setReg_ne _ _ _ h1]

theorem Dev.reg_count_ne (d : Dev) (lo n : Nat) {o : Nat} (h1 : o ≠ lo) (h2 : o ≠ lo + 4) :
    (d.count lo n).reg o = d.reg o := Dev.reg_setReg64_ne _ _ _ _ h1 h2

theorem Dev.reg_cnt_ne (d : Dev) (b c n : Nat) {o : Nat} (h1 : o ≠ b + 8 * c) (h2 : o ≠ b + 8 * c + 4) :
    (d.cnt b c n).reg o = d.reg o := Dev.reg_count_ne _ _ _ h1 h2

@[simp] theorem Dev.reg_setEnt (d : Dev) (u : TabUnit) (t i : Nat) (e : Entry) (o : Nat) :
    (d.setEnt u t i e).reg o = d.reg o := congrArg (tabGet regReset · o) (Dev.setEnt_regs d u t i e)

@[simp] theorem Dev.reg_emit (d : Dev) (x : Emission) (o : Nat) : (d.emit x).reg o = d.reg o :=
  congrArg (tabGet regReset · o) (Dev.emit_regs d x)

@[simp] theorem Dev.reg_push (d : Dev) (a : Act) (o : Nat) : (d.push a).reg o = d.reg o :=
  congrArg (tabGet regReset · o) (Dev.push_regs d a)

theorem Dev.reg_writeReg_ne (d : Dev) (o : Nat) (v : Word) {o' : Nat} (h : o' ≠ o) : (d.writeReg o v).reg o' = d.reg o' := by
  unfold Dev.writeReg
  split
  · exact Dev.reg_setReg_ne _ _ _ h
  · rfl

theorem Dev.reg_tabErr_ne (d : Dev) (o c : Nat) {o' : Nat} (h : o' ≠ o) : (d.tabErr o c).reg o' = d.reg o' := by
  unfold Dev.tabErr
  dsimp only
  split
  · exact Dev.reg_setReg_ne _ _ _ h
  · rfl

theorem Dev.reg_putData (d : Dev) (b n : Nat) (e : Entry) (o : Nat) :
    (d.putData b n e).reg o = if b ≤ o ∧ o < b + 4 * n ∧ (o - b) % 4 = 0 then Entry.word e ((o - b) / 4) else d.reg o := by
  unfold Dev.putData
  induction n with
  | zero =>
    rw [if_neg (by omega)]
    rfl
  | succ n ih =>
    rw [List.range_succ, List.foldl_append, List.foldl_cons, List.foldl_nil, Dev.reg_setReg, ih]
    by_cases h : o = b + 4 * n
    · subst h
      rw [if_pos rfl, if_pos (by omega)]
      congr 1
      omega
    · rw [if_neg h]
      by_cases h' : b ≤ o ∧ o < b + 4 * n ∧ (o - b) % 4 = 0
      · rw [if_pos h', if_pos (by omega)]
      · rw [if_neg h', if_neg (by omega)]

theorem Dev.ent_setEnt (d : Dev) (u : TabUnit) (t i : Nat) (e : Entry) (u' : TabUnit) (t' i' : Nat) :
    (d.setEnt u t i e).ent u' t' i' = if tabKey u' t' i' = tabKey u t i then e else d.ent u' t' i' :=
  tabGet_tabSet entReset d.tabs (tabKey u t i) e (tabKey u' t' i')

@[simp] theorem Dev.ent_setEnt_self (d : Dev) (u : TabUnit) (t i : Nat) (e : Entry) : (d.setEnt u t i e).ent u t i = e := by
  rw [Dev.ent_setEnt, if_pos rfl]

/-! ### Commands on the device -/

/-- With no work left over the drain is over. -/
@[simp] theorem Dev.drain_idle (d : Dev) (n : Nat) (h : d.tsk.todo = []) : d.drain n = d := by
  cases n with
  | zero => rfl
  | succ n => rw [Dev.drain, h]

/-- With no mailbox command in progress there is none to answer. -/
@[simp] theorem Dev.mailPoll_idle (d : Dev) (h : d.pci.mbx.busy = none) : d.mailPoll = d := by
  unfold Dev.mailPoll Dev.mbxRuns
  rw [h]
  rfl

theorem Dev.settle_idle (f : Dev → Dev) (d : Dev) (h1 : (f d).tsk.todo = []) (h2 : (f d).pci.mbx.busy = none) :
    d.settle f = f d := by
  unfold Dev.settle
  rw [Dev.drain_idle _ _ h1, Dev.mailPoll_idle _ h2]

theorem Pci.quiet {p : Pci} (h1 : p.writes = []) (h2 : p.dramWrites = []) : { p with writes := [], dramWrites := [] } = p := by
  cases p
  cases h1
  cases h2
  rfl

/-- The commit of a device that wrote no memory. -/
theorem State.commit_quiet (s : State) (d : Dev) (h1 : d.pci.writes = []) (h2 : d.pci.dramWrites = [])
    (h3 : d.mode = .reset → s.dram = []) : s.commit d = { s with dev := d } := by
  obtain ⟨p, hm, dr, dv⟩ := s
  unfold State.commit putAll
  rw [h1, h2]
  have h : (if d.mode = Mode.reset then [] else dr) = dr := by
    split
    · rename_i hm
      exact (h3 hm).symm
    · rfl
  simp only [List.foldl_nil, h]
  rw [Pci.quiet h1 h2]

/-- What a command does that leaves no work, answers no mailbox command and writes no memory: its operation, and nothing else. -/
theorem onDev_quiet (f : Dev → Dev) (s : State) (h1 : (f s.dev).tsk.todo = []) (h2 : (f s.dev).pci.mbx.busy = none)
    (h3 : (f s.dev).pci.writes = []) (h4 : (f s.dev).pci.dramWrites = []) (h5 : (f s.dev).mode = .reset → s.dram = []) :
    onDev f s = .next { s with dev := f s.dev } := by
  unfold onDev
  rw [Dev.settle_idle f s.dev h1 h2, State.commit_quiet s _ h3 h4 h5]

/-- What a ready state gives. -/
theorem State.ready_spec {s : State} (h : s.ready = true) :
    s.dev.tsk.todo = [] ∧ s.dev.pci.mbx.busy = none ∧ s.dev.pci.writes = [] ∧ s.dev.pci.dramWrites = [] ∧
    (s.dev.mode = .reset → s.dram = []) := by
  simp only [State.ready, State.sound, Dev.idle, Dev.noWrites, Bool.and_eq_true, List.isEmpty_iff, Option.isNone_iff_eq_none,
    Bool.or_eq_true, bne_iff_ne, ne_eq] at h
  obtain ⟨⟨⟨⟨⟨⟨_, _⟩, _⟩, _⟩, hw, hd⟩, hm⟩, ht, hb⟩ := h
  refine ⟨ht, hb, hw, hd, fun hr => ?_⟩
  rcases hm with hm | hm
  · exact absurd hr hm
  · exact hm

/-- The command of a ready state whose operation keeps tasks, PCIe and mode. -/
theorem onDev_ready (f : Dev → Dev) (s : State) (h : s.ready = true) (h1 : (f s.dev).tsk = s.dev.tsk)
    (h2 : (f s.dev).pci = s.dev.pci) (h3 : (f s.dev).mode = s.dev.mode) : onDev f s = .next { s with dev := f s.dev } := by
  obtain ⟨a, b, c, e, g⟩ := State.ready_spec h
  exact onDev_quiet f s (by rw [h1, a]) (by rw [h2, b]) (by rw [h2, c]) (by rw [h2, e]) (by rw [h3]; exact g)

end Sys2Proof.Machine
end

