-- ==== Sys2Proof/Laws/Memory.lean ====
section
/-! SUPPORT. Every operation on host memory and on DRAM keeps the canonical form and the address limit, and changes only the bytes it
names. -/

namespace Sys2Proof.Machine
open Sys2Proof

theorem memByte_memPut (limit : Nat) (m : List Host.Cell) (a : Nat) (bs : List Byte) (x : Nat) :
    memByte (memPut limit m a bs) x =
      if a ≤ x ∧ x < a + bs.length ∧ x < limit then bs.getD (x - a) 0 else memByte m x := by
  induction bs generalizing m a with
  | nil =>
    rw [memPut, if_neg (by simp only [List.length_nil]; omega)]
  | cons b rest ih =>
    rw [memPut, ih]
    have hone : memByte (if a < limit then tabSet zeroByte m a b else m) x = if x = a ∧ a < limit then b else memByte m x := by
      by_cases h : a < limit
      · rw [if_pos h, memByte_memPut_one]
        simp only [h, and_true]
      · rw [if_neg h, if_neg (fun hh => h hh.2)]
    rw [hone, List.length_cons]
    by_cases hx : x = a
    · subst hx
      rw [if_neg (by omega)]
      by_cases hl : x < limit
      · rw [if_pos ⟨rfl, hl⟩, if_pos (by omega), Nat.sub_self]
        rfl
      · rw [if_neg (fun hh => hl hh.2), if_neg (by omega)]
    · rw [if_neg (c := x = a ∧ a < limit) (fun hh => hx hh.1)]
      by_cases hr : a + 1 ≤ x ∧ x < a + 1 + rest.length ∧ x < limit
      · rw [if_pos hr, if_pos (by omega)]
        have : x - a = (x - (a + 1)) + 1 := by omega
        rw [this, List.getD_cons_succ]
      · rw [if_neg hr, if_neg (by omega)]

theorem wf_memPut (limit : Nat) {m : List Host.Cell} (a : Nat) (bs : List Byte) (h : Memory.wf m = true) :
    Memory.wf (memPut limit m a bs) = true := by
  induction bs generalizing m a with
  | nil => exact h
  | cons b rest ih =>
    rw [memPut]
    apply ih
    split
    · exact tabWf_tabSet zeroByte a b h
    · exact h

theorem below_memPut (limit : Nat) {m : List Host.Cell} (a : Nat) (bs : List Byte) (h : Memory.below limit m = true) :
    Memory.below limit (memPut limit m a bs) = true := by
  induction bs generalizing m a with
  | nil => exact h
  | cons b rest ih =>
    rw [memPut]
    apply ih
    split
    · rename_i ha
      exact below_tabSet b ha h
    · exact h

theorem wf_putAll (limit : Nat) {m : List Host.Cell} (ws : List (Nat × List Byte)) (h : Memory.wf m = true) :
    Memory.wf (putAll limit m ws) = true := by
  unfold putAll
  induction ws generalizing m with
  | nil => exact h
  | cons w ws ih =>
    rw [List.foldl_cons]
    exact ih (wf_memPut limit w.1 w.2 h)

theorem below_putAll (limit : Nat) {m : List Host.Cell} (ws : List (Nat × List Byte)) (h : Memory.below limit m = true) :
    Memory.below limit (putAll limit m ws) = true := by
  unfold putAll
  induction ws generalizing m with
  | nil => exact h
  | cons w ws ih =>
    rw [List.foldl_cons]
    exact ih (below_memPut limit w.1 w.2 h)

theorem wf_hostPut {m : List Host.Cell} (hw : HostWrites) (h : Memory.wf m = true) : Memory.wf (hostPut m hw) = true := by
  unfold hostPut
  induction hw generalizing m with
  | nil => exact h
  | cons w ws ih =>
    rw [List.foldl_cons]
    apply ih
    split
    · exact tabWf_tabSet zeroByte w.1 w.2 h
    · exact h

theorem below_hostPut {m : List Host.Cell} (hw : HostWrites) (h : Memory.below hostLimit m = true) :
    Memory.below hostLimit (hostPut m hw) = true := by
  unfold hostPut
  induction hw generalizing m with
  | nil => exact h
  | cons w ws ih =>
    rw [List.foldl_cons]
    apply ih
    split
    · rename_i ha
      exact below_tabSet w.2 ha h
    · exact h

end Sys2Proof.Machine
end

