-- ==== Sys2Proof/Laws/Events.lean ====
section
/-! SUPPORT. Raising an event writes no register but those of the event unit, and sets the source's status. -/

namespace Sys2Proof.Machine
open Sys2Proof

theorem bits_lt (w : Word) (hi lo : Nat) : bits w hi lo < 2 ^ (hi + 1 - lo) := Nat.mod_lt _ (Nat.two_pow_pos _)

theorem evtReg_stat {src : Nat} (h : src < 640) : evtReg (Reg.EVT_STAT + 4 * (src / 32)) = true := by
  have h1 : Reg.EVT_STAT ≤ Reg.EVT_STAT + 4 * (src / 32) := Nat.le_add_right ..
  have h2 : Reg.EVT_STAT + 4 * (src / 32) < Reg.EVT_STAT + 80 := by omega
  simp [evtReg, h1, h2]

theorem evtReg_pba {v : Nat} (h : v < 64) : evtReg (Reg.MSIX_PBA + 4 * (v / 32)) = true := by
  have h1 : Reg.MSIX_PBA ≤ Reg.MSIX_PBA + 4 * (v / 32) := Nat.le_add_right ..
  have h2 : Reg.MSIX_PBA + 4 * (v / 32) < Reg.MSIX_PBA + 8 := by omega
  simp [evtReg, h1, h2]

theorem evtReg_cnt {c : Nat} (h : c < 4) :
    evtReg (Reg.EVT_CNT_LO + 8 * c) = true ∧ evtReg (Reg.EVT_CNT_LO + 8 * c + 4) = true := by
  have h1 : Reg.EVT_CNT_LO ≤ Reg.EVT_CNT_LO + 8 * c := Nat.le_add_right ..
  have h2 : Reg.EVT_CNT_LO + 8 * c < Reg.EVT_CNT_LO + 32 := by omega
  have h3 : Reg.EVT_CNT_LO ≤ Reg.EVT_CNT_LO + 8 * c + 4 := by omega
  have h4 : Reg.EVT_CNT_LO + 8 * c + 4 < Reg.EVT_CNT_LO + 32 := by omega
  simp [evtReg, h1, h2, h3, h4]

theorem ne_of_evtReg {o o' : Nat} (h : evtReg o = false) (h' : evtReg o' = true) : o ≠ o' := by
  rintro rfl
  rw [h'] at h
  exact Bool.noConfusion h

theorem Dev.reg_evtCnt (d : Dev) {c : Nat} (n : Nat) (hc : c < 4) {o : Nat} (h : evtReg o = false) :
    (d.cnt Reg.EVT_CNT_LO c n).reg o = d.reg o :=
  Dev.reg_cnt_ne d _ c n (ne_of_evtReg h (evtReg_cnt hc).1) (ne_of_evtReg h (evtReg_cnt hc).2)

theorem Dev.message_reg (d : Dev) {v : Nat} (hv : v < 64) {o : Nat} (h : evtReg o = false) : (d.message v).reg o = d.reg o := by
  unfold Dev.message
  split
  · rfl
  · split
    · rfl
    · split
      · exact Dev.reg_setFlag_ne _ _ _ _ (ne_of_evtReg h (evtReg_pba hv))
      · dsimp only
        rw [Dev.reg_emit, Dev.reg_evtCnt _ _ (by decide) h]
        rfl

theorem evtReg_head : evtReg Reg.EVT_LOG_HEAD = true := by decide

theorem evtReg_tail : evtReg Reg.EVT_LOG_TAIL = true := by decide

theorem Dev.logWrite_reg (d : Dev) (r : LogRec) {o : Nat} (h : evtReg o = false) : (d.logWrite r).1.reg o = d.reg o := by
  unfold Dev.logWrite
  dsimp only
  split
  · dsimp only
    rw [Dev.reg_evtCnt _ _ (by decide) h, Dev.reg_setFld_ne _ _ _ _ _ (ne_of_evtReg h evtReg_tail),
      Dev.reg_evtCnt _ _ (by decide) h, Dev.reg_setFld_ne _ _ _ _ _ (ne_of_evtReg h evtReg_head)]
    rfl
  · dsimp only
    rw [Dev.reg_evtCnt _ _ (by decide) h, Dev.reg_setFld_ne _ _ _ _ _ (ne_of_evtReg h evtReg_head)]
    rfl

theorem evtSeverity_lt {src : Nat} {sev : Nat} (h : evtSeverity src = some sev) : src < 640 := by
  unfold evtSeverity at h
  split at h
  · omega
  · split at h
    · assumption
    · exact absurd h (by simp)

theorem Dev.reg_withEvt (d : Dev) (v : Evt) (o : Nat) : ({ d with evt := v } : Dev).reg o = d.reg o := rfl

theorem Dev.raiseCore_reg (d : Dev) (src d0 d1 blk : Nat) (vec : Option Nat) (hv : ∀ v, vec = some v → v < 64) {o : Nat}
    (h : evtReg o = false) : (d.raiseCore src d0 d1 blk vec).1.reg o = d.reg o := by
  unfold Dev.raiseCore
  split
  · rfl
  · rename_i sev hs
    dsimp only
    split
    · rfl
    · have base : ((d.setFlag (Reg.EVT_STAT + 4 * (src / 32)) (src % 32) true).cnt Reg.EVT_CNT_LO 0 1).reg o = d.reg o := by
        rw [Dev.reg_evtCnt _ _ (by decide) h,
          Dev.reg_setFlag_ne _ _ _ _ (ne_of_evtReg h (evtReg_stat (evtSeverity_lt hs)))]
      generalize (d.setFlag (Reg.EVT_STAT + 4 * (src / 32)) (src % 32) true).cnt Reg.EVT_CNT_LO 0 1 = B at base ⊢
      have log : ∀ (e : Dev) (b : Prop) [Decidable b] (r : LogRec), e.reg o = d.reg o →
          (if b then e.logWrite r else (e, false)).1.reg o = d.reg o := by
        intro e b _ r he
        split
        · rw [Dev.logWrite_reg _ _ h, he]
        · exact he
      apply log
      split
      · rename_i v
        rw [Dev.message_reg _ (hv v rfl) h]
        split
        · split
          · rw [Dev.reg_withEvt, base]
          · rw [Dev.reg_emit, base]
        · exact base
      · split
        · rw [Dev.message_reg _ (bits_lt _ 5 0) h]
          split
          · split
            · rw [Dev.reg_withEvt, base]
            · rw [Dev.reg_emit, base]
          · exact base
        · split
          · split
            · rw [Dev.reg_withEvt, base]
            · rw [Dev.reg_emit, base]
          · exact base

theorem Dev.raiseFull_reg (d : Dev) (src d0 d1 blk : Nat) (vec : Option Nat) (hv : ∀ v, vec = some v → v < 64) {o : Nat}
    (h : evtReg o = false) : (d.raiseFull src d0 d1 blk vec).reg o = d.reg o := by
  have hc := Dev.raiseCore_reg d src d0 d1 blk vec hv h
  unfold Dev.raiseFull
  split
  · rename_i e he
    rw [he] at hc
    exact hc
  · rename_i e he
    rw [he] at hc
    split
    · exact hc
    · rw [Dev.raiseCore_reg _ _ _ _ _ _ (by simp) h]
      exact hc

/-- Raising an event writes the event unit's registers alone. -/
@[simp] theorem Dev.raise_reg (d : Dev) (src d0 d1 : Nat) {o : Nat} (h : evtReg o = false) :
    (d.raise src d0 d1).reg o = d.reg o := Dev.raiseFull_reg d src d0 d1 0 none (by simp) h

@[simp] theorem Dev.raiseMem_reg (d : Dev) (src d0 d1 blk : Nat) {o : Nat} (h : evtReg o = false) :
    (d.raiseMem src d0 d1 blk).reg o = d.reg o := Dev.raiseFull_reg d src d0 d1 blk none (by simp) h

@[simp] theorem Dev.raiseOnce_reg (d : Dev) (src d0 d1 : Nat) {o : Nat} (h : evtReg o = false) :
    (d.raiseOnce src d0 d1).reg o = d.reg o := by
  unfold Dev.raiseOnce
  split
  · rfl
  · rw [Dev.raise_reg _ _ _ _ h]
    rfl

theorem Dev.raiseOn_reg (d : Dev) (src d0 d1 : Nat) {v : Nat} (hv : v < 64) {o : Nat} (h : evtReg o = false) :
    (d.raiseOn src v d0 d1).reg o = d.reg o :=
  Dev.raiseFull_reg d src d0 d1 0 (some v) (by rintro _ ⟨rfl⟩; exact hv) h

end Sys2Proof.Machine
end

