-- ==== Sys2Proof/Laws/Commands.lean ====
section
/-! SUPPORT. What each command runs: its operation on the device. -/

namespace Sys2Proof.Machine
open Sys2Proof

theorem exec_registerWrite (p : Path) (off : Nat) (v : Word) (s : State) : exec (.registerWrite p off v) s =
    onDev (registerWrite s.hostMem s.dram p off v) s := rfl
theorem exec_readLoLatch (p : Path) (off : Nat) (s : State) : exec (.readLoLatch p off) s =
    onDev (readLoLatch p off) s := rfl
theorem exec_writeLoHold (p : Path) (off : Nat) (v : Word) (s : State) : exec (.writeLoHold p off v) s =
    onDev (writeLoHold p off v) s := rfl
theorem exec_writeHiCommit (p : Path) (off : Nat) (v : Word) (s : State) : exec (.writeHiCommit p off v) s =
    onDev (writeHiCommit p off v) s := rfl
theorem exec_rcRead (p : Path) (off : Nat) (inc : Nat) (s : State) : exec (.rcRead p off inc) s =
    onDev (rcRead p off inc) s := rfl
theorem exec_beatBoundary (s : State) : exec (.beatBoundary) s =
    onDev beatBoundary s := rfl
theorem exec_cellYielded (cell : Nat) (s : State) : exec (.cellYielded cell) s =
    onDev (cellYielded cell) s := rfl
theorem exec_yieldGraceExpiry (s : State) : exec (.yieldGraceExpiry) s =
    onDev yieldGraceExpiry s := rfl
theorem exec_cellResetDone (code : Nat) (s : State) : exec (.cellResetDone code) s =
    onDev (cellResetDone code) s := rfl
theorem exec_jobRetire (cell : Nat) (res : JobResult) (s : State) : exec (.jobRetire cell res) s =
    onDev (jobRetire cell res) s := rfl
theorem exec_jobIssue (cell : Nat) (s : State) : exec (.jobIssue cell) s =
    onDev (jobIssue cell) s := rfl
theorem exec_deadlineSettle (task : Nat) (s : State) : exec (.deadlineSettle task) s =
    onDev (deadlineSettle task) s := rfl
theorem exec_taskWaitLimit (t : Nat) (s : State) : exec (.taskWaitLimit t) s =
    onDev (taskWaitLimit t) s := rfl
theorem exec_msSlotHoldExpiry (k : Nat) (s : State) : exec (.msSlotHoldExpiry k) s =
    onDev (msSlotHoldExpiry k) s := rfl
theorem exec_cellParityError (cell : Nat) (again : Bool) (s : State) : exec (.cellParityError cell again) s =
    onDev (cellParityError cell again) s := rfl
theorem exec_cacheUncorrectableError (region : Nat) (block : Nat) (s : State) : exec (.cacheUncorrectableError region block) s =
    onDev (cacheUncorrectableError region block) s := rfl
theorem exec_regionScrubDone (region : Nat) (corrected : Bool) (s : State) : exec (.regionScrubDone region corrected) s =
    onDev (regionScrubDone region corrected) s := rfl
theorem exec_regionAutoReloadDone (region : Nat) (verified : Bool) (bad : List Nat) (s : State) : exec (.regionAutoReloadDone region verified bad) s =
    onDev (regionAutoReloadDone region verified bad) s := rfl
theorem exec_chipFaultResetTimer (s : State) : exec (.chipFaultResetTimer) s =
    onDev chipFaultResetTimer s := rfl
theorem exec_timBeatOffsetWrite (p : Path) (v : Word) (s : State) : exec (.timBeatOffsetWrite p v) s =
    onDev (timBeatOffsetWrite v) s := rfl
theorem exec_dtLoad (s : State) : exec (.dtLoad) s =
    onDev dtLoad s := rfl
theorem exec_configureLoad (p : Path) (v : Word) (hw : HostWrites) (s : State) : exec (.configureLoad p v hw) s =
    onDevWith hw (fun s => (cfgCtrl s.hostMem s.dram (v &&& 0x0FFFFFFF ||| 0x10000000))) s := rfl
theorem exec_reloadRegion (p : Path) (v : Word) (hw : HostWrites) (s : State) : exec (.reloadRegion p v hw) s =
    onDevWith hw (fun s => (cfgCtrl s.hostMem s.dram (v &&& 0x0FFFFFFF ||| 0x20000000))) s := rfl
theorem exec_cancel (p : Path) (v : Word) (s : State) : exec (.cancel p v) s =
    onDev (cfgCtrl s.hostMem s.dram (v &&& 0x0FFFFFFF ||| 0x30000000)) s := rfl
theorem exec_checkOnly (p : Path) (v : Word) (hw : HostWrites) (s : State) : exec (.checkOnly p v hw) s =
    onDevWith hw (fun s => (cfgCtrl s.hostMem s.dram (v &&& 0x0FFFFFFF ||| 0x40000000))) s := rfl
theorem exec_loadRegion (seq : Nat) (v : Word) (addr : Nat) (len : Nat) (hw : HostWrites) (s : State) : exec (.loadRegion seq v addr len hw) s =
    onDevWith hw (fun s => (loadRegion s.hostMem s.dram seq v addr len)) s := rfl
theorem exec_reloadCheckDone (s : State) : exec (.reloadCheckDone) s =
    onDev reloadCheckDone s := rfl
theorem exec_reloadDrainDone (hw : HostWrites) (s : State) : exec (.reloadDrainDone hw) s =
    onDevWith hw (fun s => (reloadDrainDone (fun x => stagedBytes s.hostMem s.dram x.host x.addr x.len))) s := rfl
theorem exec_reloadDrainLimit (s : State) : exec (.reloadDrainLimit) s =
    onDev reloadDrainLimit s := rfl
theorem exec_portSteer (port : Nat) (s : State) : exec (.portSteer port) s =
    onDev (portSteer port) s := rfl
theorem exec_reloadWriteDone (s : State) : exec (.reloadWriteDone) s =
    onDev reloadWriteDone s := rfl
theorem exec_reloadVerifyDone (storedOk : Bool) (s : State) : exec (.reloadVerifyDone storedOk) s =
    onDev (reloadVerifyDone storedOk) s := rfl
theorem exec_reloadRejoinDone (bad : List Nat) (s : State) : exec (.reloadRejoinDone bad) s =
    onDev (reloadRejoinDone bad) s := rfl
theorem exec_trainDone (chans : List TrainChan) (s : State) : exec (.trainDone chans) s =
    onDev (trainDone chans) s := rfl
theorem exec_configureSectionsDone (s : State) : exec (.configureSectionsDone) s =
    onDev configureSectionsDone s := rfl
theorem exec_tskTabRead (p : Path) (v : Word) (s : State) : exec (.tskTabRead p v) s =
    onDev (tskTabRead v) s := rfl
theorem exec_tskTabWrite (p : Path) (v : Word) (s : State) : exec (.tskTabWrite p v) s =
    onDev (tskTabWrite v) s := rfl
theorem exec_tskAbort (p : Path) (v : Word) (s : State) : exec (.tskAbort p v) s =
    onDev (tskAbort v) s := rfl
theorem exec_abortResolved (s : State) : exec (.abortResolved) s =
    onDev abortResolved s := rfl
theorem exec_abortStopTimeout (s : State) : exec (.abortStopTimeout) s =
    onDev abortStopTimeout s := rfl
theorem exec_tskPost (p : Path) (v : Word) (s : State) : exec (.tskPost p v) s =
    onDev (tskPost p v) s := rfl
theorem exec_hwaitArm (p : Path) (n : Nat) (v : Word) (s : State) : exec (.hwaitArm p n v) s =
    onDev (hwaitArm n v) s := rfl
theorem exec_hwaitCancel (p : Path) (n : Nat) (v : Word) (s : State) : exec (.hwaitCancel p n v) s =
    onDev (hwaitCancel n (v ||| 0x40000000)) s := rfl
theorem exec_hwaitTimeout (n : Nat) (s : State) : exec (.hwaitTimeout n) s =
    onDev (hwaitTimeout n) s := rfl
theorem exec_stallTimeout (s : State) : exec (.stallTimeout) s =
    onDev stallTimeout s := rfl
theorem exec_completionRecordWrite (task : Nat) (s : State) : exec (.completionRecordWrite task) s =
    onDev (completionRecordWrite task) s := rfl
theorem exec_frameReceived (port : Nat) (bytes : List Byte) (ok : Bool) (s : State) : exec (.frameReceived port bytes ok) s =
    onDev (frameReceived port bytes ok) s := rfl
theorem exec_flowBucketFill (n : Nat) (b : Nat) (s : State) : exec (.flowBucketFill n b) s =
    onDev (flowBucketFill n b) s := rfl
theorem exec_passDecision (n : Nat) (id : Nat) (s : State) : exec (.passDecision n id) s =
    onDev (passDecision n id) s := rfl
theorem exec_recircSecondPass (n : Nat) (id : Nat) (s : State) : exec (.recircSecondPass n id) s =
    onDev (recircSecondPass n id) s := rfl
theorem exec_reorderRelease (plane : Nat) (port : Nat) (s : State) : exec (.reorderRelease plane port) s =
    onDev (reorderRelease plane port) s := rfl
theorem exec_flowAgeSweep (i : Nat) (s : State) : exec (.flowAgeSweep i) s =
    onDev (flowAgeSweep i) s := rfl
theorem exec_matTabRead (p : Path) (v : Word) (s : State) : exec (.matTabRead p v) s =
    onDev (matTabRead v) s := rfl
theorem exec_matTabWrite (p : Path) (v : Word) (s : State) : exec (.matTabWrite p v) s =
    onDev (matTabWrite v) s := rfl
theorem exec_matTabInsert (p : Path) (v : Word) (s : State) : exec (.matTabInsert p v) s =
    onDev (matTabInsert v) s := rfl
theorem exec_matTabDelete (p : Path) (v : Word) (s : State) : exec (.matTabDelete p v) s =
    onDev (matTabDelete v) s := rfl
theorem exec_matTabLookup (p : Path) (v : Word) (s : State) : exec (.matTabLookup p v) s =
    onDev (matTabLookup v) s := rfl
theorem exec_matTabCopyActive (p : Path) (v : Word) (s : State) : exec (.matTabCopyActive p v) s =
    onDev (matTabCopyActive v) s := rfl
theorem exec_matEpochCommit (p : Path) (v : Word) (s : State) : exec (.matEpochCommit p v) s =
    onDev (matEpochCommit (v ||| 0x80000000)) s := rfl
theorem exec_epochReclaimed (s : State) : exec (.epochReclaimed) s =
    onDev epochReclaimed s := rfl
theorem exec_metTabRead (p : Path) (v : Word) (s : State) : exec (.metTabRead p v) s =
    onDev (metTabRead v) s := rfl
theorem exec_metTabWrite (p : Path) (v : Word) (s : State) : exec (.metTabWrite p v) s =
    onDev (metTabWrite v) s := rfl
theorem exec_metTabReadClear (p : Path) (v : Word) (inc : Nat) (s : State) : exec (.metTabReadClear p v inc) s =
    onDev (metTabReadClear v inc) s := rfl
theorem exec_cipherPlaintextRelease (plane : Nat) (cell : Nat) (s : State) : exec (.cipherPlaintextRelease plane cell) s =
    onDev (cipherPlaintextRelease plane cell) s := rfl
theorem exec_cipherProgramEnd (plane : Nat) (cell : Nat) (s : State) : exec (.cipherProgramEnd plane cell) s =
    onDev (cipherProgramEnd plane cell) s := rfl
theorem exec_authTimeout (pkt : Nat) (s : State) : exec (.authTimeout pkt) s =
    onDev (authTimeout pkt) s := rfl
theorem exec_slotLoadDone (lane : Nat) (s : State) : exec (.slotLoadDone lane) s =
    onDev (slotLoadDone lane) s := rfl
theorem exec_keyWaitTimeout (plane : Nat) (pkt : Nat) (s : State) : exec (.keyWaitTimeout plane pkt) s =
    onDev (keyWaitTimeout plane pkt) s := rfl
theorem exec_importOpen (seq : Nat) (ct : List Byte) (sig : List Byte) (s : State) : exec (.importOpen seq ct sig) s =
    onDev (importOpen seq ct sig) s := rfl
theorem exec_importWrap (seq : Nat) (session : Nat) (recs : List (List Byte)) (s : State) : exec (.importWrap seq session recs) s =
    onDev (importWrap seq session recs) s := rfl
theorem exec_importClose (seq : Nat) (session : Nat) (s : State) : exec (.importClose seq session) s =
    onDev (importClose seq session) s := rfl
theorem exec_blobGet (seq : Nat) (first : Nat) (count : Nat) (s : State) : exec (.blobGet seq first count) s =
    onDev (blobGet seq first count) s := rfl
theorem exec_blobPut (seq : Nat) (first : Nat) (count : Nat) (blobs : List (List Byte)) (s : State) : exec (.blobPut seq first count blobs) s =
    onDev (blobPut seq first count blobs) s := rfl
theorem exec_importSessionExpiry (session : Nat) (s : State) : exec (.importSessionExpiry session) s =
    onDev (importSessionExpiry session) s := rfl
theorem exec_vaultAlarm (src : Nat) (s : State) : exec (.vaultAlarm src) s =
    onDev (vaultAlarm src) s := rfl
theorem exec_zeroizeErasureDone (s : State) : exec (.zeroizeErasureDone) s =
    onDev zeroizeErasureDone s := rfl
theorem exec_provision (seq : Nat) (s : State) : exec (.provision seq) s =
    onDev (provision seq) s := rfl
theorem exec_attest (seq : Nat) (nonce : List Byte) (s : State) : exec (.attest seq nonce) s =
    onDev (attest seq nonce) s := rfl
theorem exec_vltTabRead (p : Path) (v : Word) (s : State) : exec (.vltTabRead p v) s =
    onDev (vltTabRead v) s := rfl
theorem exec_vltTabWrite (p : Path) (v : Word) (s : State) : exec (.vltTabWrite p v) s =
    onDev (vltTabWrite v) s := rfl
theorem exec_queRead (p : Path) (v : Word) (s : State) : exec (.queRead p v) s =
    onDev (queRead v) s := rfl
theorem exec_queMark (p : Path) (v : Word) (s : State) : exec (.queMark p v) s =
    onDev (queMark v) s := rfl
theorem exec_queRewind (p : Path) (v : Word) (s : State) : exec (.queRewind p v) s =
    onDev (queRewind v) s := rfl
theorem exec_queSkip (p : Path) (v : Word) (s : State) : exec (.queSkip p v) s =
    onDev (queSkip v) s := rfl
theorem exec_queRelease (p : Path) (v : Word) (s : State) : exec (.queRelease p v) s =
    onDev (queRelease v) s := rfl
theorem exec_queFlush (p : Path) (v : Word) (s : State) : exec (.queFlush p v) s =
    onDev (queFlush v) s := rfl
theorem exec_queHeadRefillDone (s : State) : exec (.queHeadRefillDone) s =
    onDev queHeadRefillDone s := rfl
theorem exec_spillMoveDone (q : Nat) (s : State) : exec (.spillMoveDone q) s =
    onDev (spillMoveDone q) s := rfl
theorem exec_historyAge (s : State) : exec (.historyAge) s =
    onDev historyAge s := rfl
theorem exec_fcOutputChange (o : Nat) (s : State) : exec (.fcOutputChange o) s =
    onDev (fcOutputChange o) s := rfl
theorem exec_pauseRepeat (o : Nat) (s : State) : exec (.pauseRepeat o) s =
    onDev (pauseRepeat o) s := rfl
theorem exec_queTabRead (p : Path) (v : Word) (s : State) : exec (.queTabRead p v) s =
    onDev (queTabRead v) s := rfl
theorem exec_queTabWrite (p : Path) (v : Word) (s : State) : exec (.queTabWrite p v) s =
    onDev (queTabWrite v) s := rfl
theorem exec_keyreqWaitExpiry (sub : Nat) (s : State) : exec (.keyreqWaitExpiry sub) s =
    onDev (keyreqWaitExpiry sub) s := rfl
theorem exec_keyreqGapExpiry (brood : Nat) (s : State) : exec (.keyreqGapExpiry brood) s =
    onDev (keyreqGapExpiry brood) s := rfl
theorem exec_upstreamNack (b : Nat) (strm : Nat) (seqn : Nat) (s : State) : exec (.upstreamNack b strm seqn) s =
    onDev (upstreamNack b strm seqn) s := rfl
theorem exec_srGenerate (sub : Nat) (s : State) : exec (.srGenerate sub) s =
    onDev (srGenerate sub) s := rfl
theorem exec_twccFeedbackGenerate (leg : Nat) (s : State) : exec (.twccFeedbackGenerate leg) s =
    onDev (twccFeedbackGenerate leg) s := rfl
theorem exec_legFeedbackTimeout (leg : Nat) (s : State) : exec (.legFeedbackTimeout leg) s =
    onDev (legFeedbackTimeout leg) s := rfl
theorem exec_feedbackLostHalve (leg : Nat) (s : State) : exec (.feedbackLostHalve leg) s =
    onDev (feedbackLostHalve leg) s := rfl
theorem exec_fwdTabRead (p : Path) (v : Word) (s : State) : exec (.fwdTabRead p v) s =
    onDev (fwdTabRead v) s := rfl
theorem exec_fwdTabWrite (p : Path) (v : Word) (s : State) : exec (.fwdTabWrite p v) s =
    onDev (fwdTabWrite v) s := rfl
theorem exec_legTabRead (p : Path) (v : Word) (s : State) : exec (.legTabRead p v) s =
    onDev (legTabRead v) s := rfl
theorem exec_legTabWrite (p : Path) (v : Word) (s : State) : exec (.legTabWrite p v) s =
    onDev (legTabWrite v) s := rfl
theorem exec_auWaitExpiry (ent : Nat) (s : State) : exec (.auWaitExpiry ent) s =
    onDev (auWaitExpiry ent) s := rfl
theorem exec_decFenceHit (cell : Nat) (s : State) : exec (.decFenceHit cell) s =
    onDev (fun d => d.decFence cell) s := rfl
theorem exec_fillEngineDone (task : Nat) (s : State) : exec (.fillEngineDone task) s =
    onDev (fillEngineDone task) s := rfl
theorem exec_vdcTabRead (p : Path) (v : Word) (s : State) : exec (.vdcTabRead p v) s =
    onDev (vdcTabRead v) s := rfl
theorem exec_vdcTabWrite (p : Path) (v : Word) (s : State) : exec (.vdcTabWrite p v) s =
    onDev (vdcTabWrite v) s := rfl
theorem exec_cmpTabRead (p : Path) (v : Word) (s : State) : exec (.cmpTabRead p v) s =
    onDev (cmpTabRead v) s := rfl
theorem exec_cmpTabWrite (p : Path) (v : Word) (s : State) : exec (.cmpTabWrite p v) s =
    onDev (cmpTabWrite v) s := rfl
theorem exec_encFenceHit (cell : Nat) (s : State) : exec (.encFenceHit cell) s =
    onDev (fun d => d.encFence cell) s := rfl
theorem exec_venTabRead (p : Path) (v : Word) (s : State) : exec (.venTabRead p v) s =
    onDev (venTabRead v) s := rfl
theorem exec_venTabWrite (p : Path) (v : Word) (s : State) : exec (.venTabWrite p v) s =
    onDev (venTabWrite v) s := rfl
theorem exec_audTabRead (p : Path) (v : Word) (s : State) : exec (.audTabRead p v) s =
    onDev (audTabRead v) s := rfl
theorem exec_audTabWrite (p : Path) (v : Word) (s : State) : exec (.audTabWrite p v) s =
    onDev (audTabWrite v) s := rfl
theorem exec_fltTabRead (p : Path) (v : Word) (s : State) : exec (.fltTabRead p v) s =
    onDev (fltTabRead v) s := rfl
theorem exec_fltTabWrite (p : Path) (v : Word) (s : State) : exec (.fltTabWrite p v) s =
    onDev (fltTabWrite v) s := rfl
theorem exec_timCapture (p : Path) (v : Word) (s : State) : exec (.timCapture p v) s =
    onDev (timCtrlWrite (v ||| 0x80000000)) s := rfl
theorem exec_timSwitch (p : Path) (v : Word) (s : State) : exec (.timSwitch p v) s =
    onDev (timCtrlWrite (v ||| 0x40000000)) s := rfl
theorem exec_timDomSample (k : Nat) (src : SampleSrc) (theta : Int) (s : State) : exec (.timDomSample k src theta) s =
    onDev (timDomSample k src theta) s := rfl
theorem exec_ppsInEdge (s : State) : exec (.ppsInEdge) s =
    onDev ppsInEdge s := rfl
theorem exec_ppsOutEdge (s : State) : exec (.ppsOutEdge) s =
    onDev ppsOutEdge s := rfl
theorem exec_syntonSecond (k : Nat) (err : Int) (s : State) : exec (.syntonSecond k err) s =
    onDev (syntonSecond k err) s := rfl
theorem exec_clockHoldoverTimeout (k : Nat) (s : State) : exec (.clockHoldoverTimeout k) s =
    onDev (clockHoldoverTimeout k) s := rfl
theorem exec_timAcceptJump (p : Path) (k : Nat) (v : Word) (s : State) : exec (.timAcceptJump p k v) s =
    onDev (timAcceptJump k (v ||| 0x80000000)) s := rfl
theorem exec_timRestart (p : Path) (k : Nat) (v : Word) (s : State) : exec (.timRestart p k v) s =
    onDev (timRestart k (v ||| 0x40000000)) s := rfl
theorem exec_launchTimeReached (port : Nat) (cls : Nat) (s : State) : exec (.launchTimeReached port cls) s =
    onDev (launchTimeReached port cls) s := rfl
theorem exec_gateCommit (q : Path) (p : Nat) (v : Word) (s : State) : exec (.gateCommit q p v) s =
    onDev (gateCommit p (v ||| 0x40000000)) s := rfl
theorem exec_gateCancel (q : Path) (p : Nat) (v : Word) (s : State) : exec (.gateCancel q p v) s =
    onDev (gateCancel p (v ||| 0x20000000)) s := rfl
theorem exec_gateListStart (p : Nat) (s : State) : exec (.gateListStart p) s =
    onDev (gateListStart p) s := rfl
theorem exec_gateEntryChange (p : Nat) (s : State) : exec (.gateEntryChange p) s =
    onDev (gateEntryChange p) s := rfl
theorem exec_gatTabRead (p : Path) (v : Word) (s : State) : exec (.gatTabRead p v) s =
    onDev (gatTabRead v) s := rfl
theorem exec_gatTabWrite (p : Path) (v : Word) (s : State) : exec (.gatTabWrite p v) s =
    onDev (gatTabWrite v) s := rfl
theorem exec_egressSelect (port : Nat) (s : State) : exec (.egressSelect port) s =
    onDev (egressSelect port) s := rfl
theorem exec_runIntervalStart (s : State) : exec (.runIntervalStart) s =
    onDev runIntervalStart s := rfl
theorem exec_frameTxStart (port : Nat) (cls : Nat) (s : State) : exec (.frameTxStart port cls) s =
    onDev (frameTxStart port cls) s := rfl
theorem exec_pauseReceived (port : Nat) (quanta : Nat) (s : State) : exec (.pauseReceived port quanta) s =
    onDev (pauseReceived port quanta) s := rfl
theorem exec_pfcReceived (port : Nat) (vec : Nat) (quanta : List Nat) (s : State) : exec (.pfcReceived port vec quanta) s =
    onDev (pfcReceived port vec quanta) s := rfl
theorem exec_pauseHoldExpiry (port : Nat) (cls : Nat) (s : State) : exec (.pauseHoldExpiry port cls) s =
    onDev (pauseHoldExpiry port cls) s := rfl
theorem exec_egressPauseHeld (port : Nat) (cls : Nat) (s : State) : exec (.egressPauseHeld port cls) s =
    onDev (egressPauseHeld port cls) s := rfl
theorem exec_egressMoveDone (leg : Nat) (s : State) : exec (.egressMoveDone leg) s =
    onDev (egressMoveDone leg) s := rfl
theorem exec_egsTabRead (p : Path) (v : Word) (s : State) : exec (.egsTabRead p v) s =
    onDev (egsTabRead v) s := rfl
theorem exec_egsTabWrite (p : Path) (v : Word) (s : State) : exec (.egsTabWrite p v) s =
    onDev (egsTabWrite v) s := rfl
theorem exec_scrubRead (k : Nat) (a : Nat) (ecc : Ecc) (s : State) : exec (.scrubRead k a ecc) s =
    onDev (scrubRead k a ecc) s := rfl
theorem exec_refresh (k : Nat) (s : State) : exec (.refresh k) s =
    onDev (refresh k) s := rfl
theorem exec_retrainPass (k : Nat) (rd : List Nat) (wr : List Nat) (s : State) : exec (.retrainPass k rd wr) s =
    onDev (retrainPass k rd wr) s := rfl
theorem exec_retrainRetry (ch : Nat) (oks : List Nat) (s : State) : exec (.retrainRetry ch oks) s =
    onDev (retrainRetry ch oks) s := rfl
theorem exec_memFspWrite (p : Path) (v : Word) (s : State) : exec (.memFspWrite p v) s =
    onDev (memFspWrite v) s := rfl
theorem exec_fspChangeDone (s : State) : exec (.fspChangeDone) s =
    onDev fspChangeDone s := rfl
theorem exec_memMigrate (p : Path) (v : Word) (s : State) : exec (.memMigrate p v) s =
    onDev (memMigrate v) s := rfl
theorem exec_migrationDone (s : State) : exec (.migrationDone) s =
    onDev migrationDone s := rfl
theorem exec_restoreDone (s : State) : exec (.restoreDone) s =
    onDev restoreDone s := rfl
theorem exec_memRetest (p : Path) (v : Word) (s : State) : exec (.memRetest p v) s =
    onDev (memRetest v) s := rfl
theorem exec_retestDone (k : Nat) (m0 : Nat) (m1 : Nat) (s : State) : exec (.retestDone k m0 m1) s =
    onDev (retestDone k m0 m1) s := rfl
theorem exec_memRetrain (p : Path) (v : Word) (s : State) : exec (.memRetrain p v) s =
    onDev (memRetrain v) s := rfl
theorem exec_cascadeJoin (p : Path) (v : Word) (s : State) : exec (.cascadeJoin p v) s =
    onDev (mulCtrl (v ||| 0x80000000)) s := rfl
theorem exec_cascadeLeave (p : Path) (v : Word) (s : State) : exec (.cascadeLeave p v) s =
    onDev (mulCtrl (v ||| 0x40000000)) s := rfl
theorem exec_handover (p : Path) (v : Word) (s : State) : exec (.handover p v) s =
    onDev (mulCtrl (v ||| 0x20000000)) s := rfl
theorem exec_joinHelloDone (hello : Hello) (s : State) : exec (.joinHelloDone hello) s =
    onDev (joinHelloDone hello) s := rfl
theorem exec_joinTimeLocked (s : State) : exec (.joinTimeLocked) s =
    onDev joinTimeLocked s := rfl
theorem exec_joinAlign (s : State) : exec (.joinAlign) s =
    onDev joinAlign s := rfl
theorem exec_joinDirectoryDone (ents : List DirEnt) (s : State) : exec (.joinDirectoryDone ents) s =
    onDev (joinDirectoryDone ents) s := rfl
theorem exec_joinStepTimeout (s : State) : exec (.joinStepTimeout) s =
    onDev joinStepTimeout s := rfl
theorem exec_muleMedia (link : Nat) (f : MuleFrame) (s : State) : exec (.muleMedia link f) s =
    onDev (muleMediaIn link f) s := rfl
theorem exec_mulePartial (link : Nat) (f : MuleFrame) (s : State) : exec (.mulePartial link f) s =
    onDev (mulePartialIn link f) s := rfl
theorem exec_muleTalkers (link : Nat) (f : MuleFrame) (s : State) : exec (.muleTalkers link f) s =
    onDev (muleTalkersIn link f) s := rfl
theorem exec_muleDemand (link : Nat) (f : MuleFrame) (s : State) : exec (.muleDemand link f) s =
    onDev (muleDemandIn link f) s := rfl
theorem exec_muleTime (link : Nat) (f : MuleFrame) (s : State) : exec (.muleTime link f) s =
    onDev (muleTimeIn link f) s := rfl
theorem exec_muleHeartbeat (link : Nat) (f : MuleFrame) (s : State) : exec (.muleHeartbeat link f) s =
    onDev (muleHeartbeatIn link f) s := rfl
theorem exec_muleDirectory (link : Nat) (f : MuleFrame) (s : State) : exec (.muleDirectory link f) s =
    onDev (muleDirectoryIn link f) s := rfl
theorem exec_muleCredit (link : Nat) (f : MuleFrame) (s : State) : exec (.muleCredit link f) s =
    onDev (muleCreditIn link f) s := rfl
theorem exec_muleTunNak (link : Nat) (f : MuleFrame) (s : State) : exec (.muleTunNak link f) s =
    onDev (muleTunNakIn link f) s := rfl
theorem exec_tunNakRetry (link : Nat) (seqn : Nat) (s : State) : exec (.tunNakRetry link seqn) s =
    onDev (tunNakRetry link seqn) s := rfl
theorem exec_muleTimeExchange (s : State) : exec (.muleTimeExchange) s =
    onDev muleTimeExchange s := rfl
theorem exec_heartbeatTimeout (seen : List Nat) (s : State) : exec (.heartbeatTimeout seen) s =
    onDev (heartbeatTimeout seen) s := rfl
theorem exec_mulTabRead (p : Path) (v : Word) (s : State) : exec (.mulTabRead p v) s =
    onDev (mulTabRead v) s := rfl
theorem exec_mulTabWrite (p : Path) (v : Word) (s : State) : exec (.mulTabWrite p v) s =
    onDev (mulTabWrite v) s := rfl
theorem exec_standbyAckTimeout (idx : Nat) (s : State) : exec (.standbyAckTimeout idx) s =
    onDev (standbyAckTimeout idx) s := rfl
theorem exec_directoryApply (idx : Nat) (s : State) : exec (.directoryApply idx) s =
    onDev (directoryApply idx) s := rfl
theorem exec_muleLaneLoss (link : Nat) (s : State) : exec (.muleLaneLoss link) s =
    onDev (muleLaneLoss link) s := rfl
theorem exec_muleLinkDown (link : Nat) (s : State) : exec (.muleLinkDown link) s =
    onDev (muleLinkDown link) s := rfl
theorem exec_topModeReq (p : Path) (v : Word) (s : State) : exec (.topModeReq p v) s =
    onDev (topModeReq v) s := rfl
theorem exec_modeSet (seq : Nat) (target : Nat) (freeRun : Bool) (s : State) : exec (.modeSet seq target freeRun) s =
    onDev (modeSet seq target freeRun) s := rfl
theorem exec_modeTransition (s : State) : exec (.modeTransition) s =
    onDev modeTransition s := rfl
theorem exec_resetNAssert (lowNs : Nat) (s : State) : exec (.resetNAssert lowNs) s =
    onDev (resetNAssert lowNs) s := rfl
theorem exec_resetRelease (cascId : Nat) (pri : Nat) (s : State) : exec (.resetRelease cascId pri) s =
    onDev (resetRelease cascId pri) s := rfl
theorem exec_bootFwVerified (aOk : Bool) (bOk : Bool) (s : State) : exec (.bootFwVerified aOk bOk) s =
    onDev (bootFwVerified aOk bOk) s := rfl
theorem exec_shedStageEnter (rails : List Nat) (s : State) : exec (.shedStageEnter rails) s =
    onDev (shedStageEnter rails) s := rfl
theorem exec_shedStageLift (rails : List Nat) (bad : List Nat) (s : State) : exec (.shedStageLift rails bad) s =
    onDev (shedStageLift rails bad) s := rfl
theorem exec_sagPinChange (lvl : Nat) (s : State) : exec (.sagPinChange lvl) s =
    onDev (sagPinChange lvl) s := rfl
theorem exec_brownOut (rail : Nat) (s : State) : exec (.brownOut rail) s =
    onDev (brownOut rail) s := rfl
theorem exec_thermThrottle (temps : List Int) (s : State) : exec (.thermThrottle temps) s =
    onDev (fun d => d.thermSample temps) s := rfl
theorem exec_thermEmergency (temps : List Int) (s : State) : exec (.thermEmergency temps) s =
    onDev (fun d => d.thermSample temps) s := rfl
theorem exec_thermTrip (temps : List Int) (s : State) : exec (.thermTrip temps) s =
    onDev (fun d => d.thermSample temps) s := rfl
theorem exec_sprintRequest (p : Path) (v : Word) (s : State) : exec (.sprintRequest p v) s =
    onDev (sprintCtrl (v ||| 0x80000000)) s := rfl
theorem exec_sprintReq (seq : Nat) (op : Nat) (s : State) : exec (.sprintReq seq op) s =
    onDev (sprintReq seq op) s := rfl
theorem exec_sprintEnter (s : State) : exec (.sprintEnter) s =
    onDev sprintEnter s := rfl
theorem exec_sprintEndRequest (p : Path) (v : Word) (s : State) : exec (.sprintEndRequest p v) s =
    onDev (sprintCtrl (v ||| 0x40000000)) s := rfl
theorem exec_sprintAutoEnd (s : State) : exec (.sprintAutoEnd) s =
    onDev sprintAutoEnd s := rfl
theorem exec_lmPresentFall (m : Nat) (s : State) : exec (.lmPresentFall m) s =
    onDev (lmPresentFall m) s := rfl
theorem exec_lmInsertDelay (m : Nat) (id : ModuleId) (s : State) : exec (.lmInsertDelay m id) s =
    onDev (lmInsertDelay m id) s := rfl
theorem exec_lmPresentRise (m : Nat) (s : State) : exec (.lmPresentRise m) s =
    onDev (lmPresentRise m) s := rfl
theorem exec_lmInt (mons : List ModuleMon) (s : State) : exec (.lmInt mons) s =
    onDev (lmInt mons) s := rfl
theorem exec_lmPoll (m : Nat) (mon : ModuleMon) (s : State) : exec (.lmPoll m mon) s =
    onDev (lmPoll m mon) s := rfl
theorem exec_wearRecordUpdate (m : Nat) (hour : WearHour) (s : State) : exec (.wearRecordUpdate m hour) s =
    onDev (wearRecordUpdate m hour) s := rfl
theorem exec_lmdDrain (p : Path) (m : Nat) (v : Word) (s : State) : exec (.lmdDrain p m v) s =
    onDev (lmdDrain m v) s := rfl
theorem exec_lmdModReset (p : Path) (m : Nat) (v : Word) (s : State) : exec (.lmdModReset p m v) s =
    onDev (lmdModReset m v) s := rfl
theorem exec_lmdTabRead (p : Path) (v : Word) (s : State) : exec (.lmdTabRead p v) s =
    onDev (lmdTabRead v) s := rfl
theorem exec_lmRead (seq : Nat) (m : Nat) (_bank : Nat) (_page : Nat) (_ofs : Nat) (len : Nat) (data : List Byte) (s : State) : exec (.lmRead seq m _bank _page _ofs len data) s =
    onDev (lmRead seq m len data) s := rfl
theorem exec_lmBusStuck (bus : Nat) (s : State) : exec (.lmBusStuck bus) s =
    onDev (lmBusStuck bus) s := rfl
theorem exec_functionLevelReset (s : State) : exec (.functionLevelReset) s =
    onDev functionLevelReset s := rfl
theorem exec_pcieLinkDown (s : State) : exec (.pcieLinkDown) s =
    onDev pcieLinkDown s := rfl
theorem exec_bar2Read (ofs : Nat) (len : Nat) (s : State) : exec (.bar2Read ofs len) s =
    onDev (bar2Read s.dram ofs len) s := rfl
theorem exec_bar2Write (ofs : Nat) (data : List Byte) (s : State) : exec (.bar2Write ofs data) s =
    onDev (bar2Write ofs data) s := rfl
theorem exec_puntRingDoorbell (ring : Nat) (tail : Nat) (hw : HostWrites) (s : State) : exec (.puntRingDoorbell ring tail hw) s =
    onDevWith hw (fun _ => (fun d => d.when (decide (ring < 16)) (ringDoorbell ring tail))) s := rfl
theorem exec_injectRingDoorbell (ring : Nat) (tail : Nat) (hw : HostWrites) (s : State) : exec (.injectRingDoorbell ring tail hw) s =
    onDevWith hw (fun _ => (fun d => d.when (decide (ring < 16)) (ringDoorbell (16 + ring) tail))) s := rfl
theorem exec_puntDeliver (ring : Nat) (s : State) : exec (.puntDeliver ring) s =
    onDev (puntDeliver s.hostMem ring) s := rfl
theorem exec_injectRawPort (ring : Nat) (s : State) : exec (.injectRawPort ring) s =
    onDev (injectItem s.hostMem 1 ring) s := rfl
theorem exec_injectLegCtrl (ring : Nat) (s : State) : exec (.injectLegCtrl ring) s =
    onDev (injectItem s.hostMem 2 ring) s := rfl
theorem exec_injectReparse (ring : Nat) (s : State) : exec (.injectReparse ring) s =
    onDev (injectItem s.hostMem 3 ring) s := rfl
theorem exec_ringCoalTimer (ring : Nat) (s : State) : exec (.ringCoalTimer ring) s =
    onDev (ringCoalTimer ring) s := rfl
theorem exec_getInfo (seq : Nat) (s : State) : exec (.getInfo seq) s =
    onDev (getInfo seq) s := rfl
theorem exec_eventLog (seq : Nat) (first : Nat) (count : Nat) (s : State) : exec (.eventLog seq first count) s =
    onDev (eventLog seq first count) s := rfl
theorem exec_fwWrite (seq : Nat) (copy : Nat) (ofs : Nat) (data : List Byte) (last : Bool) (s : State) : exec (.fwWrite seq copy ofs data last) s =
    onDev (fwWrite seq copy ofs data last) s := rfl
theorem exec_fwSwitch (seq : Nat) (s : State) : exec (.fwSwitch seq) s =
    onDev (fwSwitch seq) s := rfl
theorem exec_mcRestart (s : State) : exec (.mcRestart) s =
    onDev mcRestart s := rfl
theorem exec_rollbackSet (seq : Nat) (floor : Nat) (s : State) : exec (.rollbackSet seq floor) s =
    onDev (rollbackSet seq floor) s := rfl
theorem exec_portRead (seq : Nat) (port : Nat) (s : State) : exec (.portRead seq port) s =
    onDev (portRead seq port) s := rfl
theorem exec_policySet (seq : Nat) (req : List Byte) (s : State) : exec (.policySet seq req) s =
    onDev (policySet seq req) s := rfl
theorem exec_evtStatWrite (p : Path) (w : Nat) (v : Word) (sets : Word) (s : State) : exec (.evtStatWrite p w v sets) s =
    onDev (evtStatWrite w v sets) s := rfl
theorem exec_msixUnmask (v : Nat) (s : State) : exec (.msixUnmask v) s =
    onDev (msixUnmask v) s := rfl
theorem exec_tapFrameTx (lane : Nat) (s : State) : exec (.tapFrameTx lane) s =
    onDev (tapFrameTx lane) s := rfl
theorem exec_tapHoldAssert (s : State) : exec (.tapHoldAssert) s =
    onDev tapHoldAssert s := rfl
theorem exec_tapHoldRelease (s : State) : exec (.tapHoldRelease) s =
    onDev tapHoldRelease s := rfl
theorem exec_tapHoldLong (s : State) : exec (.tapHoldLong) s =
    onDev tapHoldLong s := rfl
theorem exec_tapLaneDown (lane : Nat) (s : State) : exec (.tapLaneDown lane) s =
    onDev (tapLaneDown lane) s := rfl
theorem exec_tapLaneUp (lane : Nat) (s : State) : exec (.tapLaneUp lane) s =
    onDev (tapLaneUp lane) s := rfl
theorem exec_tapInputFrame (lane : Nat) (bytes : List Byte) (s : State) : exec (.tapInputFrame lane bytes) s =
    onDev (tapInputFrame lane bytes) s := rfl
theorem exec_tapSegWaitExpiry (lane : Nat) (s : State) : exec (.tapSegWaitExpiry lane) s =
    onDev (tapSegWaitExpiry lane) s := rfl
theorem exec_tapTabRead (p : Path) (v : Word) (s : State) : exec (.tapTabRead p v) s =
    onDev (tapTabRead v) s := rfl
theorem exec_tapTabWrite (p : Path) (v : Word) (s : State) : exec (.tapTabWrite p v) s =
    onDev (tapTabWrite v) s := rfl
theorem exec_sysRefclkLost (s : State) : exec (.sysRefclkLost) s =
    onDev sysRefclkLost s := rfl
theorem exec_refclkReturn (s : State) : exec (.refclkReturn) s =
    onDev refclkReturn s := rfl
theorem exec_referenceClockLost (ref : RefClk) (s : State) : exec (.referenceClockLost ref) s =
    onDev (referenceClockLost ref) s := rfl
theorem exec_portLinkDown (port : Nat) (s : State) : exec (.portLinkDown port) s =
    onDev (portLinkDown port) s := rfl
theorem exec_railsGood (s : State) : exec (.railsGood) s =
    onDev railsGood s := rfl
theorem exec_auxPowerOn (s : State) : exec (.auxPowerOn) s =
    onDev auxPowerOn s := rfl
theorem exec_runRequest (leg : Nat) (s : State) : exec (.runRequest leg) s =
    onDev (runRequest leg) s := rfl
theorem exec_muleLinkUp (link : Nat) (s : State) : exec (.muleLinkUp link) s =
    onDev (muleLinkUp link) s := rfl
theorem exec_portLinkUp (port : Nat) (s : State) : exec (.portLinkUp port) s =
    onDev (portLinkUp port) s := rfl
theorem exec_pcieLinkUp (s : State) : exec (.pcieLinkUp) s =
    onDev pcieLinkUp s := rfl
theorem exec_mailboxCommandTimeout (s : State) : exec (.mailboxCommandTimeout) s =
    onDev mailboxCommandTimeout s := rfl
theorem exec_pcieUncorrectableError (s : State) : exec (.pcieUncorrectableError) s =
    onDev (fun d => d.when (d.mode != .reset) (fun d => d.raise Src.PCIE_ERROR)) s := rfl

end Sys2Proof.Machine
end

