-- ==== Sys2Proof/Laws/Bits.lean ====
section
/-! SUPPORT. Reading a bit field after writing one. -/

namespace Sys2Proof.Machine
open Sys2Proof

theorem bits_testBit (w : Word) (hi lo j : Nat) :
    (bits w hi lo).testBit j = (decide (j < hi + 1 - lo) && w.toNat.testBit (lo + j)) := by
  unfold bits
  rw [Nat.testBit_mod_two_pow, Nat.testBit_div_two_pow, Nat.add_comm j lo]

theorem bit_eq_testBit (w : Word) (i : Nat) : bit w i = w.toNat.testBit i := by
  unfold bit
  rw [Nat.testBit_eq_decide_div_mod_eq]
  rfl

theorem setBits_testBit (w : Word) (hi lo v j : Nat) (h1 : lo ≤ hi) (h2 : hi < 32) :
    (setBits w hi lo v).toNat.testBit j =
      if lo ≤ j ∧ j ≤ hi then v.testBit (j - lo) else w.toNat.testBit j := by
  have hW := w.isLt
  have hb : bits w hi lo = w.toNat / 2 ^ lo % 2 ^ (hi + 1 - lo) := rfl
  have hd : w.toNat = 2 ^ lo * (2 ^ (hi + 1 - lo) * (w.toNat / 2 ^ (hi + 1)) + bits w hi lo) + w.toNat % 2 ^ lo := by
    have e1 := Nat.div_add_mod w.toNat (2 ^ lo)
    have e2 := Nat.div_add_mod (w.toNat / 2 ^ lo) (2 ^ (hi + 1 - lo))
    rw [Nat.div_div_eq_div_mul, ← Nat.pow_add, show lo + (hi + 1 - lo) = hi + 1 by omega] at e2
    rw [hb, e2, e1]
  have hn : setBits w hi lo v = BitVec.ofNat 32
      (2 ^ lo * (2 ^ (hi + 1 - lo) * (w.toNat / 2 ^ (hi + 1)) + v % 2 ^ (hi + 1 - lo)) + w.toNat % 2 ^ lo) := by
    unfold setBits
    congr 1
    have hle : bits w hi lo * 2 ^ lo ≤ w.toNat := by
      rw [hb]
      exact Nat.le_trans (Nat.mul_le_mul_right _ (Nat.mod_le ..)) (Nat.div_mul_le_self ..)
    have e := hd
    rw [Nat.mul_add] at e ⊢
    rw [Nat.mul_comm (bits w hi lo), Nat.mul_comm (v % _) (2 ^ lo)]
    rw [Nat.mul_comm (bits w hi lo)] at hle
    omega
  have hlt : 2 ^ lo * (2 ^ (hi + 1 - lo) * (w.toNat / 2 ^ (hi + 1)) + v % 2 ^ (hi + 1 - lo)) + w.toNat % 2 ^ lo < 2 ^ 32 := by
    have hq : w.toNat / 2 ^ (hi + 1) < 2 ^ (31 - hi) := by
      rw [Nat.div_lt_iff_lt_mul (Nat.two_pow_pos _), ← Nat.pow_add, show 31 - hi + (hi + 1) = 32 by omega]
      exact hW
    have hv : v % 2 ^ (hi + 1 - lo) < 2 ^ (hi + 1 - lo) := Nat.mod_lt _ (Nat.two_pow_pos _)
    have hr : w.toNat % 2 ^ lo < 2 ^ lo := Nat.mod_lt _ (Nat.two_pow_pos _)
    have s1 : 2 ^ (hi + 1 - lo) * (w.toNat / 2 ^ (hi + 1)) + v % 2 ^ (hi + 1 - lo) < 2 ^ (hi + 1 - lo) * 2 ^ (31 - hi) := by
      calc _ < 2 ^ (hi + 1 - lo) * (w.toNat / 2 ^ (hi + 1)) + 2 ^ (hi + 1 - lo) := by omega
        _ = 2 ^ (hi + 1 - lo) * (w.toNat / 2 ^ (hi + 1) + 1) := by rw [Nat.mul_add, Nat.mul_one]
        _ ≤ _ := Nat.mul_le_mul_left _ hq
    calc _ < 2 ^ lo * (2 ^ (hi + 1 - lo) * (w.toNat / 2 ^ (hi + 1)) + v % 2 ^ (hi + 1 - lo)) + 2 ^ lo := by omega
      _ = 2 ^ lo * (2 ^ (hi + 1 - lo) * (w.toNat / 2 ^ (hi + 1)) + v % 2 ^ (hi + 1 - lo) + 1) := by rw [Nat.mul_add _ _ 1, Nat.mul_one]
      _ ≤ 2 ^ lo * (2 ^ (hi + 1 - lo) * 2 ^ (31 - hi)) := Nat.mul_le_mul_left _ s1
      _ = 2 ^ 32 := by rw [← Nat.pow_add, ← Nat.pow_add, show lo + (hi + 1 - lo + (31 - hi)) = 32 by omega]
  rw [hn, BitVec.toNat_ofNat, Nat.mod_eq_of_lt hlt,
    Nat.testBit_two_pow_mul_add _ (Nat.mod_lt _ (Nat.two_pow_pos _))]
  split
  · rename_i hj
    rw [if_neg (by omega), Nat.testBit_mod_two_pow, decide_eq_true hj, Bool.true_and]
  · rename_i hj
    rw [Nat.testBit_two_pow_mul_add _ (Nat.mod_lt _ (Nat.two_pow_pos _))]
    split
    · rw [if_pos (by omega), Nat.testBit_mod_two_pow, decide_eq_true (by omega), Bool.true_and]
    · rw [if_neg (by omega), Nat.testBit_div_two_pow]
      congr 1
      omega

/-- The field written reads what was written into it. -/
theorem bits_setBits (w : Word) (hi lo v : Nat) (h1 : lo ≤ hi) (h2 : hi < 32) :
    bits (setBits w hi lo v) hi lo = v % 2 ^ (hi + 1 - lo) := by
  apply Nat.eq_of_testBit_eq
  intro j
  rw [bits_testBit, setBits_testBit w hi lo v _ h1 h2, Nat.testBit_mod_two_pow]
  by_cases hj : j < hi + 1 - lo
  · rw [decide_eq_true hj, if_pos (by omega), Nat.add_sub_cancel_left]
  · rw [decide_eq_false hj, Bool.false_and, Bool.false_and]

/-- A field that shares no bit with the one written reads as before. -/
theorem bits_setBits_ne (w : Word) (hi lo v hi' lo' : Nat) (h1 : lo ≤ hi) (h2 : hi < 32) (h : hi' < lo ∨ hi < lo') :
    bits (setBits w hi lo v) hi' lo' = bits w hi' lo' := by
  apply Nat.eq_of_testBit_eq
  intro j
  rw [bits_testBit, bits_testBit, setBits_testBit w hi lo v _ h1 h2]
  by_cases hj : j < hi' + 1 - lo'
  · rw [if_neg (by omega)]
  · rw [decide_eq_false hj, Bool.false_and, Bool.false_and]

theorem bit_setBits_ne (w : Word) (hi lo v b : Nat) (h1 : lo ≤ hi) (h2 : hi < 32) (h : ¬(lo ≤ b ∧ b ≤ hi)) :
    bit (setBits w hi lo v) b = bit w b := by
  rw [bit_eq_testBit, bit_eq_testBit, setBits_testBit w hi lo v b h1 h2, if_neg h]

theorem bit_setBits (w : Word) (i : Nat) (b : Bool) (h : i < 32) : bit (setBits w i i b.toNat) i = b := by
  rw [bit_eq_testBit, setBits_testBit w i i _ i (Nat.le_refl i) h, if_pos ⟨Nat.le_refl i, Nat.le_refl i⟩, Nat.sub_self]
  cases b <;> rfl

@[simp] theorem Dev.flag_setFlag_self (d : Dev) (o i : Nat) (b : Bool) (h : i < 32) : (d.setFlag o i b).flag o i = b := by
  unfold Dev.flag Dev.setFlag Dev.setFld
  rw [Dev.reg_setReg_self]
  exact bit_setBits _ i b h

theorem Dev.fld_setFld_self (d : Dev) (o hi lo v : Nat) (h1 : lo ≤ hi) (h2 : hi < 32) :
    (d.setFld o hi lo v).fld o hi lo = v % 2 ^ (hi + 1 - lo) := by
  unfold Dev.fld Dev.setFld
  rw [Dev.reg_setReg_self]
  exact bits_setBits _ hi lo v h1 h2

end Sys2Proof.Machine
end

