-- ==== Sys2Proof/Laws/Registers.lean ====
section
/-! SUPPORT. The register map is well made (fields within the word, none overlapping), and what a plain write leaves in each field. -/

namespace Sys2Proof.Machine
open Sys2Proof

/-- Fields lie within the word and share no bit. -/
def fieldsOk : List RegField → Bool
  | [] => true
  | f :: fs => decide (f.lo ≤ f.hi) && decide (f.hi < 32) && fs.all (fun g => decide (g.hi < f.lo) || decide (f.hi < g.lo)) && fieldsOk fs

theorem regBlock_ok (b : Nat) : (regBlock b).all (fun r => fieldsOk r.fields) = true := by
  unfold regBlock
  split <;> decide

theorem regDesc_ok {off : Nat} {r : RegDesc} (h : regDesc off = some r) : fieldsOk r.fields = true :=
  List.all_eq_true.1 (regBlock_ok (off / 0x100000)) r (List.mem_of_find?_eq_some h)

theorem fieldWrite_lt (f : RegField) {n old v : Nat} (h1 : old < 2 ^ n) (h2 : v < 2 ^ n) : fieldWrite f old v < 2 ^ n := by
  unfold fieldWrite
  split
  · split <;> assumption
  · exact Nat.lt_of_le_of_lt (Nat.sub_le ..) h1
  · exact Nat.or_lt_two_pow h1 h2
  all_goals exact h1

theorem writeFields_cons (f : RegField) (fs : List RegField) (old v : Word) (w : Word) :
    (f :: fs).foldl (fun w f => setBits w f.hi f.lo (fieldWrite f (bits old f.hi f.lo) (bits v f.hi f.lo))) w =
    fs.foldl (fun w f => setBits w f.hi f.lo (fieldWrite f (bits old f.hi f.lo) (bits v f.hi f.lo)))
      (setBits w f.hi f.lo (fieldWrite f (bits old f.hi f.lo) (bits v f.hi f.lo))) := rfl

/-- Bits no listed field covers stay. -/
theorem writeFields_other (fs : List RegField) (old v w : Word) (hi lo : Nat) (ok : fieldsOk fs = true)
    (h : ∀ f ∈ fs, hi < f.lo ∨ f.hi < lo) :
    bits (fs.foldl (fun w f => setBits w f.hi f.lo (fieldWrite f (bits old f.hi f.lo) (bits v f.hi f.lo))) w) hi lo = bits w hi lo := by
  induction fs generalizing w with
  | nil => rfl
  | cons f fs ih =>
    simp only [fieldsOk, Bool.and_eq_true, decide_eq_true_iff] at ok
    obtain ⟨⟨⟨h1, h2⟩, _⟩, h4⟩ := ok
    rw [writeFields_cons, ih _ h4 (fun g hg => h g (List.mem_cons_of_mem _ hg)),
      bits_setBits_ne _ _ _ _ _ _ h1 h2 (h f (List.mem_cons_self ..))]

theorem writeFields_bit (fs : List RegField) (old v w : Word) (b : Nat) (ok : fieldsOk fs = true)
    (h : ∀ f ∈ fs, ¬(f.lo ≤ b ∧ b ≤ f.hi)) :
    bit (fs.foldl (fun w f => setBits w f.hi f.lo (fieldWrite f (bits old f.hi f.lo) (bits v f.hi f.lo))) w) b = bit w b := by
  induction fs generalizing w with
  | nil => rfl
  | cons f fs ih =>
    simp only [fieldsOk, Bool.and_eq_true, decide_eq_true_iff] at ok
    obtain ⟨⟨⟨h1, h2⟩, _⟩, h4⟩ := ok
    rw [writeFields_cons, ih _ h4 (fun g hg => h g (List.mem_cons_of_mem _ hg)),
      bit_setBits_ne _ _ _ _ _ h1 h2 (h f (List.mem_cons_self ..))]

/-- A field holds what its access code gives (R6, R9). -/
theorem writeFields_field (fs : List RegField) (old v w : Word) (ok : fieldsOk fs = true) {f : RegField} (hf : f ∈ fs) :
    bits (fs.foldl (fun w f => setBits w f.hi f.lo (fieldWrite f (bits old f.hi f.lo) (bits v f.hi f.lo))) w) f.hi f.lo =
      fieldWrite f (bits old f.hi f.lo) (bits v f.hi f.lo) := by
  induction fs generalizing w with
  | nil => exact absurd hf (List.not_mem_nil)
  | cons g fs ih =>
    simp only [fieldsOk, Bool.and_eq_true, decide_eq_true_iff, List.all_eq_true, Bool.or_eq_true] at ok
    obtain ⟨⟨⟨h1, h2⟩, h3⟩, h4⟩ := ok
    rw [writeFields_cons]
    rcases List.mem_cons.1 hf with rfl | hm
    · rw [writeFields_other _ _ _ _ _ _ h4 (fun g hg => (h3 g hg).symm), bits_setBits _ _ _ _ h1 h2,
        Nat.mod_eq_of_lt (fieldWrite_lt f (bits_lt ..) (bits_lt ..))]
    · exact ih _ h4 hm

theorem Dev.reg_writeReg (d : Dev) (off : Nat) (v : Word) {r : RegDesc} (h : regDesc off = some r) :
    (d.writeReg off v).reg off = writeFields r.fields (d.reg off) (d.clearMask off r.fields v) := by
  unfold Dev.writeReg
  rw [h]
  exact Dev.reg_setReg_self ..

/-- Bits outside the fields that write 1 to clear are taken as written (R10). -/
theorem clearMask_other (m : Word) (fs : List RegField) (w : Word) (hi lo : Nat) (ok : fieldsOk fs = true)
    (h : ∀ f ∈ fs, f.acc = .w1c → hi < f.lo ∨ f.hi < lo) :
    bits (fs.foldl (fun w f => if f.acc = .w1c then setBits w f.hi f.lo (bits (w &&& ~~~m) f.hi f.lo) else w) w) hi lo = bits w hi lo := by
  induction fs generalizing w with
  | nil => rfl
  | cons f fs ih =>
    simp only [fieldsOk, Bool.and_eq_true, decide_eq_true_iff] at ok
    obtain ⟨⟨⟨h1, h2⟩, _⟩, h4⟩ := ok
    rw [List.foldl_cons, ih _ h4 (fun g hg => h g (List.mem_cons_of_mem _ hg))]
    split
    · rename_i hw
      exact bits_setBits_ne _ _ _ _ _ _ h1 h2 (h f (List.mem_cons_self ..) hw)
    · rfl

theorem fieldsOk_apart {fs : List RegField} (ok : fieldsOk fs = true) {f g : RegField} (hf : f ∈ fs) (hg : g ∈ fs) (hn : f ≠ g) :
    f.hi < g.lo ∨ g.hi < f.lo := by
  induction fs with
  | nil => exact absurd hf List.not_mem_nil
  | cons x fs ih =>
    simp only [fieldsOk, Bool.and_eq_true, decide_eq_true_iff, List.all_eq_true, Bool.or_eq_true] at ok
    obtain ⟨⟨⟨_, _⟩, h3⟩, h4⟩ := ok
    rcases List.mem_cons.1 hf with rfl | hf'
    · rcases List.mem_cons.1 hg with rfl | hg'
      · exact absurd rfl hn
      · exact (h3 g hg').symm
    · rcases List.mem_cons.1 hg with rfl | hg'
      · exact h3 f hf'
      · exact ih h4 hf' hg'

/-- A field that does not write 1 to clear is taken as written (R10). -/
theorem Dev.bits_clearMask (d : Dev) (off : Nat) {fs : List RegField} (ok : fieldsOk fs = true) {f : RegField} (hf : f ∈ fs) (ha : f.acc ≠ .w1c)
    (v : Word) : bits (d.clearMask off fs v) f.hi f.lo = bits v f.hi f.lo :=
  clearMask_other _ fs v _ _ ok fun _ hg hw => fieldsOk_apart ok hf hg (fun e => ha (e ▸ hw))

/-- With no field that writes 1 to clear, a word is written as it is. -/
theorem Dev.clearMask_none (d : Dev) (off : Nat) (fs : List RegField) (v : Word) (h : ∀ f ∈ fs, f.acc ≠ .w1c) : d.clearMask off fs v = v := by
  unfold Dev.clearMask
  induction fs generalizing v with
  | nil => rfl
  | cons f fs ih =>
    rw [List.foldl_cons, if_neg (h f (List.mem_cons_self ..))]
    exact ih v fun g hg => h g (List.mem_cons_of_mem _ hg)

/-- A field after a write of its register. -/
theorem bits_writeFields {fs : List RegField} (ok : fieldsOk fs = true) {f : RegField} (hf : f ∈ fs) (old v : Word) {hi lo : Nat}
    (h1 : f.hi = hi) (h2 : f.lo = lo) : bits (writeFields fs old v) hi lo = fieldWrite f (bits old hi lo) (bits v hi lo) := by
  subst h1
  subst h2
  exact writeFields_field fs old v old ok hf

theorem Dev.fld_writeReg (d : Dev) (off : Nat) (v : Word) {r : RegDesc} (h : regDesc off = some r) {f : RegField} (hf : f ∈ r.fields) {hi lo : Nat}
    (h1 : f.hi = hi) (h2 : f.lo = lo) (ha : f.acc ≠ .w1c := by decide) :
    (d.writeReg off v).fld off hi lo = fieldWrite f (d.fld off hi lo) (bits v hi lo) := by
  unfold Dev.fld
  rw [Dev.reg_writeReg _ _ _ h, bits_writeFields (regDesc_ok h) hf _ _ h1 h2]
  subst h1
  subst h2
  rw [Dev.bits_clearMask d off (regDesc_ok h) hf ha]

end Sys2Proof.Machine
end

