-- ==== Sys2Proof/Laws/Answers.lean ====
section
/-! SUPPORT. How the answer of a command in a ready state follows from its operation, and how what operations keep adds up. -/

namespace Sys2Proof.Machine
open Sys2Proof

/-- A command in a ready state whose operation leaves no work, keeps the PCIe unit and the mode: its answer is the operation. -/
theorem onDev_of_ready (f : Dev → Dev) (s : State) (h : s.ready = true) (h1 : (f s.dev).tsk.todo = s.dev.tsk.todo)
    (h2 : (f s.dev).pci = s.dev.pci) (h3 : (f s.dev).mode = s.dev.mode) : onDev f s = .next { s with dev := f s.dev } := by
  obtain ⟨a, b, c, e, g⟩ := State.ready_spec h
  exact onDev_quiet f s (by rw [h1, a]) (by rw [h2, b]) (by rw [h2, c]) (by rw [h2, e]) (by rw [h3]; exact g)

theorem Answers.of_ready {c : Instr} {s : State} {f : Dev → Dev} {P : State → Prop} (hx : exec c s = onDev f s) (hr : s.ready = true)
    (h1 : (f s.dev).tsk.todo = s.dev.tsk.todo) (h2 : (f s.dev).pci = s.dev.pci) (h3 : (f s.dev).mode = s.dev.mode)
    (h : P { s with dev := f s.dev }) : Answers c s P :=
  ⟨_, by rw [hx, onDev_of_ready f s hr h1 h2 h3], h⟩

/-- The same where the operation's result is known. -/
theorem Answers.of_eq {c : Instr} {s : State} {f : Dev → Dev} {e : Dev} {P : State → Prop} (hx : exec c s = onDev f s)
    (hf : f s.dev = e) (hr : s.ready = true) (h1 : e.tsk.todo = s.dev.tsk.todo) (h2 : e.pci = s.dev.pci) (h3 : e.mode = s.dev.mode)
    (h : P { s with dev := e }) : Answers c s P := by
  subst hf
  exact Answers.of_ready hx hr h1 h2 h3 h

/-- A command whose operation changes nothing. -/
theorem exec_same {c : Instr} {s : State} {f : Dev → Dev} (hx : exec c s = onDev f s) (hf : f s.dev = s.dev) (hr : s.ready = true) :
    exec c s = .next s := by
  rw [hx, onDev_of_ready f s hr (by rw [hf]) (by rw [hf]) (by rw [hf]), hf]

/-- A command whose next state is known. -/
theorem Answers.of_next {c : Instr} {s t : State} {P : State → Prop} (hx : exec c s = .next t) (h : P t) : Answers c s P := ⟨t, hx, h⟩

theorem Answers.mono {c : Instr} {s : State} {P Q : State → Prop} (h : Answers c s P) (hpq : ∀ t, P t → Q t) : Answers c s Q := by
  obtain ⟨t, ht, hp⟩ := h
  exact ⟨t, ht, hpq t hp⟩

/-- A command that hands work on. -/
theorem HandsOn.of {c : Instr} {s : State} {f : Dev → Dev} {acts : List Act} {P : Dev → Prop} (hx : exec c s = onDev f s)
    (ht : (f s.dev).tsk.todo = acts) (h : P (f s.dev)) : HandsOn c s acts P := ⟨f s.dev, h, ht, hx⟩

/-- A command of a ready state that hands nothing on answers with its own effect. -/
theorem HandsOn.answers {c : Instr} {s : State} {P : Dev → Prop} (h : HandsOn c s [] P) :
    ∃ d, P d ∧ exec c s = .next (s.commit d.mailPoll) := by
  obtain ⟨d, hp, ht, he⟩ := h
  rw [Dev.drain_idle d _ ht] at he
  exact ⟨d, hp, he⟩

/-! ### What operations keep -/

theorem Dev.same_refl (p : Part) (d : Dev) : d.same p d := by cases p <;> rfl

theorem Dev.same_trans {p : Part} {a b c : Dev} (h1 : a.same p b) (h2 : b.same p c) : a.same p c := by
  cases p <;> exact Eq.trans h2 h1

theorem Dev.changesOnly_refl (ps : List Part) (d : Dev) : d.changesOnly ps d := fun p _ => d.same_refl p

theorem Dev.changesOnly.trans {ps : List Part} {a b c : Dev} (h1 : a.changesOnly ps b) (h2 : b.changesOnly ps c) : a.changesOnly ps c :=
  fun p hp => Dev.same_trans (h1 p hp) (h2 p hp)

theorem Dev.changesOnly.mono {ps qs : List Part} {a b : Dev} (h : a.changesOnly ps b) (hs : ∀ p ∈ ps, p ∈ qs) : a.changesOnly qs b :=
  fun p hp => h p (fun h' => hp (hs p h'))

theorem Dev.keepsRegs_refl (l : List Nat) (d : Dev) : d.keepsRegs l d := fun _ _ => rfl

theorem Dev.keepsRegs.trans {l : List Nat} {a b c : Dev} (h1 : a.keepsRegs l b) (h2 : b.keepsRegs l c) : a.keepsRegs l c :=
  fun o ho => (h2 o ho).trans (h1 o ho)

theorem Dev.keepsRegsE_refl (l : List Nat) (d : Dev) : d.keepsRegsE l d := fun _ _ _ => rfl

theorem Dev.keepsRegsE.trans {l : List Nat} {a b c : Dev} (h1 : a.keepsRegsE l b) (h2 : b.keepsRegsE l c) : a.keepsRegsE l c :=
  fun o ho he => (h2 o ho he).trans (h1 o ho he)

theorem Dev.keepsRegsE.mono {l m : List Nat} {a b : Dev} (h : a.keepsRegsE l b) (hs : ∀ o ∈ l, o ∈ m) : a.keepsRegsE m b :=
  fun o ho he => h o (fun h' => ho (hs o h')) he

/-- Parts and registers that an operation keeps, for operations that write registers by way of events alone. -/
theorem Dev.evtOnly.changes {d e : Dev} (h : d.evtOnly e) : d.changesOnly [.regs, .evt, .out] e := by
  obtain ⟨r, v, o, rfl⟩ := h
  intro p hp
  cases p <;> first | rfl | exact absurd (by decide) hp

theorem Dev.regOnly.changes {d e : Dev} (h : d.regOnly e) : d.changesOnly [.regs] e := by
  obtain ⟨r, rfl⟩ := h
  intro p hp
  cases p <;> first | rfl | exact absurd (by decide) hp

/-! ### A change of one part -/

theorem Dev.parts_now (d : Dev) (x : Nat) : d.changesOnly [.now] { d with now := x } := by
  intro p hp
  cases p <;> first | rfl | exact absurd (by decide) hp

theorem Dev.parts_beat (d : Dev) (x : Nat) : d.changesOnly [.beat] { d with beat := x } := by
  intro p hp
  cases p <;> first | rfl | exact absurd (by decide) hp

theorem Dev.parts_fclk (d : Dev) (x : Nat) : d.changesOnly [.fclk] { d with fclk := x } := by
  intro p hp
  cases p <;> first | rfl | exact absurd (by decide) hp

theorem Dev.parts_mode (d : Dev) (x : Mode) : d.changesOnly [.mode] { d with mode := x } := by
  intro p hp
  cases p <;> first | rfl | exact absurd (by decide) hp

theorem Dev.parts_before (d : Dev) (x : Mode) : d.changesOnly [.before] { d with before := x } := by
  intro p hp
  cases p <;> first | rfl | exact absurd (by decide) hp

theorem Dev.parts_regs (d : Dev) (x : Tab Word) : d.changesOnly [.regs] { d with regs := x } := by
  intro p hp
  cases p <;> first | rfl | exact absurd (by decide) hp

theorem Dev.parts_latches (d : Dev) (x : Tab Word) : d.changesOnly [.latches] { d with latches := x } := by
  intro p hp
  cases p <;> first | rfl | exact absurd (by decide) hp

theorem Dev.parts_held (d : Dev) (x : Tab Word) : d.changesOnly [.held] { d with held := x } := by
  intro p hp
  cases p <;> first | rfl | exact absurd (by decide) hp

theorem Dev.parts_setNow (d : Dev) (x : List Nat) : d.changesOnly [.setNow] { d with setNow := x } := by
  intro p hp
  cases p <;> first | rfl | exact absurd (by decide) hp

theorem Dev.parts_tabs (d : Dev) (x : Tab Entry) : d.changesOnly [.tabs] { d with tabs := x } := by
  intro p hp
  cases p <;> first | rfl | exact absurd (by decide) hp

theorem Dev.parts_free (d : Dev) (x : Nat) : d.changesOnly [.free] { d with free := x } := by
  intro p hp
  cases p <;> first | rfl | exact absurd (by decide) hp

theorem Dev.parts_out (d : Dev) (x : List Emission) : d.changesOnly [.out] { d with out := x } := by
  intro p hp
  cases p <;> first | rfl | exact absurd (by decide) hp

theorem Dev.parts_tim (d : Dev) (x : Tim) : d.changesOnly [.tim] { d with tim := x } := by
  intro p hp
  cases p <;> first | rfl | exact absurd (by decide) hp

theorem Dev.parts_evt (d : Dev) (x : Evt) : d.changesOnly [.evt] { d with evt := x } := by
  intro p hp
  cases p <;> first | rfl | exact absurd (by decide) hp

theorem Dev.parts_pkt (d : Dev) (x : Pkt) : d.changesOnly [.pkt] { d with pkt := x } := by
  intro p hp
  cases p <;> first | rfl | exact absurd (by decide) hp

theorem Dev.parts_que (d : Dev) (x : Que) : d.changesOnly [.que] { d with que := x } := by
  intro p hp
  cases p <;> first | rfl | exact absurd (by decide) hp

theorem Dev.parts_tsk (d : Dev) (x : Tsk) : d.changesOnly [.tsk] { d with tsk := x } := by
  intro p hp
  cases p <;> first | rfl | exact absurd (by decide) hp

theorem Dev.parts_regions (d : Dev) (x : Tab Region) : d.changesOnly [.regions] { d with regions := x } := by
  intro p hp
  cases p <;> first | rfl | exact absurd (by decide) hp

theorem Dev.parts_fwd (d : Dev) (x : Fwd) : d.changesOnly [.fwd] { d with fwd := x } := by
  intro p hp
  cases p <;> first | rfl | exact absurd (by decide) hp

theorem Dev.parts_vdc (d : Dev) (x : Vdc) : d.changesOnly [.vdc] { d with vdc := x } := by
  intro p hp
  cases p <;> first | rfl | exact absurd (by decide) hp

theorem Dev.parts_cmp (d : Dev) (x : Cmp) : d.changesOnly [.cmp] { d with cmp := x } := by
  intro p hp
  cases p <;> first | rfl | exact absurd (by decide) hp

theorem Dev.parts_ven (d : Dev) (x : Ven) : d.changesOnly [.ven] { d with ven := x } := by
  intro p hp
  cases p <;> first | rfl | exact absurd (by decide) hp

theorem Dev.parts_aud (d : Dev) (x : Aud) : d.changesOnly [.aud] { d with aud := x } := by
  intro p hp
  cases p <;> first | rfl | exact absurd (by decide) hp

theorem Dev.parts_egs (d : Dev) (x : Egs) : d.changesOnly [.egs] { d with egs := x } := by
  intro p hp
  cases p <;> first | rfl | exact absurd (by decide) hp

theorem Dev.parts_vlt (d : Dev) (x : Vlt) : d.changesOnly [.vlt] { d with vlt := x } := by
  intro p hp
  cases p <;> first | rfl | exact absurd (by decide) hp

theorem Dev.parts_mac (d : Dev) (x : Mac) : d.changesOnly [.mac] { d with mac := x } := by
  intro p hp
  cases p <;> first | rfl | exact absurd (by decide) hp

theorem Dev.parts_tap (d : Dev) (x : TapU) : d.changesOnly [.tap] { d with tap := x } := by
  intro p hp
  cases p <;> first | rfl | exact absurd (by decide) hp

theorem Dev.parts_pci (d : Dev) (x : Pci) : d.changesOnly [.pci] { d with pci := x } := by
  intro p hp
  cases p <;> first | rfl | exact absurd (by decide) hp

theorem Dev.parts_mem (d : Dev) (x : Mem) : d.changesOnly [.mem] { d with mem := x } := by
  intro p hp
  cases p <;> first | rfl | exact absurd (by decide) hp

theorem Dev.parts_pwr (d : Dev) (x : Pwr) : d.changesOnly [.pwr] { d with pwr := x } := by
  intro p hp
  cases p <;> first | rfl | exact absurd (by decide) hp

theorem Dev.parts_mul (d : Dev) (x : Mul) : d.changesOnly [.mul] { d with mul := x } := by
  intro p hp
  cases p <;> first | rfl | exact absurd (by decide) hp

theorem Dev.parts_cfg (d : Dev) (x : CfgU) : d.changesOnly [.cfg] { d with cfg := x } := by
  intro p hp
  cases p <;> first | rfl | exact absurd (by decide) hp

theorem Dev.parts_lmd (d : Dev) (x : Lmd) : d.changesOnly [.lmd] { d with lmd := x } := by
  intro p hp
  cases p <;> first | rfl | exact absurd (by decide) hp

/-- A change of parts among those named. -/
theorem Dev.changesOnly.of {ps qs : List Part} {a b : Dev} (h : a.changesOnly ps b) (hs : ps.all (fun p => qs.contains p) = true := by decide) :
    a.changesOnly qs b :=
  h.mono fun p hp => by simpa using List.all_eq_true.1 hs p hp

theorem Dev.withRegs_withRegs (d : Dev) (r q : Tab Word) : (d.withRegs r).withRegs q = d.withRegs q := rfl

theorem Dev.regOnly.trans {a b c : Dev} (h1 : a.regOnly b) (h2 : b.regOnly c) : a.regOnly c := by
  obtain ⟨r, rfl⟩ := h1
  obtain ⟨q, rfl⟩ := h2
  exact ⟨q, Dev.withRegs_withRegs _ _ _⟩

end Sys2Proof.Machine
end

