-- ==== Sys2Proof/Laws/Raising.lean ====
section
/-! SUPPORT. Raising a source sets its status and clears none (R373, R374); counting adds to a 64-bit counter. -/

namespace Sys2Proof.Machine
open Sys2Proof

/-- The words of EVT_STAT. -/
def statReg (o : Nat) : Bool := decide (Reg.EVT_STAT ≤ o) && decide (o < Reg.EVT_STAT + 80)

theorem statReg_src {src : Nat} (h : src < 640) : statReg (Reg.EVT_STAT + 4 * (src / 32)) = true := by
  have h1 : Reg.EVT_STAT ≤ Reg.EVT_STAT + 4 * (src / 32) := Nat.le_add_right ..
  have h2 : Reg.EVT_STAT + 4 * (src / 32) < Reg.EVT_STAT + 80 := by omega
  simp [statReg, h1, h2]

theorem ne_of_statReg {o o' : Nat} (h : statReg o = true) (h' : statReg o' = false) : o ≠ o' := by
  rintro rfl
  rw [h'] at h
  exact Bool.noConfusion h

theorem statReg_cnt {c : Nat} (h : c < 4) : statReg (Reg.EVT_CNT_LO + 8 * c) = false ∧ statReg (Reg.EVT_CNT_LO + 8 * c + 4) = false := by
  have : c = 0 ∨ c = 1 ∨ c = 2 ∨ c = 3 := by omega
  rcases this with rfl | rfl | rfl | rfl <;> decide

theorem statReg_pba {v : Nat} (h : v < 64) : statReg (Reg.MSIX_PBA + 4 * (v / 32)) = false := by
  have : v / 32 = 0 ∨ v / 32 = 1 := by omega
  rcases this with h | h <;> rw [h] <;> decide

theorem Dev.stat_evtCnt (d : Dev) {c : Nat} (n : Nat) (hc : c < 4) {o : Nat} (h : statReg o = true) :
    (d.cnt Reg.EVT_CNT_LO c n).reg o = d.reg o :=
  Dev.reg_cnt_ne d _ c n (ne_of_statReg h (statReg_cnt hc).1) (ne_of_statReg h (statReg_cnt hc).2)

theorem Dev.message_stat (d : Dev) {v : Nat} (hv : v < 64) {o : Nat} (h : statReg o = true) : (d.message v).reg o = d.reg o := by
  unfold Dev.message
  split
  · rfl
  · split
    · rfl
    · split
      · exact Dev.reg_setFlag_ne _ _ _ _ (ne_of_statReg h (statReg_pba hv))
      · dsimp only
        rw [Dev.reg_emit, Dev.stat_evtCnt _ _ (by decide) h]
        rfl

theorem Dev.logWrite_stat (d : Dev) (r : LogRec) {o : Nat} (h : statReg o = true) : (d.logWrite r).1.reg o = d.reg o := by
  unfold Dev.logWrite
  dsimp only
  split
  · dsimp only
    rw [Dev.stat_evtCnt _ _ (by decide) h, Dev.reg_setFld_ne _ _ _ _ _ (ne_of_statReg h (by decide)),
      Dev.stat_evtCnt _ _ (by decide) h, Dev.reg_setFld_ne _ _ _ _ _ (ne_of_statReg h (by decide))]
    rfl
  · dsimp only
    rw [Dev.stat_evtCnt _ _ (by decide) h, Dev.reg_setFld_ne _ _ _ _ _ (ne_of_statReg h (by decide))]
    rfl

/-- The status words after raising an enabled source: its bit is set. -/
theorem Dev.raiseCore_stat_on (d : Dev) (src d0 d1 blk : Nat) (vec : Option Nat) (hv : ∀ v, vec = some v → v < 64) {o : Nat}
    (h : statReg o = true) (hs : (evtSeverity src).isSome = true) (he : d.evtEnabled src = true) :
    (d.raiseCore src d0 d1 blk vec).1.reg o = (d.setFlag (Reg.EVT_STAT + 4 * (src / 32)) (src % 32) true).reg o := by
  obtain ⟨sev, hsev⟩ := Option.isSome_iff_exists.1 hs
  have hb : (!bit (d.evtCfg src) 31) = false := by unfold Dev.evtEnabled at he; simp [he]
  have base : ((d.setFlag (Reg.EVT_STAT + 4 * (src / 32)) (src % 32) true).cnt Reg.EVT_CNT_LO 0 1).reg o =
      (d.setFlag (Reg.EVT_STAT + 4 * (src / 32)) (src % 32) true).reg o := Dev.stat_evtCnt _ _ (by decide) h
  generalize hW : (d.setFlag (Reg.EVT_STAT + 4 * (src / 32)) (src % 32) true).reg o = W at base ⊢
  unfold Dev.raiseCore
  rw [hsev]
  dsimp only
  rw [hb]
  generalize (d.setFlag (Reg.EVT_STAT + 4 * (src / 32)) (src % 32) true).cnt Reg.EVT_CNT_LO 0 1 = B at base ⊢
  have log : ∀ (e : Dev) (b : Prop) [Decidable b] (r : LogRec), e.reg o = W →
      (if b then e.logWrite r else (e, false)).1.reg o = W := by
    intro e b _ r he
    split
    · rw [Dev.logWrite_stat _ _ h, he]
    · exact he
  apply log
  split
  · rename_i v
    rw [Dev.message_stat _ (hv v rfl) h]
    split
    · split
      · rw [Dev.reg_withEvt, base]
      · rw [Dev.reg_emit, base]
    · exact base
  · split
    · rw [Dev.message_stat _ (bits_lt _ 5 0) h]
      split
      · split
        · rw [Dev.reg_withEvt, base]
        · rw [Dev.reg_emit, base]
      · exact base
    · split
      · split
        · rw [Dev.reg_withEvt, base]
        · rw [Dev.reg_emit, base]
      · exact base

/-- Raising a source that is not enabled, or that no table gives, does nothing. -/
theorem Dev.raiseCore_off (d : Dev) (src d0 d1 blk : Nat) (vec : Option Nat)
    (h : ¬((evtSeverity src).isSome = true ∧ d.evtEnabled src = true)) : (d.raiseCore src d0 d1 blk vec).1 = d := by
  unfold Dev.raiseCore
  split
  · rfl
  · rename_i sev hs
    have hb : (!bit (d.evtCfg src) 31) = true := by
      rw [hs] at h
      unfold Dev.evtEnabled at h
      simpa using h
    dsimp only
    rw [hb]
    rfl

theorem Dev.raiseCore_stat (d : Dev) (src d0 d1 blk : Nat) (vec : Option Nat) (hv : ∀ v, vec = some v → v < 64) {o : Nat}
    (h : statReg o = true) : (d.raiseCore src d0 d1 blk vec).1.reg o =
      if (evtSeverity src).isSome = true ∧ d.evtEnabled src = true then (d.setFlag (Reg.EVT_STAT + 4 * (src / 32)) (src % 32) true).reg o
      else d.reg o := by
  by_cases hc : (evtSeverity src).isSome = true ∧ d.evtEnabled src = true
  · rw [if_pos hc, Dev.raiseCore_stat_on d src d0 d1 blk vec hv h hc.1 hc.2]
  · rw [if_neg hc, Dev.raiseCore_off d src d0 d1 blk vec hc]

/-! ### Statuses that stay set -/

/-- No status is cleared, and no source's enable moves. -/
def Dev.statLe (d e : Dev) : Prop := (∀ x, x < 640 → d.evtStat x = true → e.evtStat x = true) ∧ ∀ x, x < 640 → e.evtCfg x = d.evtCfg x

theorem Dev.statLe_refl (d : Dev) : d.statLe d := ⟨fun _ _ h => h, fun _ _ => rfl⟩

theorem Dev.statLe.trans {a b c : Dev} (h1 : a.statLe b) (h2 : b.statLe c) : a.statLe c :=
  ⟨fun x hx h => h2.1 x hx (h1.1 x hx h), fun x hx => (h2.2 x hx).trans (h1.2 x hx)⟩

/-- Registers that hold a status or a source's settings. -/
def evtSetReg (o : Nat) : Bool := statReg o || (decide (Reg.EVT_SRC_CFG ≤ o) && decide (o < Reg.EVT_SRC_CFG + 2560))

theorem evtSetReg_stat {x : Nat} (h : x < 640) : evtSetReg (Reg.EVT_STAT + 4 * (x / 32)) = true := by
  simp [evtSetReg, statReg_src h]

theorem evtSetReg_cfg {x : Nat} (h : x < 640) : evtSetReg (Reg.EVT_SRC_CFG + 4 * x) = true := by
  have h1 : Reg.EVT_SRC_CFG ≤ Reg.EVT_SRC_CFG + 4 * x := Nat.le_add_right ..
  have h2 : Reg.EVT_SRC_CFG + 4 * x < Reg.EVT_SRC_CFG + 2560 := by omega
  simp [evtSetReg, h1, h2]

theorem cfg_evtReg {x : Nat} (h : x < 640) : evtReg (Reg.EVT_SRC_CFG + 4 * x) = false := by
  have e1 : Reg.EVT_SRC_CFG = 0x01A01000 := rfl
  have e2 : Reg.EVT_STAT = 0x01A00100 := rfl
  have e3 : Reg.EVT_CNT_LO = 0x01A00200 := rfl
  have e4 : Reg.MSIX_PBA = 0x01909000 := rfl
  have e5 : Reg.EVT_LOG_HEAD = 0x01A00030 := rfl
  have e6 : Reg.EVT_LOG_TAIL = 0x01A00034 := rfl
  simp only [evtReg, e1, e2, e3, e4, e5, e6]
  have h1 : ¬ (0x01A01000 + 4 * x < 0x01A00100 + 80) := by omega
  have h2 : ¬ (0x01A01000 + 4 * x < 0x01A00200 + 32) := by omega
  have h4 : ¬ (0x01909000 + 8 > 0x01A01000 + 4 * x) := by omega
  have h5 : ¬ (0x01A01000 + 4 * x = 0x01A00030) := by omega
  have h6 : ¬ (0x01A01000 + 4 * x = 0x01A00034) := by omega
  simp only [decide_eq_false h1, decide_eq_false h2, decide_eq_false h4, beq_eq_false_iff_ne.2 h5, beq_eq_false_iff_ne.2 h6, Bool.and_false, Bool.or_false]

/-- Whatever keeps those registers keeps every status. -/
theorem Dev.statLe_of_regs {d e : Dev} (h : ∀ o, evtSetReg o = true → e.reg o = d.reg o) : d.statLe e :=
  ⟨fun x hx hs => by
    unfold Dev.evtStat Dev.flag at hs ⊢
    rw [h _ (evtSetReg_stat hx)]
    exact hs, fun x hx => h _ (evtSetReg_cfg hx)⟩

theorem Dev.statLe_eqRegs {d e : Dev} (h : e.regs = d.regs) : d.statLe e :=
  Dev.statLe_of_regs fun o _ => by unfold Dev.reg; rw [h]

theorem Dev.statLe_setReg (d : Dev) {o : Nat} (w : Word) (h : evtSetReg o = false) : d.statLe (d.setReg o w) :=
  Dev.statLe_of_regs fun o' ho => Dev.reg_setReg_ne _ _ _ (by rintro rfl; rw [h] at ho; exact Bool.noConfusion ho)

theorem Dev.statLe_setFld (d : Dev) {o : Nat} (hi lo v : Nat) (h : evtSetReg o = false) : d.statLe (d.setFld o hi lo v) :=
  d.statLe_setReg _ h

theorem Dev.statLe_setFlag (d : Dev) {o : Nat} (i : Nat) (b : Bool) (h : evtSetReg o = false) : d.statLe (d.setFlag o i b) :=
  d.statLe_setReg _ h

theorem Dev.statLe_cnt (d : Dev) {b c : Nat} (n : Nat) (h1 : evtSetReg (b + 8 * c) = false) (h2 : evtSetReg (b + 8 * c + 4) = false) :
    d.statLe (d.cnt b c n) :=
  (d.statLe_setReg _ h1).trans (Dev.statLe_setReg _ _ h2)

theorem Dev.statLe_setReg64 (d : Dev) {lo hi : Nat} (v : Nat) (h1 : evtSetReg lo = false) (h2 : evtSetReg hi = false) :
    d.statLe (d.setReg64 lo hi v) :=
  (d.statLe_setReg _ h1).trans (Dev.statLe_setReg _ _ h2)

theorem Dev.raiseCore_statLe (d : Dev) (src d0 d1 blk : Nat) (vec : Option Nat) (hv : ∀ v, vec = some v → v < 64) :
    d.statLe (d.raiseCore src d0 d1 blk vec).1 := by
  refine ⟨fun x hx hs => ?_, fun x hx => Dev.raiseCore_reg _ _ _ _ _ _ hv (cfg_evtReg hx)⟩
  unfold Dev.evtStat Dev.flag at hs ⊢
  rw [Dev.raiseCore_stat d src d0 d1 blk vec hv (statReg_src hx)]
  split
  · unfold Dev.setFlag Dev.setFld
    rw [Dev.reg_setReg]
    split
    · rename_i ho
      by_cases hb : x % 32 = src % 32
      · rw [hb]
        exact bit_setBits _ _ true (Nat.mod_lt _ (by decide))
      · rw [bit_setBits_ne _ _ _ _ _ (Nat.le_refl _) (Nat.mod_lt _ (by decide)) (by omega), ← ho]
        exact hs
    · exact hs
  · exact hs

theorem Dev.raiseCore_sets (d : Dev) (src d0 d1 blk : Nat) (vec : Option Nat) (hv : ∀ v, vec = some v → v < 64)
    (he : d.evtEnabled src = true) (hs : (evtSeverity src).isSome = true) : (d.raiseCore src d0 d1 blk vec).1.evtStat src = true := by
  obtain ⟨sev, hsev⟩ := Option.isSome_iff_exists.1 hs
  unfold Dev.evtStat Dev.flag
  rw [Dev.raiseCore_stat d src d0 d1 blk vec hv (statReg_src (evtSeverity_lt hsev)), if_pos ⟨hs, he⟩]
  unfold Dev.setFlag Dev.setFld
  rw [Dev.reg_setReg_self]
  exact bit_setBits _ _ true (Nat.mod_lt _ (by decide))

theorem Dev.statLe_withEvt (d : Dev) (v : Evt) : d.statLe { d with evt := v } := Dev.statLe_eqRegs rfl

theorem Dev.statLe_tim (d : Dev) (x : Tim) : d.statLe { d with tim := x } := Dev.statLe_eqRegs rfl
theorem Dev.statLe_pkt (d : Dev) (x : Pkt) : d.statLe { d with pkt := x } := Dev.statLe_eqRegs rfl
theorem Dev.statLe_que (d : Dev) (x : Que) : d.statLe { d with que := x } := Dev.statLe_eqRegs rfl
theorem Dev.statLe_tsk (d : Dev) (x : Tsk) : d.statLe { d with tsk := x } := Dev.statLe_eqRegs rfl
theorem Dev.statLe_regions (d : Dev) (x : Tab Region) : d.statLe { d with regions := x } := Dev.statLe_eqRegs rfl
theorem Dev.statLe_fwd (d : Dev) (x : Fwd) : d.statLe { d with fwd := x } := Dev.statLe_eqRegs rfl
theorem Dev.statLe_vdc (d : Dev) (x : Vdc) : d.statLe { d with vdc := x } := Dev.statLe_eqRegs rfl
theorem Dev.statLe_cmp (d : Dev) (x : Cmp) : d.statLe { d with cmp := x } := Dev.statLe_eqRegs rfl
theorem Dev.statLe_ven (d : Dev) (x : Ven) : d.statLe { d with ven := x } := Dev.statLe_eqRegs rfl
theorem Dev.statLe_aud (d : Dev) (x : Aud) : d.statLe { d with aud := x } := Dev.statLe_eqRegs rfl
theorem Dev.statLe_egs (d : Dev) (x : Egs) : d.statLe { d with egs := x } := Dev.statLe_eqRegs rfl
theorem Dev.statLe_vlt (d : Dev) (x : Vlt) : d.statLe { d with vlt := x } := Dev.statLe_eqRegs rfl
theorem Dev.statLe_mac (d : Dev) (x : Mac) : d.statLe { d with mac := x } := Dev.statLe_eqRegs rfl
theorem Dev.statLe_tap (d : Dev) (x : TapU) : d.statLe { d with tap := x } := Dev.statLe_eqRegs rfl
theorem Dev.statLe_pci (d : Dev) (x : Pci) : d.statLe { d with pci := x } := Dev.statLe_eqRegs rfl
theorem Dev.statLe_mem (d : Dev) (x : Mem) : d.statLe { d with mem := x } := Dev.statLe_eqRegs rfl
theorem Dev.statLe_pwr (d : Dev) (x : Pwr) : d.statLe { d with pwr := x } := Dev.statLe_eqRegs rfl
theorem Dev.statLe_mul (d : Dev) (x : Mul) : d.statLe { d with mul := x } := Dev.statLe_eqRegs rfl
theorem Dev.statLe_cfg (d : Dev) (x : CfgU) : d.statLe { d with cfg := x } := Dev.statLe_eqRegs rfl
theorem Dev.statLe_lmd (d : Dev) (x : Lmd) : d.statLe { d with lmd := x } := Dev.statLe_eqRegs rfl
theorem Dev.statLe_mode (d : Dev) (x : Mode) : d.statLe { d with mode := x } := Dev.statLe_eqRegs rfl
theorem Dev.statLe_beat (d : Dev) (x : Nat) : d.statLe { d with beat := x } := Dev.statLe_eqRegs rfl
theorem Dev.statLe_fclk (d : Dev) (x : Nat) : d.statLe { d with fclk := x } := Dev.statLe_eqRegs rfl
theorem Dev.statLe_now (d : Dev) (x : Nat) : d.statLe { d with now := x } := Dev.statLe_eqRegs rfl
theorem Dev.statLe_tabs (d : Dev) (x : Tab Entry) : d.statLe { d with tabs := x } := Dev.statLe_eqRegs rfl
theorem Dev.statLe_out (d : Dev) (x : List Emission) : d.statLe { d with out := x } := Dev.statLe_eqRegs rfl
theorem Dev.statLe_free (d : Dev) (x : Nat) : d.statLe { d with free := x } := Dev.statLe_eqRegs rfl

theorem Dev.statLe_noteOnce (d : Dev) (src : Nat) : d.statLe (d.noteOnce src) := Dev.statLe_eqRegs rfl

theorem Dev.raiseFull_statLe (d : Dev) (src d0 d1 blk : Nat) (vec : Option Nat) (hv : ∀ v, vec = some v → v < 64) :
    d.statLe (d.raiseFull src d0 d1 blk vec) := by
  have hc := d.raiseCore_statLe src d0 d1 blk vec hv
  unfold Dev.raiseFull
  split
  · rename_i e he
    rw [he] at hc
    exact hc
  · rename_i e he
    rw [he] at hc
    split
    · exact hc
    · exact hc.trans ((Dev.statLe_noteOnce _ _).trans (Dev.raiseCore_statLe _ _ _ _ _ _ (by simp)))

theorem Dev.raiseFull_sets (d : Dev) (src d0 d1 blk : Nat) (vec : Option Nat) (hv : ∀ v, vec = some v → v < 64)
    (he : d.evtEnabled src = true) (hs : (evtSeverity src).isSome = true) : (d.raiseFull src d0 d1 blk vec).evtStat src = true := by
  have hc := d.raiseCore_sets src d0 d1 blk vec hv he hs
  obtain ⟨sev, hsev⟩ := Option.isSome_iff_exists.1 hs
  unfold Dev.raiseFull
  split
  · rename_i e he
    rw [he] at hc
    exact hc
  · rename_i e he
    rw [he] at hc
    split
    · exact hc
    · exact ((Dev.statLe_noteOnce _ _).trans (Dev.raiseCore_statLe _ _ _ _ _ _ (by simp))).1 src (evtSeverity_lt hsev) hc

theorem Dev.raise_statLe (d : Dev) (src d0 d1 : Nat) : d.statLe (d.raise src d0 d1) := d.raiseFull_statLe _ _ _ _ _ (by simp)

theorem Dev.raiseMem_statLe (d : Dev) (src d0 d1 blk : Nat) : d.statLe (d.raiseMem src d0 d1 blk) := d.raiseFull_statLe _ _ _ _ _ (by simp)

theorem Dev.raiseOn_statLe (d : Dev) (src d0 d1 : Nat) {v : Nat} (hv : v < 64) : d.statLe (d.raiseOn src v d0 d1) :=
  d.raiseFull_statLe _ _ _ _ _ (by rintro _ ⟨rfl⟩; exact hv)

theorem Dev.raiseOnce_statLe (d : Dev) (src d0 d1 : Nat) : d.statLe (d.raiseOnce src d0 d1) := by
  unfold Dev.raiseOnce
  split
  · exact d.statLe_refl
  · exact (Dev.statLe_noteOnce _ _).trans (Dev.raise_statLe _ _ _ _)

/-- Raising an enabled source sets its status. -/
theorem Dev.raise_raised (d : Dev) (src d0 d1 : Nat) : d.raised src (d.raise src d0 d1) :=
  fun he hs => d.raiseFull_sets _ _ _ _ _ (by simp) he hs

theorem Dev.raiseMem_raised (d : Dev) (src d0 d1 blk : Nat) : d.raised src (d.raiseMem src d0 d1 blk) :=
  fun he hs => d.raiseFull_sets _ _ _ _ _ (by simp) he hs

theorem Dev.raiseOn_raised (d : Dev) (src d0 d1 : Nat) {v : Nat} (hv : v < 64) : d.raised src (d.raiseOn src v d0 d1) :=
  fun he hs => d.raiseFull_sets _ _ _ _ _ (by rintro _ ⟨rfl⟩; exact hv) he hs

theorem Dev.raised.after {src : Nat} {a b c : Dev} (h1 : a.raised src b) (h2 : b.statLe c) (hx : src < 640) : a.raised src c :=
  fun he hs => h2.1 src hx (h1 he hs)

theorem Dev.raised.before {src : Nat} {a b c : Dev} (h1 : a.statLe b) (h2 : b.raised src c) (hx : src < 640) : a.raised src c :=
  fun he hs => h2 (by unfold Dev.evtEnabled at he ⊢; rw [h1.2 src hx]; exact he) hs

theorem Dev.raiseOnce_raised (d : Dev) (src d0 d1 : Nat) (h : src ∉ d.evt.once) : d.raised src (d.raiseOnce src d0 d1) := by
  unfold Dev.raiseOnce
  rw [if_neg (by simpa using h)]
  exact fun he hs => Dev.raise_raised (d.noteOnce src) src d0 d1 he hs

/-! ### At most once per beat -/

theorem Dev.message_once (d : Dev) (v : Nat) : (d.message v).evt.once = d.evt.once := by
  unfold Dev.message
  split
  · rfl
  · split
    · rfl
    · split
      · rw [Dev.setFlag_evt]
      · dsimp only
        rw [Dev.emit_evt, Dev.cnt_evt]

theorem Dev.logWrite_once (d : Dev) (r : LogRec) : (d.logWrite r).1.evt.once = d.evt.once := by
  unfold Dev.logWrite
  dsimp only
  split
  · dsimp only
    rw [Dev.cnt_evt, Dev.setFld_evt, Dev.cnt_evt, Dev.setFld_evt]
  · dsimp only
    rw [Dev.cnt_evt, Dev.setFld_evt]

theorem Dev.raiseCore_once (d : Dev) (src d0 d1 blk : Nat) (vec : Option Nat) : (d.raiseCore src d0 d1 blk vec).1.evt.once = d.evt.once := by
  unfold Dev.raiseCore
  split
  · rfl
  · dsimp only
    split
    · rfl
    · have base : ((d.setFlag (Reg.EVT_STAT + 4 * (src / 32)) (src % 32) true).cnt Reg.EVT_CNT_LO 0 1).evt.once = d.evt.once := by
        rw [Dev.cnt_evt, Dev.setFlag_evt]
      generalize (d.setFlag (Reg.EVT_STAT + 4 * (src / 32)) (src % 32) true).cnt Reg.EVT_CNT_LO 0 1 = B at base ⊢
      have log : ∀ (e : Dev) (b : Prop) [Decidable b] (r : LogRec), e.evt.once = d.evt.once →
          (if b then e.logWrite r else (e, false)).1.evt.once = d.evt.once := by
        intro e b _ r he
        split
        · rw [Dev.logWrite_once, he]
        · exact he
      apply log
      split
      · rename_i v
        rw [Dev.message_once]
        split
        · split
          · exact base
          · rw [Dev.emit_evt, base]
        · exact base
      · split
        · rw [Dev.message_once]
          split
          · split
            · exact base
            · rw [Dev.emit_evt, base]
          · exact base
        · split
          · split
            · exact base
            · rw [Dev.emit_evt, base]
          · exact base

/-- Raising notes nothing for the beat but an overrun of the log. -/
theorem Dev.raise_once (d : Dev) (src d0 d1 : Nat) {x : Nat} (h : x ≠ Src.EVENT_LOG_OVERRUN) :
    x ∈ (d.raise src d0 d1).evt.once ↔ x ∈ d.evt.once := by
  have hc := d.raiseCore_once src d0 d1 0 none
  unfold Dev.raise Dev.raiseFull
  split
  · rename_i e he
    rw [he] at hc
    rw [hc]
  · rename_i e he
    rw [he] at hc
    split
    · rw [hc]
    · rw [Dev.raiseCore_once, ← hc]
      unfold Dev.noteOnce
      simp [h]

/-! ### Counters -/

/-- Counting depends on the registers alone. -/
theorem Dev.reg_cnt_congr {d e : Dev} (h : ∀ o, e.reg o = d.reg o) (b c n o : Nat) : (e.cnt b c n).reg o = (d.cnt b c n).reg o := by
  unfold Dev.cnt Dev.count Dev.setReg64
  simp only [Dev.reg_setReg]
  unfold Dev.reg64
  rw [h, h, h]

theorem Dev.counted_reg64 (d : Dev) (lo n : Nat) : (d.count lo n).reg64 lo (lo + 4) = (d.reg64 lo (lo + 4) + n) % 2 ^ 64 := by
  unfold Dev.count Dev.setReg64
  generalize d.reg64 lo (lo + 4) + n = v
  unfold Dev.reg64
  rw [Dev.reg_setReg_ne _ _ _ (by omega), Dev.reg_setReg_self, Dev.reg_setReg_self]
  simp only [BitVec.toNat_ofNat]
  omega

theorem Dev.cnt_counted (d : Dev) (b c n : Nat) : d.counted b c n (d.cnt b c n) := d.counted_reg64 (b + 8 * c) n

/-- What neither half's writer touches keeps the count. -/
theorem Dev.counted.after {b c n : Nat} {d e f : Dev} (h : d.counted b c n e) (h1 : f.reg (b + 8 * c) = e.reg (b + 8 * c))
    (h2 : f.reg (b + 8 * c + 4) = e.reg (b + 8 * c + 4)) : d.counted b c n f := by
  unfold Dev.counted Dev.reg64 at h ⊢
  rw [h1, h2]
  exact h

theorem Dev.counted.before {b c n : Nat} {d e f : Dev} (h : e.counted b c n f) (h1 : e.reg (b + 8 * c) = d.reg (b + 8 * c))
    (h2 : e.reg (b + 8 * c + 4) = d.reg (b + 8 * c + 4)) : d.counted b c n f := by
  unfold Dev.counted at h ⊢
  rw [h]
  unfold Dev.reg64
  rw [h1, h2]

end Sys2Proof.Machine
end

