-- ==== Sys2Proof/Laws/Frames.lean ====
section
/-! SUPPORT. Frames step by step: each primitive operation adds its part to what has changed, and its registers to those written. -/

namespace Sys2Proof.Machine
open Sys2Proof

/-! ### Parts -/

variable {d e : Dev} {ps : List Part}

theorem Dev.changesOnly.step {a : Part} {e' : Dev} (h : d.changesOnly ps e) (h1 : e.changesOnly [a] e') (hp : ps.contains a = true) :
    d.changesOnly ps e' :=
  h.trans (h1.mono fun p hp' => by
    rw [List.mem_singleton] at hp'
    rw [hp']
    simpa using hp)

theorem Dev.changesOnly.setReg (h : d.changesOnly ps e) (hp : ps.contains .regs = true) (o : Nat) (w : Word) : d.changesOnly ps (e.setReg o w) :=
  h.step (e.parts_regs _) hp

theorem Dev.changesOnly.setFld (h : d.changesOnly ps e) (hp : ps.contains .regs = true) (o a b v : Nat) : d.changesOnly ps (e.setFld o a b v) :=
  h.step ((e.setFld_only o a b v).changes) hp

theorem Dev.changesOnly.setFlag (h : d.changesOnly ps e) (hp : ps.contains .regs = true) (o i : Nat) (b : Bool) : d.changesOnly ps (e.setFlag o i b) :=
  h.step ((e.setFlag_only o i b).changes) hp

theorem Dev.changesOnly.setReg64 (h : d.changesOnly ps e) (hp : ps.contains .regs = true) (a b v : Nat) : d.changesOnly ps (e.setReg64 a b v) :=
  h.step ((e.setReg64_only a b v).changes) hp

theorem Dev.changesOnly.count (h : d.changesOnly ps e) (hp : ps.contains .regs = true) (a n : Nat) : d.changesOnly ps (e.count a n) :=
  h.step ((e.count_only a n).changes) hp

theorem Dev.changesOnly.cnt (h : d.changesOnly ps e) (hp : ps.contains .regs = true) (a c n : Nat) : d.changesOnly ps (e.cnt a c n) :=
  h.step ((e.cnt_only a c n).changes) hp

theorem Dev.changesOnly.putData (h : d.changesOnly ps e) (hp : ps.contains .regs = true) (b n : Nat) (x : Entry) : d.changesOnly ps (e.putData b n x) :=
  h.step ((e.putData_only b n x).changes) hp

theorem Dev.changesOnly.writeReg (h : d.changesOnly ps e) (hp : ps.contains .regs = true) (o : Nat) (v : Word) : d.changesOnly ps (e.writeReg o v) :=
  h.step ((e.writeReg_only o v).changes) hp

theorem Dev.changesOnly.tabCmd (h : d.changesOnly ps e) (hp : ps.contains .regs = true) (o : Nat) (v : Word) : d.changesOnly ps (e.tabCmd o v) :=
  h.step ((e.tabCmd_only o v).changes) hp

theorem Dev.changesOnly.tabErr (h : d.changesOnly ps e) (hp : ps.contains .regs = true) (o c : Nat) : d.changesOnly ps (e.tabErr o c) :=
  h.step ((e.tabErr_only o c).changes) hp

theorem Dev.changesOnly.setEnt (h : d.changesOnly ps e) (hp : ps.contains .tabs = true) (u : TabUnit) (t i : Nat) (x : Entry) : d.changesOnly ps (e.setEnt u t i x) :=
  h.step (e.parts_tabs _) hp

theorem Dev.changesOnly.emit (h : d.changesOnly ps e) (hp : ps.contains .out = true) (x : Emission) : d.changesOnly ps (e.emit x) :=
  h.step (e.parts_out _) hp

theorem Dev.changesOnly.push (h : d.changesOnly ps e) (hp : ps.contains .tsk = true) (x : Act) : d.changesOnly ps (e.push x) :=
  h.step (e.parts_tsk _) hp

theorem Dev.changesOnly.latchHi (h : d.changesOnly ps e) (hp : ps.contains .latches = true) (p : Path) (w : Word) : d.changesOnly ps (e.latchHi p w) :=
  h.step (e.parts_latches _) hp

theorem Dev.changesOnly.hold (h : d.changesOnly ps e) (hp : ps.contains .held = true) (p : Path) (w : Word) : d.changesOnly ps (e.hold p w) :=
  h.step (e.parts_held _) hp

theorem Dev.changesOnly.noteOnce (h : d.changesOnly ps e) (hp : ps.contains .evt = true) (s : Nat) : d.changesOnly ps (e.noteOnce s) :=
  h.step (e.parts_evt _) hp

theorem Dev.changesOnly.with_now (h : d.changesOnly ps e) (hp : ps.contains .now = true) (x : Nat) : d.changesOnly ps { e with now := x } :=
  h.step (e.parts_now x) hp

theorem Dev.changesOnly.with_beat (h : d.changesOnly ps e) (hp : ps.contains .beat = true) (x : Nat) : d.changesOnly ps { e with beat := x } :=
  h.step (e.parts_beat x) hp

theorem Dev.changesOnly.with_fclk (h : d.changesOnly ps e) (hp : ps.contains .fclk = true) (x : Nat) : d.changesOnly ps { e with fclk := x } :=
  h.step (e.parts_fclk x) hp

theorem Dev.changesOnly.with_mode (h : d.changesOnly ps e) (hp : ps.contains .mode = true) (x : Mode) : d.changesOnly ps { e with mode := x } :=
  h.step (e.parts_mode x) hp

theorem Dev.changesOnly.with_before (h : d.changesOnly ps e) (hp : ps.contains .before = true) (x : Mode) : d.changesOnly ps { e with before := x } :=
  h.step (e.parts_before x) hp

theorem Dev.changesOnly.with_regs (h : d.changesOnly ps e) (hp : ps.contains .regs = true) (x : Tab Word) : d.changesOnly ps { e with regs := x } :=
  h.step (e.parts_regs x) hp

theorem Dev.changesOnly.with_latches (h : d.changesOnly ps e) (hp : ps.contains .latches = true) (x : Tab Word) : d.changesOnly ps { e with latches := x } :=
  h.step (e.parts_latches x) hp

theorem Dev.changesOnly.with_held (h : d.changesOnly ps e) (hp : ps.contains .held = true) (x : Tab Word) : d.changesOnly ps { e with held := x } :=
  h.step (e.parts_held x) hp

theorem Dev.changesOnly.with_tabs (h : d.changesOnly ps e) (hp : ps.contains .tabs = true) (x : Tab Entry) : d.changesOnly ps { e with tabs := x } :=
  h.step (e.parts_tabs x) hp

theorem Dev.changesOnly.with_free (h : d.changesOnly ps e) (hp : ps.contains .free = true) (x : Nat) : d.changesOnly ps { e with free := x } :=
  h.step (e.parts_free x) hp

theorem Dev.changesOnly.with_out (h : d.changesOnly ps e) (hp : ps.contains .out = true) (x : List Emission) : d.changesOnly ps { e with out := x } :=
  h.step (e.parts_out x) hp

theorem Dev.changesOnly.with_tim (h : d.changesOnly ps e) (hp : ps.contains .tim = true) (x : Tim) : d.changesOnly ps { e with tim := x } :=
  h.step (e.parts_tim x) hp

theorem Dev.changesOnly.with_evt (h : d.changesOnly ps e) (hp : ps.contains .evt = true) (x : Evt) : d.changesOnly ps { e with evt := x } :=
  h.step (e.parts_evt x) hp

theorem Dev.changesOnly.with_pkt (h : d.changesOnly ps e) (hp : ps.contains .pkt = true) (x : Pkt) : d.changesOnly ps { e with pkt := x } :=
  h.step (e.parts_pkt x) hp

theorem Dev.changesOnly.with_que (h : d.changesOnly ps e) (hp : ps.contains .que = true) (x : Que) : d.changesOnly ps { e with que := x } :=
  h.step (e.parts_que x) hp

theorem Dev.changesOnly.with_tsk (h : d.changesOnly ps e) (hp : ps.contains .tsk = true) (x : Tsk) : d.changesOnly ps { e with tsk := x } :=
  h.step (e.parts_tsk x) hp

theorem Dev.changesOnly.with_regions (h : d.changesOnly ps e) (hp : ps.contains .regions = true) (x : Tab Region) : d.changesOnly ps { e with regions := x } :=
  h.step (e.parts_regions x) hp

theorem Dev.changesOnly.with_fwd (h : d.changesOnly ps e) (hp : ps.contains .fwd = true) (x : Fwd) : d.changesOnly ps { e with fwd := x } :=
  h.step (e.parts_fwd x) hp

theorem Dev.changesOnly.with_vdc (h : d.changesOnly ps e) (hp : ps.contains .vdc = true) (x : Vdc) : d.changesOnly ps { e with vdc := x } :=
  h.step (e.parts_vdc x) hp

theorem Dev.changesOnly.with_cmp (h : d.changesOnly ps e) (hp : ps.contains .cmp = true) (x : Cmp) : d.changesOnly ps { e with cmp := x } :=
  h.step (e.parts_cmp x) hp

theorem Dev.changesOnly.with_ven (h : d.changesOnly ps e) (hp : ps.contains .ven = true) (x : Ven) : d.changesOnly ps { e with ven := x } :=
  h.step (e.parts_ven x) hp

theorem Dev.changesOnly.with_aud (h : d.changesOnly ps e) (hp : ps.contains .aud = true) (x : Aud) : d.changesOnly ps { e with aud := x } :=
  h.step (e.parts_aud x) hp

theorem Dev.changesOnly.with_egs (h : d.changesOnly ps e) (hp : ps.contains .egs = true) (x : Egs) : d.changesOnly ps { e with egs := x } :=
  h.step (e.parts_egs x) hp

theorem Dev.changesOnly.with_vlt (h : d.changesOnly ps e) (hp : ps.contains .vlt = true) (x : Vlt) : d.changesOnly ps { e with vlt := x } :=
  h.step (e.parts_vlt x) hp

theorem Dev.changesOnly.with_mac (h : d.changesOnly ps e) (hp : ps.contains .mac = true) (x : Mac) : d.changesOnly ps { e with mac := x } :=
  h.step (e.parts_mac x) hp

theorem Dev.changesOnly.with_tap (h : d.changesOnly ps e) (hp : ps.contains .tap = true) (x : TapU) : d.changesOnly ps { e with tap := x } :=
  h.step (e.parts_tap x) hp

theorem Dev.changesOnly.with_pci (h : d.changesOnly ps e) (hp : ps.contains .pci = true) (x : Pci) : d.changesOnly ps { e with pci := x } :=
  h.step (e.parts_pci x) hp

theorem Dev.changesOnly.with_mem (h : d.changesOnly ps e) (hp : ps.contains .mem = true) (x : Mem) : d.changesOnly ps { e with mem := x } :=
  h.step (e.parts_mem x) hp

theorem Dev.changesOnly.with_pwr (h : d.changesOnly ps e) (hp : ps.contains .pwr = true) (x : Pwr) : d.changesOnly ps { e with pwr := x } :=
  h.step (e.parts_pwr x) hp

theorem Dev.changesOnly.with_mul (h : d.changesOnly ps e) (hp : ps.contains .mul = true) (x : Mul) : d.changesOnly ps { e with mul := x } :=
  h.step (e.parts_mul x) hp

theorem Dev.changesOnly.with_cfg (h : d.changesOnly ps e) (hp : ps.contains .cfg = true) (x : CfgU) : d.changesOnly ps { e with cfg := x } :=
  h.step (e.parts_cfg x) hp

theorem Dev.changesOnly.with_lmd (h : d.changesOnly ps e) (hp : ps.contains .lmd = true) (x : Lmd) : d.changesOnly ps { e with lmd := x } :=
  h.step (e.parts_lmd x) hp

theorem Dev.changesOnly.evtStep {e' : Dev} (h : d.changesOnly ps e) (h1 : e.evtOnly e') (h2 : [Part.regs, .evt, .out].all ps.contains = true) :
    d.changesOnly ps e' :=
  h.trans (h1.changes.mono fun p hp => by simpa using List.all_eq_true.1 h2 p hp)

theorem Dev.changesOnly.raise (h : d.changesOnly ps e) (hp : [Part.regs, .evt, .out].all ps.contains = true) (s a b : Nat) :
    d.changesOnly ps (e.raise s a b) :=
  h.evtStep (e.raise_evtOnly s a b) hp

theorem Dev.changesOnly.raiseOnce (h : d.changesOnly ps e) (hp : [Part.regs, .evt, .out].all ps.contains = true) (s a b : Nat) :
    d.changesOnly ps (e.raiseOnce s a b) :=
  h.evtStep (e.raiseOnce_evtOnly s a b) hp

theorem Dev.changesOnly.raiseOn (h : d.changesOnly ps e) (hp : [Part.regs, .evt, .out].all ps.contains = true) (s v a b : Nat) :
    d.changesOnly ps (e.raiseOn s v a b) :=
  h.evtStep (e.raiseOn_evtOnly s v a b) hp

theorem Dev.changesOnly.raiseMem (h : d.changesOnly ps e) (hp : [Part.regs, .evt, .out].all ps.contains = true) (s a b c : Nat) :
    d.changesOnly ps (e.raiseMem s a b c) :=
  h.evtStep (e.raiseMem_evtOnly s a b c) hp

theorem Dev.changesOnly.message (h : d.changesOnly ps e) (hp : [Part.regs, .evt, .out].all ps.contains = true) (v : Nat) :
    d.changesOnly ps (e.message v) :=
  h.evtStep (e.message_evtOnly v) hp

theorem Dev.changesOnly.when {c : Bool} {f : Dev → Dev} (h : d.changesOnly ps e) (hf : d.changesOnly ps (f e)) : d.changesOnly ps (e.when c f) := by
  unfold Dev.when
  split
  · exact hf
  · exact h

/-! ### Registers -/

variable {l : List Nat}

theorem Dev.keepsRegsE.setReg (h : d.keepsRegsE l e) {o : Nat} (w : Word) (ho : o ∈ l) : d.keepsRegsE l (e.setReg o w) := fun o' h1 h2 => by
  rw [Dev.reg_setReg_ne _ _ _ (show o' ≠ o from fun he => h1 (by rw [he]; exact ho))]
  exact h o' h1 h2

theorem Dev.keepsRegsE.setFld (h : d.keepsRegsE l e) {o : Nat} (a b v : Nat) (ho : o ∈ l) : d.keepsRegsE l (e.setFld o a b v) := h.setReg _ ho

theorem Dev.keepsRegsE.setFlag (h : d.keepsRegsE l e) {o : Nat} (i : Nat) (b : Bool) (ho : o ∈ l) : d.keepsRegsE l (e.setFlag o i b) := h.setReg _ ho

theorem Dev.keepsRegsE.setReg64 (h : d.keepsRegsE l e) {a b : Nat} (v : Nat) (h1 : a ∈ l) (h2 : b ∈ l) : d.keepsRegsE l (e.setReg64 a b v) :=
  (h.setReg _ h1).setReg _ h2

theorem Dev.keepsRegsE.cnt (h : d.keepsRegsE l e) {a c : Nat} (n : Nat) (h1 : a + 8 * c ∈ l) (h2 : a + 8 * c + 4 ∈ l) :
    d.keepsRegsE l (e.cnt a c n) := h.setReg64 _ h1 h2

theorem Dev.keepsRegsE.count (h : d.keepsRegsE l e) {a : Nat} (n : Nat) (h1 : a ∈ l) (h2 : a + 4 ∈ l) :
    d.keepsRegsE l (e.count a n) := h.setReg64 _ h1 h2

theorem Dev.keepsRegsE.writeReg (h : d.keepsRegsE l e) {o : Nat} (v : Word) (ho : o ∈ l) : d.keepsRegsE l (e.writeReg o v) := fun o' h1 h2 => by
  rw [Dev.reg_writeReg_ne _ _ _ (show o' ≠ o from fun he => h1 (by rw [he]; exact ho))]
  exact h o' h1 h2

theorem Dev.keepsRegsE.tabCmd (h : d.keepsRegsE l e) {o : Nat} (v : Word) (ho : o ∈ l) : d.keepsRegsE l (e.tabCmd o v) := h.writeReg v ho

theorem Dev.keepsRegsE.tabErr (h : d.keepsRegsE l e) {o : Nat} (c : Nat) (ho : o ∈ l) : d.keepsRegsE l (e.tabErr o c) := fun o' h1 h2 => by
  rw [Dev.reg_tabErr_ne _ _ _ (show o' ≠ o from fun he => h1 (by rw [he]; exact ho))]
  exact h o' h1 h2

theorem Dev.keepsRegsE.regs_eq (h : d.keepsRegsE l e) {e' : Dev} (he : e'.regs = e.regs) : d.keepsRegsE l e' := fun o h1 h2 => by
  rw [← h o h1 h2]
  unfold Dev.reg
  rw [he]

theorem Dev.keepsRegsE.raise (h : d.keepsRegsE l e) (s a b : Nat) : d.keepsRegsE l (e.raise s a b) := fun o h1 h2 => by
  rw [Dev.raise_reg _ _ _ _ h2]
  exact h o h1 h2

theorem Dev.keepsRegsE.raiseOnce (h : d.keepsRegsE l e) (s a b : Nat) : d.keepsRegsE l (e.raiseOnce s a b) := fun o h1 h2 => by
  rw [Dev.raiseOnce_reg _ _ _ _ h2]
  exact h o h1 h2

theorem Dev.keepsRegsE.raiseMem (h : d.keepsRegsE l e) (s a b c : Nat) : d.keepsRegsE l (e.raiseMem s a b c) := fun o h1 h2 => by
  rw [Dev.raiseMem_reg _ _ _ _ _ h2]
  exact h o h1 h2

theorem Dev.keepsRegsE.raiseOn (h : d.keepsRegsE l e) (s : Nat) {v : Nat} (a b : Nat) (hv : v < 64) : d.keepsRegsE l (e.raiseOn s v a b) := fun o h1 h2 => by
  rw [Dev.raiseOn_reg _ _ _ _ hv h2]
  exact h o h1 h2

theorem Dev.keepsRegsE.message (h : d.keepsRegsE l e) {v : Nat} (hv : v < 64) : d.keepsRegsE l (e.message v) := fun o h1 h2 => by
  rw [Dev.message_reg _ hv h2]
  exact h o h1 h2

theorem Dev.keepsRegsE.setEnt (h : d.keepsRegsE l e) (u : TabUnit) (t i : Nat) (x : Entry) : d.keepsRegsE l (e.setEnt u t i x) := h.regs_eq (by simp)

theorem Dev.keepsRegsE.emit (h : d.keepsRegsE l e) (x : Emission) : d.keepsRegsE l (e.emit x) := h.regs_eq (by simp)

theorem Dev.keepsRegsE.push (h : d.keepsRegsE l e) (x : Act) : d.keepsRegsE l (e.push x) := h.regs_eq (by simp)

theorem Dev.keepsRegsE.with_now (h : d.keepsRegsE l e) (x : Nat) : d.keepsRegsE l { e with now := x } := h.regs_eq rfl

theorem Dev.keepsRegsE.with_beat (h : d.keepsRegsE l e) (x : Nat) : d.keepsRegsE l { e with beat := x } := h.regs_eq rfl

theorem Dev.keepsRegsE.with_fclk (h : d.keepsRegsE l e) (x : Nat) : d.keepsRegsE l { e with fclk := x } := h.regs_eq rfl

theorem Dev.keepsRegsE.with_mode (h : d.keepsRegsE l e) (x : Mode) : d.keepsRegsE l { e with mode := x } := h.regs_eq rfl

theorem Dev.keepsRegsE.with_before (h : d.keepsRegsE l e) (x : Mode) : d.keepsRegsE l { e with before := x } := h.regs_eq rfl

theorem Dev.keepsRegsE.with_latches (h : d.keepsRegsE l e) (x : Tab Word) : d.keepsRegsE l { e with latches := x } := h.regs_eq rfl

theorem Dev.keepsRegsE.with_held (h : d.keepsRegsE l e) (x : Tab Word) : d.keepsRegsE l { e with held := x } := h.regs_eq rfl

theorem Dev.keepsRegsE.with_tabs (h : d.keepsRegsE l e) (x : Tab Entry) : d.keepsRegsE l { e with tabs := x } := h.regs_eq rfl

theorem Dev.keepsRegsE.with_free (h : d.keepsRegsE l e) (x : Nat) : d.keepsRegsE l { e with free := x } := h.regs_eq rfl

theorem Dev.keepsRegsE.with_out (h : d.keepsRegsE l e) (x : List Emission) : d.keepsRegsE l { e with out := x } := h.regs_eq rfl

theorem Dev.keepsRegsE.with_tim (h : d.keepsRegsE l e) (x : Tim) : d.keepsRegsE l { e with tim := x } := h.regs_eq rfl

theorem Dev.keepsRegsE.with_evt (h : d.keepsRegsE l e) (x : Evt) : d.keepsRegsE l { e with evt := x } := h.regs_eq rfl

theorem Dev.keepsRegsE.with_pkt (h : d.keepsRegsE l e) (x : Pkt) : d.keepsRegsE l { e with pkt := x } := h.regs_eq rfl

theorem Dev.keepsRegsE.with_que (h : d.keepsRegsE l e) (x : Que) : d.keepsRegsE l { e with que := x } := h.regs_eq rfl

theorem Dev.keepsRegsE.with_tsk (h : d.keepsRegsE l e) (x : Tsk) : d.keepsRegsE l { e with tsk := x } := h.regs_eq rfl

theorem Dev.keepsRegsE.with_regions (h : d.keepsRegsE l e) (x : Tab Region) : d.keepsRegsE l { e with regions := x } := h.regs_eq rfl

theorem Dev.keepsRegsE.with_fwd (h : d.keepsRegsE l e) (x : Fwd) : d.keepsRegsE l { e with fwd := x } := h.regs_eq rfl

theorem Dev.keepsRegsE.with_vdc (h : d.keepsRegsE l e) (x : Vdc) : d.keepsRegsE l { e with vdc := x } := h.regs_eq rfl

theorem Dev.keepsRegsE.with_cmp (h : d.keepsRegsE l e) (x : Cmp) : d.keepsRegsE l { e with cmp := x } := h.regs_eq rfl

theorem Dev.keepsRegsE.with_ven (h : d.keepsRegsE l e) (x : Ven) : d.keepsRegsE l { e with ven := x } := h.regs_eq rfl

theorem Dev.keepsRegsE.with_aud (h : d.keepsRegsE l e) (x : Aud) : d.keepsRegsE l { e with aud := x } := h.regs_eq rfl

theorem Dev.keepsRegsE.with_egs (h : d.keepsRegsE l e) (x : Egs) : d.keepsRegsE l { e with egs := x } := h.regs_eq rfl

theorem Dev.keepsRegsE.with_vlt (h : d.keepsRegsE l e) (x : Vlt) : d.keepsRegsE l { e with vlt := x } := h.regs_eq rfl

theorem Dev.keepsRegsE.with_mac (h : d.keepsRegsE l e) (x : Mac) : d.keepsRegsE l { e with mac := x } := h.regs_eq rfl

theorem Dev.keepsRegsE.with_tap (h : d.keepsRegsE l e) (x : TapU) : d.keepsRegsE l { e with tap := x } := h.regs_eq rfl

theorem Dev.keepsRegsE.with_pci (h : d.keepsRegsE l e) (x : Pci) : d.keepsRegsE l { e with pci := x } := h.regs_eq rfl

theorem Dev.keepsRegsE.with_mem (h : d.keepsRegsE l e) (x : Mem) : d.keepsRegsE l { e with mem := x } := h.regs_eq rfl

theorem Dev.keepsRegsE.with_pwr (h : d.keepsRegsE l e) (x : Pwr) : d.keepsRegsE l { e with pwr := x } := h.regs_eq rfl

theorem Dev.keepsRegsE.with_mul (h : d.keepsRegsE l e) (x : Mul) : d.keepsRegsE l { e with mul := x } := h.regs_eq rfl

theorem Dev.keepsRegsE.with_cfg (h : d.keepsRegsE l e) (x : CfgU) : d.keepsRegsE l { e with cfg := x } := h.regs_eq rfl

theorem Dev.keepsRegsE.with_lmd (h : d.keepsRegsE l e) (x : Lmd) : d.keepsRegsE l { e with lmd := x } := h.regs_eq rfl

theorem Dev.keepsRegs.toE {d e : Dev} {l : List Nat} (h : d.keepsRegs l e) : d.keepsRegsE l e := fun o h1 _ => h o h1

/-! ### Statuses -/

theorem Dev.statLe.setReg (h : d.statLe e) {o : Nat} (w : Word) (ho : evtSetReg o = false) : d.statLe (e.setReg o w) := h.trans (e.statLe_setReg w ho)

theorem Dev.statLe.setFld (h : d.statLe e) {o : Nat} (a b v : Nat) (ho : evtSetReg o = false) : d.statLe (e.setFld o a b v) := h.setReg _ ho

theorem Dev.statLe.setFlag (h : d.statLe e) {o : Nat} (i : Nat) (b : Bool) (ho : evtSetReg o = false) : d.statLe (e.setFlag o i b) := h.setReg _ ho

theorem Dev.statLe.cnt (h : d.statLe e) {a c : Nat} (n : Nat) (h1 : evtSetReg (a + 8 * c) = false) (h2 : evtSetReg (a + 8 * c + 4) = false) :
    d.statLe (e.cnt a c n) := h.trans (e.statLe_cnt n h1 h2)

theorem Dev.statLe.raise (h : d.statLe e) (s a b : Nat) : d.statLe (e.raise s a b) := h.trans (e.raise_statLe s a b)

theorem Dev.statLe.raiseOnce (h : d.statLe e) (s a b : Nat) : d.statLe (e.raiseOnce s a b) := h.trans (e.raiseOnce_statLe s a b)

theorem Dev.statLe.setEnt (h : d.statLe e) (u : TabUnit) (t i : Nat) (x : Entry) : d.statLe (e.setEnt u t i x) := h.trans (Dev.statLe_tabs e _)

theorem Dev.statLe.emit (h : d.statLe e) (x : Emission) : d.statLe (e.emit x) := h.trans (Dev.statLe_out e _)

theorem Dev.statLe.push (h : d.statLe e) (x : Act) : d.statLe (e.push x) := h.trans (Dev.statLe_tsk e _)

theorem Dev.statLe.with_beat (h : d.statLe e) (x : Nat) : d.statLe { e with beat := x } := h.trans (Dev.statLe_beat e x)

theorem Dev.statLe.with_fclk (h : d.statLe e) (x : Nat) : d.statLe { e with fclk := x } := h.trans (Dev.statLe_fclk e x)

theorem Dev.statLe.with_mode (h : d.statLe e) (x : Mode) : d.statLe { e with mode := x } := h.trans (Dev.statLe_mode e x)

theorem Dev.statLe.with_tabs (h : d.statLe e) (x : Tab Entry) : d.statLe { e with tabs := x } := h.trans (Dev.statLe_tabs e x)

theorem Dev.statLe.with_free (h : d.statLe e) (x : Nat) : d.statLe { e with free := x } := h.trans (Dev.statLe_free e x)

theorem Dev.statLe.with_out (h : d.statLe e) (x : List Emission) : d.statLe { e with out := x } := h.trans (Dev.statLe_out e x)

theorem Dev.statLe.with_tim (h : d.statLe e) (x : Tim) : d.statLe { e with tim := x } := h.trans (Dev.statLe_tim e x)

theorem Dev.statLe.with_pkt (h : d.statLe e) (x : Pkt) : d.statLe { e with pkt := x } := h.trans (Dev.statLe_pkt e x)

theorem Dev.statLe.with_que (h : d.statLe e) (x : Que) : d.statLe { e with que := x } := h.trans (Dev.statLe_que e x)

theorem Dev.statLe.with_tsk (h : d.statLe e) (x : Tsk) : d.statLe { e with tsk := x } := h.trans (Dev.statLe_tsk e x)

theorem Dev.statLe.with_regions (h : d.statLe e) (x : Tab Region) : d.statLe { e with regions := x } := h.trans (Dev.statLe_regions e x)

theorem Dev.statLe.with_fwd (h : d.statLe e) (x : Fwd) : d.statLe { e with fwd := x } := h.trans (Dev.statLe_fwd e x)

theorem Dev.statLe.with_vdc (h : d.statLe e) (x : Vdc) : d.statLe { e with vdc := x } := h.trans (Dev.statLe_vdc e x)

theorem Dev.statLe.with_cmp (h : d.statLe e) (x : Cmp) : d.statLe { e with cmp := x } := h.trans (Dev.statLe_cmp e x)

theorem Dev.statLe.with_ven (h : d.statLe e) (x : Ven) : d.statLe { e with ven := x } := h.trans (Dev.statLe_ven e x)

theorem Dev.statLe.with_aud (h : d.statLe e) (x : Aud) : d.statLe { e with aud := x } := h.trans (Dev.statLe_aud e x)

theorem Dev.statLe.with_egs (h : d.statLe e) (x : Egs) : d.statLe { e with egs := x } := h.trans (Dev.statLe_egs e x)

theorem Dev.statLe.with_vlt (h : d.statLe e) (x : Vlt) : d.statLe { e with vlt := x } := h.trans (Dev.statLe_vlt e x)

theorem Dev.statLe.with_mac (h : d.statLe e) (x : Mac) : d.statLe { e with mac := x } := h.trans (Dev.statLe_mac e x)

theorem Dev.statLe.with_tap (h : d.statLe e) (x : TapU) : d.statLe { e with tap := x } := h.trans (Dev.statLe_tap e x)

theorem Dev.statLe.with_pci (h : d.statLe e) (x : Pci) : d.statLe { e with pci := x } := h.trans (Dev.statLe_pci e x)

theorem Dev.statLe.with_mem (h : d.statLe e) (x : Mem) : d.statLe { e with mem := x } := h.trans (Dev.statLe_mem e x)

theorem Dev.statLe.with_pwr (h : d.statLe e) (x : Pwr) : d.statLe { e with pwr := x } := h.trans (Dev.statLe_pwr e x)

theorem Dev.statLe.with_mul (h : d.statLe e) (x : Mul) : d.statLe { e with mul := x } := h.trans (Dev.statLe_mul e x)

theorem Dev.statLe.with_cfg (h : d.statLe e) (x : CfgU) : d.statLe { e with cfg := x } := h.trans (Dev.statLe_cfg e x)

theorem Dev.statLe.with_lmd (h : d.statLe e) (x : Lmd) : d.statLe { e with lmd := x } := h.trans (Dev.statLe_lmd e x)

theorem Dev.statLe.with_evt (h : d.statLe e) (x : Evt) : d.statLe { e with evt := x } := h.trans (e.statLe_withEvt x)

end Sys2Proof.Machine
end

