-- ==== Sys2Proof/Laws/Tables.lean ====
section
/-! SUPPORT. What the shared steps of a table command leave: its fields, its error bits, its DATA words. -/

namespace Sys2Proof.Machine
open Sys2Proof

/-- Whether a table command register has ERRCODE. -/
def hasCode (cmd : Nat) : Bool :=
  match regDesc cmd with
  | some r => r.fields.any (fun f => f.hi == 7 && f.lo == 4)
  | none => false

theorem Dev.tabStat_iff (d : Dev) (cmd code : Nat) :
    d.tabStat cmd code ↔ d.flag cmd 1 = decide (code ≠ 0) ∧ (hasCode cmd = true → d.fld cmd 7 4 = code) := Iff.rfl

theorem bit_eq_bits (w : Word) (i : Nat) : bit w i = (bits w i i == 1) := by
  unfold bit bits
  exact congrArg (fun n => w.toNat / 2 ^ i % 2 ^ n == 1) (Nat.add_sub_cancel_left (n := i) (m := 1)).symm

theorem bit_setBit (w : Word) (i : Nat) (b : Bool) (h : i < 32) : bit (setBit w i b) i = b := bit_setBits w i b h

theorem Dev.tabErr_eq (d : Dev) {cmd code : Nat} {r : RegDesc} (h : regDesc cmd = some r) :
    d.tabErr cmd code = d.setReg cmd (if hasCode cmd then setBits (setBit (d.reg cmd) 1 (decide (code ≠ 0))) 7 4 code
      else setBit (d.reg cmd) 1 (decide (code ≠ 0))) := by
  unfold Dev.tabErr hasCode
  rw [h]

/-- What tabErr leaves: ERR, ERRCODE, and the fields above them. -/
theorem Dev.tabErr_stat (d : Dev) {cmd code : Nat} {r : RegDesc} (h : regDesc cmd = some r) (hc : code < 16) :
    (d.tabErr cmd code).tabStat cmd code := by
  rw [Dev.tabStat_iff, Dev.tabErr_eq d h]
  unfold Dev.flag Dev.fld
  rw [Dev.reg_setReg_self]
  cases hasCode cmd
  · refine ⟨?_, fun h => absurd h (by decide)⟩
    rw [if_neg (by decide), bit_setBit _ _ _ (by decide)]
  · rw [if_pos rfl]
    refine ⟨?_, fun _ => ?_⟩
    · rw [bit_setBits_ne _ _ _ _ _ (by decide) (by decide) (by decide), bit_setBit _ _ _ (by decide)]
    · rw [bits_setBits _ _ _ _ (by decide) (by decide)]
      exact Nat.mod_eq_of_lt hc

theorem Dev.tabErr_fld (d : Dev) (cmd code : Nat) {hi lo : Nat} (hl : 8 ≤ lo) : (d.tabErr cmd code).fld cmd hi lo = d.fld cmd hi lo := by
  unfold Dev.fld
  unfold Dev.tabErr
  dsimp only
  split
  · rw [Dev.reg_setReg_self]
    split
    · rw [bits_setBits_ne _ _ _ _ _ _ (by decide) (by decide) (by omega), setBit,
        bits_setBits_ne _ _ _ _ _ _ (by decide) (by decide) (by omega)]
    · rw [setBit, bits_setBits_ne _ _ _ _ _ _ (by decide) (by decide) (by omega)]
  · rfl

theorem dataRegs_mem {data words o : Nat} : o ∈ dataRegs data words ↔ ∃ k, k < words ∧ data + 4 * k = o := by
  unfold dataRegs
  simp [List.mem_map, List.mem_range]

theorem Dev.reg_putData_data (d : Dev) (b n : Nat) (e : Entry) {k : Nat} (h : k < n) : (d.putData b n e).reg (b + 4 * k) = Entry.word e k := by
  rw [Dev.reg_putData, if_pos (by omega)]
  congr 1
  omega

theorem Dev.reg_putData_ne (d : Dev) (b n : Nat) (e : Entry) {o : Nat} (h : o ∉ dataRegs b n) : (d.putData b n e).reg o = d.reg o := by
  rw [Dev.reg_putData]
  split
  · rename_i h'
    exact absurd (dataRegs_mem.2 ⟨(o - b) / 4, by omega, by omega⟩) h
  · rfl

/-- A table READ. -/
theorem readsTable {c : Path → Word → Instr} {f : Word → Dev → Dev} {cmd addr data words hi : Nat} {beyond : Nat → Nat → Bool}
    {get : Dev → Nat → Nat → Entry} {bad tables : Nat} {r : RegDesc} {g : RegField}
    (hx : ∀ p v s, exec (c p v) s = onDev (f v) s)
    (hf : ∀ v d, f v d = (if beyond ((d.tabCmd cmd v).fld cmd 27 24) ((d.tabCmd cmd v).fld addr hi 0) = true then (d.tabCmd cmd v).tabErr cmd bad
      else ((d.tabCmd cmd v).putData data words (get (d.tabCmd cmd v) ((d.tabCmd cmd v).fld cmd 27 24) ((d.tabCmd cmd v).fld addr hi 0))).tabErr cmd 0))
    (hr : regDesc cmd = some r) (hg : g ∈ r.fields) (h1 : g.hi = 27) (h2 : g.lo = 24) (h3 : g.acc = .rw)
    (h4 : ∀ x, g.legal x = decide (x < tables)) (ha : addr ≠ cmd) (hd : ∀ k, k < words → data + 4 * k ≠ cmd) (hb : bad < 16) :
    ReadsTable c cmd addr data words hi beyond get bad tables := by
  intro s p v t i hs ht hi'
  have et : (s.dev.tabCmd cmd v).fld cmd 27 24 = t := by
    show (s.dev.writeReg cmd v).fld cmd 27 24 = t
    rw [Dev.fld_writeReg _ _ _ hr hg h1 h2 (by rw [h3]; decide), ht]
    unfold fieldWrite
    rw [h3]
    simp only [h4, decide_eq_true_iff]
  have ei : (s.dev.tabCmd cmd v).fld addr hi 0 = i := by
    rw [hi']
    unfold Dev.fld
    exact congrArg (bits · hi 0) (Dev.reg_writeReg_ne _ _ _ ha)
  have hnd : cmd ∉ dataRegs data words := fun h => by
    obtain ⟨k, hk, e⟩ := dataRegs_mem.1 h
    exact hd k hk e
  have hfv := hf v s.dev
  rw [et, ei] at hfv
  by_cases hle : beyond t i = true
  · rw [if_pos hle] at hfv
    refine Answers.of_eq (hx p v s) hfv hs (by simp) (by simp) (by simp) ⟨?_, fun h => absurd hle (by rw [h]; decide), fun _ => ⟨?_, ?_⟩, ?_, rfl, rfl, rfl⟩
    · show ((s.dev.tabCmd cmd v).tabErr cmd bad).fld cmd 27 24 = t
      rw [Dev.tabErr_fld _ _ _ (by decide), et]
    · exact Dev.tabErr_stat _ hr hb
    · intro o ho
      have ho' : o ≠ cmd := fun e => ho (e ▸ List.mem_singleton.2 rfl)
      show ((s.dev.tabCmd cmd v).tabErr cmd bad).reg o = s.dev.reg o
      rw [Dev.reg_tabErr_ne _ _ _ ho']
      exact Dev.reg_writeReg_ne _ _ _ ho'
    · exact ((Dev.changesOnly_refl _ _).tabCmd (by decide) _ _).tabErr (by decide) _ _
  · rw [if_neg hle] at hfv
    refine Answers.of_eq (hx p v s) hfv hs (by simp) (by simp) (by simp) ⟨?_, fun _ => ⟨?_, ?_, ?_⟩, fun h => absurd h hle, ?_, rfl, rfl, rfl⟩
    · show (((s.dev.tabCmd cmd v).putData data words _).tabErr cmd 0).fld cmd 27 24 = t
      rw [Dev.tabErr_fld _ _ _ (by decide)]
      rw [← et]
      unfold Dev.fld
      rw [Dev.reg_putData_ne _ _ _ _ hnd]
    · intro k hk
      show (((s.dev.tabCmd cmd v).putData data words _).tabErr cmd 0).reg (data + 4 * k) = _
      rw [Dev.reg_tabErr_ne _ _ _ (hd k hk), Dev.reg_putData_data _ _ _ _ hk]
      rfl
    · exact Dev.tabErr_stat _ hr (by decide)
    · intro o ho
      have ho' : o ≠ cmd := fun e => ho (e ▸ List.mem_cons_self ..)
      have ho2 : o ∉ dataRegs data words := fun e => ho (List.mem_cons_of_mem _ e)
      show (((s.dev.tabCmd cmd v).putData data words _).tabErr cmd 0).reg o = s.dev.reg o
      rw [Dev.reg_tabErr_ne _ _ _ ho', Dev.reg_putData_ne _ _ _ _ ho2]
      exact Dev.reg_writeReg_ne _ _ _ ho'
    · exact (((Dev.changesOnly_refl _ _).tabCmd (by decide) _ _).putData (by decide) _ _ _).tabErr (by decide) _ _

/-- A table command turned away. -/
theorem refusesTable {c : Path → Word → Instr} {f : Word → Dev → Dev} {cmd code : Nat} {r : RegDesc} {w : Dev → Word → Prop}
    (hx : ∀ p v s, exec (c p v) s = onDev (f v) s)
    (hf : ∀ v d, w (d.writeReg cmd v) v → f v d = (d.tabCmd cmd v).tabErr cmd code)
    (hr : regDesc cmd = some r) (hb : code < 16) : RefusesTable c cmd code w := by
  intro s p v hs hw
  refine Answers.of_eq (hx p v s) (hf v s.dev hw) hs (by simp) (by simp) (by simp) ⟨Dev.tabErr_stat _ hr hb, ?_, ?_, rfl, rfl, rfl⟩
  · intro o ho
    have ho' : o ≠ cmd := fun e => ho (e ▸ List.mem_singleton.2 rfl)
    show ((s.dev.tabCmd cmd v).tabErr cmd code).reg o = s.dev.reg o
    rw [Dev.reg_tabErr_ne _ _ _ ho']
    exact Dev.reg_writeReg_ne _ _ _ ho'
  · exact ((Dev.changesOnly_refl _ _).tabCmd (by decide) _ _).tabErr (by decide) _ _

/-- A table WRITE, where the command's operation is a write of the entry followed by steps that write no register, no entry and no work. -/
theorem writesTable {c : Path → Word → Instr} {f : Word → Dev → Dev} {cmd addr data hi tables : Nat} {u : TabUnit} {parts : List Part}
    {key : Dev → Nat → Nat → Nat × Nat} {val : Dev → Nat → Nat → Entry → Entry} {ok : Dev → Nat → Nat → Entry → Prop} {r : RegDesc} {g : RegField}
    (hx : ∀ p v s, exec (c p v) s = onDev (f v) s)
    (hf : ∀ v d0 d t i n, d0.tabCmd cmd v = d → d.fld cmd 27 24 = t → d.fld addr hi 0 = i → d.dataEntry data = n →
      ok d t i n → ∃ e : Dev, f v d0 = e.tabErr cmd 0 ∧
          e.tabs = tabSet entReset d.tabs (tabKey u (key d t i).1 (key d t i).2) (val d t i n) ∧ e.regs = d.regs ∧
          e.tsk.todo = d.tsk.todo ∧ e.pci = d.pci ∧ e.mode = d.mode ∧ d.changesOnly parts e)
    (hp : parts.contains .regs = true) (hr : regDesc cmd = some r) (hg : g ∈ r.fields) (h1 : g.hi = 27) (h2 : g.lo = 24) (h3 : g.acc = .rw)
    (h4 : ∀ x, g.legal x = decide (x < tables)) (ha : addr ≠ cmd) (hd : ∀ k, k < 8 → data + 4 * k ≠ cmd) :
    WritesTable c cmd addr data hi tables u parts key val ok := by
  intro s p v d t i n hs hd' ht hi' hn hok
  have et : (s.dev.tabCmd cmd v).fld cmd 27 24 = t := by
    show (s.dev.writeReg cmd v).fld cmd 27 24 = t
    rw [Dev.fld_writeReg _ _ _ hr hg h1 h2 (by rw [h3]; decide), ht]
    unfold fieldWrite
    rw [h3]
    simp only [h4, decide_eq_true_iff]
  have ei : (s.dev.tabCmd cmd v).fld addr hi 0 = i := by
    rw [hi']
    unfold Dev.fld
    exact congrArg (bits · hi 0) (Dev.reg_writeReg_ne _ _ _ ha)
  have hw : ∀ k, k < 8 → (s.dev.tabCmd cmd v).reg (data + 4 * k) = s.dev.reg (data + 4 * k) :=
    fun k hk => Dev.reg_writeReg_ne _ _ _ (hd k hk)
  have en : (s.dev.tabCmd cmd v).dataEntry data = n := by
    rw [hn]
    unfold Dev.dataEntry
    rw [show data = data + 4 * 0 from rfl, hw 0 (by decide)]
    have a1 := hw 1 (by decide)
    have a2 := hw 2 (by decide)
    have a3 := hw 3 (by decide)
    have a4 := hw 4 (by decide)
    have a5 := hw 5 (by decide)
    have a6 := hw 6 (by decide)
    have a7 := hw 7 (by decide)
    simp only [Nat.mul_zero, Nat.add_zero, Nat.mul_one, Nat.reduceMul] at *
    rw [a1, a2, a3, a4, a5, a6, a7]
  subst hd'
  obtain ⟨e, he, etab, ereg, etodo, epci, emode, eparts⟩ := hf v s.dev _ t i n rfl et ei en hok
  refine Answers.of_eq (hx p v s) he hs (by simp [etodo]) (by simp [epci]) (by simp [emode]) ⟨?_, ?_, Dev.tabErr_stat _ hr (by decide), ?_, ?_, rfl, rfl, rfl⟩
  · show tabGet entReset (e.tabErr cmd 0).tabs _ = _
    rw [Dev.tabErr_tabs, etab]
    exact (tabGet_tabSet _ _ _ _ _).trans (if_pos rfl)
  · intro k hk
    show tabGet entReset (e.tabErr cmd 0).tabs k = _
    rw [Dev.tabErr_tabs, etab, Dev.tabCmd_tabs]
    exact (tabGet_tabSet _ _ _ _ _).trans (if_neg hk)
  · intro o ho
    have ho' : o ≠ cmd := fun x => ho (x ▸ List.mem_singleton.2 rfl)
    show (e.tabErr cmd 0).reg o = s.dev.reg o
    rw [Dev.reg_tabErr_ne _ _ _ ho']
    show tabGet regReset e.regs o = _
    rw [ereg]
    exact Dev.reg_writeReg_ne _ _ _ ho'
  · exact (((Dev.changesOnly_refl _ _).tabCmd hp _ _).trans eparts).tabErr hp _ _

theorem bits_and (a b : Word) (hi lo : Nat) : bits (a &&& b) hi lo = bits a hi lo &&& bits b hi lo := by
  apply Nat.eq_of_testBit_eq
  intro j
  rw [Nat.testBit_and, bits_testBit, bits_testBit, bits_testBit, BitVec.toNat_and, Nat.testBit_and]
  cases decide (j < hi + 1 - lo) <;> simp

/-- A mask that covers a field does not change it. -/
theorem bits_mask (a b : Word) (hi lo : Nat) (h : bits b hi lo = 2 ^ (hi + 1 - lo) - 1) : bits (a &&& b) hi lo = bits a hi lo := by
  rw [bits_and, h]
  exact (Nat.and_two_pow_sub_one_eq_mod ..).trans (Nat.mod_eq_of_lt (bits_lt ..))

theorem bit_mask (a b : Word) (i : Nat) (h : bit b i = true) : bit (a &&& b) i = bit a i := by
  rw [bit_eq_testBit] at h
  rw [bit_eq_testBit, bit_eq_testBit, BitVec.toNat_and, Nat.testBit_and, h, Bool.and_true]

end Sys2Proof.Machine
end

