-- ==== Sys2Proof/Laws/Tasks.lean ====
section
/-! SUPPORT. What ending a host wait and ending a task do. -/

namespace Sys2Proof.Machine
open Sys2Proof

/-! ### Host waits -/

theorem waitOfs_lt (n : Nat) : waitOfs n < 1024 := by unfold waitOfs; omega

/-- The registers of the waits lie outside those of the event unit. -/
theorem waitReg_evt (n : Nat) {o : Nat} (h1 : 0x301000 ≤ o) (h2 : o < 0x301010) : evtSetReg (o + waitOfs n) = false := by
  have h := waitOfs_lt n
  unfold evtSetReg statReg
  have e1 : Reg.EVT_SRC_CFG = 0x01A01000 := rfl
  have e2 : Reg.EVT_STAT = 0x01A00100 := rfl
  rw [e1, e2, decide_eq_false (show ¬ (0x01A00100 ≤ o + waitOfs n) by omega), decide_eq_false (show ¬ (0x01A01000 ≤ o + waitOfs n) by omega)]
  rfl

/-- What the end of a wait keeps of the task unit: everything but the waits and, in each slot, who waits. -/
theorem Dev.endWait_tsk (d : Dev) (n r : Nat) :
    (d.endWait n r).tsk = { d.tsk with waits := tabErase d.tsk.waits n
                                       slots := d.tsk.slots.map fun s => (s.1, { s.2 with hostWaits := s.2.hostWaits.filter fun x => x != n }) } := by
  unfold Dev.endWait
  dsimp only
  rw [Dev.raiseOn_tsk, Dev.setReg_tsk, Dev.setFlag_tsk]
  rfl

theorem Dev.endWait_changes (d : Dev) (n r : Nat) : d.changesOnly [.regs, .tsk, .evt, .out] (d.endWait n r) := by
  unfold Dev.endWait Dev.mapSlots
  dsimp only
  exact (((((Dev.changesOnly_refl _ _).with_tsk (by decide) _).with_tsk (by decide) _).setFlag (by decide) _ _ _).setReg (by decide) _ _).raiseOn
    (by decide) _ _ _ _

theorem fld_lt_64 (d : Dev) (o : Nat) : d.fld o 5 0 < 64 := bits_lt ..

theorem Dev.endWait_keepsE (d : Dev) (n r : Nat) :
    d.keepsRegsE [Reg.TSK_HWAIT_CTRL + waitOfs n, Reg.TSK_HWAIT_RESULT + waitOfs n] (d.endWait n r) := by
  unfold Dev.endWait Dev.mapSlots
  dsimp only
  refine Dev.keepsRegsE.raiseOn ?_ _ _ _ (fld_lt_64 _ _)
  refine Dev.keepsRegsE.setReg ?_ _ (by simp)
  refine Dev.keepsRegsE.setFlag ?_ _ _ (by simp)
  exact ((Dev.keepsRegsE_refl _ _).with_tsk _).with_tsk _

theorem Dev.endWait_statLe (d : Dev) (n r : Nat) : d.statLe (d.endWait n r) := by
  unfold Dev.endWait Dev.mapSlots
  dsimp only
  refine Dev.statLe.trans ?_ (Dev.raiseOn_statLe _ _ _ _ (fld_lt_64 _ _))
  refine Dev.statLe.setReg ?_ _ (waitReg_evt n (by decide) (by decide))
  refine Dev.statLe.setFlag ?_ _ _ (waitReg_evt n (by decide) (by decide))
  exact ((Dev.statLe_refl _).trans (Dev.statLe_tsk _ _)).trans (Dev.statLe_tsk _ _)

theorem Dev.endWaits_cons (d : Dev) (n : Nat) (l : List Nat) (r : Nat) : d.endWaits (n :: l) r = (d.endWait n r).endWaits l r := rfl

/-- The end of several waits: the tasks, cells and work of the task unit stay, and every slot keeps its tasks. -/
theorem Dev.endWaits_spec (d : Dev) (l : List Nat) (r : Nat) :
    (d.endWaits l r).tsk.tasks = d.tsk.tasks ∧ (d.endWaits l r).tsk.cells = d.tsk.cells ∧ (d.endWaits l r).tsk.todo = d.tsk.todo ∧
    (d.endWaits l r).tsk.gens = d.tsk.gens ∧ (d.endWaits l r).tsk.abort = d.tsk.abort ∧
    (∀ p ∈ (d.endWaits l r).tsk.slots, ∃ q ∈ d.tsk.slots, q.2.tasks = p.2.tasks) ∧
    d.changesOnly [.regs, .tsk, .evt, .out] (d.endWaits l r) ∧ d.statLe (d.endWaits l r) ∧
    (∀ o, o < 0x301000 → (d.endWaits l r).reg o = d.reg o) := by
  induction l generalizing d with
  | nil => exact ⟨rfl, rfl, rfl, rfl, rfl, fun p hp => ⟨p, hp, rfl⟩, Dev.changesOnly_refl _ _, Dev.statLe_refl _, fun _ _ => rfl⟩
  | cons n l ih =>
    rw [Dev.endWaits_cons]
    obtain ⟨h1, h2, h3, h4, h5, h6, h7, h8, h9⟩ := ih (d.endWait n r)
    rw [Dev.endWait_tsk] at h1 h2 h3 h4 h5 h6
    refine ⟨h1, h2, h3, h4, h5, ?_, (Dev.endWait_changes d n r).trans h7, (Dev.endWait_statLe d n r).trans h8, ?_⟩
    · intro p hp
      obtain ⟨q, hq, e⟩ := h6 p hp
      obtain ⟨q', hq', rfl⟩ := List.mem_map.1 hq
      exact ⟨q', hq', e⟩
    · intro o ho
      rw [h9 o ho]
      refine Dev.endWait_keepsE d n r o ?_ ?_
      · simp only [List.mem_cons, List.not_mem_nil, or_false, Reg.TSK_HWAIT_CTRL, Reg.TSK_HWAIT_RESULT]
        omega
      · unfold evtReg
        have e2 : Reg.EVT_STAT = 0x01A00100 := rfl
        have e3 : Reg.EVT_CNT_LO = 0x01A00200 := rfl
        have e4 : Reg.MSIX_PBA = 0x01909000 := rfl
        have e5 : Reg.EVT_LOG_HEAD = 0x01A00030 := rfl
        have e6 : Reg.EVT_LOG_TAIL = 0x01A00034 := rfl
        rw [e2, e3, e4, e5, e6, decide_eq_false (show ¬ (0x01A00100 ≤ o) by omega), decide_eq_false (show ¬ (0x01A00200 ≤ o) by omega),
          decide_eq_false (show ¬ (0x01909000 ≤ o) by omega), beq_eq_false_iff_ne.2 (show o ≠ 0x01A00030 by omega),
          beq_eq_false_iff_ne.2 (show o ≠ 0x01A00034 by omega)]
        rfl

/-! ### The end of a task -/

/-- Entries of a mapped store come from entries of the store. -/
theorem mem_tabMap {α : Type} [DecidableEq α] {d : Nat → α} {f : Nat → α → α} {t : Tab α} {p : Nat × α} (h : p ∈ tabMap d f t) :
    ∃ q ∈ t, p = (q.1, f q.1 q.2) := by
  unfold tabMap at h
  obtain ⟨q, hq, e⟩ := List.mem_map.1 (List.mem_filter.1 h).1
  exact ⟨q, hq, e.symm⟩

theorem Dev.clearCells_tsk (d : Dev) (l : List Nat) :
    (d.clearCells l).tsk = { d.tsk with cells := (d.clearCells l).tsk.cells } ∧ d.changesOnly [.tsk] (d.clearCells l) ∧
    (d.clearCells l).regs = d.regs ∧ (d.clearCells l).evt = d.evt := by
  induction l generalizing d with
  | nil => exact ⟨rfl, Dev.changesOnly_refl _ _, rfl, rfl⟩
  | cons c l ih =>
    obtain ⟨h1, h2, h3, h4⟩ := ih (d.setCell c { d.cell c with job := none, yielding := false, aborting := false })
    refine ⟨?_, (((Dev.changesOnly_refl _ d).with_tsk (by decide) _).trans h2 : d.changesOnly [.tsk] _), h3, h4⟩
    exact h1

theorem Dev.cell_setCell (d : Dev) (c : Nat) (x : CellSt) (j : Nat) : (d.setCell c x).cell j = if j = c then x else d.cell j :=
  tabGet_tabSet _ _ _ _ _

/-- The cells of a list are free of their jobs, the others stay. -/
theorem Dev.clearCells_cell (d : Dev) (l : List Nat) (c : Nat) :
    (d.clearCells l).cell c = if c ∈ l then { d.cell c with job := none, yielding := false, aborting := false } else d.cell c := by
  induction l generalizing d with
  | nil => rfl
  | cons a l ih =>
    show ((d.setCell a { d.cell a with job := none, yielding := false, aborting := false }).clearCells l).cell c = _
    rw [ih, Dev.cell_setCell]
    by_cases h : c = a
    · subst h
      simp
    · simp [h]

theorem mem_of_tabFind {α : Type} {t : Tab α} {k : Nat} {v : α} (h : tabFind t k = some v) : (k, v) ∈ t := by
  induction t with
  | nil => cases h
  | cons p t ih =>
    obtain ⟨j, w⟩ := p
    rw [tabFind] at h
    split at h
    · rename_i e
      cases h
      rw [e]
      exact List.mem_cons_self ..
    · exact List.mem_cons_of_mem _ (ih h)

theorem tabFind_tabMap {α : Type} [DecidableEq α] (d : Nat → α) (f : Nat → α → α) {t : Tab α} (hs : tabSorted t = true) (k : Nat) :
    tabGet d (tabMap d f t) k = match tabFind t k with | some v => f k v | none => d k := by
  induction t with
  | nil => rfl
  | cons p t ih =>
    obtain ⟨j, v⟩ := p
    obtain ⟨h1, h2⟩ := (tabSorted_cons j v t).1 hs
    have ih := ih h2
    have hm : tabMap d f ((j, v) :: t) = if f j v = d j then tabMap d f t else (j, f j v) :: tabMap d f t := by
      unfold tabMap
      rw [List.map_cons, List.filter_cons]
      by_cases h : f j v = d j
      · simp [h]
      · simp [h]
    rw [hm]
    by_cases hk : k = j
    · subst hk
      have hn : tabFind t k = none := by
        cases he : tabFind t k with
        | none => rfl
        | some w => exact absurd (h1 _ (mem_of_tabFind he)) (Nat.lt_irrefl _)
      rw [hn] at ih
      split
      · rename_i h
        rw [ih]
        simp [tabFind, h]
      · simp [tabGet, tabFind]
    · split
      · rw [ih]
        simp [tabFind, hk]
      · simp only [tabGet, tabFind, if_neg hk] at ih ⊢
        exact ih

theorem Dev.clearCells_sorted (d : Dev) (l : List Nat) (h : tabSorted d.tsk.cells = true) : tabSorted (d.clearCells l).tsk.cells = true := by
  induction l generalizing d with
  | nil => exact h
  | cons a l ih =>
    refine ih (d.setCell a { d.cell a with job := none, yielding := false, aborting := false }) ?_
    unfold Dev.setCell
    dsimp only
    unfold tabSet
    split
    · exact tabSorted_tabErase a h
    · exact tabSorted_tabInsert a _ h

theorem tabFind_of_mem {α : Type} {t : Tab α} (h : tabSorted t = true) {k : Nat} {v : α} (hm : (k, v) ∈ t) : tabFind t k = some v := by
  induction t with
  | nil => exact absurd hm List.not_mem_nil
  | cons p t ih =>
    obtain ⟨j, w⟩ := p
    obtain ⟨h1, h2⟩ := (tabSorted_cons j w t).1 h
    rcases List.mem_cons.1 hm with e | hm
    · cases e
      rw [tabFind, if_pos rfl]
    · rw [tabFind, if_neg (fun e => absurd (h1 _ hm) (by rw [e]; exact Nat.lt_irrefl _))]
      exact ih h2 hm

/-- Tasks settled one after another: each stays as it is or turns from WAITING to READY, and nothing else changes. -/
theorem Dev.settleAll_spec (d : Dev) (l : List Nat) :
    (foldDev l (fun q d => d.settleReady q) d).tsk = { d.tsk with tasks := (foldDev l (fun q d => d.settleReady q) d).tsk.tasks } ∧
    d.changesOnly [.tsk] (foldDev l (fun q d => d.settleReady q) d) ∧ (foldDev l (fun q d => d.settleReady q) d).regs = d.regs ∧
    (∀ j, (foldDev l (fun q d => d.settleReady q) d).task j = d.task j ∨
      (j ∈ l ∧ ∃ y, d.task j = some y ∧ y.st = St.waiting ∧ (foldDev l (fun q d => d.settleReady q) d).task j = some { y with st := St.ready })) := by
  induction l generalizing d with
  | nil => exact ⟨rfl, Dev.changesOnly_refl _ _, rfl, fun _ => .inl rfl⟩
  | cons a l ih =>
    have one : (d.settleReady a).tsk = { d.tsk with tasks := (d.settleReady a).tsk.tasks } ∧ d.changesOnly [.tsk] (d.settleReady a) ∧
        (d.settleReady a).regs = d.regs ∧ (∀ j, (d.settleReady a).task j = d.task j ∨
          (j = a ∧ ∃ y, d.task j = some y ∧ y.st = St.waiting ∧ (d.settleReady a).task j = some { y with st := St.ready })) := by
      unfold Dev.settleReady
      split
      · exact ⟨rfl, Dev.changesOnly_refl _ _, rfl, fun _ => .inl rfl⟩
      · rename_i x hx
        split
        · rename_i hc
          refine ⟨rfl, (Dev.changesOnly_refl _ _).with_tsk (by decide) _, rfl, fun j => ?_⟩
          by_cases hj : j = a
          · subst hj
            exact .inr ⟨rfl, x, hx, hc.1, tabFind_recSet_self ..⟩
          · exact .inl (tabFind_recSet_ne _ _ _ hj)
        · exact ⟨rfl, Dev.changesOnly_refl _ _, rfl, fun _ => .inl rfl⟩
    obtain ⟨h1, h2, h3, h4⟩ := ih (d.settleReady a)
    obtain ⟨o1, o2, o3, o4⟩ := one
    show (foldDev l (fun q d => d.settleReady q) (d.settleReady a)).tsk = _ ∧ _ ∧ _ ∧ _
    refine ⟨?_, o2.trans h2, h3.trans o3, fun j => ?_⟩
    · rw [h1, o1]
      rfl
    · rcases h4 j with e | ⟨hm, y, hy, hw, e⟩
      · rcases o4 j with e' | ⟨hj, y, hy, hw, e'⟩
        · exact .inl (e.trans e')
        · exact .inr ⟨hj ▸ List.mem_cons_self .., y, hy, hw, e.trans e'⟩
      · rcases o4 j with e' | ⟨_, z, _, _, e'⟩
        · exact .inr ⟨List.mem_cons_of_mem _ hm, y, e' ▸ hy, hw, e⟩
        · rw [e'] at hy
          cases hy
          cases hw

/-- What the end of a live task does. -/
theorem Dev.terminate_spec (d : Dev) (t st : Nat) (x : Task) (hx : d.task t = some x) (hl : x.st < 5) (h5 : st < 13) (h6 : 5 ≤ st) :
    d.taskEnded t st (d.terminate t st) ∧ (d.terminate t st).tsk.todo = d.tsk.todo ++ [.ended t] ∧
    (d.terminate t st).tsk.abort = d.tsk.abort ∧ (d.terminate t st).tsk.gens = d.tsk.gens ∧
    d.changesOnly [.regs, .tsk, .evt, .out] (d.terminate t st) ∧ d.statLe (d.terminate t st) := by
  unfold Dev.terminate
  rw [hx]
  dsimp only
  rw [if_neg (by omega)]
  generalize hcs : (if x.st = St.running ∨ x.st = St.parked then x.cells else []) = cs
  -- slots, cells
  generalize h1 : d.mapSlots (fun s => { s with tasks := s.tasks.filter (fun y => y != t) }) = d1
  have t1 : d1.tsk = { d.tsk with slots := d.tsk.slots.map fun s => (s.1, { s.2 with tasks := s.2.tasks.filter (fun y => y != t) }) } := by
    rw [← h1]; rfl
  have c1 : d.changesOnly [.regs, .tsk, .evt, .out] d1 := by rw [← h1]; exact (Dev.changesOnly_refl _ _).with_tsk (by decide) _
  have r1 : d1.regs = d.regs := by rw [← h1]; rfl
  have b1 : d1.beat = d.beat ∧ d1.now = d.now := by rw [← h1]; exact ⟨rfl, rfl⟩
  obtain ⟨t2, c2, r2, _⟩ := d1.clearCells_tsk cs
  generalize h2 : d1.clearCells cs = d2 at *
  generalize h3 : d2.unreserve t = dz
  have tz : dz.tsk = { d2.tsk with cells := tabMap (fun _ => {}) (fun _ c => if c.reserved = some t then { c with reserved := none } else c) d2.tsk.cells } := by
    rw [← h3]; rfl
  have cz : d.changesOnly [.regs, .tsk, .evt, .out] dz := by
    rw [← h3]; exact ((c1.trans (c2.mono (by simp)))).with_tsk (by decide) _
  have rz : dz.regs = d.regs := by rw [← h3]; exact r2.trans r1
  have bz : dz.beat = d.beat ∧ dz.now = d.now := by
    have e1 : d2.beat = d1.beat := c2 .beat (by decide)
    have e2 : d2.now = d1.now := c2 .now (by decide)
    rw [← h3]
    exact ⟨e1.trans b1.1, e2.trans b1.2⟩
  -- the abort that names it
  generalize ha : dz.settleAbort t (if st = St.aborted then 0 else 1) = d3
  have ta : d3.tsk = { dz.tsk with abortEnd := d3.tsk.abortEnd } ∧ dz.changesOnly [.tsk] d3 ∧ d3.regs = dz.regs ∧
      d3.beat = dz.beat ∧ d3.now = dz.now := by
    rw [← ha]
    unfold Dev.settleAbort
    split
    · exact ⟨rfl, (Dev.changesOnly_refl _ _).with_tsk (by decide) _, rfl, rfl, rfl⟩
    · exact ⟨rfl, Dev.changesOnly_refl _ _, rfl, rfl, rfl⟩
  obtain ⟨ta, ca, ra, ba⟩ := ta
  have c3 := cz.trans (ca.mono (by simp))
  have r3 := ra.trans rz
  have b3 : d3.beat = d.beat ∧ d3.now = d.now := ⟨ba.1.trans bz.1, ba.2.trans bz.2⟩
  have t3 : d3.tsk = { d2.tsk with cells := tabMap (fun _ => {}) (fun _ c => if c.reserved = some t then { c with reserved := none } else c) d2.tsk.cells
                                   abortEnd := d3.tsk.abortEnd } := by
    rw [ta, tz]
  generalize d3.tsk.abortEnd = ae at t3
  clear ta
  generalize h4 : d3.setTask t { x with st := st, ended := d3.beat, endNow := d3.now } = d4
  have t4 : d4.tsk = { d3.tsk with tasks := recSet d3.tsk.tasks t { x with st := st, ended := d3.beat, endNow := d3.now } } := by rw [← h4]; rfl
  have c4 : d.changesOnly [.regs, .tsk, .evt, .out] d4 := by rw [← h4]; exact c3.with_tsk (by decide) _
  have r4 : d4.regs = d.regs := by rw [← h4]; exact r3
  generalize h5' : d4.tskCount (endCounter st) 1 = d5
  have t5 : d5.tsk = d4.tsk := by rw [← h5']; exact Dev.cnt_tsk ..
  have c5 : d.changesOnly [.regs, .tsk, .evt, .out] d5 := by rw [← h5']; exact c4.cnt (by decide) _ _ _
  have n5 : d.counted Reg.TSK_CNT_LO (st - 5) 1 d5 := by
    rw [← h5']
    refine Dev.counted.before (Dev.cnt_counted d4 _ _ _) ?_ ?_
    · exact congrArg (tabGet regReset · _) r4
    · exact congrArg (tabGet regReset · _) r4
  have s5 : d.statLe d5 := by
    rw [← h5']
    refine ((Dev.statLe_eqRegs r4)).trans (d4.statLe_cnt 1 ?_ ?_)
    · unfold endCounter evtSetReg statReg
      have e1 : Reg.EVT_SRC_CFG = 0x01A01000 := rfl
      have e2 : Reg.EVT_STAT = 0x01A00100 := rfl
      have e3 : Reg.TSK_CNT_LO = 0x00300200 := rfl
      rw [e1, e2, e3, decide_eq_false (show ¬ (0x01A00100 ≤ 0x00300200 + 8 * (st - 5)) by omega),
        decide_eq_false (show ¬ (0x01A01000 ≤ 0x00300200 + 8 * (st - 5)) by omega)]
      rfl
    · unfold endCounter evtSetReg statReg
      have e1 : Reg.EVT_SRC_CFG = 0x01A01000 := rfl
      have e2 : Reg.EVT_STAT = 0x01A00100 := rfl
      have e3 : Reg.TSK_CNT_LO = 0x00300200 := rfl
      rw [e1, e2, e3, decide_eq_false (show ¬ (0x01A00100 ≤ 0x00300200 + 8 * (st - 5) + 4) by omega),
        decide_eq_false (show ¬ (0x01A01000 ≤ 0x00300200 + 8 * (st - 5) + 4) by omega)]
      rfl
  generalize h6 : (if st = St.expired then d5.raiseOnce Src.TASK_EXPIRED (d5.handle t) else d5) = d6
  have lowEvt : ∀ o, o < 0x301000 → evtReg o = false := fun o ho => by
    unfold evtReg
    have e2 : Reg.EVT_STAT = 0x01A00100 := rfl
    have e3 : Reg.EVT_CNT_LO = 0x01A00200 := rfl
    have e4 : Reg.MSIX_PBA = 0x01909000 := rfl
    have e5 : Reg.EVT_LOG_HEAD = 0x01A00030 := rfl
    have e6 : Reg.EVT_LOG_TAIL = 0x01A00034 := rfl
    rw [e2, e3, e4, e5, e6, decide_eq_false (show ¬ (0x01A00100 ≤ o) by omega), decide_eq_false (show ¬ (0x01A00200 ≤ o) by omega),
      decide_eq_false (show ¬ (0x01909000 ≤ o) by omega), beq_eq_false_iff_ne.2 (show o ≠ 0x01A00030 by omega),
      beq_eq_false_iff_ne.2 (show o ≠ 0x01A00034 by omega)]
    rfl
  have t6 : d6.tsk = d5.tsk := by rw [← h6]; split; exact Dev.raiseOnce_tsk ..; rfl
  have c6 : d.changesOnly [.regs, .tsk, .evt, .out] d6 := by rw [← h6]; split; exact c5.raiseOnce (by decide) _ _ _; exact c5
  have s6 : d.statLe d6 := by rw [← h6]; split; exact s5.trans (Dev.raiseOnce_statLe ..); exact s5
  have g6 : ∀ o, o < 0x301000 → d6.reg o = d5.reg o := fun o ho => by
    rw [← h6]
    split
    · exact ((Dev.keepsRegsE_refl [] d5).raiseOnce _ _ _) o (by simp) (lowEvt o ho)
    · rfl
  generalize hw : ((d6.tsk.waits.filter (fun w => w.2.onTask && w.2.name == d6.handle t)).map (·.1)) = ws
  obtain ⟨w1, w2, w3, w4, w5, w6, w7, w8, w9⟩ := d6.endWaits_spec ws 1
  generalize h7 : d6.endWaits ws 1 = dw at *
  generalize hl : ((dw.tsk.tasks.filter (fun q => q.2.pred == some x.order)).map (·.1)) = ls
  obtain ⟨f1, f2, f3, f4⟩ := dw.settleAll_spec ls
  generalize h8 : foldDev ls (fun q d => d.settleReady q) dw = d7 at *
  have tt : dw.tsk.tasks = recSet d.tsk.tasks t { x with st := st, ended := d.beat, endNow := d.now } := by
    rw [w1, t6, t5, t4, b3.1, b3.2]
    show recSet d3.tsk.tasks _ _ = _
    rw [t3]
    show recSet d2.tsk.tasks _ _ = _
    rw [t2]
    show recSet d1.tsk.tasks _ _ = _
    rw [t1]
  have dtask : ∀ j, j ≠ t → dw.task j = d.task j := fun j hj => by
    show tabFind dw.tsk.tasks j = tabFind d.tsk.tasks j
    rw [tt]
    exact tabFind_recSet_ne _ _ _ hj
  have dself : dw.task t = some { x with st := st, ended := d.beat, endNow := d.now } := by
    show tabFind dw.tsk.tasks t = _
    rw [tt]
    exact tabFind_recSet_self ..
  have tc : d7.tsk.cells = tabMap (fun _ => {}) (fun _ c => if c.reserved = some t then { c with reserved := none } else c) d2.tsk.cells := by
    rw [f1]
    show dw.tsk.cells = _
    rw [w2, t6, t5, t4, t3]
  have ts : ∀ p ∈ d7.tsk.slots, t ∉ p.2.tasks := by
    intro p hp
    rw [f1] at hp
    obtain ⟨q, hq, e⟩ := w6 p hp
    rw [t6, t5, t4, t3, t2, t1] at hq
    obtain ⟨q', _, rfl⟩ := List.mem_map.1 hq
    rw [← e]
    simp
  have todo : d7.tsk.todo = d.tsk.todo := by
    rw [f1]
    show dw.tsk.todo = _
    rw [w3, t6, t5, t4, t3, t2, t1]
  refine ⟨⟨?_, ?_, ?_, ?_, ?_⟩, ?_, ?_, ?_, ?_, ?_⟩
  · intro y hy
    rw [hx] at hy
    obtain ⟨rfl⟩ := hy
    refine ⟨?_, ?_⟩
    · show d7.task t = _
      rcases f4 t with e | ⟨_, y, hy, hw', _⟩
      · exact e.trans dself
      · rw [dself] at hy
        cases hy
        exact absurd hw' (by show ¬ st = 1; omega)
    · intro hr hs c hc
      have hcc : cs = x.cells := by rw [← hcs, if_pos hr]
      have hs2 : tabSorted d2.tsk.cells = true := by
        rw [← h2]
        refine Dev.clearCells_sorted _ _ ?_
        rw [t1]
        exact hs
      show (tabGet (fun _ => ({} : CellSt)) d7.tsk.cells c).job = none
      rw [tc, tabFind_tabMap _ _ hs2]
      have hcell : d2.cell c = { d1.cell c with job := none, yielding := false, aborting := false } := by
        rw [← h2, Dev.clearCells_cell, if_pos (by rw [hcc]; exact hc)]
      unfold Dev.cell at hcell
      unfold tabGet at hcell
      cases hf : tabFind d2.tsk.cells c with
      | none => rfl
      | some v =>
        rw [hf] at hcell
        have hj : v.job = none := congrArg CellSt.job hcell
        show (if v.reserved = some t then { v with reserved := none } else v).job = none
        split <;> exact hj
  · intro j hj
    show d7.task j = _ ∨ _
    rcases f4 j with e | ⟨hm, y, hy, hw', e⟩
    · exact .inl (e.trans (dtask j hj))
    · refine .inr ⟨y, (dtask j hj) ▸ hy, hw', fun x' hx' hs => ?_, e⟩
      rw [hx] at hx'
      cases hx'
      rw [← hl] at hm
      obtain ⟨⟨k, q⟩, hq, hk⟩ := List.mem_map.1 hm
      obtain ⟨hq, hp⟩ := List.mem_filter.1 hq
      cases hk
      rw [tt] at hq
      rcases mem_tabInsert hq with e | hq
      · exact absurd (congrArg Prod.fst e) hj
      · have h := tabFind_of_mem hs hq
        have hy' : d.task k = some y := (dtask k hj) ▸ hy
        rw [show d.task k = tabFind d.tsk.tasks k from rfl, h] at hy'
        cases hy'
        exact eq_of_beq hp
  · exact ts
  · intro p hp
    have hp' : p ∈ d7.tsk.cells := hp
    rw [tc] at hp'
    obtain ⟨q, _, rfl⟩ := mem_tabMap hp'
    dsimp only
    split
    · exact fun h => by cases h
    · rename_i h
      exact h
  · refine Dev.counted.after n5 ?_ ?_
    · show d7.reg _ = d5.reg _
      have : Reg.TSK_CNT_LO + 8 * (st - 5) < 0x301000 := by have : Reg.TSK_CNT_LO = 0x00300200 := rfl; omega
      rw [show d7.reg (Reg.TSK_CNT_LO + 8 * (st - 5)) = dw.reg (Reg.TSK_CNT_LO + 8 * (st - 5)) from congrArg (tabGet regReset · _) f3, w9 _ this, g6 _ this]
    · show d7.reg _ = d5.reg _
      have : Reg.TSK_CNT_LO + 8 * (st - 5) + 4 < 0x301000 := by have : Reg.TSK_CNT_LO = 0x00300200 := rfl; omega
      rw [show d7.reg (Reg.TSK_CNT_LO + 8 * (st - 5) + 4) = dw.reg (Reg.TSK_CNT_LO + 8 * (st - 5) + 4) from congrArg (tabGet regReset · _) f3, w9 _ this, g6 _ this]
  · show d7.tsk.todo ++ [.ended t] = _
    rw [todo]
  · show d7.tsk.abort = _
    rw [f1]
    show dw.tsk.abort = _
    rw [w5, t6, t5, t4, t3, t2, t1]
  · show d7.tsk.gens = _
    rw [f1]
    show dw.tsk.gens = _
    rw [w4, t6, t5, t4, t3, t2, t1]
  · exact ((c6.trans w7).trans (f2.mono (by simp))).push (by decide) _
  · exact ((s6.trans w8).trans (Dev.statLe_eqRegs f3)).push _

end Sys2Proof.Machine
end

