-- ==== Sys2Proof/Laws/Time.lean ====
section
/-! SUPPORT. What the operations of the time unit can do. -/

namespace Sys2Proof.Machine
open Sys2Proof

theorem doms_setDom (d : Dev) (k : Nat) (t : TimDom) (j : Nat) (hj : j < 6) : (d.setDom k t).dom j = if j = k then t else d.dom j := by
  unfold Dev.setDom Dev.dom
  simp [List.getD, hj]

theorem setDom_only (d : Dev) (k : Nat) (t : TimDom) : ∃ l, d.setDom k t = { d with tim := { d.tim with doms := l } } := ⟨_, rfl⟩

theorem setDom_parts (d : Dev) (k : Nat) (t : TimDom) : d.changesOnly [.tim] (d.setDom k t) := by
  obtain ⟨l, h⟩ := setDom_only d k t
  rw [h]
  exact d.parts_tim _

/-- Parts a clock operation may write. -/
abbrev timParts : List Part := [.regs, .tim, .evt, .out]

theorem timOnly_setDom (d : Dev) (k : Nat) (t : TimDom) : d.changesOnly timParts (d.setDom k t) := by
  obtain ⟨l, h⟩ := setDom_only d k t; rw [h]; intro p hp; cases p <;> first | rfl | exact absurd (by decide) hp
theorem timOnly_raise (d : Dev) (a b c : Nat) : d.changesOnly timParts (d.raise a b c) := (d.raise_evtOnly a b c).changes.mono (by decide)
theorem timOnly_raiseOnce (d : Dev) (a b c : Nat) : d.changesOnly timParts (d.raiseOnce a b c) := (d.raiseOnce_evtOnly a b c).changes.mono (by decide)
theorem timOnly_cnt (d : Dev) (a b c : Nat) : d.changesOnly timParts (d.cnt a b c) := (d.cnt_only a b c).changes.mono (by decide)
theorem timOnly_setFlag (d : Dev) (a b : Nat) (c : Bool) : d.changesOnly timParts (d.setFlag a b c) := (d.setFlag_only a b c).changes.mono (by decide)
theorem timOnly_setReg (d : Dev) (a : Nat) (b : Word) : d.changesOnly timParts (d.setReg a b) := by
  intro p hp; cases p <;> first | rfl | exact absurd (by decide) hp
theorem timOnly_checkApart (d : Dev) : d.changesOnly timParts d.checkApart := by
  unfold Dev.checkApart
  dsimp only
  have h : ∀ b, d.changesOnly timParts { d with tim := { d.tim with apart := b } } := fun b p hp => by
    cases p <;> first | rfl | exact absurd (by decide) hp
  split
  · exact (h _).trans (timOnly_raise _ _ _ _)
  · exact h _
theorem timOnly_exchange (d : Dev) : d.changesOnly timParts d.exchange := by
  unfold Dev.exchange
  have h : d.changesOnly timParts { d with tim := { d.tim with source := 1 - d.tim.source, stepped := false } } := (d.parts_tim _).mono (by decide)
  exact ((h.trans (timOnly_cnt _ _ _ _)).trans (timOnly_raise _ _ _ _)).trans (timOnly_checkApart _)

theorem checkApart_tim (d : Dev) : ∃ b, d.checkApart.tim = { d.tim with apart := b } := by
  unfold Dev.checkApart
  dsimp only
  split
  · exact ⟨_, by rw [Dev.raise_tim]⟩
  · exact ⟨_, rfl⟩
theorem exchange_tim (d : Dev) : ∃ b, d.exchange.tim = { d.tim with source := 1 - d.tim.source, stepped := false, apart := b } := by
  unfold Dev.exchange
  dsimp only
  obtain ⟨b, h⟩ := checkApart_tim ((({ d with tim := { d.tim with source := 1 - d.tim.source, stepped := false } } : Dev).cnt Reg.TIM_CNT_LO 3 1).raise Src.TIME_SOURCE_SWITCH noDetail (1 - d.tim.source))
  refine ⟨b, ?_⟩
  rw [h]
  simp

theorem checkApart_reg (d : Dev) {o : Nat} (h : evtReg o = false) : d.checkApart.reg o = d.reg o := by
  unfold Dev.checkApart
  dsimp only
  split
  · rw [Dev.raise_reg _ _ _ _ h]; rfl
  · rfl
theorem exchange_reg (d : Dev) {o : Nat} (h : evtReg o = false) : d.exchange.reg o = (d.cnt Reg.TIM_CNT_LO 3 1).reg o := by
  unfold Dev.exchange
  dsimp only
  rw [checkApart_reg _ h, Dev.raise_reg _ _ _ _ h]
  exact Dev.reg_cnt_congr (fun _ => rfl) _ _ _ _
theorem statLe_checkApart (d : Dev) : d.statLe d.checkApart := by
  unfold Dev.checkApart
  dsimp only
  split
  · exact (Dev.statLe_tim _ _).trans (Dev.raise_statLe _ _ _ _)
  · exact Dev.statLe_tim _ _
theorem exchange_raised (d : Dev) : d.raised Src.TIME_SOURCE_SWITCH d.exchange := by
  unfold Dev.exchange
  dsimp only
  refine Dev.raised.after ?_ (statLe_checkApart _) (by decide)
  refine Dev.raised.before ?_ (Dev.raise_raised _ _ _ _) (by decide)
  exact (Dev.statLe_tim _ _).trans (Dev.statLe_cnt _ _ (by decide) (by decide))
theorem exchange_statLe (d : Dev) : d.statLe d.exchange := by
  unfold Dev.exchange
  dsimp only
  refine Dev.statLe.trans ?_ (statLe_checkApart _)
  refine Dev.statLe.trans ?_ (Dev.raise_statLe _ _ _ _)
  exact (Dev.statLe_tim _ _).trans (Dev.statLe_cnt _ _ (by decide) (by decide))

/- captures -/
theorem capture_only (d : Dev) (i v : Nat) : d.regOnly (d.capture i v) := by
  unfold Dev.capture
  exact Dev.regOnly_setReg (Dev.regOnly_setReg (Dev.regOnly_setReg (Dev.regOnly_setReg d.regOnly_refl _ _) _ _) _ _) _ _

theorem capture_reg (d : Dev) (i v o : Nat) (h : o < Reg.TIM_CAP_FRAC + 16 * i ∨ Reg.TIM_CAP_FRAC + 16 * i + 16 ≤ o) :
    (d.capture i v).reg o = d.reg o := by
  have e1 : Reg.TIM_CAP_NS = Reg.TIM_CAP_FRAC + 4 := rfl
  have e2 : Reg.TIM_CAP_SEC_LO = Reg.TIM_CAP_FRAC + 8 := rfl
  have e3 : Reg.TIM_CAP_SEC_HI = Reg.TIM_CAP_FRAC + 12 := rfl
  unfold Dev.capture
  dsimp only
  rw [Dev.reg_setReg_ne _ _ _ (by omega), Dev.reg_setReg_ne _ _ _ (by omega), Dev.reg_setReg_ne _ _ _ (by omega), Dev.reg_setReg_ne _ _ _ (by omega)]
theorem capture_self (d : Dev) (i v : Nat) :
    (d.capture i v).reg (Reg.TIM_CAP_FRAC + 16 * i) = BitVec.ofNat 32 (v % nsUnit * 65536 / nsUnit) ∧
    (d.capture i v).reg (Reg.TIM_CAP_NS + 16 * i) = BitVec.ofNat 32 (clkNs v) ∧
    (d.capture i v).reg (Reg.TIM_CAP_SEC_LO + 16 * i) = BitVec.ofNat 32 (clkSec v) ∧
    (d.capture i v).reg (Reg.TIM_CAP_SEC_HI + 16 * i) = BitVec.ofNat 32 (clkSec v / 2 ^ 32 % 65536) := by
  have e1 : Reg.TIM_CAP_NS = Reg.TIM_CAP_FRAC + 4 := rfl
  have e2 : Reg.TIM_CAP_SEC_LO = Reg.TIM_CAP_FRAC + 8 := rfl
  have e3 : Reg.TIM_CAP_SEC_HI = Reg.TIM_CAP_FRAC + 12 := rfl
  unfold Dev.capture
  dsimp only
  refine ⟨?_, ?_, ?_, ?_⟩
  · rw [Dev.reg_setReg_ne _ _ _ (by omega), Dev.reg_setReg_ne _ _ _ (by omega), Dev.reg_setReg_ne _ _ _ (by omega), Dev.reg_setReg_self]
  · rw [Dev.reg_setReg_ne _ _ _ (by omega), Dev.reg_setReg_ne _ _ _ (by omega), Dev.reg_setReg_self]
  · rw [Dev.reg_setReg_ne _ _ _ (by omega), Dev.reg_setReg_self]
  · rw [Dev.reg_setReg_self]

theorem fold_capture (c : Nat → Nat) (l : List Nat) (d : Dev) : d.regOnly (foldDev l (fun k d => d.capture (k + 1) (c k)) d) ∧
    (∀ o, (∀ k ∈ l, o < Reg.TIM_CAP_FRAC + 16 * (k + 1) ∨ Reg.TIM_CAP_FRAC + 16 * (k + 1) + 16 ≤ o) →
      (foldDev l (fun k d => d.capture (k + 1) (c k)) d).reg o = d.reg o) := by
  induction l generalizing d with
  | nil => exact ⟨d.regOnly_refl, fun _ _ => rfl⟩
  | cons k l ih =>
    obtain ⟨h1, h2⟩ := ih (d.capture (k + 1) (c k))
    unfold foldDev at h1 h2 ⊢
    rw [List.foldl_cons]
    refine ⟨(capture_only _ _ _).trans h1, fun o ho => ?_⟩
    rw [h2 o (fun j hj => ho j (by simp [hj])), capture_reg _ _ _ _ (ho k (by simp))]

theorem capAll_reg (d : Dev) (e : Nat → Nat) (i : Nat) (hi : i < 7) :
    let f := foldDev (List.range 6) (fun k d => d.capture (k + 1) (e (k + 1))) (d.capture 0 (e 0))
    f.reg (Reg.TIM_CAP_FRAC + 16 * i) = BitVec.ofNat 32 (e i % nsUnit * 65536 / nsUnit) ∧
    f.reg (Reg.TIM_CAP_NS + 16 * i) = BitVec.ofNat 32 (clkNs (e i)) ∧
    f.reg (Reg.TIM_CAP_SEC_LO + 16 * i) = BitVec.ofNat 32 (clkSec (e i)) ∧
    f.reg (Reg.TIM_CAP_SEC_HI + 16 * i) = BitVec.ofNat 32 (clkSec (e i) / 2 ^ 32 % 65536) := by
  have e1 : Reg.TIM_CAP_NS = Reg.TIM_CAP_FRAC + 4 := rfl
  have e2 : Reg.TIM_CAP_SEC_LO = Reg.TIM_CAP_FRAC + 8 := rfl
  have e3 : Reg.TIM_CAP_SEC_HI = Reg.TIM_CAP_FRAC + 12 := rfl
  have hl : ∀ n, n ≤ 6 → ∀ g : Dev, ∀ j, j < n + 1 → (j = 0 → ∃ g0 : Dev, g = g0.capture 0 (e 0)) →
    let f := foldDev (List.range n) (fun k d => d.capture (k + 1) (e (k + 1))) g
    f.reg (Reg.TIM_CAP_FRAC + 16 * j) = BitVec.ofNat 32 (e j % nsUnit * 65536 / nsUnit) ∧
    f.reg (Reg.TIM_CAP_NS + 16 * j) = BitVec.ofNat 32 (clkNs (e j)) ∧
    f.reg (Reg.TIM_CAP_SEC_LO + 16 * j) = BitVec.ofNat 32 (clkSec (e j)) ∧
    f.reg (Reg.TIM_CAP_SEC_HI + 16 * j) = BitVec.ofNat 32 (clkSec (e j) / 2 ^ 32 % 65536) := by
    intro n
    induction n with
    | zero =>
      intro _ g j hj h0
      obtain rfl : j = 0 := by omega
      obtain ⟨g0, rfl⟩ := h0 rfl
      exact capture_self g0 0 (e 0)
    | succ n ih =>
      intro hn g j hj h0
      dsimp only
      rw [List.range_succ]
      unfold foldDev
      rw [List.foldl_append]
      simp only [List.foldl_cons, List.foldl_nil]
      by_cases hjn : j = n + 1
      · subst hjn; exact capture_self _ _ _
      · have := ih (by omega) g j (by omega) h0
        dsimp only at this
        unfold foldDev at this
        obtain ⟨a, b, c, dd⟩ := this
        refine ⟨?_, ?_, ?_, ?_⟩ <;> rw [capture_reg _ _ _ _ (by omega)] <;> assumption
  exact hl 6 (by omega) _ i hi (fun _ => ⟨d, rfl⟩)

theorem flagApart (d : Dev) {o i : Nat} (h : evtReg o = false) : d.checkApart.flag o i = d.flag o i := by
  unfold Dev.flag; rw [checkApart_reg d h]

theorem tsk_of_tim {d e : Dev} (h : d.changesOnly timParts e) : e.tsk.todo = d.tsk.todo ∧ e.pci = d.pci ∧ e.mode = d.mode :=
  ⟨congrArg Tsk.todo (h .tsk (by decide)), h .pci (by decide), h .mode (by decide)⟩

theorem orBit31 (v : Word) : bit (v ||| 0x80000000) 31 = true ∧ bit (v ||| 0x80000000) 30 = bit v 30 ∧ (v ||| 0x80000000) &&& 0x30000000 = v &&& 0x30000000 := by
  refine ⟨?_, ?_, ?_⟩
  · simp only [bit_eq_testBit, BitVec.toNat_or, Nat.testBit_or]
    rw [show (0x80000000 : Word).toNat.testBit 31 = true by decide, Bool.or_true]
  · simp only [bit_eq_testBit, BitVec.toNat_or, Nat.testBit_or]
    rw [show (0x80000000 : Word).toNat.testBit 30 = false by decide, Bool.or_false]
  · have : ∀ a b c : Word, (a ||| b) &&& c = (a &&& c) ||| (b &&& c) := by intro a b c; ext i; simp [Bool.and_or_distrib_right]
    rw [this]
    have : (0x80000000 : Word) &&& 0x30000000 = 0 := by decide
    rw [this]; simp

theorem orBit30 (v : Word) : bit (v ||| 0x40000000) 30 = true ∧ bit (v ||| 0x40000000) 31 = bit v 31 ∧ (v ||| 0x40000000) &&& 0x30000000 = v &&& 0x30000000 := by
  refine ⟨?_, ?_, ?_⟩
  · simp only [bit_eq_testBit, BitVec.toNat_or, Nat.testBit_or]
    rw [show (0x40000000 : Word).toNat.testBit 30 = true by decide, Bool.or_true]
  · simp only [bit_eq_testBit, BitVec.toNat_or, Nat.testBit_or]
    rw [show (0x40000000 : Word).toNat.testBit 31 = false by decide, Bool.or_false]
  · have : ∀ a b c : Word, (a ||| b) &&& c = (a &&& c) ||| (b &&& c) := by intro a b c; ext i; simp [Bool.and_or_distrib_right]
    rw [this]
    have : (0x40000000 : Word) &&& 0x30000000 = 0 := by decide
    rw [this]; simp

theorem captureAll_only (d : Dev) : d.regOnly d.captureAll := by
  unfold Dev.captureAll
  dsimp only
  exact ((capture_only d 0 (d.advance 1).tim.dt).trans
    (fold_capture (fun i => ((d.advance 1).dom i).clock) (List.range 6) _).1).trans (Dev.setFlag_only _ _ _ _)

theorem captureAll_reg (d : Dev) {o : Nat} (h : o < Reg.TIM_CAP_FRAC ∨ Reg.TIM_CAP_FRAC + 112 ≤ o) (h2 : o ≠ Reg.TIM_STATUS) :
    d.captureAll.reg o = d.reg o := by
  unfold Dev.captureAll
  dsimp only
  rw [Dev.reg_setFlag_ne _ _ _ _ h2, (fold_capture (fun i => ((d.advance 1).dom i).clock) (List.range 6) _).2 o
    (fun k hk => by have := List.mem_range.1 hk; omega), capture_reg _ _ _ _ (by omega)]

theorem captureAll_cap (d : Dev) (i : Nat) (hi : i < 7) :
    d.captureAll.reg (Reg.TIM_CAP_FRAC + 16 * i) = BitVec.ofNat 32 ((d.advance 1).clockOf i % nsUnit * 65536 / nsUnit) ∧
    d.captureAll.reg (Reg.TIM_CAP_NS + 16 * i) = BitVec.ofNat 32 (clkNs ((d.advance 1).clockOf i)) ∧
    d.captureAll.reg (Reg.TIM_CAP_SEC_LO + 16 * i) = BitVec.ofNat 32 (clkSec ((d.advance 1).clockOf i)) ∧
    d.captureAll.reg (Reg.TIM_CAP_SEC_HI + 16 * i) = BitVec.ofNat 32 (clkSec ((d.advance 1).clockOf i) / 2 ^ 32 % 65536) := by
  have e0 : Reg.TIM_STATUS + 512 = Reg.TIM_CAP_FRAC := rfl
  have e1 : Reg.TIM_CAP_NS = Reg.TIM_CAP_FRAC + 4 := rfl
  have e2 : Reg.TIM_CAP_SEC_LO = Reg.TIM_CAP_FRAC + 8 := rfl
  have e3 : Reg.TIM_CAP_SEC_HI = Reg.TIM_CAP_FRAC + 12 := rfl
  obtain ⟨a, b, c, e⟩ := capAll_reg d (fun i => (d.advance 1).clockOf i) i hi
  have hd0 : (d.advance 1).clockOf 0 = (d.advance 1).tim.dt := rfl
  have hdk : ∀ k, (d.advance 1).clockOf (k + 1) = ((d.advance 1).dom k).clock := by intro k; simp [Dev.clockOf]
  unfold Dev.captureAll
  dsimp only
  simp only [hd0, hdk] at a b c e
  refine ⟨?_, ?_, ?_, ?_⟩ <;> rw [Dev.reg_setFlag_ne _ _ _ _ (by omega)] <;> assumption

theorem timCtrlWrite_spec (v : Word) (d : Dev) : ∃ e : Dev, timCtrlWrite v d = e.checkApart ∧
    e = (if bit v 30 then (if bit v 31 then (d.setReg Reg.TIM_CTRL (v &&& 0x30000000)).captureAll else d.setReg Reg.TIM_CTRL (v &&& 0x30000000)).exchange
      else (if bit v 31 then (d.setReg Reg.TIM_CTRL (v &&& 0x30000000)).captureAll else d.setReg Reg.TIM_CTRL (v &&& 0x30000000))) := ⟨_, rfl, rfl⟩

/-! ### Clock states -/

theorem dt_setDom (d : Dev) (k : Nat) (t : TimDom) : (d.setDom k t).tim.dt = d.tim.dt ∧ (d.setDom k t).tim.source = d.tim.source := ⟨rfl, rfl⟩

theorem dom_congr {d e : Dev} (h : e.tim = d.tim) (j : Nat) : e.dom j = d.dom j := by unfold Dev.dom; rw [h]

theorem raise_dom (d : Dev) (a b c j : Nat) : (d.raise a b c).dom j = d.dom j := dom_congr (by simp) j

theorem exchange_dom (d : Dev) (j : Nat) : d.exchange.dom j = d.dom j := by
  obtain ⟨b, h⟩ := exchange_tim d
  unfold Dev.dom
  rw [h]

theorem exchange_dt (d : Dev) : d.exchange.tim.dt = d.tim.dt := by
  obtain ⟨b, h⟩ := exchange_tim d
  rw [h]

theorem autoSwitchLost_cases (d : Dev) (k : Nat) : d.autoSwitchLost k = d ∨ (k = d.active ∧ d.autoSwitchLost k = d.exchange) := by
  unfold Dev.autoSwitchLost
  dsimp only
  split
  · rename_i h
    simp only [Bool.and_eq_true, decide_eq_true_eq] at h
    exact Or.inr ⟨h.1.2, rfl⟩
  · exact Or.inl rfl

/-- What a change of a clock's state does. -/
structure StateChange (k st : Nat) (d e : Dev) : Prop where
  dom_self : e.dom k = { d.dom k with st := st, adj := if st = 4 then (d.dom k).integ else (d.dom k).adj, good := if st = 2 then 0 else (d.dom k).good }
  dom_other : ∀ j, j < 6 → j ≠ k → e.dom j = d.dom j
  dt : e.tim.dt = d.tim.dt
  source : k < 4 ∨ (d.dom k).st ≠ 3 ∨ st = 3 → e.tim.source = d.tim.source
  parts : d.changesOnly timParts e
  regs : d.keepsRegsE [Reg.TIM_CNT_LO + 24, Reg.TIM_CNT_LO + 28] e
  stats : d.statLe e
  regsOrd : k < 4 ∨ (d.dom k).st ≠ 3 ∨ st = 3 → d.keepsRegsE [] e
  locked : st = 3 → (d.dom k).st ≠ 3 → d.raised Src.TIME_LOCKED e
  lost : (d.dom k).st = 3 → st ≠ 3 → st ≠ 0 → d.raised Src.TIME_LOCK_LOST e

theorem setDom_reg (d : Dev) (k : Nat) (t : TimDom) (o : Nat) : (d.setDom k t).reg o = d.reg o := rfl

theorem setDom_statLe (d : Dev) (k : Nat) (t : TimDom) : d.statLe (d.setDom k t) := by
  obtain ⟨l, h⟩ := setDom_only d k t
  rw [h]
  exact Dev.statLe_tim _ _

theorem setDomState_spec (d : Dev) (k st : Nat) (hk : k < 6) : StateChange k st d (d.setDomState k st) := by
  have hself : ∀ t, (d.setDom k t).dom k = t := fun t => by rw [doms_setDom _ _ _ _ hk, if_pos rfl]
  have hoth : ∀ t j, j < 6 → j ≠ k → (d.setDom k t).dom j = d.dom j := fun t j hj hn => by rw [doms_setDom _ _ _ _ hj, if_neg hn]
  unfold Dev.setDomState
  dsimp only
  generalize ht : ({ d.dom k with st := st, adj := if st = 4 then (d.dom k).integ else (d.dom k).adj, good := if st = 2 then 0 else (d.dom k).good } : TimDom) = t
  have hT := timOnly_setDom d k t
  split
  · rename_i h
    exact {
      dom_self := (by rw [raise_dom, hself] : _ = t).trans ht.symm
      dom_other := fun j hj hn => by rw [raise_dom, hoth t j hj hn]
      dt := by rw [Dev.raise_tim]; rfl
      source := fun _ => by rw [Dev.raise_tim]; rfl
      parts := hT.trans (timOnly_raise _ _ _ _)
      regs := fun o _ he => by rw [Dev.raise_reg _ _ _ _ he]; rfl
      stats := (setDom_statLe d k t).trans (Dev.raise_statLe _ _ _ _)
      regsOrd := fun _ o _ he => by rw [Dev.raise_reg _ _ _ _ he]; rfl
      locked := fun _ _ => Dev.raised.before (setDom_statLe d k t) (Dev.raise_raised _ _ _ _) (by decide)
      lost := fun h3 hn => absurd h.1 hn }
  · rename_i h1
    split
    · rename_i h
      generalize hR : (if st = 0 then d.setDom k t else (d.setDom k t).raise Src.TIME_LOCK_LOST k) = R
      have hRd : ∀ j, R.dom j = (d.setDom k t).dom j := fun j => by
        rw [← hR]
        split
        · rfl
        · exact raise_dom _ _ _ _ j
      have hRt : R.tim = (d.setDom k t).tim := by
        rw [← hR]
        split
        · rfl
        · exact Dev.raise_tim _ _ _ _
      have hRr : ∀ o, evtReg o = false → R.reg o = d.reg o := fun o he => by
        rw [← hR]
        split
        · rfl
        · rw [Dev.raise_reg _ _ _ _ he]; rfl
      have hst : d.statLe R := by
        rw [← hR]
        split
        · exact setDom_statLe d k t
        · exact (setDom_statLe d k t).trans (Dev.raise_statLe _ _ _ _)
      have hpa : d.changesOnly timParts R := by
        rw [← hR]
        split
        · exact hT
        · exact hT.trans (timOnly_raise _ _ _ _)
      have hraise : st ≠ 0 → d.raised Src.TIME_LOCK_LOST R := fun h0 => by
        rw [← hR, if_neg h0]
        exact Dev.raised.before (setDom_statLe d k t) (Dev.raise_raised _ _ _ _) (by decide)
      rcases autoSwitchLost_cases R k with he | ⟨hact, he⟩
      · rw [he]
        exact {
          dom_self := (by rw [hRd, hself] : _ = t).trans ht.symm
          dom_other := fun j hj hn => by rw [hRd, hoth t j hj hn]
          dt := by rw [hRt]; rfl
          source := fun _ => by rw [hRt]; rfl
          parts := hpa
          regs := fun o _ he => hRr o he
          stats := hst
          regsOrd := fun _ o _ he => hRr o he
          locked := fun h3 hn => absurd h3 h.2
          lost := fun _ _ h0 => hraise h0 }
      · rw [he]
        have hk4 : 4 ≤ k := by rw [hact]; unfold Dev.active; omega
        have hnot : ¬(k < 4 ∨ (d.dom k).st ≠ 3 ∨ st = 3) := by
          rintro (h4 | h4 | h4)
          · omega
          · exact h4 h.1
          · exact h.2 h4
        exact {
          dom_self := (by rw [exchange_dom, hRd, hself] : _ = t).trans ht.symm
          dom_other := fun j hj hn => by rw [exchange_dom, hRd, hoth t j hj hn]
          dt := by rw [exchange_dt, hRt]; rfl
          source := fun h4 => absurd h4 hnot
          parts := hpa.trans (timOnly_exchange _)
          regs := fun o ho hev => by
            simp only [List.mem_cons, List.not_mem_nil, or_false, not_or] at ho
            rw [exchange_reg _ hev, Dev.reg_cnt_ne _ _ _ _ ho.1 ho.2, hRr o hev]
          stats := hst.trans (exchange_statLe _)
          regsOrd := fun h4 => absurd h4 hnot
          locked := fun h3 hn => absurd h3 h.2
          lost := fun _ _ h0 => (hraise h0).after (exchange_statLe _) (by decide) }
    · rename_i h
      exact {
        dom_self := (hself t).trans ht.symm
        dom_other := fun j hj hn => hoth t j hj hn
        dt := rfl
        source := fun _ => rfl
        parts := hT
        regs := fun o _ _ => rfl
        stats := setDom_statLe d k t
        regsOrd := fun _ o _ _ => rfl
        locked := fun h3 hn => absurd ⟨h3, hn⟩ h1
        lost := fun h3 hn _ => absurd ⟨h3, hn⟩ h }

/-- A change of state notes nothing for the beat but an overrun of the log, on an ordinary domain. -/
theorem setDomState_once (d : Dev) (k st : Nat) (hk : k < 4) {x : Nat} (h : x ≠ Src.EVENT_LOG_OVERRUN) :
    x ∈ (d.setDomState k st).evt.once ↔ x ∈ d.evt.once := by
  unfold Dev.setDomState
  dsimp only
  split
  · rw [Dev.raise_once _ _ _ _ h]
    rfl
  · split
    · generalize hR : (if st = 0 then d.setDom k _ else (d.setDom k _).raise Src.TIME_LOCK_LOST k) = R
      have hR1 : x ∈ R.evt.once ↔ x ∈ d.evt.once := by
        rw [← hR]
        split
        · rfl
        · rw [Dev.raise_once _ _ _ _ h]
          rfl
      rcases autoSwitchLost_cases R k with he | ⟨hact, _⟩
      · rw [he, hR1]
      · unfold Dev.active at hact
        omega
    · rfl

/-! ### Samples -/

/-- The device once a sample is taken: counted, kept in TIM_DOM_LAST, its time noted. -/
def Dev.sampleTaken (d : Dev) (k : Nat) (theta : Int) : Dev :=
  ((d.cnt Reg.TIM_CNT_LO 0 1).setReg64 (Reg.TIM_DOM_LAST_LO + domOfs k) (Reg.TIM_DOM_LAST_HI + domOfs k) (toField 64 theta)).setDom k
    { d.dom k with last := some d.tim.dt, st := if (d.dom k).st < 2 then 2 else (d.dom k).st }

theorem timDomSample_off (d : Dev) (k : Nat) (src : SampleSrc) (theta : Int)
    (h : 6 ≤ k ∨ d.flag (Reg.TIM_DOM_CFG + domOfs k) 31 = false ∨ d.fld (Reg.TIM_DOM_CFG + domOfs k) 30 28 ≠ sampleRef src) :
    timDomSample k src theta d = d := by
  unfold timDomSample
  exact if_pos h

theorem timDomSample_on (d : Dev) (k : Nat) (src : SampleSrc) (theta : Int) (hk : k < 6)
    (h1 : d.flag (Reg.TIM_DOM_CFG + domOfs k) 31 = true) (h2 : d.fld (Reg.TIM_DOM_CFG + domOfs k) 30 28 = sampleRef src) :
    timDomSample k src theta d =
      if (theta * smpUnit).natAbs ≤ (d.sampleTaken k theta).stepThresh then
        ((d.sampleTaken k theta).servo k theta (d.tim.dt - (d.dom k).last.getD d.tim.dt)).countLock k theta
      else (d.sampleTaken k theta).correction k theta := by
  unfold timDomSample
  rw [if_neg (by
    rintro (h | h | h)
    · omega
    · unfold Dev.flag at h1; rw [h1] at h; exact Bool.noConfusion h
    · exact h h2)]
  dsimp only
  cases hl : (d.dom k).last with
  | none =>
    dsimp only [Option.getD]
    rw [Nat.sub_self]
    unfold Dev.sampleTaken
    rfl
  | some l => unfold Dev.sampleTaken; rfl

theorem sampleTaken_reg (d : Dev) (k : Nat) (theta : Int) {o : Nat} (h : o ∉ [Reg.TIM_CNT_LO, Reg.TIM_CNT_LO + 4,
    Reg.TIM_DOM_LAST_LO + domOfs k, Reg.TIM_DOM_LAST_HI + domOfs k]) : (d.sampleTaken k theta).reg o = d.reg o := by
  simp only [List.mem_cons, List.not_mem_nil, or_false, not_or] at h
  unfold Dev.sampleTaken
  rw [setDom_reg, Dev.reg_setReg64_ne _ _ _ _ h.2.2.1 h.2.2.2, Dev.reg_cnt_ne _ _ _ _ h.1 h.2.1]

theorem timOnly_setReg64 (d : Dev) (a b c : Nat) : d.changesOnly timParts (d.setReg64 a b c) :=
  (d.setReg64_only a b c).changes.mono (by decide)

/-- Registers of the clocks' windows. -/
theorem domOfs_lt {k : Nat} (h : k < 6) : domOfs k ≤ 0x500 := by unfold domOfs; omega

/-- What taking a sample does. -/
structure SampleTaken (k : Nat) (theta : Int) (d e : Dev) : Prop where
  dom_self : e.dom k = { d.dom k with last := some d.tim.dt, st := if (d.dom k).st < 2 then 2 else (d.dom k).st }
  dom_other : ∀ j, j < 6 → j ≠ k → e.dom j = d.dom j
  dt : e.tim.dt = d.tim.dt
  source : e.tim.source = d.tim.source
  once : e.evt.once = d.evt.once
  parts : d.changesOnly timParts e
  regs : d.keepsRegs [Reg.TIM_CNT_LO, Reg.TIM_CNT_LO + 4, Reg.TIM_DOM_LAST_LO + domOfs k, Reg.TIM_DOM_LAST_HI + domOfs k] e
  lo : e.reg (Reg.TIM_DOM_LAST_LO + domOfs k) = BitVec.ofNat 32 (toField 64 theta)
  hi : e.reg (Reg.TIM_DOM_LAST_HI + domOfs k) = BitVec.ofNat 32 (toField 64 theta / 2 ^ 32)
  counted : d.counted Reg.TIM_CNT_LO 0 1 e
  stats : d.statLe e

theorem sampleTaken_spec (d : Dev) (k : Nat) (theta : Int) (hk : k < 6) : SampleTaken k theta d (d.sampleTaken k theta) := by
  have hd := domOfs_lt hk
  have n1 : Reg.TIM_CNT_LO = 0x01200300 := rfl
  have n2 : Reg.TIM_DOM_LAST_LO = 0x01201020 := rfl
  have n3 : Reg.TIM_DOM_LAST_HI = 0x01201024 := rfl
  have hne : Reg.TIM_DOM_LAST_LO + domOfs k ≠ Reg.TIM_DOM_LAST_HI + domOfs k := by omega
  have hset : ∀ o, 0x01201020 ≤ o → o < 0x01201600 → evtSetReg o = false := by
    intro o h1 h2
    have a1 : Reg.EVT_STAT = 0x01A00100 := rfl
    have a2 : Reg.EVT_SRC_CFG = 0x01A01000 := rfl
    simp [evtSetReg, statReg, a1, a2]
    omega
  exact {
    dom_self := by unfold Dev.sampleTaken; rw [doms_setDom _ _ _ _ hk, if_pos rfl]
    dom_other := fun j hj hn => by unfold Dev.sampleTaken; rw [doms_setDom _ _ _ _ hj, if_neg hn]; exact dom_congr (by simp) j
    dt := rfl
    source := rfl
    once := rfl
    parts := ((timOnly_cnt d _ _ _).trans (timOnly_setReg64 _ _ _ _)).trans (timOnly_setDom _ _ _)
    regs := fun o ho => sampleTaken_reg d k theta ho
    lo := by
      unfold Dev.sampleTaken
      rw [setDom_reg, Dev.setReg64, Dev.reg_setReg_ne _ _ _ hne, Dev.reg_setReg_self]
    hi := by
      unfold Dev.sampleTaken
      rw [setDom_reg, Dev.setReg64, Dev.reg_setReg_self]
    counted := by
      refine (d.cnt_counted Reg.TIM_CNT_LO 0 1).after ?_ ?_
      · unfold Dev.sampleTaken
        rw [setDom_reg, Dev.reg_setReg64_ne _ _ _ _ (by omega) (by omega)]
      · unfold Dev.sampleTaken
        rw [setDom_reg, Dev.reg_setReg64_ne _ _ _ _ (by omega) (by omega)]
    stats := by
      unfold Dev.sampleTaken
      refine Dev.statLe.trans (Dev.statLe_cnt (b := Reg.TIM_CNT_LO) (c := 0) d 1 (by decide) (by decide)) ?_
      have h1 := hset (Reg.TIM_DOM_LAST_LO + domOfs k) (by omega) (by omega)
      have h2 := hset (Reg.TIM_DOM_LAST_HI + domOfs k) (by omega) (by omega)
      exact Dev.statLe.trans (Dev.statLe_setReg64 _ _ h1 h2) (setDom_statLe _ _ _) }

/-- What the servo does (R260). -/
structure Served (k : Nat) (theta : Int) (tau : Nat) (d e : Dev) : Prop where
  clock : (e.dom k).clock = (d.dom k).clock
  last : (e.dom k).last = (d.dom k).last
  st : (e.dom k).st = (d.dom k).st
  good : (e.dom k).good = (d.dom k).good
  dom_other : ∀ j, j < 6 → j ≠ k → e.dom j = d.dom j
  dt : e.tim.dt = d.tim.dt
  source : e.tim.source = d.tim.source
  parts : d.changesOnly timParts e
  regs : d.keepsRegs [Reg.TIM_CNT_LO + 56, Reg.TIM_CNT_LO + 60] e
  stats : d.statLe e
  result : ∀ (i iNew adj : Int) (y : Rat), i = (d.dom k).integWr.getD (d.dom k).integ →
    y = (theta : Rat) * 3000000000000000000 / (max tau (nsUnit * 1000000) : Nat) →
    iNew = i + roundOpen (y / (2 ^ (d.gains k).2 : Nat)) → adj = -(roundOpen (y / (2 ^ (d.gains k).1 : Nat)) + iNew) →
    if 128000000 < adj.natAbs then
      (e.dom k).adj = (if 0 ≤ adj then 128000000 else -128000000) ∧ (e.dom k).integ = i ∧ d.counted Reg.TIM_CNT_LO 7 1 e
    else (e.dom k).adj = adj ∧ (e.dom k).integ = iNew

theorem servo_spec (d : Dev) (k : Nat) (theta : Int) (tau : Nat) (hk : k < 6) : Served k theta tau d (d.servo k theta tau) := by
  have hself : ∀ t, (d.setDom k t).dom k = t := fun t => by rw [doms_setDom _ _ _ _ hk, if_pos rfl]
  have hoth : ∀ t j, j < 6 → j ≠ k → (d.setDom k t).dom j = d.dom j := fun t j hj hn => by rw [doms_setDom _ _ _ _ hj, if_neg hn]
  have hcd : ∀ (t : TimDom) (j : Nat), ((d.setDom k t).cnt Reg.TIM_CNT_LO 7 1).dom j = (d.setDom k t).dom j := fun t j => dom_congr (by simp) j
  unfold Dev.servo
  dsimp only
  generalize hi : (d.dom k).integWr.getD (d.dom k).integ = i
  generalize hy : (theta : Rat) * 3000000000000000000 / (max tau (nsUnit * 1000000) : Nat) = y
  generalize hN : i + roundOpen (y / (2 ^ (d.gains k).2 : Nat)) = iNew
  generalize hA : -(roundOpen (y / (2 ^ (d.gains k).1 : Nat)) + iNew) = adj
  split
  · rename_i h
    exact {
      clock := by rw [hcd, hself]
      last := by rw [hcd, hself]
      st := by rw [hcd, hself]
      good := by rw [hcd, hself]
      dom_other := fun j hj hn => by rw [hcd, hoth _ j hj hn]
      dt := by rw [Dev.cnt_tim]; rfl
      source := by rw [Dev.cnt_tim]; rfl
      parts := (timOnly_setDom _ _ _).trans (timOnly_cnt _ _ _ _)
      regs := fun o ho => by
        simp only [List.mem_cons, List.not_mem_nil, or_false, not_or] at ho
        rw [Dev.reg_cnt_ne _ _ _ _ ho.1 ho.2]
        rfl
      stats := (setDom_statLe d _ _).trans (Dev.statLe_cnt _ _ (by decide) (by decide))
      result := by
        intro i' iNew' adj' y' g1 g2 g3 g4
        obtain rfl := g1.trans hi
        obtain rfl := g2.trans hy
        rw [hN] at g3
        subst g3
        rw [hA] at g4
        subst g4
        rw [if_pos h, hcd, hself]
        exact ⟨rfl, rfl, (Dev.cnt_counted _ _ _ _).before rfl rfl⟩ }
  · rename_i h
    exact {
      clock := by rw [hself]
      last := by rw [hself]
      st := by rw [hself]
      good := by rw [hself]
      dom_other := fun j hj hn => hoth _ j hj hn
      dt := rfl
      source := rfl
      parts := timOnly_setDom _ _ _
      regs := fun o _ => rfl
      stats := setDom_statLe d _ _
      result := by
        intro i' iNew' adj' y' g1 g2 g3 g4
        obtain rfl := g1.trans hi
        obtain rfl := g2.trans hy
        rw [hN] at g3
        subst g3
        rw [hA] at g4
        subst g4
        rw [if_neg h, hself]
        exact ⟨rfl, rfl⟩ }

/-- What counting toward LOCKED does (R261). -/
structure LockCounted (k : Nat) (theta : Int) (d e : Dev) : Prop where
  clock : (e.dom k).clock = (d.dom k).clock
  last : (e.dom k).last = (d.dom k).last
  integ : (e.dom k).integ = (d.dom k).integ
  adj : (e.dom k).adj = (d.dom k).adj
  st : (e.dom k).st = if (d.dom k).st = 4 ∨ ((d.dom k).st = 2 ∧ 7 ≤ (d.dom k).good ∧
    theta.natAbs ≤ d.fld (Reg.TIM_DOM_HOLD + domOfs k) 15 0 * 65536) then 3 else (d.dom k).st
  dom_other : ∀ j, j < 6 → j ≠ k → e.dom j = d.dom j
  dt : e.tim.dt = d.tim.dt
  source : e.tim.source = d.tim.source
  parts : d.changesOnly timParts e
  regs : d.keepsRegsE [] e
  stats : d.statLe e
  locked : (e.dom k).st = 3 → (d.dom k).st ≠ 3 → d.raised Src.TIME_LOCKED e

theorem countLock_spec (d : Dev) (k : Nat) (theta : Int) (hk : k < 6) : LockCounted k theta d (d.countLock k theta) := by
  have hself : ∀ t, (d.setDom k t).dom k = t := fun t => by rw [doms_setDom _ _ _ _ hk, if_pos rfl]
  have hoth : ∀ t j, j < 6 → j ≠ k → (d.setDom k t).dom j = d.dom j := fun t j hj hn => by rw [doms_setDom _ _ _ _ hj, if_neg hn]
  unfold Dev.countLock
  dsimp only
  generalize hg : (if decide (theta.natAbs ≤ d.fld (Reg.TIM_DOM_HOLD + domOfs k) 15 0 * 65536) = true then min 8 ((d.dom k).good + 1) else 0) = g
  have hg8 : g = 8 ↔ 7 ≤ (d.dom k).good ∧ theta.natAbs ≤ d.fld (Reg.TIM_DOM_HOLD + domOfs k) 15 0 * 65536 := by
    rw [← hg]
    split
    · rename_i h
      have := of_decide_eq_true h
      omega
    · rename_i h
      have : ¬ _ := fun h' => h (decide_eq_true h')
      omega
  generalize ht : ({ d.dom k with good := g } : TimDom) = t
  have hst : (d.dom k).st = t.st ∧ (d.dom k).clock = t.clock ∧ (d.dom k).last = t.last ∧ (d.dom k).integ = t.integ ∧ (d.dom k).adj = t.adj := by
    rw [← ht]
    exact ⟨rfl, rfl, rfl, rfl, rfl⟩
  obtain ⟨e1, e2, e3, e4, e5⟩ := hst
  have enter : (d.dom k).st ≠ 3 → (d.dom k).st = 4 ∨ ((d.dom k).st = 2 ∧ 7 ≤ (d.dom k).good ∧
      theta.natAbs ≤ d.fld (Reg.TIM_DOM_HOLD + domOfs k) 15 0 * 65536) → LockCounted k theta d ((d.setDom k t).setDomState k 3) := by
    intro hn3 hcond
    have H := setDomState_spec (d.setDom k t) k 3 hk
    exact {
      clock := by rw [H.dom_self, hself, e2]
      last := by rw [H.dom_self, hself, e3]
      integ := by rw [H.dom_self, hself, e4]
      adj := by rw [H.dom_self, hself, e5]; rfl
      st := by rw [if_pos hcond, H.dom_self]
      dom_other := fun j hj hn => by rw [H.dom_other j hj hn, hoth _ j hj hn]
      dt := H.dt
      source := H.source (Or.inr (Or.inr rfl))
      parts := (timOnly_setDom _ _ _).trans H.parts
      regs := fun o ho he => (H.regsOrd (Or.inr (Or.inr rfl)) o ho he)
      stats := (setDom_statLe _ _ _).trans H.stats
      locked := fun _ hn => (H.locked rfl (by rw [hself, ← e1]; exact hn)).before (setDom_statLe _ _ _) (by decide) }
  split
  · rename_i h
    exact enter (by omega) (Or.inr ⟨h.1, hg8.1 h.2⟩)
  · rename_i h1
    split
    · rename_i h
      exact enter (by omega) (Or.inl h)
    · rename_i h2
      have hno : ¬((d.dom k).st = 4 ∨ ((d.dom k).st = 2 ∧ 7 ≤ (d.dom k).good ∧
          theta.natAbs ≤ d.fld (Reg.TIM_DOM_HOLD + domOfs k) 15 0 * 65536)) := by
        rintro (h | h)
        · exact h2 h
        · exact h1 ⟨h.1, hg8.2 h.2⟩
      exact {
        clock := by rw [hself, e2]
        last := by rw [hself, e3]
        integ := by rw [hself, e4]
        adj := by rw [hself, e5]
        st := by rw [if_neg hno, hself, e1]
        dom_other := fun j hj hn => hoth _ j hj hn
        dt := rfl
        source := rfl
        parts := timOnly_setDom _ _ _
        regs := fun o _ _ => rfl
        stats := setDom_statLe _ _ _
        locked := fun h hn => by rw [hself, ← e1] at h; exact absurd h hn }

theorem sampleThresh (d : Dev) (k : Nat) (θ : Int) (hk : k < 6) : (d.sampleTaken k θ).stepThresh = d.stepThresh := by
  have hd := domOfs_lt hk
  unfold Dev.stepThresh Dev.fld
  have n1 : Reg.TIM_CNT_LO = 0x01200300 := rfl
  have n2 : Reg.TIM_DOM_LAST_LO = 0x01201020 := rfl
  have n3 : Reg.TIM_DOM_LAST_HI = 0x01201024 := rfl
  have n4 : Reg.TIM_STEP_THRESH = 0x0120000C := rfl
  rw [sampleTaken_reg]
  simp; omega

theorem sampleReg (d : Dev) (k : Nat) (θ : Int) (o : Nat) (h1 : o < 0x01200300 ∨ 0x1200308 ≤ o) (h2 : o ≠ Reg.TIM_DOM_LAST_LO + domOfs k)
    (h3 : o ≠ Reg.TIM_DOM_LAST_HI + domOfs k) : (d.sampleTaken k θ).reg o = d.reg o := by
  have n1 : Reg.TIM_CNT_LO = 0x01200300 := rfl
  rw [sampleTaken_reg]
  simp; omega

theorem evt_tim (o : Nat) (h1 : 0x01200000 ≤ o) (h2 : o < 0x01400000) : evtReg o = false := by
  have a1 : Reg.EVT_STAT = 0x01A00100 := rfl
  have a2 : Reg.EVT_CNT_LO = 0x01A00200 := rfl
  have a3 : Reg.EVT_LOG_HEAD = 0x01A00030 := rfl
  have a4 : Reg.EVT_LOG_TAIL = 0x01A00034 := rfl
  have a5 : Reg.MSIX_PBA = 0x01909000 := rfl
  simp [evtReg, a1, a2, a3, a4, a5]; omega

/-! ### Corrections -/

theorem stepClock_dom (d : Dev) (k : Nat) (u : Int) (hk : k < 6) : (d.stepClock k u).dom k = { d.dom k with clock := (((d.dom k).clock - u) % (clockSpan : Int)).toNat } ∧
    (∀ j, j < 6 → j ≠ k → (d.stepClock k u).dom j = d.dom j) := by
  unfold Dev.stepClock
  exact ⟨by rw [doms_setDom _ _ _ _ hk, if_pos rfl], fun j hj hn => by rw [doms_setDom _ _ _ _ hj, if_neg hn]⟩

/-- A correction that was stepped. -/
structure Stepped (k : Nat) (u : Int) (d e : Dev) : Prop where
  clock : (e.dom k).clock = (((d.dom k).clock - u) % (clockSpan : Int)).toNat
  integ : (e.dom k).integ = (d.dom k).integ
  adj : (e.dom k).adj = (d.dom k).adj
  st : (e.dom k).st = (d.dom k).st
  oth : ∀ j, j < 6 → j ≠ k → e.dom j = d.dom j
  dt : e.tim.dt = d.tim.dt
  parts : d.changesOnly timParts e
  regs : d.keepsRegsE [Reg.TIM_CNT_LO + 8, Reg.TIM_CNT_LO + 12, Reg.TIM_CNT_LO + 24, Reg.TIM_CNT_LO + 28] e
  counted : d.counted Reg.TIM_CNT_LO 1 1 e
  stats : d.statLe e

theorem stepped_base (d : Dev) (k : Nat) (u : Int) (hk : k < 6) : Stepped k u d ((d.stepClock k u).cnt Reg.TIM_CNT_LO 1 1) := by
  obtain ⟨h1, h2⟩ := stepClock_dom d k u hk
  have hc : ∀ j, ((d.stepClock k u).cnt Reg.TIM_CNT_LO 1 1).dom j = (d.stepClock k u).dom j := fun j => dom_congr (by simp) j
  exact {
    clock := by rw [hc, h1]
    integ := by rw [hc, h1]
    adj := by rw [hc, h1]
    st := by rw [hc, h1]
    oth := fun j hj hn => by rw [hc, h2 j hj hn]
    dt := by rw [Dev.cnt_tim]; rfl
    parts := (timOnly_setDom _ _ _).trans (timOnly_cnt _ _ _ _)
    regs := fun o ho _ => by
      simp only [List.mem_cons, List.not_mem_nil, or_false, not_or] at ho
      rw [Dev.reg_cnt_ne _ _ _ _ ho.1 ho.2.1]; rfl
    counted := (Dev.cnt_counted _ _ _ _).before rfl rfl
    stats := (setDom_statLe _ _ _).trans (Dev.statLe_cnt _ _ (by decide) (by decide)) }

theorem stepped_good {d e : Dev} {k : Nat} {u : Int} (h : Stepped k u d e) (hk : k < 6) : Stepped k u d (e.setDom k { e.dom k with good := 0 }) := by
  have hself : ∀ t, (e.setDom k t).dom k = t := fun t => by rw [doms_setDom _ _ _ _ hk, if_pos rfl]
  exact {
    clock := by rw [hself]; exact h.clock
    integ := by rw [hself]; exact h.integ
    adj := by rw [hself]; exact h.adj
    st := by rw [hself]; exact h.st
    oth := fun j hj hn => by rw [doms_setDom _ _ _ _ hj, if_neg hn]; exact h.oth j hj hn
    dt := h.dt
    parts := h.parts.trans (timOnly_setDom _ _ _)
    regs := h.regs
    counted := h.counted
    stats := h.stats.trans (setDom_statLe _ _ _) }

theorem stepped_exchange {d e : Dev} {k : Nat} {u : Int} (h : Stepped k u d e) : Stepped k u d e.exchange := by
  exact {
    clock := by rw [exchange_dom]; exact h.clock
    integ := by rw [exchange_dom]; exact h.integ
    adj := by rw [exchange_dom]; exact h.adj
    st := by rw [exchange_dom]; exact h.st
    oth := fun j hj hn => by rw [exchange_dom]; exact h.oth j hj hn
    dt := by rw [exchange_dt]; exact h.dt
    parts := h.parts.trans (timOnly_exchange _)
    regs := fun o ho he => by
      have ho' := ho
      simp only [List.mem_cons, List.not_mem_nil, or_false, not_or] at ho
      rw [exchange_reg _ he, Dev.reg_cnt_ne _ _ _ _ ho.2.2.1 ho.2.2.2]; exact h.regs o ho' he
    counted := h.counted.after (by rw [exchange_reg _ (by decide), Dev.reg_cnt_ne _ _ _ _ (by decide) (by decide)])
      (by rw [exchange_reg _ (by decide), Dev.reg_cnt_ne _ _ _ _ (by decide) (by decide)])
    stats := h.stats.trans (exchange_statLe _) }

theorem stepped_checkApart {d e : Dev} {k : Nat} {u : Int} (h : Stepped k u d e) : Stepped k u d e.checkApart := by
  obtain ⟨b, hb⟩ := checkApart_tim e
  have hd : ∀ j, e.checkApart.dom j = e.dom j := fun j => by unfold Dev.dom; rw [hb]
  exact {
    clock := by rw [hd]; exact h.clock
    integ := by rw [hd]; exact h.integ
    adj := by rw [hd]; exact h.adj
    st := by rw [hd]; exact h.st
    oth := fun j hj hn => by rw [hd]; exact h.oth j hj hn
    dt := by rw [hb]; exact h.dt
    parts := h.parts.trans (timOnly_checkApart _)
    regs := fun o ho he => by rw [checkApart_reg _ he]; exact h.regs o ho he
    counted := h.counted.after (checkApart_reg _ (by decide)) (checkApart_reg _ (by decide))
    stats := h.stats.trans (statLe_checkApart _) }

theorem autoSwitchStep_cases (d : Dev) : d.autoSwitchStep = d ∨ d.autoSwitchStep = d.exchange := by
  unfold Dev.autoSwitchStep
  dsimp only
  split
  · exact Or.inr rfl
  · exact Or.inl rfl

/-! ### What any sample leaves alone -/

/-- Time registers that a sample of clock k may write once it is taken. -/
def sampleRegs (k : Nat) : List Nat :=
  [Reg.TIM_CNT_LO, Reg.TIM_CNT_LO + 4, Reg.TIM_CNT_LO + 8, Reg.TIM_CNT_LO + 12, Reg.TIM_CNT_LO + 16, Reg.TIM_CNT_LO + 20, Reg.TIM_CNT_LO + 24,
   Reg.TIM_CNT_LO + 28, Reg.TIM_CNT_LO + 56, Reg.TIM_CNT_LO + 60, Reg.TIM_DOM_STAT + domOfs k]

structure SampleFrame (k : Nat) (d e : Dev) : Prop where
  dt : e.tim.dt = d.tim.dt
  ppsIn : e.tim.ppsIn = d.tim.ppsIn
  dom_other : ∀ j, j < 6 → j ≠ k → e.dom j = d.dom j
  parts : d.changesOnly timParts e
  regs : d.keepsRegsE (sampleRegs k) e

theorem SampleFrame.refl (k : Nat) (d : Dev) : SampleFrame k d d :=
  ⟨rfl, rfl, fun _ _ _ => rfl, d.changesOnly_refl _, d.keepsRegsE_refl _⟩

theorem SampleFrame.trans {k : Nat} {a b c : Dev} (h1 : SampleFrame k a b) (h2 : SampleFrame k b c) : SampleFrame k a c :=
  ⟨h2.dt.trans h1.dt, h2.ppsIn.trans h1.ppsIn, fun j a b => (h2.dom_other j a b).trans (h1.dom_other j a b), h1.parts.trans h2.parts, h1.regs.trans h2.regs⟩

theorem SampleFrame.setDom (k : Nat) (d : Dev) (t : TimDom) : SampleFrame k d (d.setDom k t) :=
  ⟨rfl, rfl, fun j hj hn => by rw [doms_setDom _ _ _ _ hj, if_neg hn], timOnly_setDom _ _ _, fun _ _ _ => rfl⟩

theorem SampleFrame.cnt (k : Nat) (d : Dev) (c n : Nat) (h : Reg.TIM_CNT_LO + 8 * c ∈ sampleRegs k ∧ Reg.TIM_CNT_LO + 8 * c + 4 ∈ sampleRegs k) :
    SampleFrame k d (d.cnt Reg.TIM_CNT_LO c n) :=
  ⟨by rw [Dev.cnt_tim], by rw [Dev.cnt_tim], fun j _ _ => dom_congr (by simp) j, timOnly_cnt _ _ _ _,
   fun o ho _ => Dev.reg_cnt_ne _ _ _ _ (fun he => ho (he ▸ h.1)) (fun he => ho (he ▸ h.2))⟩

theorem SampleFrame.raise (k : Nat) (d : Dev) (a b c : Nat) : SampleFrame k d (d.raise a b c) :=
  ⟨by rw [Dev.raise_tim], by rw [Dev.raise_tim], fun j _ _ => raise_dom _ _ _ _ j, timOnly_raise _ _ _ _, fun o _ he => Dev.raise_reg _ _ _ _ he⟩

theorem SampleFrame.checkApart (k : Nat) (d : Dev) : SampleFrame k d d.checkApart := by
  obtain ⟨b, hb⟩ := checkApart_tim d
  exact ⟨by rw [hb], by rw [hb], fun j _ _ => by unfold Dev.dom; rw [hb], timOnly_checkApart _, fun o _ he => checkApart_reg _ he⟩

theorem SampleFrame.exchange (k : Nat) (d : Dev) : SampleFrame k d d.exchange := by
  obtain ⟨b, hb⟩ := exchange_tim d
  refine ⟨by rw [hb], by rw [hb], fun j _ _ => exchange_dom _ j, timOnly_exchange _, fun o ho he => ?_⟩
  rw [exchange_reg _ he, Dev.reg_cnt_ne _ _ _ _ (fun h => ho (by rw [h]; simp [sampleRegs])) (fun h => ho (by rw [h]; simp [sampleRegs]))]

theorem SampleFrame.setDomState (k st : Nat) (d : Dev) : SampleFrame k d (d.setDomState k st) := by
  unfold Dev.setDomState
  dsimp only
  have h1 := SampleFrame.setDom k d { d.dom k with st := st, adj := if st = 4 then (d.dom k).integ else (d.dom k).adj, good := if st = 2 then 0 else (d.dom k).good }
  split
  · exact h1.trans (SampleFrame.raise _ _ _ _ _)
  · split
    · generalize d.setDom k _ = E at h1 ⊢
      have h2 : SampleFrame k d (if st = 0 then E else E.raise Src.TIME_LOCK_LOST k) := by
        split
        · exact h1
        · exact h1.trans (SampleFrame.raise _ _ _ _ _)
      generalize (if st = 0 then E else E.raise Src.TIME_LOCK_LOST k) = G at h2 ⊢
      rcases autoSwitchLost_cases G k with he | ⟨_, he⟩
      · rw [he]
        exact h2
      · rw [he]
        exact h2.trans (SampleFrame.exchange _ _)
    · exact h1

theorem SampleFrame.stepClock (k : Nat) (u : Int) (d : Dev) : SampleFrame k d ((d.stepClock k u).cnt Reg.TIM_CNT_LO 1 1) :=
  (SampleFrame.setDom k d _).trans (SampleFrame.cnt k _ 1 1 (by simp [sampleRegs]))

theorem SampleFrame.raiseOnce (k : Nat) (d : Dev) (a b c : Nat) : SampleFrame k d (d.raiseOnce a b c) :=
  ⟨by rw [Dev.raiseOnce_tim], by rw [Dev.raiseOnce_tim], fun j _ _ => dom_congr (by simp) j, timOnly_raiseOnce _ _ _ _, fun o _ he => Dev.raiseOnce_reg _ _ _ _ he⟩

theorem SampleFrame.correction (k : Nat) (θ : Int) (d : Dev) : SampleFrame k d (d.correction k θ) := by
  unfold Dev.correction
  dsimp only
  have hB := SampleFrame.stepClock k (θ * smpUnit) d
  generalize (d.stepClock k (θ * smpUnit)).cnt Reg.TIM_CNT_LO 1 1 = B at hB ⊢
  split
  · have hG := hB.trans (SampleFrame.setDom k B { B.dom k with good := 0 })
    generalize B.setDom k { B.dom k with good := 0 } = G at hG ⊢
    split
    · exact hG.trans ⟨rfl, rfl, fun _ _ _ => rfl, (G.parts_tim _).mono (by decide), fun _ _ _ => rfl⟩
    · exact hG
  · split
    · exact hB.trans (SampleFrame.setDom k B { B.dom k with good := 0 })
    · split
      · split
        · exact hB.trans (SampleFrame.setDomState _ _ _)
        · exact hB
      · exact SampleFrame.setDom k d _

theorem SampleFrame.servo (k : Nat) (θ : Int) (tau : Nat) (d : Dev) : SampleFrame k d (d.servo k θ tau) := by
  unfold Dev.servo
  dsimp only
  split
  · exact (SampleFrame.setDom k d _).trans (SampleFrame.cnt k _ 7 1 (by simp [sampleRegs]))
  · exact SampleFrame.setDom k d _

theorem SampleFrame.countLock (k : Nat) (θ : Int) (d : Dev) : SampleFrame k d (d.countLock k θ) := by
  unfold Dev.countLock
  dsimp only
  generalize (if decide (θ.natAbs ≤ d.fld (Reg.TIM_DOM_HOLD + domOfs k) 15 0 * 65536) = true then min 8 ((d.dom k).good + 1) else 0) = g
  have h1 := SampleFrame.setDom k d { d.dom k with good := g }
  split
  · exact h1.trans (SampleFrame.setDomState _ _ _)
  · split
    · exact h1.trans (SampleFrame.setDomState _ _ _)
    · exact h1

/-- A sample that is taken is counted and kept; what follows changes no other clock, does not move DT, and writes counters and the
clock's state register alone. -/
theorem timDomSample_frame (k : Nat) (src : SampleSrc) (θ : Int) (d : Dev) (hk : k < 6)
    (h1 : d.flag (Reg.TIM_DOM_CFG + domOfs k) 31 = true) (h2 : d.fld (Reg.TIM_DOM_CFG + domOfs k) 30 28 = sampleRef src) :
    SampleFrame k (d.sampleTaken k θ) (timDomSample k src θ d) := by
  rw [timDomSample_on d k src θ hk h1 h2]
  split
  · exact (SampleFrame.servo _ _ _ _).trans (SampleFrame.countLock _ _ _)
  · exact SampleFrame.correction _ _ _

/-- Other clocks' windows: a sample of clock k leaves them alone. -/
theorem timDomSample_other (k : Nat) (src : SampleSrc) (θ : Int) (d : Dev) :
    (timDomSample k src θ d).tim.dt = d.tim.dt ∧ (timDomSample k src θ d).tim.ppsIn = d.tim.ppsIn ∧
    d.changesOnly timParts (timDomSample k src θ d) ∧
    (∀ j, j < 6 → j ≠ k → (timDomSample k src θ d).dom j = d.dom j) ∧
    (∀ j n, j < 6 → j ≠ k → n < 0x100 → (timDomSample k src θ d).reg (Reg.TIM_DOM_CFG + domOfs j + n) = d.reg (Reg.TIM_DOM_CFG + domOfs j + n)) := by
  by_cases h : 6 ≤ k ∨ d.flag (Reg.TIM_DOM_CFG + domOfs k) 31 = false ∨ d.fld (Reg.TIM_DOM_CFG + domOfs k) 30 28 ≠ sampleRef src
  · rw [timDomSample_off d k src θ h]
    exact ⟨rfl, rfl, d.changesOnly_refl _, fun _ _ _ => rfl, fun _ _ _ _ _ => rfl⟩
  · have hk : k < 6 := Nat.lt_of_not_le fun h' => h (Or.inl h')
    have h1 : d.flag (Reg.TIM_DOM_CFG + domOfs k) 31 = true := by
      cases hb : d.flag (Reg.TIM_DOM_CFG + domOfs k) 31 with
      | true => rfl
      | false => exact absurd (Or.inr (Or.inl hb)) h
    have h2 : d.fld (Reg.TIM_DOM_CFG + domOfs k) 30 28 = sampleRef src := Classical.byContradiction fun h' => h (Or.inr (Or.inr h'))
    have F := timDomSample_frame k src θ d hk h1 h2
    have S := sampleTaken_spec d k θ hk
    refine ⟨F.dt.trans S.dt, F.ppsIn, S.parts.trans F.parts, fun j hj hn => (F.dom_other j hj hn).trans (S.dom_other j hj hn), fun j n hj hn hlt => ?_⟩
    have n1 : Reg.TIM_CNT_LO = 0x01200300 := rfl
    have n2 : Reg.TIM_DOM_LAST_LO = 0x01201020 := rfl
    have n3 : Reg.TIM_DOM_LAST_HI = 0x01201024 := rfl
    have n4 : Reg.TIM_DOM_STAT = 0x01201004 := rfl
    have n5 : Reg.TIM_DOM_CFG = 0x01201000 := rfl
    have hd : domOfs j = 0x100 * j := rfl
    have hd' : domOfs k = 0x100 * k := rfl
    rw [F.regs _ (by simp only [sampleRegs, List.mem_cons, List.not_mem_nil, or_false]; omega) (evt_tim _ (by omega) (by omega)),
      sampleReg _ _ _ _ (by omega) (by omega) (by omega)]

/-! ### Time passing within a command -/

/-- DT already at or past t: at once. -/
theorem Dev.atDt_past (d : Dev) {t : Nat} (f : Dev → Dev) (h : t ≤ d.tim.dt) : d.atDt t f = f d := by
  unfold Dev.atDt Dev.reachDt Dev.fclkTo
  rw [if_pos h]
  rfl

/-- DT comes to t within the beat: after that many FCLK. -/
theorem Dev.atDt_within (d : Dev) {t : Nat} (f : Dev → Dev) (h1 : d.fclkTo t ≠ 0) (h2 : d.fclkTo t < d.fclkToBoundary) :
    d.atDt t f = f (d.advance (d.fclkTo t)) := by
  unfold Dev.atDt Dev.reachDt
  dsimp only
  rw [if_neg h1, if_pos h2]

/-- The FCLK count already at or past t: at once. -/
theorem Dev.atNow_past (d : Dev) {t : Nat} (f : Dev → Dev) (h : t ≤ d.now) : d.atNow t f = f d := by
  unfold Dev.atNow Dev.reachNow
  rw [if_pos h]

/-! ### Gates -/

theorem captureBit (v : Word) : bit (v ||| 0x80000000) 31 = true := (orBit31 v).1
theorem switchBit (v : Word) : bit (v ||| 0x40000000) 30 = true := (orBit30 v).1

abbrev gatFs : List RegField := [rw 31 31, w1c 27 27, w1c 26 26, ro 28 28, rw 10 0 [(1, 1024)]]

theorem gat_bits (old v : Word) : bit (writeFields gatFs old v) 28 = bit old 28 ∧ bit (writeFields gatFs old v) 31 = bit v 31 ∧
    bits (writeFields gatFs old v) 10 0 = (if 1 ≤ bits v 10 0 ∧ bits v 10 0 ≤ 1024 then bits v 10 0 else bits old 10 0) := by
  have hb : ∀ (w : Word) (i : Nat), bits w i i = if bit w i then 1 else 0 := by
    intro w i
    unfold bits bit
    have : i + 1 - i = 1 := by omega
    rw [this]
    rcases Nat.mod_two_eq_zero_or_one (w.toNat / 2 ^ i) with h | h <;> simp [h]
  have hbit : ∀ (a b : Word) (i j : Nat), bits a i i = bits b j j → bit a i = bit b j := by
    intro a b i j h
    rw [hb, hb] at h
    cases h1 : bit a i <;> cases h2 : bit b j <;> simp_all
  refine ⟨hbit _ _ _ _ ?_, hbit _ _ _ _ ?_, ?_⟩
  · exact bits_writeFields (f := ro 28 28) (by decide) (by simp) old v rfl rfl
  · refine (bits_writeFields (f := rw 31 31) (by decide) (by simp) old v rfl rfl).trans ?_
    have : bits v 31 31 < 2 := bits_lt v 31 31
    simp [fieldWrite, rw, RegField.legal]
  · refine (bits_writeFields (f := rw 10 0 [(1, 1024)]) (by decide) (by simp) old v rfl rfl).trans ?_
    have hl : (rw 10 0 [(1, 1024)]).legal (bits v 10 0) = decide (1 ≤ bits v 10 0 ∧ bits v 10 0 ≤ 1024) := by simp [rw, RegField.legal]
    show (if (rw 10 0 [(1, 1024)]).legal (bits v 10 0) = true then bits v 10 0 else bits old 10 0) = _
    rw [hl]
    by_cases h : 1 ≤ bits v 10 0 ∧ bits v 10 0 ≤ 1024
    · rw [if_pos h, if_pos (decide_eq_true h)]
    · rw [if_neg h, if_neg (by simpa using h)]

theorem fclkTo_spec (d : Dev) (T : Nat) (hinc : 0 < (d.dom d.active).inc) (hlt : d.tim.dt < T) : 0 < d.fclkTo T ∧ T ≤ d.dtAfter (d.fclkTo T) := by
  have hceil : ∀ a b, 0 < b → a ≤ ceilDiv a b * b := by
    intro a b hb
    unfold ceilDiv
    have := Nat.div_add_mod (a + b - 1) b
    have h2 := Nat.mod_lt (a + b - 1) hb
    have h3 : b * ((a + b - 1) / b) = (a + b - 1) / b * b := Nat.mul_comm _ _
    omega
  have hpos : ∀ a b, 0 < b → 0 < a → 0 < ceilDiv a b := by
    intro a b hb ha
    have := hceil a b hb
    rcases Nat.eq_zero_or_pos (ceilDiv a b) with h | h
    · rw [h] at this; omega
    · exact h
  have hslew : d.slewStep < (d.dom d.active).inc := by
    unfold Dev.slewStep
    split
    · have : d.fld Reg.TIM_SLEW_MAX 8 0 < 512 := bits_lt _ 8 0
      generalize d.fld Reg.TIM_SLEW_MAX 8 0 = f at this ⊢
      have h2 : (d.dom d.active).inc * f ≤ (d.dom d.active).inc * 511 := Nat.mul_le_mul_left _ (by omega)
      exact Nat.div_lt_of_lt_mul (by omega)
    · exact hinc
  unfold Dev.fclkTo Dev.dtAfter
  rw [if_neg (by omega)]
  dsimp only
  generalize (d.dom d.active).inc = i at hinc hslew ⊢
  generalize d.slewStep = w at hslew ⊢
  generalize he : d.dtErr.natAbs = e
  generalize hg : T - d.tim.dt = g
  have hTg : T = d.tim.dt + g := by omega
  have hg0 : 0 < g := by omega
  split
  · generalize hn : max (ceilDiv g (i + w)) (ceilDiv (g - e) i) = n
    have h1 := hceil g (i + w) (by omega)
    have h2 := hceil (g - e) i hinc
    have h3 : ceilDiv g (i + w) * (i + w) ≤ n * (i + w) := Nat.mul_le_mul_right _ (by omega)
    have h4 : ceilDiv (g - e) i * i ≤ n * i := Nat.mul_le_mul_right _ (by omega)
    have h5 := hpos g (i + w) (by omega) hg0
    have h7 : n * (i + w) = n * i + n * w := Nat.mul_add ..
    refine ⟨by omega, ?_⟩
    have : min e (n * w) = e ∨ min e (n * w) = n * w := by omega
    rcases this with h | h <;> rw [h] <;> omega
  · have h1 := hceil g (i - w) (by omega)
    have h2 := hceil (g + e) i hinc
    have h5 := hpos g (i - w) (by omega) hg0
    have h6 := hpos (g + e) i hinc (by omega)
    rcases Nat.le_total (ceilDiv g (i - w)) (ceilDiv (g + e) i) with h | h
    · rw [Nat.min_eq_left h]
      generalize ceilDiv g (i - w) = n at h1 h5 ⊢
      rw [Nat.mul_sub] at h1
      refine ⟨h5, ?_⟩
      have h8 : n * w ≤ n * i := Nat.mul_le_mul_left _ (by omega)
      omega
    · rw [Nat.min_eq_right h]
      generalize ceilDiv (g + e) i = n at h2 h6 ⊢
      exact ⟨h6, by omega⟩

theorem gate_setGate (d : Dev) (p : Nat) (g : Gate) (q : Nat) : (d.setGate p g).gate q = if q = p then g else d.gate q := by
  unfold Dev.setGate Dev.gate
  dsimp only
  split
  · rename_i h; subst h; rw [tabFind_recSet_self]; rfl
  · rename_i h; rw [tabFind_recSet_ne _ _ _ h]

theorem gate_congr {d e : Dev} (h : e.tim = d.tim) (j : Nat) : e.gate j = d.gate j := by unfold Dev.gate; rw [h]

theorem setGate_tim (d : Dev) (p : Nat) (g : Gate) : (d.setGate p g).tim.dt = d.tim.dt ∧ (d.setGate p g).tim.doms = d.tim.doms := ⟨rfl, rfl⟩

theorem setGate_reg (d : Dev) (p : Nat) (g : Gate) (o : Nat) : (d.setGate p g).reg o = d.reg o := rfl

theorem setGate_tabs (d : Dev) (p : Nat) (g : Gate) : (d.setGate p g).tabs = d.tabs := rfl

theorem setGate_ent (d : Dev) (p : Nat) (g : Gate) (u : TabUnit) (t i : Nat) : (d.setGate p g).ent u t i = d.ent u t i := by
  unfold Dev.ent
  rw [setGate_tabs]

theorem setGate_flag (d : Dev) (p : Nat) (g : Gate) (o i : Nat) : (d.setGate p g).flag o i = d.flag o i := by
  unfold Dev.flag
  rw [setGate_reg]

theorem setGate_fld (d : Dev) (p : Nat) (g : Gate) (o a b : Nat) : (d.setGate p g).fld o a b = d.fld o a b := by
  unfold Dev.fld
  rw [setGate_reg]

theorem gatesNow_cur (d : Dev) (p c : Nat) : (d.setGate p { d.gate p with cur := c }).gatesNow p = d.gatesNow p := by
  have hg : (d.setGate p { d.gate p with cur := c }).gate p = { d.gate p with cur := c } := by rw [gate_setGate, if_pos rfl]
  have hs : (d.setGate p { d.gate p with cur := c }).operSegs p = d.operSegs p := by
    unfold Dev.operSegs Dev.gateList
    rw [hg]
    simp only [setGate_ent]
  unfold Dev.gatesNow
  rw [hg, hs, setGate_flag, setGate_fld, (setGate_tim _ _ _).1]

/-! ### The end of an FCLK -/

/-- Parts that what is settled at the end of an FCLK may write. -/
abbrev endParts : List Part := [.regs, .tim, .evt, .out, .que, .mem, .setNow]

theorem judgeGroup_parts (d : Dev) (g : Nat) : d.changesOnly endParts (d.judgeGroup g) := by
  unfold Dev.judgeGroup
  dsimp only
  split
  · split
    · exact (d.parts_que _).mono (by decide)
    · exact d.changesOnly_refl _
  · split
    · exact ((d.parts_que _).mono (by decide)).trans ((Dev.raise_evtOnly _ _ _ _).changes.mono (by decide))
    · exact d.changesOnly_refl _

theorem foldDev_parts {α : Type} (ps : List Part) (f : α → Dev → Dev) (h : ∀ a d, Dev.changesOnly ps d (f a d)) (l : List α) (d : Dev) :
    d.changesOnly ps (foldDev l f d) := by
  unfold foldDev
  induction l generalizing d with
  | nil => exact d.changesOnly_refl _
  | cons a l ih => exact (h a d).trans (ih _)

theorem judgeGroups_parts (d : Dev) : d.changesOnly endParts d.judgeGroups := by
  unfold Dev.judgeGroups
  split
  · exact d.changesOnly_refl _
  · exact ((d.parts_que _).mono (by decide)).trans (foldDev_parts _ _ (fun g e => judgeGroup_parts e g) _ _)

theorem judgeGroup_tim (d : Dev) (g : Nat) : (d.judgeGroup g).tim = d.tim := by
  unfold Dev.judgeGroup
  dsimp only
  split
  · split <;> rfl
  · split
    · rw [Dev.raise_tim]
    · rfl

theorem judgeGroups_tim (d : Dev) : d.judgeGroups.tim = d.tim := by
  unfold Dev.judgeGroups
  split
  · rfl
  · have : ∀ (l : List Nat) (e : Dev), (l.foldl (fun d g => d.judgeGroup g) e).tim = e.tim := by
      intro l
      induction l with
      | nil => intro e; rfl
      | cons g l ih => intro e; rw [List.foldl_cons, ih, judgeGroup_tim]
    unfold foldDev
    rw [this]

/-- A step of the settling changes only these parts, and no gate list. -/
structure Settles (d e : Dev) : Prop where
  parts : d.changesOnly endParts e
  gates : e.tim.gates = d.tim.gates

theorem Settles.refl (d : Dev) : Settles d d := ⟨d.changesOnly_refl _, rfl⟩
theorem Settles.trans {a b c : Dev} (h1 : Settles a b) (h2 : Settles b c) : Settles a c := ⟨h1.parts.trans h2.parts, h2.gates.trans h1.gates⟩
theorem Settles.setDom (d : Dev) (k : Nat) (t : TimDom) : Settles d (d.setDom k t) := ⟨(timOnly_setDom _ _ _).mono (by decide), rfl⟩
theorem Settles.exchange (d : Dev) : Settles d d.exchange :=
  ⟨(timOnly_exchange d).mono (by decide), by obtain ⟨b, h⟩ := exchange_tim d; rw [h]⟩
theorem Settles.checkApart (d : Dev) : Settles d d.checkApart :=
  ⟨(timOnly_checkApart d).mono (by decide), by obtain ⟨b, h⟩ := checkApart_tim d; rw [h]⟩
theorem Settles.raise (d : Dev) (a b c : Nat) : Settles d (d.raise a b c) := ⟨(timOnly_raise d a b c).mono (by decide), by rw [Dev.raise_tim]⟩

theorem Settles.setDomState (d : Dev) (k st : Nat) : Settles d (d.setDomState k st) := by
  unfold Dev.setDomState
  dsimp only
  generalize ({ d.dom k with st := st, adj := if st = 4 then (d.dom k).integ else (d.dom k).adj, good := if st = 2 then 0 else (d.dom k).good } : TimDom) = t
  have h1 := Settles.setDom d k t
  generalize d.setDom k t = E at h1 ⊢
  split
  · exact h1.trans (Settles.raise _ _ _ _)
  · split
    · have h2 : Settles d (if st = 0 then E else E.raise Src.TIME_LOCK_LOST k) := by
        split
        · exact h1
        · exact h1.trans (Settles.raise _ _ _ _)
      generalize (if st = 0 then E else E.raise Src.TIME_LOCK_LOST k) = G at h2 ⊢
      rcases autoSwitchLost_cases G k with he | ⟨_, he⟩
      · rw [he]
        exact h2
      · rw [he]
        exact h2.trans (Settles.exchange _)
    · exact h1

theorem Settles.hwSet (d : Dev) (o i : Nat) : Settles d (d.hwSet o i) := by
  have h1 : Settles d (d.setFlag o i true) := ⟨(timOnly_setFlag d o i true).mono (by decide), by rw [Dev.setFlag_tim]⟩
  unfold Dev.hwSet
  generalize d.setFlag o i true = e at h1 ⊢
  exact h1.trans ⟨(e.parts_setNow _).mono (by decide), rfl⟩

theorem Settles.refuseJump (d : Dev) (k : Nat) : Settles d (d.refuseJump k) := by
  unfold Dev.refuseJump
  dsimp only
  have h1 := (Settles.setDomState d k 4).trans (Settles.hwSet _ (Reg.TIM_DOM_STAT + 0x100 * k) 28)
  generalize (d.setDomState k 4).hwSet (Reg.TIM_DOM_STAT + 0x100 * k) 28 = e at h1 ⊢
  have h2 : Settles e ((e.cnt Reg.TIM_CNT_LO 2 1).raiseOnce Src.TIME_JUMP_REFUSED k) :=
    ⟨((timOnly_cnt _ _ _ _).trans (timOnly_raiseOnce _ _ _ _)).mono (by decide), by rw [Dev.raiseOnce_tim, Dev.cnt_tim]⟩
  exact h1.trans h2

theorem Settles.foldDev {α : Type} (f : α → Dev → Dev) (h : ∀ a d, Settles d (f a d)) (l : List α) (d : Dev) : Settles d (foldDev l f d) := by
  unfold Machine.foldDev
  induction l generalizing d with
  | nil => exact Settles.refl d
  | cons a l ih => exact (h a d).trans (ih _)

/-- What settling the end of an FCLK can do. -/
theorem settleTime_settles (d : Dev) : Settles d d.settleTime := by
  unfold Dev.settleTime
  dsimp only
  have h1 := Settles.foldDev (fun k d => Machine.foldDev (d.dom k).refused (fun _ d => d.refuseJump k) (d.setDom k { d.dom k with refused := [] }))
    (fun k d => (Settles.setDom d k _).trans (Settles.foldDev _ (fun _ d => Settles.refuseJump d k) _ _))
    ((List.range 6).filter (fun k => !(d.dom k).refused.isEmpty)) d
  generalize Machine.foldDev ((List.range 6).filter (fun k => !(d.dom k).refused.isEmpty)) _ d = e at h1 ⊢
  split
  · have h2 := h1.trans (⟨(e.parts_tim _).mono (by decide), rfl⟩ : Settles e { e with tim := { e.tim with stepped := false } })
    generalize ({ e with tim := { e.tim with stepped := false } } : Dev) = g at h2 ⊢
    rcases autoSwitchStep_cases g with h | h
    · rw [h]
      exact h2.trans (Settles.checkApart _)
    · rw [h]
      exact (h2.trans (Settles.exchange _)).trans (Settles.checkApart _)
  · exact h1

theorem runMem_settles (d : Dev) (n : Nat) : Settles d (d.runMem n) := by
  unfold Dev.runMem
  split
  · exact Settles.refl d
  · exact ⟨(d.parts_mem _).mono (by decide), rfl⟩

/-- The device at the end of the present FCLK, before n FCLK pass. -/
def Dev.fclkEnd (d : Dev) (n : Nat) : Dev := d.judgeGroups.settleTime.runMem n

theorem fclkEnd_settles (d : Dev) (n : Nat) : Settles d (d.fclkEnd n) :=
  ((⟨judgeGroups_parts d, congrArg Tim.gates (judgeGroups_tim d)⟩ : Settles d d.judgeGroups).trans (settleTime_settles _)).trans (runMem_settles _ _)

/-- Nothing of the present FCLK is left to settle at its end. -/
def Dev.settled (d : Dev) : Prop :=
  d.que.touched = [] ∧ (∀ k, k < 6 → (d.dom k).refused = []) ∧ d.tim.stepped = false ∧
  d.mem.chans.all (fun c => c.2.reads.isEmpty && c.2.writes.isEmpty) = true

theorem fclkEnd_settled (d : Dev) (n : Nat) (h : d.settled) : d.fclkEnd n = d := by
  obtain ⟨h1, h2, h3, h4⟩ := h
  have e1 : d.judgeGroups = d := by
    unfold Dev.judgeGroups
    rw [h1]
    rfl
  have e2 : d.settleTime = d := by
    unfold Dev.settleTime
    have : (List.range 6).filter (fun k => !(d.dom k).refused.isEmpty) = [] := by
      rw [List.filter_eq_nil_iff]
      intro k hk
      rw [h2 k (List.mem_range.1 hk)]
      decide
    rw [this]
    unfold foldDev
    dsimp only [List.foldl]
    rw [if_neg (by rw [h3]; decide)]
  unfold Dev.fclkEnd
  rw [e1, e2]
  unfold Dev.runMem
  rw [if_pos h4]

/-- What the passing of n FCLK does: what was left to settle is settled, and then time alone moves. -/
theorem advance_spec (d : Dev) (n : Nat) (h : n ≠ 0) :
    d.changesOnly (endParts ++ [.now, .fclk, .tsk]) (d.advance n) ∧ (d.advance n).tsk.todo = d.tsk.todo ∧
    (d.advance n).tim.dt = (d.fclkEnd n).dtAfter n ∧ (d.advance n).tim.gates = d.tim.gates ∧
    (d.advance n).now = d.now + n ∧ (d.advance n).fclk = d.fclk + n ∧ (d.advance n).regs = (d.fclkEnd n).regs := by
  have hs := fclkEnd_settles d n
  have key : ∀ e : Dev, e = d.fclkEnd n → ∃ o ti ev tk, d.advance n =
      { e with now := e.now + n, fclk := e.fclk + n, setNow := [], out := o, tim := ti, evt := ev, tsk := tk } ∧
      tk.todo = e.tsk.todo ∧ ti.dt = e.dtAfter n ∧ ti.gates = e.tim.gates := by
    intro e he
    refine ⟨if e.ppsFalls n then .pin 5 0 :: (if e.beatFalls n then .pin 6 0 :: e.out else e.out) else (if e.beatFalls n then .pin 6 0 :: e.out else e.out),
      { e.tim with dt := e.dtAfter n, doms := e.tim.doms.map (fun t => { t with clock := t.clock + n * t.inc }), beatOut := e.tim.beatOut && !e.beatFalls n, ppsOut := if e.ppsFalls n then none else e.tim.ppsOut },
      { e.evt with sent := [] }, { e.tsk with tasks := freeEnded (e.now + n) e.tsk.tasks }, ?_, rfl, rfl, rfl⟩
    rw [he]
    unfold Dev.advance Dev.fclkEnd
    rw [if_neg h]
  obtain ⟨o, ti, ev, tk, hd, k1, k2, k3⟩ := key _ rfl
  generalize d.fclkEnd n = e at hs hd k1 k2 k3 ⊢
  rw [hd]
  refine ⟨hs.parts.mono (by decide) |>.trans ?_, k1.trans (congrArg Tsk.todo (hs.parts .tsk (by decide))), k2, k3.trans hs.gates,
    congrArg (· + n) (hs.parts .now (by decide)), congrArg (· + n) (hs.parts .fclk (by decide)), rfl⟩
  intro p hp
  cases p <;> first | rfl | exact absurd (by decide) hp

theorem setGate_tsk (d : Dev) (p : Nat) (g : Gate) : (d.setGate p g).tsk = d.tsk := rfl

theorem putStart_only (d : Dev) (p v : Nat) : d.regOnly (d.putStart p v) := by
  unfold Dev.putStart
  exact Dev.regOnly_setReg (Dev.regOnly_setReg (Dev.regOnly_setReg d.regOnly_refl _ _) _ _) _ _

theorem putStart_reg (d : Dev) (p v : Nat) (o : Nat) (h : o ∉ [Reg.GAT_START_NS + gatePort p, Reg.GAT_START_SEC_LO + gatePort p, Reg.GAT_START_SEC_HI + gatePort p]) :
    (d.putStart p v).reg o = d.reg o := by
  simp only [List.mem_cons, List.not_mem_nil, or_false, not_or] at h
  unfold Dev.putStart
  dsimp only
  rw [Dev.reg_setReg_ne _ _ _ h.2.2, Dev.reg_setReg_ne _ _ _ h.2.1, Dev.reg_setReg_ne _ _ _ h.1]

theorem putStart_self (d : Dev) (p v : Nat) :
    (d.putStart p v).reg (Reg.GAT_START_NS + gatePort p) = BitVec.ofNat 32 (clkNs v) ∧
    (d.putStart p v).reg (Reg.GAT_START_SEC_LO + gatePort p) = BitVec.ofNat 32 (clkSec v) ∧
    (d.putStart p v).reg (Reg.GAT_START_SEC_HI + gatePort p) = BitVec.ofNat 32 (clkSec v / 2 ^ 32 % 65536) := by
  have e1 : Reg.GAT_START_SEC_LO = Reg.GAT_START_NS + 4 := rfl
  have e2 : Reg.GAT_START_SEC_HI = Reg.GAT_START_NS + 8 := rfl
  unfold Dev.putStart
  dsimp only
  refine ⟨?_, ?_, ?_⟩
  · rw [Dev.reg_setReg_ne _ _ _ (by omega), Dev.reg_setReg_ne _ _ _ (by omega), Dev.reg_setReg_self]
  · rw [Dev.reg_setReg_ne _ _ _ (by omega), Dev.reg_setReg_self]
  · rw [Dev.reg_setReg_self]

theorem ceil_least (base least c n : Nat) (hc : 0 < c) (hlt : base < least) (h1 : least ≤ base + n * c) (h2 : base + n * c < least + c) :
    ceilDiv (least - base) c = n := by
  unfold ceilDiv
  refine Nat.div_eq_of_lt_le ?_ ?_
  · omega
  · rw [Nat.succ_mul]; omega

theorem or30' (v : Word) : bit (v ||| 0x40000000) 31 = bit v 31 ∧ bits (v ||| 0x40000000) 10 0 = bits v 10 0 := by
  refine ⟨(orBit30 v).2.1, ?_⟩
  apply Nat.eq_of_testBit_eq
  intro j
  rw [bits_testBit, bits_testBit, BitVec.toNat_or, Nat.testBit_or]
  by_cases hj : j < 11
  · have : (0x40000000 : Word).toNat.testBit (0 + j) = false := by
      have : j = 0 ∨ j = 1 ∨ j = 2 ∨ j = 3 ∨ j = 4 ∨ j = 5 ∨ j = 6 ∨ j = 7 ∨ j = 8 ∨ j = 9 ∨ j = 10 := by omega
      rcases this with rfl|rfl|rfl|rfl|rfl|rfl|rfl|rfl|rfl|rfl|rfl <;> decide
    rw [this, Bool.or_false]
  · simp [hj]

theorem or29 (v : Word) : bit (v ||| 0x20000000) 29 = true := by
  simp only [bit_eq_testBit, BitVec.toNat_or, Nat.testBit_or]
  rw [show (0x20000000 : Word).toNat.testBit 29 = true by decide, Bool.or_true]

theorem setGate_parts (d : Dev) (p : Nat) (g : Gate) : d.changesOnly [.tim] (d.setGate p g) := d.parts_tim _

/-! ### PPS edges -/

/-- The sample a PPS edge gives a clock. -/
def ppsTheta (c : Nat) : Int := (if 2 * (c % secUnit) < secUnit then ((c % secUnit : Nat) : Int) else ((c % secUnit : Nat) : Int) - secUnit) / smpUnit

theorem ppsInEdge_eq (d : Dev) : ppsInEdge d = foldDev (List.range 6) (fun k e => timDomSample k .pps (ppsTheta ((d.tim.doms.map (fun t => corrected t.clock 0)).getD k 0)) e)
    { d with tim := { d.tim with ppsIn := some ⟨corrected d.tim.dt 0, d.tim.doms.map (fun t => corrected t.clock 0)⟩ } } := rfl

theorem fold_samples (θ : Nat → Int) (n : Nat) (hn : n ≤ 6) (d : Dev) :
    ∀ e, e = foldDev (List.range n) (fun k e => timDomSample k .pps (θ k) e) d →
    e.tim.dt = d.tim.dt ∧ e.tim.ppsIn = d.tim.ppsIn ∧ d.changesOnly timParts e ∧
    (∀ j, j < 6 → n ≤ j → e.dom j = d.dom j ∧ ∀ m, m < 0x100 → e.reg (Reg.TIM_DOM_CFG + domOfs j + m) = d.reg (Reg.TIM_DOM_CFG + domOfs j + m)) ∧
    (∀ j, j < n → d.flag (Reg.TIM_DOM_CFG + domOfs j) 31 = false ∨ d.fld (Reg.TIM_DOM_CFG + domOfs j) 30 28 ≠ 2 → e.dom j = d.dom j) ∧
    (∀ j, j < n → d.flag (Reg.TIM_DOM_CFG + domOfs j) 31 = true → d.fld (Reg.TIM_DOM_CFG + domOfs j) 30 28 = 2 →
      e.reg (Reg.TIM_DOM_LAST_LO + domOfs j) = BitVec.ofNat 32 (toField 64 (θ j)) ∧ e.reg (Reg.TIM_DOM_LAST_HI + domOfs j) = BitVec.ofNat 32 (toField 64 (θ j) / 2 ^ 32)) := by
  have n1 : Reg.TIM_DOM_LAST_LO = Reg.TIM_DOM_CFG + 0x20 := rfl
  have n2 : Reg.TIM_DOM_LAST_HI = Reg.TIM_DOM_CFG + 0x24 := rfl
  induction n with
  | zero => intro e he; rw [show e = d from he]; exact ⟨rfl, rfl, Dev.changesOnly_refl _ d, fun _ _ _ => ⟨rfl, fun _ _ => rfl⟩, fun _ h => absurd h (by omega), fun _ h => absurd h (by omega)⟩
  | succ n ih =>
    intro e he
    obtain ⟨i1, i2, i3, i4, i5, i6⟩ := ih (by omega) _ rfl
    rw [List.range_succ] at he
    unfold foldDev at he i1 i2 i3 i4 i5 i6
    rw [List.foldl_append, List.foldl_cons, List.foldl_nil] at he
    dsimp only at he
    generalize hB : (List.range n).foldl (fun d x => timDomSample x SampleSrc.pps (θ x) d) d = B at he i1 i2 i3 i4 i5 i6
    obtain ⟨o1, o2, o3, o4, o5⟩ := timDomSample_other n .pps (θ n) B
    rw [← he] at o1 o2 o3 o4 o5
    have hBn := i4 n (by omega) (by omega)
    have hcfg : B.reg (Reg.TIM_DOM_CFG + domOfs n) = d.reg (Reg.TIM_DOM_CFG + domOfs n) := hBn.2 0 (by omega)
    refine ⟨o1.trans i1, o2.trans i2, i3.trans o3, ?_, ?_, ?_⟩
    · intro j hj hnj
      have := i4 j hj (by omega)
      exact ⟨(o4 j hj (by omega)).trans this.1, fun m hm => (o5 j m hj (by omega) hm).trans (this.2 m hm)⟩
    · intro j hj hoff
      by_cases hjn : j = n
      · subst hjn
        have : timDomSample j .pps (θ j) B = B := timDomSample_off B j .pps (θ j) (Or.inr (by unfold Dev.flag Dev.fld at hoff ⊢; rw [hcfg]; exact hoff))
        rw [he, this]; exact hBn.1
      · rw [o4 j (by omega) hjn]; exact i5 j (by omega) hoff
    · intro j hj hf1 hf2
      by_cases hjn : j = n
      · subst hjn
        have g1 : B.flag (Reg.TIM_DOM_CFG + domOfs j) 31 = true := by unfold Dev.flag at hf1 ⊢; rw [hcfg]; exact hf1
        have g2 : B.fld (Reg.TIM_DOM_CFG + domOfs j) 30 28 = sampleRef .pps := by unfold Dev.fld at hf2 ⊢; rw [hcfg]; exact hf2
        have F := timDomSample_frame j .pps (θ j) B (by omega) g1 g2
        have S := sampleTaken_spec B j (θ j) (by omega)
        have hd : domOfs j = 0x100 * j := rfl
        have m1 : Reg.TIM_CNT_LO = 0x01200300 := rfl
        have m5 : Reg.TIM_DOM_CFG = 0x01201000 := rfl
        have m4 : Reg.TIM_DOM_STAT = 0x01201004 := rfl
        rw [he]
        refine ⟨?_, ?_⟩
        · rw [F.regs _ (by simp only [sampleRegs, List.mem_cons, List.not_mem_nil, or_false]; omega) (evt_tim _ (by omega) (by omega)), S.lo]
        · rw [F.regs _ (by simp only [sampleRegs, List.mem_cons, List.not_mem_nil, or_false]; omega) (evt_tim _ (by omega) (by omega)), S.hi]
      · have h20 := o5 j 0x20 (by omega) hjn (by omega)
        have h24 := o5 j 0x24 (by omega) hjn (by omega)
        have := i6 j (by omega) hf1 hf2
        rw [show Reg.TIM_DOM_LAST_LO + domOfs j = Reg.TIM_DOM_CFG + domOfs j + 0x20 by omega, show Reg.TIM_DOM_LAST_HI + domOfs j = Reg.TIM_DOM_CFG + domOfs j + 0x24 by omega] at this ⊢
        rw [h20, h24]; exact this

theorem corrected0 (v : Nat) : corrected v 0 = v / (nsUnit / 4) * (nsUnit / 4) := by
  unfold corrected
  rw [Int.add_zero]
  rfl

theorem map_getD (l : List TimDom) (k : Nat) (h : k < l.length) : (l.map (fun t => corrected t.clock 0)).getD k 0 = corrected (l.getD k {}).clock 0 := by
  simp [List.getD, h]

end Sys2Proof.Machine
end

