-- ==== Sys2Proof/Tests/Slice0.lean ====
section
/-! SUPPORT. Tests: for every statement that has hypotheses, states and operands that meet them, clause by clause; ill-formed terms that
the well-formedness check refuses; the spec's own worked numbers. -/

namespace Sys2Proof.Tests
open Sys2Proof Sys2Proof.Machine

-- The closed evaluations below run one after another: side by side their threads' stacks pass the memory bound.
set_option Elab.async false

/-! ### States the witnesses use -/

/-- A state with the device given, nothing waiting and both memories empty. -/
def st (d : Dev) : State := { pending := [], hostMem := [], dram := [], dev := d }

/-- A device in a mode, with nothing else. -/
def mo (m : Mode) : Dev := { mode := m }

/-- A device in SERVICE with nothing else. -/
def dv : Dev := mo .service

def base : State := st dv

/-- The device with fields of registers set: offset, high bit, low bit, value. -/
def rg (d : Dev) (l : List (Nat × Nat × Nat × Nat)) : Dev := l.foldl (fun d x => d.setFld x.1 x.2.1 x.2.2.1 x.2.2.2) d

/-- A device in SERVICE with task 0, its handle's generation 0. -/
def tk (x : Task) : Dev := { dv with tsk := { tasks := [(0, x)], gens := [(0, 0)] } }

/-- Likewise with a cell's state. -/
def tc (x : Task) (c : Nat) (y : CellSt) : Dev := { dv with tsk := { tasks := [(0, x)], gens := [(0, 0)], cells := [(c, y)] } }

/-- A device whose reload has come to a step. -/
def rl (x : Reload) (ph : Nat) : Dev := rg { mo .reload with cfg := { reload := some x } } [(Reg.CFG_STATUS, 26, 24, ph)]

theorem vac {α : Type} {o : Option α} {P : α → Prop} (h : o.isNone = true) : ∀ x, o = some x → P x := by
  intro x hx; rw [hx] at h; cases h

theorem vac2 {α β : Type} {o : Option α} {P : α → β → Prop} (h : o.isNone = true) : ∀ x y, o = some x → P x y := by
  intro x y hx; rw [hx] at h; cases h

theorem someD {α : Type} {o : Option α} {x : α} (h : o.isSome = true) : o = some (o.getD x) := by
  cases o with
  | none => cases h
  | some y => rfl

theorem each {α : Type} {o : Option α} {P : α → Prop} [DecidablePred P] (h : (o.all (fun x => decide (P x))) = true) :
    ∀ x, o = some x → P x := by
  intro x hx; rw [hx] at h; simpa using h

/-- A device whose port 0 is up and takes selections, with leg 1 on it, and an item of stream 0 for it in queue 0. -/
def egd (leg cls : Word) : Dev :=
  { ((rg dv [(Reg.EGS_PORT_CFG, 31, 31, 1)]).setReg Reg.EGS_CLS cls |>.setEnt .egs 1 1 { d0 := leg }
      |>.setEnt .egs 0 0 { d0 := 0x80000001 } |>.setEnt .egs 2 0 { d0 := 1 }) with
    que := { queues := [(0, { tail := 1, items := [{}] })] }, mac := { ports := [(0, { up := true })] } }

/-- A device whose port 0 is up, with a frame in its transmit FIFO. -/
def txd (f : EgFrame) : Dev :=
  { rg dv [(Reg.TIM_LAUNCH_CFG, 25, 16, 1)] with
    mac := { ports := [(0, { up := true })] }, egs := { ports := [(0, { fifo := [f] })] } }

/-- None of its queues has a packet at its head that failed. -/
theorem egd_auth : ∀ l ∈ (st (egd 0xE0000000 1)).dev.egsLegs, ∀ y ∈ (st (egd 0xE0000000 1)).dev.streamsOf l,
    ∀ q, (st (egd 0xE0000000 1)).dev.streamQueue y.1 = some q →
    ∀ i, ((st (egd 0xE0000000 1)).dev.queue q).front = some i → (st (egd 0xE0000000 1)).dev.itemAuth i ≠ 3 := by
  have h : ∀ l ∈ (st (egd 0xE0000000 1)).dev.egsLegs, ∀ y ∈ (st (egd 0xE0000000 1)).dev.streamsOf l,
      (((st (egd 0xE0000000 1)).dev.streamQueue y.1).all fun q => (((st (egd 0xE0000000 1)).dev.queue q).front).all fun i =>
        (st (egd 0xE0000000 1)).dev.itemAuth i != 3) = true := by
    decide +kernel
  intro l hl y hy q hq i hi
  have h1 := h l hl y hy
  rw [hq] at h1
  simp only [Option.all_some, hi] at h1
  simpa using h1

/-- A member of the stack whose link 0 is up, with what its MUL_LINK_CFG holds beside EN. -/
def mu (cfg : Nat) : Dev :=
  rg dv [(Reg.MUL_LINK_CFG, 31, 0, 2 ^ 31 + cfg), (Reg.MUL_LINK_STAT, 31, 30, 3), (Reg.MUL_STATUS, 21, 19, 2)]

/-- A frame of the tap port: 15 bytes of header with their CRC, a payload and its CRC. -/
def tapFrame (h p : List Byte) : List Byte :=
  h ++ [BitVec.ofNat 8 (crc8 h)] ++ p ++ [24, 16, 8, 0].map (fun n => BitVec.ofNat 8 (crc32 p / 2 ^ n))

/-- A device whose tap input lanes are up, with what TAP_IN entry 3 holds. -/
def tin (w : Entry) : Dev :=
  { (rg dv [(Reg.TAP_CFG, 27, 26, 3)]).setEnt .tap 1 3 w with tap := { inUp := [true, true] } }

/-- A brood whose source is the leg that stands for link 0. -/
def relayed : Entry := { d0 := BitVec.ofNat 32 (2 ^ 31 + (Config.linkLeg 0).toNat) }

def relayer : Dev := { mu 0 with tabs := [(tabKey .fwd 0 0, relayed)] }

theorem relayed_valid : relayed.b 0 31 = true := by
  have h := (Config.linkLeg 0).isLt
  simp only [relayed, Entry.b, Entry.word, bit, BitVec.toNat_ofNat, beq_iff_eq]
  omega

theorem relayed_leg : relayed.f 0 13 0 = (Config.linkLeg 0).toNat := by
  have h := (Config.linkLeg 0).isLt
  simp only [relayed, Entry.f, Entry.word, bits, BitVec.toNat_ofNat]
  omega

theorem relay_of {e : Dev} {leg : Nat} (h1 : e.inStack = true) (h2 : e.linkOk 0 = true) (h : leg = (Config.linkLeg 0).toNat) :
    e.relayLink leg = some 0 := by
  simp [Dev.relayLink, h1, h2, h, List.range, List.range.loop]

theorem relayer_ent : (relayer.muleIn 0 muleMedia { src := 1 }).2.broodEnt 0 = relayed := rfl

theorem due_now {d : Dev} {f : EgFrame} (h : f.due.isNone = true) : d.due f := by
  unfold Dev.due; exact vac h

theorem may_start {d : Dev} {p c : Nat} {f : EgFrame} (h1 : (d.window p c).isNone = true) (h2 : d.classHeld p c = false)
    (h3 : (d.egPort p).busyUntil ≤ d.now) (h4 : (d.closing p c).isNone = true) : d.mayStart p c f := by
  unfold Dev.mayStart; exact ⟨vac h1, h2, h3, vac h4⟩

theorem no_fit {p len n : Nat} (h : 400 * n < (len + 20) * 8 * nsUnit) : fitsWire p len n = false := by
  have h1 : portRate p ≤ 400 := by unfold portRate; split <;> decide
  have h2 : portRate p * n ≤ 400 * n := Nat.mul_le_mul_right n h1
  simp only [fitsWire, decide_eq_false_iff_not]
  omega

/-! ### Witnesses -/

theorem witness_StepRunsTheFrontCommand :
    (∃ (s : State) (c : Instr) (rest : List Instr), s.pending = c :: rest) :=
  ⟨({ pending := [.dtLoad, .tapHoldAssert], hostMem := [], dram := [], dev := dv } : State), Instr.dtLoad, ([Instr.tapHoldAssert] : List
    Instr), by decide +kernel⟩

theorem witness_StepOnEmptyQueueIsATick :
    (∃ (s : State), s.pending = []) :=
  ⟨base, by decide +kernel⟩

theorem witness_StepKeepsTheStateSound :
    (∃ (s : State), s.sound = true) :=
  ⟨base, by decide +kernel⟩

theorem witness_RegisterWriteByAccessCode :
    (∃ (s : State) (off : Nat) (v : Word) (r : RegDesc), (s.ready = true ∧ plainWrite off v = true) ∧ regDesc off = some r ∧ r.base
      ∉ ownEffect) :=
  ⟨base, Reg.LMD_CFG, (0x00320001 : Word), ((regDesc Reg.LMD_CFG).getD ⟨0, [], 0, []⟩), by decide +kernel, someD (by decide +kernel), by decide +kernel⟩

theorem witness_RegisterWritesWithTheirOwnEffect :
    (∃ (s : State) (off : _), s.ready = true ∧ off < 2 ^ 32 ∧ regDesc off = none) ∧
    (∃ (s : State) (x : _), s.ready = true ∧ x < 640 ∧ evtSeverity x = none) ∧
    (∃ (s : State) (x : _) (sev : _), s.ready = true ∧ x < 640 ∧ evtSeverity x = some sev) ∧
    (∃ (s : State) (v : Word) (r : _), s.ready = true ∧ r < 33 ∧ s.dev.flag (Reg.RING_CFG + ringOfs r) 31 = true ∧ bit v 31 = true) ∧
    (∃ (s : State) (v : Word) (r : _), s.ready = true ∧ r < 33 ∧ (s.dev.flag (Reg.RING_CFG + ringOfs r) 31 = false ∨ bit v 31 = false)) ∧
    (∃ (s : State), s.ready = true ∧ s.dev.flag Reg.MAT_EPOCH 30 = false) ∧
    (∃ (s : State), s.ready = true ∧ s.dev.flag Reg.MAT_EPOCH 30 = true) ∧
    (∃ (s : State), s.ready = true ∧ s.dev.mode ≠ .reset) ∧
    (∃ (s : State) (v : Word) (k : _), s.ready = true ∧ k < 64 ∧ bit v 0 = false) ∧
    (∃ (s : State) (v : Word) (k : _), s.ready = true ∧ k < 64 ∧ bit v 0 = true) ∧
    (∃ (s : State) (n : _), s.ready = true ∧ n < 64) ∧
    (∃ (s : State) (w : _), s.ready = true ∧ w < 20) ∧
    (∃ (s : State) (r : _), s.ready = true ∧ r < 16) :=
  ⟨⟨base, (2 ^ 32 - 4), by decide +kernel⟩,
    ⟨base, 639, by decide +kernel⟩,
    ⟨base, 0, 0, by decide +kernel⟩,
    ⟨(st (rg dv [(Reg.RING_CFG + ringOfs 32, 31, 31, 1)])), (0x80000000 : Word), 32, by decide +kernel⟩,
    ⟨base, (0 : Word), 0, by decide +kernel⟩,
    ⟨(st (rg dv [(Reg.MAT_EPOCH, 30, 30, 0)])), by decide +kernel⟩,
    ⟨base, by decide +kernel⟩,
    ⟨base, by decide +kernel⟩,
    ⟨base, (0 : Word), 0, by decide +kernel⟩,
    ⟨base, (1 : Word), 63, by decide +kernel⟩,
    ⟨base, 0, by decide +kernel⟩,
    ⟨base, 0, by decide +kernel⟩,
    ⟨base, 0, by decide +kernel⟩⟩

theorem witness_HalvesOfA64BitQuantity :
    (∃ (s : State) (off : Nat) (r : RegDesc), s.ready = true ∧ regDesc off = some r ∧ isLo off = true ∧ rcMask r.fields = 0 ∧ off ≠
      Reg.TIM_BEAT_LO ∧ r.base ≠ Reg.TIM_DOM_OFS_LO) ∧
    (∃ (d : Dev) (p : Path), d.latched p = none) ∧
    (∃ (s : State) (off : Nat), s.ready = true ∧ isLo off = true) ∧
    (∃ (s : State) (off : Nat) (r : RegDesc), (s.ready = true ∧ isLo off = true ∧ off ≠ Reg.TSK_POST_TAG_LO) ∧ regDesc off = some r
      ∧ r.base ≠ Reg.TIM_DOM_OFS_LO ∧ r.base ≠ Reg.TRE_ROOT_LO) :=
  ⟨⟨base, Reg.RING_BASE_LO, ((regDesc Reg.RING_BASE_LO).getD ⟨0, [], 0, []⟩), by decide +kernel, someD (by decide +kernel), by decide +kernel⟩,
    ⟨dv, Path.pcie, by decide +kernel⟩,
    ⟨base, Reg.RING_BASE_LO, by decide +kernel⟩,
    ⟨base, Reg.RING_BASE_LO, ((regDesc Reg.RING_BASE_LO).getD ⟨0, [], 0, []⟩), by decide +kernel, someD (by decide +kernel), by decide +kernel⟩⟩

theorem witness_ReadToClearCounters :
    (∃ (s : State) (off : Nat) (inc : Nat) (r : RegDesc), (s.ready = true ∧ inc < 2 ^ 64) ∧ regDesc off = some r ∧ rcMask r.fields ≠
      0 ∧ isLo off = true ∧ s.dev.viewOf r.base (off - r.base) = none) ∧
    (∃ (s : State) (off : Nat) (inc : Nat) (r : RegDesc), (s.ready = true ∧ inc < 2 ^ 32) ∧ regDesc off = some r ∧ rcMask r.fields =
      2 ^ 32 - 1 ∧ isLo off = false ∧ s.dev.viewOf r.base (off - r.base) = none) :=
  ⟨⟨base, Reg.PWR_CNT_LO, (2 ^ 64 - 1), ((regDesc Reg.PWR_CNT_LO).getD ⟨0, [], 0, []⟩), by decide +kernel, someD (by decide +kernel), by decide +kernel⟩,
    ⟨base, Reg.CFG_DRAIN_FORCED, (2 ^ 32 - 1), ((regDesc Reg.CFG_DRAIN_FORCED).getD ⟨0, [], 0, []⟩), by decide +kernel, someD (by decide +kernel), by decide +kernel⟩⟩

theorem witness_TasksEndAtGraceOrAbort :
    (∃ (s : State) (k : Nat) (x : Task), s.ready = true ∧ s.dev.task k = some x ∧ x.st < 5 ∧ x.st ≠ St.running ∧ x.deadline ≤
      s.dev.beat ∧ s.dev.endGrace.task k = some x) ∧
    (∃ (s : State) (k : Nat) (c : Nat) (x : Task), s.ready = true ∧ s.dev.task k = some x ∧ x.st = St.running ∧ x.deadline ≤
      s.dev.beat ∧ x.cells = [c] ∧ (s.dev.cell c).yielding = true ∧ (s.dev.cell c).aborting = false ∧ (s.dev.cell c).expiries = [] ∧
      x.ending ≠ 2 ∧ s.dev.endGrace.task k = some x ∧ s.dev.endGrace.cell c = s.dev.cell c) ∧
    (∃ (s : State) (k : Nat), s.ready = true ∧ (∀ x, s.dev.task k = some x → 5 ≤ x.st ∨ s.dev.beat < x.deadline)) ∧
    (∃ (s : State) (h : Nat) (at_ : Nat) (x : Task), s.ready = true ∧ s.dev.tsk.abort = some (h, at_) ∧ s.dev.tsk.abortEnd = none ∧
      s.dev.byHandle h = some (some x) ∧ x.st < 5 ∧ x.st ≠ St.running) ∧
    (∃ (s : State) (h : Nat) (at_ : Nat) (x : Task) (e : Dev), s.ready = true ∧ s.dev.tsk.abort = some (h, at_) ∧ s.dev.tsk.abortEnd
      = none ∧ s.dev.byHandle h = some (some x) ∧ x.st = St.running ∧ s.dev.reachNow ((s.dev.cell (x.cells.headD 0)).acceptAt + 1) =
      some e ∧ e.task (h % 2 ^ 17) = some x) ∧
    (∃ (s : State) (h : Nat) (at_ : Nat) (c : Nat), (s.ready = true ∧ s.dev.tsk.abort = some (h, at_)) ∧ (s.dev.tsk.abortEnd = some
      c ∨ s.dev.tsk.abortEnd = none ∧ c = 1 ∧ (s.dev.byHandle h = some none ∨ (∃ x, s.dev.byHandle h = some (some x) ∧ 5 ≤ x.st)) ∨
      s.dev.tsk.abortEnd = none ∧ c = 2 ∧ s.dev.byHandle h = none)) :=
  ⟨⟨(st (tk { st := 2 })), 0, ({ st := 2 } : Task), by decide +kernel⟩,
    ⟨(st (tc { st := 3, cells := [0] } 0 { job := some 0, yielding := true })), 0, 0, ({ st := 3, cells := [0] } : Task), by decide +kernel⟩,
    ⟨base, 0, by decide +kernel⟩,
    ⟨(st { dv with tsk := { tasks := [(0, { st := 2 })], gens := [(0, 1)], abort := some (2 ^ 17, 0) } }), (2 ^ 17), 0, ({ st := 2 } : Task), by decide +kernel⟩,
    ⟨(st { dv with tsk := { tasks := [(0, { st := 3, cells := [0] })], gens := [(0, 1)], abort := some (2 ^ 17, 0) } }), (2 ^ 17),
      0, ({ st := 3, cells := [0] } : Task), ((({ dv with tsk := { tasks := [(0, { st := 3, cells := [0] })], gens := [(0, 1)], abort := some (2 ^ 17, 0) } } : Dev).reachNow
      1).getD dv), by decide +kernel⟩,
    ⟨(st { dv with tsk := { abort := some (2 ^ 17, 0), abortEnd := some 2 } }), (2 ^ 17), 0, 2, by decide +kernel, Or.inl (by decide +kernel)⟩⟩

theorem witness_AbortsAndTimeouts :
    (∃ (s : State), s.ready = true ∧ s.dev.tsk.abort = none) ∧
    (∃ (s : State) (a : Nat × Nat), s.ready = true ∧ s.dev.tsk.abort = some a) ∧
    (∃ (s : State) (h : Nat) (at_ : Nat) (c : Nat) (x : Task), s.ready = true ∧ s.dev.tsk.abort = some (h, at_) ∧ s.dev.byHandle h =
      some (some x) ∧ x.st = St.running ∧ x.cells = [c] ∧ tabSorted s.dev.tsk.cells = true ∧ at_ + 3001 ≤ s.dev.now ∧ (s.dev.cell
      c).expiries = [] ∧ (s.dev.cell c).aborting = true) :=
  ⟨⟨base, by decide +kernel⟩,
    ⟨(st { dv with tsk := { tasks := [(0, { st := 3, cells := [0] })], gens := [(0, 1)], abort := some (2 ^ 17, 0) } }), (2 ^ 17,
      0), by decide +kernel⟩,
    ⟨(st { dv with now := 3001, tsk := { tasks := [(0, { st := 3, cells := [0] })], gens := [(0, 1)], abort := some (2 ^ 17, 0), cells := [(0, { aborting := true })] } }),
      (2 ^ 17), 0, 0, ({ st := 3, cells := [0] } : Task), by decide +kernel⟩⟩

theorem witness_JobsIssueAndRetire :
    (∃ (s : State) (c : Nat) (k : Nat) (x : Task), s.ready = true ∧ cellValid c = true ∧ ((s.dev.lapse).cell c).out = false ∧
      ((s.dev.lapse).cell c).resetting = false ∧ ((s.dev.lapse).cell c).job = none ∧ (s.dev.lapse).gated c = false ∧
      (s.dev.lapse).task k = some x ∧ (k, x) ∈ (s.dev.lapse).issueable c ∧ x.gang ≤ 1 ∧ (∀ y ∈ (s.dev.lapse).issueable c, y ≠ (k, x)
      → x.deadline < y.2.deadline ∨ (x.deadline = y.2.deadline ∧ ((s.dev.lapse).flockPrio y.2.flock < (s.dev.lapse).flockPrio
      x.flock ∨ ((s.dev.lapse).flockPrio y.2.flock = (s.dev.lapse).flockPrio x.flock ∧ (y.2.prio < x.prio ∨ (y.2.prio = x.prio ∧
      x.order < y.2.order))))))) ∧
    (∃ (s : State) (c : Nat), s.ready = true ∧ (((s.dev.lapse).cell c).out = true ∨ ((s.dev.lapse).cell c).resetting = true ∨
      ((s.dev.lapse).cell c).job.isSome = true ∨ (s.dev.lapse).gated c = true ∨ cellValid c = false ∨ (s.dev.lapse).issueable c =
      [])) ∧
    (∃ (s : State) (c : Nat) (k : Nat) (x : Task), s.ready = true ∧ cellValid c = true ∧ ((s.dev.lapse).cell c).out = false ∧
      ((s.dev.lapse).cell c).resetting = false ∧ ((s.dev.lapse).cell c).job = none ∧ (s.dev.lapse).gated c = false ∧
      (s.dev.lapse).issueable c = [(k, x)] ∧ 1 < x.gang ∧ x.st = St.ready ∧ (∀ j ∈ cellBlock c, j ≠ c → ((s.dev.lapse).cell
      j).reserved ≠ some k) ∧ (cellBlock c).count c = 1) ∧
    (∃ (s : State) (c : Nat) (k : Nat) (x : Task), s.ready = true ∧ (s.dev.cell c).job = some k ∧ s.dev.task k = some x ∧ x.kind =
      Kd.mix ∧ x.st = St.running ∧ x.cells.head? = some c) :=
  ⟨⟨(st { dv with tsk := { tasks := [(0, { st := 2, kind := Kd.decode, deadline := 9 }), (1, { st := 2, kind := Kd.decode, deadline := 9, order := 1 })], gens := [(0, 0), (1, 0)] } }),
    0, 0, ({ st := 2, kind := Kd.decode, deadline := 9 } : Task), by decide +kernel⟩,
    ⟨base, 0, by decide +kernel⟩,
    ⟨(st (tk { st := 2, kind := Kd.decode, gang := 2, deadline := 9 })), 0, 0, ({ st := 2, kind := Kd.decode, gang := 2, deadline := 9 } : Task), by decide +kernel⟩,
    ⟨(st (tc { st := 3, kind := Kd.mix, cells := [0x2000] } 0x2000 { job := some 0 })), 0x2000, 0, ({ st := 3, kind := Kd.mix, cells := [0x2000] } : Task), by decide +kernel⟩⟩

theorem witness_CellsYieldAndReset :
    (∃ (s : State) (c : Nat) (k : Nat) (x : Task), s.ready = true ∧ (s.dev.cell c).job = some k ∧ (s.dev.cell c).yielding = true ∧
      s.dev.task k = some x ∧ x.cells = [c] ∧ (s.dev.cell c).aborting = false ∧ s.dev.flockValid x.flock = true ∧ x.ending ≠ 2) ∧
    (∃ (s : State) (c : Nat) (k : Nat) (x : Task), s.ready = true ∧ (s.dev.cell c).job = some k ∧ (s.dev.cell c).yielding = true ∧
      s.dev.task k = some x ∧ x.cells = [c] ∧ s.dev.flockValid x.flock = false ∧ x.kind ≠ Kd.filter) ∧
    (∃ (s : State), s.ready = true ∧ (∀ p ∈ s.dev.tsk.cells, p.2.yielding = false) ∧ (∀ p ∈ s.dev.tsk.tasks, p.2.ending ≠ 1)) ∧
    (∃ (s : State) (c : Nat) (k : Nat) (x : Task), s.ready = true ∧ 3001 ≤ s.dev.fclk ∧ ((s.dev.tsk.cells.filter fun p => p.2.yielding).map
      (·.1) = [c]) ∧ (s.dev.cell c).job = some k ∧ (s.dev.cell c).expiries = [] ∧ s.dev.task k = some x ∧ x.st = St.running ∧
      s.dev.aborting x = false ∧ x.ending ≠ 2 ∧ (∀ p ∈ s.dev.tsk.tasks, p.2.ending ≠ 1)) ∧
    (∃ (s : State) (c : Nat) (e : Dev), s.ready = true ∧ (s.dev.cell c).resetting = true ∧ s.dev.reachNow ((s.dev.cell c).stopAt +
      64) = some e) ∧
    (∃ (s : State) (c : Nat), s.ready = true ∧ ((s.dev.cell c).resetting = false ∨ s.dev.reachNow ((s.dev.cell c).stopAt + 64) = none)) ∧
    (∃ (s : State) (c : Nat), s.ready = true ∧ cellValid c = true ∧ (s.dev.cell c).out = false ∧ (s.dev.cell c).job = none ∧ (∀ p ∈
      s.dev.tsk.tasks, p.2.st ≠ St.parked) ∧ (((cellBlock c).filter fun j => (s.dev.cell j).out).length * 2 + 2 < (cellBlock
      c).length) ∧ (cellBlock c).count c = 1) :=
  ⟨⟨(st ((tc { st := 3, cells := [0] } 0 { job := some 0, yielding := true }).setEnt .tsk 0 0 { d0 := 0x80000000 })), 0, 0, ({ st := 3, cells := [0] } : Task), by decide +kernel⟩,
    ⟨(st (tc { st := 3, cells := [0] } 0 { job := some 0, yielding := true })), 0, 0, ({ st := 3, cells := [0] } : Task), by decide +kernel⟩,
    ⟨base, by decide +kernel⟩,
    ⟨(st { (tc { st := 3, cells := [0] } 0 { job := some 0, yielding := true }) with fclk := 3001 }), 0, 0, ({ st := 3, cells := [0] } : Task), by decide +kernel⟩,
    ⟨(st { dv with now := 64, tsk := { cells := [(0, { resetting := true })] } }), 0, ({ dv with now := 64, tsk := { cells := [(0, { resetting := true })] } } : Dev), by decide +kernel⟩,
    ⟨base, 0, by decide +kernel⟩,
    ⟨base, 0, by decide +kernel⟩⟩

theorem witness_HostWaits :
    (∃ (s : State) (n : Nat) (v : Word) (k : _) (sl : _), s.ready = true ∧ n < 64 ∧ tabFind s.dev.tsk.waits n = none ∧ bit v 31 =
      true ∧ bit v 29 = false ∧ s.dev.findSlot (s.dev.reg64 (Reg.TSK_HWAIT_TAG_LO + 16 * n) (Reg.TSK_HWAIT_TAG_HI + 16 * n)) = some
      k ∧ s.dev.slotOf k = some sl ∧ sl.arrived = false) ∧
    (∃ (s : State) (n : Nat) (v : Word) (x : Task), s.ready = true ∧ n < 64 ∧ tabFind s.dev.tsk.waits n = none ∧ bit v 31 = true ∧
      bit v 29 = true ∧ s.dev.byHandle (s.dev.fld (Reg.TSK_HWAIT_TAG_LO + 16 * n) 23 0) = some (some x) ∧ x.st < 5) ∧
    (∃ (s : State) (n : Nat) (v : Word), s.ready = true ∧ n < 64 ∧ tabFind s.dev.tsk.waits n = none ∧ bit v 31 = true ∧ bit v 29 =
      true ∧ s.dev.byHandle (s.dev.fld (Reg.TSK_HWAIT_TAG_LO + 16 * n) 23 0) = none) ∧
    (∃ (s : State) (n : Nat) (v : Word) (w : HWait), s.ready = true ∧ n < 64 ∧ tabFind s.dev.tsk.waits n = some w ∧ bit v 31 = true
      ∧ bit v 30 = false) ∧
    (∃ (s : State) (n : Nat) (v : Word) (w : HWait), s.ready = true ∧ n < 64 ∧ tabFind s.dev.tsk.waits n = some w ∧ bit v 31 = false) ∧
    (∃ (s : State) (n : Nat) (w : HWait), s.ready = true ∧ n < 64 ∧ tabFind s.dev.tsk.waits n = some w) ∧
    (∃ (s : State) (n : Nat), s.ready = true ∧ n < 64 ∧ tabFind s.dev.tsk.waits n = none) ∧
    (∃ (s : State) (n : Nat) (l : Nat) (w : HWait), s.ready = true ∧ n < 64 ∧ tabFind s.dev.tsk.waits n = some w ∧ w.limit = some l
      ∧ l ≤ s.dev.beat) ∧
    (∃ (s : State) (n : Nat), s.ready = true ∧ (∀ w l, tabFind s.dev.tsk.waits n = some w → w.limit = some l → s.dev.beat < l)) :=
  ⟨⟨(st { dv with tsk := { slots := [(5, { tag := 0 })] } }), 63, (0x80000000 : Word), 5, ({ tag := 0 } : Slot), by decide +kernel⟩,
    ⟨(st (tk { st := 4 })), 63, (0xA0000000 : Word), ({ st := 4 } : Task), by decide +kernel⟩,
    ⟨base, 63, (0xA0000000 : Word), by decide +kernel⟩,
    ⟨(st { dv with tsk := { waits := [(63, { limit := some 0 })] } }), 63, (0x80000001 : Word), ({ limit := some 0 } : HWait), by decide +kernel⟩,
    ⟨(st { dv with tsk := { waits := [(63, { limit := some 0 })] } }), 63, (0 : Word), ({ limit := some 0 } : HWait), by decide +kernel⟩,
    ⟨(st { dv with tsk := { waits := [(63, { limit := some 0 })] } }), 63, ({ limit := some 0 } : HWait), by decide +kernel⟩,
    ⟨base, 0, by decide +kernel⟩,
    ⟨(st { dv with tsk := { waits := [(63, { limit := some 0 })] } }), 63, 0, ({ limit := some 0 } : HWait), by decide +kernel⟩,
    ⟨base, 63, by decide +kernel, vac2 (by decide +kernel)⟩⟩

theorem witness_SlotsPostsAndWaitLimits :
    (∃ (s : State) (p : Path) (v : Word) (k : Nat), s.ready = true ∧ tagClass ((s.dev.heldLo p).toNat + 2 ^ 32 * v.toNat) = Cl.host
      ∧ s.dev.barred ((s.dev.heldLo p).toNat + 2 ^ 32 * v.toNat) = false ∧ s.dev.findSlot ((s.dev.heldLo p).toNat + 2 ^ 32 *
      v.toNat) = none ∧ freeKey s.dev.tsk.slots 65536 = some k ∧ s.dev.tsk.slots.length + 1 < s.dev.fld Reg.TSK_MS_HIWAT 15 0) ∧
    (∃ (s : State) (p : Path) (v : Word), s.ready = true ∧ tagClass ((s.dev.heldLo p).toNat + 2 ^ 32 * v.toNat) ≠ Cl.host) ∧
    (∃ (s : State) (p : Path) (v : Word), s.ready = true ∧ tagClass ((s.dev.heldLo p).toNat + 2 ^ 32 * v.toNat) = Cl.host ∧
      s.dev.barred ((s.dev.heldLo p).toNat + 2 ^ 32 * v.toNat) = true) ∧
    (∃ (s : State) (k : Nat) (sl : Slot), s.ready = true ∧ s.dev.slotOf k = some sl ∧ sl.tasks = [] ∧ sl.hostWaits = [] ∧
      s.dev.beatNear sl.holdUntil ≤ s.dev.beat) ∧
    (∃ (s : State) (k : Nat), s.ready = true ∧ (∀ sl, s.dev.slotOf k = some sl → sl.tasks ≠ [] ∨ sl.hostWaits ≠ [] ∨ s.dev.beat <
      s.dev.beatNear sl.holdUntil)) ∧
    (∃ (s : State) (k : Nat) (x : Task), s.ready = true ∧ s.dev.task k = some x ∧ x.st = St.waiting ∧ x.waitAt ≤ s.dev.beat ∧
      s.dev.predLive x = false) ∧
    (∃ (s : State) (k : Nat), s.ready = true ∧ (∀ x, s.dev.task k = some x → x.st ≠ St.waiting ∨ s.dev.predLive x = true ∨
      (s.dev.beat < x.waitAt ∧ ∃ o ∈ x.ops, o.st = 0))) :=
  ⟨⟨base, Path.pcie, (15 : Word), 0, by decide +kernel⟩,
    ⟨base, Path.pcie, (0 : Word), by decide +kernel⟩,
    ⟨(st (tk { st := 1, classes := 0, ops := [{ tag := 2 ^ 32 * 15 }] })), Path.pcie, (15 : Word), by decide +kernel⟩,
    ⟨(st { dv with tsk := { slots := [(5, {})] } }), 5, ({} : Slot), by decide +kernel⟩,
    ⟨base, 0, by decide +kernel⟩,
    ⟨(st (tk { st := 1 })), 0, ({ st := 1 } : Task), by decide +kernel⟩,
    ⟨base, 0, by decide +kernel⟩⟩

theorem witness_ConfigureLoadAppliesWhatPassed :
    (∃ (s : State), s.ready = true ∧ s.dev.cfgBusy = true) ∧
    (∃ (s : State), s.ready = true ∧ s.dev.cfgBusy = false ∧ s.dev.mode ≠ .configure) ∧
    (∃ (s : State), s.ready = true ∧ s.dev.cfgBusy = false ∧ s.dev.mode = .configure) :=
  ⟨⟨(st (rg dv [(Reg.CFG_STATUS, 7, 0, 1)])), by decide +kernel⟩,
    ⟨base, by decide +kernel⟩,
    ⟨(st (mo .configure)), by decide +kernel⟩⟩

theorem witness_TrainingAndRegionSections :
    (∃ (s : State), s.ready = true ∧ s.dev.mode ≠ .train) ∧
    (∃ (s : State), s.ready = true ∧ s.dev.mode = .train) ∧
    (∃ (s : State), s.ready = true ∧ (s.dev.mode ≠ .configure ∨ s.dev.fld Reg.CFG_STATUS 26 24 ≠ 3 ∨ s.dev.cfgBusy = false)) ∧
    (∃ (s : State), s.ready = true ∧ s.dev.mode = .configure ∧ s.dev.fld Reg.CFG_STATUS 26 24 = 3 ∧ s.dev.cfgBusy = true ∧
      (s.dev.fld Reg.CFG_STATUS 18 16) < 6) :=
  ⟨⟨base, by decide +kernel⟩,
    ⟨(st (mo .train)), by decide +kernel⟩,
    ⟨base, by decide +kernel⟩,
    ⟨(st (rg (mo .configure) [(Reg.CFG_STATUS, 26, 24, 3), (Reg.CFG_STATUS, 7, 0, 1)])), by decide +kernel⟩⟩

theorem witness_ReloadChecksAndDrain :
    (∃ (s : State), s.ready = true ∧ s.dev.cfgBusy = true) ∧
    (∃ (s : State), s.ready = true ∧ s.dev.cfgBusy = false ∧ s.dev.mode ≠ .service) ∧
    (∃ (s : State), s.ready = true ∧ s.dev.cfgBusy = false ∧ s.dev.mode = .service) ∧
    (∃ (s : State), s.ready = true ∧ (s.dev.cfg.reload = none ∨ s.dev.fld Reg.CFG_STATUS 26 24 ≠ 1)) ∧
    (∃ (s : State) (x : Reload), s.ready = true ∧ s.dev.cfg.reload = some x ∧ s.dev.fld Reg.CFG_STATUS 26 24 = 1 ∧ (x.code ≠ 0 ∨
      x.only = true) ∧ x.code < 16) ∧
    (∃ (s : State) (x : Reload), s.ready = true ∧ s.dev.cfg.reload = some x ∧ s.dev.fld Reg.CFG_STATUS 26 24 = 1 ∧ x.code = 0 ∧
      x.only = false ∧ s.dev.reloading = true) ∧
    (∃ (s : State) (x : Reload), s.ready = true ∧ s.dev.cfg.reload = some x ∧ s.dev.fld Reg.CFG_STATUS 26 24 = 1 ∧ x.code = 0 ∧
      x.only = false ∧ x.region < 6 ∧ s.dev.reloading = false) ∧
    (∃ (s : State) (x : Reload), s.ready = true ∧ s.dev.cfg.reload = some x) ∧
    (∃ (s : State) (x : Reload), s.ready = true ∧ s.dev.cfg.reload = some x ∧ s.dev.fclk = 0 ∧ (s.dev.fld Reg.CFG_STATUS 26 24 ≠ 2 ∨
      x.limited = true ∨ s.dev.now < x.began + 300000000)) ∧
    (∃ (s : State) (x : Reload), s.ready = true ∧ s.dev.cfg.reload = some x ∧ s.dev.fclk = 0 ∧ s.dev.fld Reg.CFG_STATUS 26 24 = 2 ∧
      x.limited = false ∧ x.began + 300000000 ≤ s.dev.now ∧ tabSorted s.dev.tsk.tasks = true ∧ 2 ≤ x.region ∧ (∀ y ∈ s.dev.tasksIn
      (x.region - 2), y.2.st = St.running)) ∧
    (∃ (s : State) (c : Nat) (k : Nat) (x : Reload) (y : Task), s.ready = true ∧ s.dev.cfg.reload = some x ∧ (s.dev.cell c).job =
      some k ∧ (s.dev.cell c).yielding = true ∧ s.dev.task k = some y ∧ y.cells = [c] ∧ y.ending = 2 ∧ (s.dev.cell c).aborting =
      false ∧ s.dev.flockValid y.flock = true) ∧
    (∃ (s : State) (x : Reload) (k : Nat) (y : Task), s.ready = true ∧ s.dev.cfg.reload = some x ∧ s.dev.fclk = 0 ∧ s.dev.fld
      Reg.CFG_STATUS 26 24 = 2 ∧ x.limited = false ∧ x.began + 300000000 ≤ s.dev.now ∧ 2 ≤ x.region ∧ s.dev.tasksIn (x.region - 2) =
      [(k, y)] ∧ s.dev.task k = some y ∧ y.st ≠ St.running ∧ s.dev.tsk.waits = []) :=
  ⟨⟨(st (rg dv [(Reg.CFG_STATUS, 7, 0, 1)])), by decide +kernel⟩,
    ⟨State.reset, by decide +kernel⟩,
    ⟨base, by decide +kernel⟩,
    ⟨base, by decide +kernel⟩,
    ⟨(st (rl { region := 5, code := 7 } 1)), ({ region := 5, code := 7 } : Reload), by decide +kernel⟩,
    ⟨(st { (rl { region := 5 } 1) with regions := [(0, { auto := true })] }), ({ region := 5 } : Reload), by decide +kernel⟩,
    ⟨(st (rl { region := 5 } 1)), ({ region := 5 } : Reload), by decide +kernel⟩,
    ⟨(st (rl { region := 5 } 1)), ({ region := 5 } : Reload), by decide +kernel⟩,
    ⟨(st (rl { region := 5 } 1)), ({ region := 5 } : Reload), by decide +kernel⟩,
    ⟨(st { (rl { region := 2 } 2) with now := 300000000, tsk := { tasks := [(0, { st := 3, cells := [0] })] } }), ({ region := 2 } : Reload), by decide +kernel⟩,
    ⟨(st ({ rl { region := 2 } 2 with tsk := { tasks := [(0, { st := 3, cells := [0], ending := 2 })], cells := [(0, { job := some 0, yielding := true })] } }.setEnt
      .tsk 0 0 { d0 := 0x80000000 })), 0, 0, ({ region := 2 } : Reload), ({ st := 3, cells := [0], ending := 2 } : Task), by decide +kernel⟩,
    ⟨(st { (rl { region := 2 } 2) with now := 300000000, tsk := { tasks := [(0, { st := 2 })] } }), ({ region := 2 } : Reload), 0,
      ({ st := 2 } : Task), by decide +kernel⟩⟩

theorem witness_ReloadStepsAndRejoin :
    (∃ (s : State) (k : Nat), s.ready = true ∧ (8 ≤ k ∨ s.dev.mac.want.getD k (s.dev.planeOf k) = s.dev.planeOf k ∨ (∃ q ∈
      (s.dev.plane (s.dev.planeOf k)).passes, q.2.md.port = k) ∨ (∃ q ∈ (s.dev.plane (s.dev.planeOf k)).waiting, q.md.port = k))) ∧
    (∃ (s : State) (k : Nat) (n : Nat), s.ready = true ∧ k < 8 ∧ s.dev.mac.want.getD k (s.dev.planeOf k) = n ∧ n ≠ s.dev.planeOf k ∧
      (∀ q ∈ (s.dev.plane (s.dev.planeOf k)).passes, q.2.md.port ≠ k) ∧ (∀ q ∈ (s.dev.plane (s.dev.planeOf k)).waiting, q.md.port ≠
      k)) ∧
    (∃ (s : State) (x : Reload), s.ready = true ∧ s.dev.cfg.reload = some x ∧ (s.dev.fld Reg.CFG_STATUS 26 24 ≠ 2 ∨ x.cancelled =
      true ∨ s.dev.drained x.region = false)) ∧
    (∃ (s : State) (x : Reload), s.ready = true ∧ s.dev.cfg.reload = some x ∧ x.region < 6 ∧ s.dev.fld Reg.CFG_STATUS 26 24 = 2 ∧
      x.cancelled = false ∧ s.dev.drained x.region = true) ∧
    (∃ (s : State) (x : Reload), s.ready = true ∧ s.dev.cfg.reload = some x ∧ x.region < 6) ∧
    (∃ (s : State) (x : Reload), s.ready = true ∧ s.dev.cfg.reload = some x ∧ s.dev.fld Reg.CFG_STATUS 26 24 ≠ 4) ∧
    (∃ (s : State) (x : Reload), s.ready = true ∧ s.dev.cfg.reload = some x ∧ x.region < 6 ∧ s.dev.fld Reg.CFG_STATUS 26 24 = 4) ∧
    (∃ (s : State) (x : Reload), s.ready = true ∧ s.dev.cfg.reload = some x ∧ s.dev.fld Reg.CFG_STATUS 26 24 ≠ 5) ∧
    (∃ (s : State) (bad : List Nat) (x : Reload) (same : Bool) (e : Dev), (s.ready = true ∧ s.dev.cfg.reload = some x ∧ s.dev.fld
      Reg.CFG_STATUS 26 24 = 5) ∧ s.dev.rejoin x.region bad = (same, e) ∧ (∀ c, x.fell = some c → c = 7)) ∧
    (∃ (s : State) (x : Reload) (c : Section), s.ready = true ∧ s.dev.cfg.reload = some x ∧ s.dev.fld Reg.CFG_STATUS 26 24 = 5 ∧
      x.region < 2 ∧ s.dev.mode = .reload ∧ s.dev.fclk = 0 ∧ s.dev.pwr.want = none ∧ tabSorted s.dev.tsk.cells = true ∧
      s.dev.mac.parked = [] ∧ (∀ n, n < 6 → (s.dev.regionOf n).due = false) ∧ (s.dev.regionOf x.region).pend = some c) :=
  ⟨⟨base, 0, by decide +kernel⟩,
    ⟨(st { dv with mac := { want := [0, 0, 0, 0, 1, 1, 1, 0] } }), 7, 0, by decide +kernel⟩,
    ⟨(st (rl { region := 5 } 1)), ({ region := 5 } : Reload), by decide +kernel⟩,
    ⟨(st (rl { region := 5 } 2)), ({ region := 5 } : Reload), by decide +kernel⟩,
    ⟨(st (rl { region := 5 } 2)), ({ region := 5 } : Reload), by decide +kernel⟩,
    ⟨(st (rl { region := 5 } 2)), ({ region := 5 } : Reload), by decide +kernel⟩,
    ⟨(st (rl { region := 5 } 4)), ({ region := 5 } : Reload), by decide +kernel⟩,
    ⟨(st (rl { region := 5 } 4)), ({ region := 5 } : Reload), by decide +kernel⟩,
    ⟨(st (rl { region := 5 } 5)), ([] : List Nat), ({ region := 5 } : Reload), ((st (rl { region := 5 } 5)).dev.rejoin 5 []).1, ((st
      (rl { region := 5 } 5)).dev.rejoin 5 []).2, by decide +kernel, (Prod.eta _).symm, vac (by decide +kernel)⟩,
    ⟨(st { (rl { region := 1 } 5) with regions := [(1, { pend := some {} })] }), ({ region := 1 } : Reload), ({} : Section), by decide +kernel⟩⟩

theorem witness_RegionsScrubReloadAndFail :
    (∃ (s : State) (r : Nat), s.ready = true ∧ (s.dev.regionState (r % 6) = 7 ∨ s.dev.regionState (r % 6) = 8)) ∧
    (∃ (s : State) (r : Nat), s.ready = true ∧ s.dev.regionState (r % 6) ≠ 7 ∧ s.dev.regionState (r % 6) ≠ 8) ∧
    (∃ (s : State) (r : Nat), s.ready = true ∧ (s.dev.regionOf (r % 6)).scrubbing = false) ∧
    (∃ (s : State) (r : Nat), s.ready = true ∧ (s.dev.regionOf (r % 6)).scrubbing = true ∧ (s.dev.regionOf (r % 6)).again = false) ∧
    (∃ (s : State) (r : Nat) (ok : Bool), (s.ready = true ∧ (s.dev.regionOf (r % 6)).scrubbing = true ∧ s.dev.regionState (r % 6) ≠
      7 ∧ s.dev.regionState (r % 6) ≠ 8) ∧ (ok = false ∨ (s.dev.regionOf (r % 6)).again = true)) ∧
    (∃ (s : State) (r : Nat), s.ready = true ∧ (s.dev.regionOf (r % 6)).auto = false) ∧
    (∃ (s : State) (r : Nat), s.ready = true ∧ (s.dev.regionOf (r % 6)).auto = true) ∧
    (∃ (s : State) (r : Nat), s.ready = true ∧ (s.dev.regionOf (r % 6)).auto = true ∧ (s.dev.regionOf (r % 6)).verifyFails = 0) ∧
    (∃ (s : State) (r : Nat), s.ready = true ∧ (s.dev.regionOf (r % 6)).auto = true ∧ 1 ≤ (s.dev.regionOf (r % 6)).verifyFails) :=
  ⟨⟨base, 0, by decide +kernel⟩,
    ⟨(st (rg dv [(Reg.CFG_REGION_STAT + 20, 11, 8, 0)])), 5, by decide +kernel⟩,
    ⟨base, 0, by decide +kernel⟩,
    ⟨(st { dv with regions := [(5, { scrubbing := true })] }), 5, by decide +kernel⟩,
    ⟨(st { rg dv [(Reg.CFG_REGION_STAT + 20, 11, 8, 0)] with regions := [(5, { scrubbing := true })] }), 5, false, by decide +kernel,
      Or.inl (by decide +kernel)⟩,
    ⟨base, 0, by decide +kernel⟩,
    ⟨(st { dv with regions := [(5, { auto := true })] }), 5, by decide +kernel⟩,
    ⟨(st { dv with regions := [(5, { auto := true })] }), 5, by decide +kernel⟩,
    ⟨(st { dv with regions := [(5, { auto := true, verifyFails := 1 })] }), 5, by decide +kernel⟩⟩

theorem witness_FramesEnterAPlane :
    (∃ (s : State) (bs : List Byte) (ok : Bool), s.ready = true ∧ (bs.length < 64 ∨ ok = false ∨ 9216 < bs.length)) ∧
    (∃ (s : State) (bs : List Byte), s.ready = true ∧ 64 ≤ bs.length ∧ bs.length ≤ 9216 ∧ s.dev.traffic = false) ∧
    (∃ (s : State) (bs : List Byte), s.ready = true ∧ 64 ≤ bs.length ∧ bs.length ≤ 9216 ∧ s.dev.traffic = true ∧ s.dev.burstFree <
      s.dev.fld Reg.QUE_BURST_CFG 17 0) ∧
    (∃ (s : State) (p : Nat) (bs : List Byte), s.ready = true ∧ 64 ≤ bs.length ∧ bs.length ≤ 9216 ∧ s.dev.traffic = true ∧ s.dev.fld
      Reg.QUE_BURST_CFG 17 0 ≤ s.dev.burstFree ∧ (s.dev.planeOf p) < 2 ∧ s.dev.pkt.planes.length = 2) ∧
    (∃ (s : State) (n : Nat) (b : Nat), s.ready = true ∧ (∀ f ∈ (s.dev.plane n).fills, f.1 ≠ b)) ∧
    (∃ (s : State) (n : Nat) (b : Nat) (dirty : Bool), s.ready = true ∧ n < s.dev.pkt.planes.length ∧ (b, dirty) ∈ (s.dev.plane
      n).fills ∧ (∀ f ∈ (s.dev.plane n).fills, f.1 = b → f = (b, dirty))) :=
  ⟨⟨base, ([] : List Byte), true, by decide +kernel⟩,
    ⟨(st (mo .configure)), (List.replicate 64 (0 : Byte)), by decide +kernel⟩,
    ⟨(st { rg dv [(Reg.QUE_BURST_CFG, 17, 0, 1)] with que := { payloads := [(1, { cells := 10000000, refs := 1 })] } }),
      (List.replicate 64 (0 : Byte)), by decide +kernel⟩,
    ⟨base, 7, (List.replicate 64 (0 : Byte)), by decide +kernel⟩,
    ⟨base, 0, 0, by decide +kernel⟩,
    ⟨(st { dv with pkt := { planes := [{ fills := [(3, true)] }, {}] } }), 0, 3, true, by decide +kernel⟩⟩

theorem witness_PassesAreDecidedAndReleased :
    (∃ (s : State) (n : Nat) (id : Nat), s.ready = true ∧ (s.dev.passOf n id = none ∨ (∃ x, s.dev.passOf n id = some x ∧ (x.decided
      = true ∨ x.waitFill ≠ none ∨ (4096 ≤ s.dev.reorderUsed n ∧ x.order = none))))) ∧
    (∃ (s : State) (n : Nat) (id : Nat) (x : Pass), s.ready = true ∧ n < s.dev.pkt.planes.length ∧ s.dev.pkt.planes.length = 2 ∧
      s.dev.passOf n id = some x ∧ x.decided = false ∧ x.waitFill = none ∧ (s.dev.reorderUsed n < 4096 ∨ x.order ≠ none) ∧
      s.dev.mode ≠ .recovery ∧ s.dev.stage < 5) ∧
    (∃ (s : State) (n : Nat) (id : Nat), s.ready = true ∧ (∀ x, s.dev.passOf n id = some x → x.recirc = none)) ∧
    (∃ (s : State) (n : Nat) (id : Nat) (strip : Nat) (start : Nat) (x : Pass), s.ready = true ∧ s.dev.passOf n id = some x ∧
      x.recirc = some (strip, start)) ∧
    (∃ (s : State) (n : Nat) (p : Nat), s.ready = true ∧ s.dev.nextRelease n p = none) ∧
    (∃ (s : State) (n : Nat) (p : Nat) (id : Nat) (x : Pass), s.ready = true ∧ s.dev.nextRelease n p = some (id, x)) ∧
    (∃ (s : State) (i : Nat) (j : _), s.ready = true ∧ j ≠ i) :=
  ⟨⟨base, 0, 0, by decide +kernel⟩,
    ⟨(st { dv with pkt := { planes := [{}, { passes := [(7, {})] }] } }), 1, 7, ({} : Pass), by decide +kernel⟩,
    ⟨base, 0, 0, by decide +kernel⟩,
    ⟨(st { dv with pkt := { planes := [{}, { passes := [(7, { recirc := some (0, 0) })] }] } }), 1, 7, 0, 0, ({ recirc := some (0, 0) } : Pass), by decide +kernel⟩,
    ⟨base, 0, 0, by decide +kernel⟩,
    ⟨(st { dv with pkt := { planes := [{}, { passes := [(7, { ready := true, order := some 0, md := { port := 7 } })] }] } }), 1, 7,
      7, ({ ready := true, order := some 0, md := { port := 7 } } : Pass), by decide +kernel⟩,
    ⟨base, 0, 1, by decide +kernel⟩⟩

theorem witness_EpochsAndFlowTable :
    (∃ (s : State), s.ready = true ∧ (s.dev.flag Reg.MAT_EPOCH 30 = true ∨ s.dev.inFlight (s.dev.fld Reg.MAT_EPOCH 7 4) ≠ 0 ∨
      s.dev.reachNow ((match s.dev.pkt.commitAt with | some t => t + 1 | none => s.dev.now)) = none)) ∧
    (∃ (s : State) (at_ : Nat) (e : _), s.ready = true ∧ at_ = (match s.dev.pkt.commitAt with | some t => t + 1 | none => s.dev.now)
      ∧ s.dev.flag Reg.MAT_EPOCH 30 = false ∧ s.dev.inFlight (s.dev.fld Reg.MAT_EPOCH 7 4) = 0 ∧ s.dev.reachNow at_ = some e) ∧
    (∃ (s : State) (v : Word) (i : Nat), s.ready = true ∧ bits v 27 24 = 2 ∧ (flowOf (s.dev.dataEntry Reg.MAT_TAB_DATA)).fp ≠ 0 ∧
      (s.dev.flowIn (s.dev.fld Reg.MAT_TAB_ADDR 24 2) (flowOf (s.dev.dataEntry Reg.MAT_TAB_DATA)).fp = some i ∨ (s.dev.flowIn
      (s.dev.fld Reg.MAT_TAB_ADDR 24 2) (flowOf (s.dev.dataEntry Reg.MAT_TAB_DATA)).fp = none ∧ s.dev.flowIn (s.dev.fld
      Reg.MAT_TAB_ADDR 24 2) 0 = some i)) ∧ s.dev.pkt.planes.length = 2) ∧
    (∃ (s : State) (v : Word) (i : Nat), s.ready = true ∧ bits v 27 24 = 2 ∧ (flowOf (s.dev.dataEntry Reg.MAT_TAB_DATA)).fp ≠ 0 ∧
      s.dev.flowIn (s.dev.fld Reg.MAT_TAB_ADDR 24 2) (flowOf (s.dev.dataEntry Reg.MAT_TAB_DATA)).fp = some i) ∧
    (∃ (s : State) (v : Word), s.ready = true ∧ (s.dev.writeReg Reg.MAT_TAB_CMD v).fld Reg.MAT_TAB_CMD 27 24 ≠ 2) ∧
    (∃ (s : State) (v : Word), s.ready = true ∧ bits v 27 24 = 2) ∧
    (∃ (s : State), s.ready = true ∧ s.dev.flag Reg.MAT_EPOCH 30 = true ∧ tabSorted s.dev.tabs = true) ∧
    (∃ (s : State) (v : Word), s.ready = true ∧ bits v 27 24 = 1) :=
  ⟨⟨base, by decide +kernel⟩,
    ⟨(st (rg dv [(Reg.MAT_EPOCH, 30, 30, 0)])), 0, (rg dv [(Reg.MAT_EPOCH, 30, 30, 0)]), by decide +kernel⟩,
    ⟨(st (dv.setReg Reg.MAT_TAB_DATA 5)), (0x02000000 : Word), 0, by decide +kernel⟩,
    ⟨(st { (dv.setReg Reg.MAT_TAB_DATA 5) with pkt := { flows := [(1, flowOf ((dv.setReg Reg.MAT_TAB_DATA 5).dataEntry Reg.MAT_TAB_DATA))] } }),
      (0x02000000 : Word), 1, by decide +kernel⟩,
    ⟨base, (0 : Word), by decide +kernel⟩,
    ⟨base, (0x02000000 : Word), by decide +kernel⟩,
    ⟨base, by decide +kernel⟩,
    ⟨base, (0x01000000 : Word), by decide +kernel⟩⟩

theorem witness_CipherPassesResolve :
    (∃ (s : State) (n : Nat) (c : Nat), s.ready = true ∧ tabFind (s.dev.plane n).jobs c = none) ∧
    (∃ (s : State) (n : Nat) (c : Nat) (id : Nat) (l : Bool) (p : Pass), s.ready = true ∧ n < s.dev.pkt.planes.length ∧ tabFind
      (s.dev.plane n).jobs c = some (.pass id, l) ∧ s.dev.passOf n id = some p) ∧
    (∃ (s : State) (n : Nat) (c : Nat) (id : Nat) (l : Bool) (p : Pass), s.ready = true ∧ n < s.dev.pkt.planes.length ∧
      s.dev.pkt.planes.length = 2 ∧ tabFind (s.dev.plane n).jobs c = some (.pass id, l) ∧ s.dev.passOf n id = some p) ∧
    (∃ (s : State) (n : Nat) (c : Nat) (id : Nat) (l : Bool), s.ready = true ∧ tabFind (s.dev.plane n).jobs c = some (.pass id, l) ∧
      s.dev.passOf n id = none) ∧
    (∃ (s : State) (n : Nat) (c : Nat) (port : Nat) (id : Nat) (l : Bool), s.ready = true ∧ tabFind (s.dev.plane n).jobs c = some
      (.frame port id, l)) ∧
    (∃ (s : State) (u : Nat), s.ready = true ∧ (∀ n, n < 2 → ∀ q ∈ (s.dev.plane n).passes, q.2.uid ≠ u)) ∧
    (∃ (s : State) (n : Nat) (id : Nat) (u : Nat) (r : Nat) (p : Pass), s.ready = true ∧ n < 2 ∧ s.dev.pkt.planes.length = 2 ∧ (id,
      p) ∈ (s.dev.plane n).passes ∧ p.uid = u ∧ (∀ m, m < 2 → ∀ q ∈ (s.dev.plane m).passes, q.2.uid = u → m = n ∧ q = (id, p)) ∧
      tabSorted (s.dev.plane n).passes = true ∧ p.relAt = some r ∧ (p.auth ≠ 1 ∨ s.dev.reachNow (r + 32768) = none)) ∧
    (∃ (s : State) (n : Nat) (id : Nat) (u : Nat) (r : Nat) (p : Pass), s.ready = true ∧ n < 2 ∧ s.dev.pkt.planes.length = 2 ∧ (id,
      p) ∈ (s.dev.plane n).passes ∧ p.uid = u ∧ (∀ m, m < 2 → ∀ q ∈ (s.dev.plane m).passes, q.2.uid = u → m = n ∧ q = (id, p)) ∧
      tabSorted (s.dev.plane n).passes = true ∧ p.relAt = some r ∧ p.auth = 1 ∧ r + 32768 ≤ s.dev.now) ∧
    (∃ (s : State) (n : Nat) (id : Nat), s.ready = true ∧ (∀ w ∈ (s.dev.plane n).kw, w.1 = id → s.dev.beat < w.2 + 4)) ∧
    (∃ (s : State) (n : Nat) (id : Nat) (at_ : Nat) (p : Pass), s.ready = true ∧ n < s.dev.pkt.planes.length ∧ ((s.dev.plane
      n).kw.filter (fun w => w.1 == id) = [(id, at_)]) ∧ at_ + 4 ≤ s.dev.beat ∧ s.dev.passOf n id = some p) :=
  ⟨⟨base, 0, 0, by decide +kernel⟩,
    ⟨(st { dv with pkt := { planes := [{}, { jobs := [(3, (.pass 7, true))], passes := [(7, { uid := 9 })] }] }, now := 32768, beat := 4 }),
      1, 3, 7, true, ({ uid := 9 } : Pass), by decide +kernel⟩,
    ⟨(st { dv with pkt := { planes := [{}, { jobs := [(3, (.pass 7, true))], passes := [(7, { uid := 9 })] }] }, now := 32768, beat := 4 }),
      1, 3, 7, true, ({ uid := 9 } : Pass), by decide +kernel⟩,
    ⟨(st { dv with pkt := { planes := [{}, { jobs := [(3, (.pass 7, true))] }] } }), 1, 3, 7, true, by decide +kernel⟩,
    ⟨(st { dv with pkt := { planes := [{}, { jobs := [(3, (.frame 0 7, true))], passes := [(7, { uid := 9 })] }] }, now := 32768, beat := 4 }),
      1, 3, 0, 7, true, by decide +kernel⟩,
    ⟨base, 0, by decide +kernel⟩,
    ⟨(st { dv with pkt := { planes := [{}, { jobs := [(3, (.pass 7, true))], passes := [(7, { uid := 9, relAt := some 0 })] }] }, now := 32768, beat := 4 }),
      1, 7, 9, 0, ({ uid := 9, relAt := some 0 } : Pass), by decide +kernel⟩,
    ⟨(st { dv with pkt := { planes := [{}, { jobs := [(3, (.pass 7, true))], passes := [(7, { uid := 9, relAt := some 0, auth := 1 })] }] }, now := 32768, beat := 4 }),
      1, 7, 9, 0, ({ uid := 9, relAt := some 0, auth := 1 } : Pass), by decide +kernel⟩,
    ⟨base, 0, 0, by decide +kernel⟩,
    ⟨(st { dv with pkt := { planes := [{}, { jobs := [(3, (.pass 7, true))], passes := [(7, { uid := 9, relAt := some 0, auth := 1 })], kw := [(7, 0)] }] }, now := 32768, beat := 4 }),
      1, 7, 0, ({ uid := 9, relAt := some 0, auth := 1 } : Pass), by decide +kernel⟩⟩

theorem witness_SlotLoadsAndBindings :
    (∃ (s : State) (l : Nat), s.ready = true ∧ (2 ≤ l ∨ s.dev.nextLoad = none)) ∧
    (∃ (s : State) (l : Nat) (r : LoadReq), s.ready = true ∧ l < 2 ∧ s.dev.nextLoad = some r) :=
  ⟨⟨base, 0, by decide +kernel⟩,
    ⟨(st { dv with vlt := { loads := [{ leg := 0, egress := false, cls := 1 }] } }), 1, ({ leg := 0, egress := false, cls := 1 } : LoadReq), by decide +kernel⟩⟩

theorem witness_ImportsBlobsAndAttestation :
    (∃ (s : State) (ct : List Byte), s.ready = true ∧ s.dev.mode ≠ .reset ∧ s.dev.mbxTakes 5 = true ∧ ct.length ≠ 1088) ∧
    (∃ (s : State) (ct : List Byte), s.ready = true ∧ s.dev.mode ≠ .reset ∧ s.dev.mbxTakes 5 = true ∧ ct.length = 1088 ∧
      s.dev.sigRequired = true ∧ ((s.dev.vlt.fails.filter fun x => decide (aclkBetween x s.dev.now < 200000000)).length < 31)) ∧
    (∃ (s : State) (ct : List Byte), s.ready = true ∧ s.dev.mode ≠ .reset ∧ s.dev.mbxTakes 5 = true ∧ ct.length = 1088 ∧
      s.dev.sigRequired = false) ∧
    (∃ (s : State), s.ready = true ∧ s.dev.mode ≠ .reset ∧ s.dev.mbxTakes 5 = true) ∧
    (∃ (s : State) (n : Nat) (rs : List (List Byte)), s.ready = true ∧ s.dev.mode ≠ .reset ∧ s.dev.mbxTakes 5 = true ∧ rs ≠ [] ∧
      rs.length ≤ 64 ∧ (∀ r ∈ rs, r.length = 72) ∧ tabFind s.dev.vlt.sessions n = none) ∧
    (∃ (s : State) (n : Nat) (r : List Byte) (x : Session), s.ready = true ∧ s.dev.mode ≠ .reset ∧ s.dev.mbxTakes 5 = true ∧
      r.length = 72 ∧ tabFind s.dev.vlt.sessions n = some x ∧ ((s.dev.vlt.fails.filter fun y => decide (aclkBetween y s.dev.now <
      200000000)).length < 31) ∧ s.dev.vlt.erasing = false) ∧
    (∃ (s : State) (n : Nat) (x : Session), s.ready = true ∧ tabFind s.dev.vlt.sessions n = some x ∧ s.dev.reachDt (x.opened +
      s.dev.sessionLife * 60000000000 * nsUnit) = some s.dev) ∧
    (∃ (s : State) (n : Nat), s.ready = true ∧ (∀ x, tabFind s.dev.vlt.sessions n = some x → s.dev.reachDt (x.opened +
      s.dev.sessionLife * 60000000000 * nsUnit) = none)) ∧
    (∃ (s : State) (first : Nat) (count : Nat) (b : List Byte), s.ready = true ∧ s.dev.mode ≠ .reset ∧ s.dev.mbxTakes 5 = true ∧
      count = 1 ∧ first < 65536 ∧ b.length = 128) ∧
    (∃ (s : State), s.ready = true ∧ s.dev.mode ≠ .reset ∧ s.dev.mbxTakes 4 = true) :=
  ⟨⟨base, ([] : List Byte), by decide +kernel⟩,
    ⟨(st { dv with vlt := { policy := [1, 1] } }), (List.replicate 1088 (0 : Byte)), by decide +kernel⟩,
    ⟨base, (List.replicate 1088 (0 : Byte)), by decide +kernel⟩,
    ⟨base, by decide +kernel⟩,
    ⟨base, 0, ([List.replicate 72 (0 : Byte)] : List (List Byte)), by decide +kernel⟩,
    ⟨(st { dv with vlt := { sessions := [(0, { opened := 0, key := [] })] } }), 0, (List.replicate 72 (0 : Byte)), ({ opened := 0, key := [] } : Session), by decide +kernel⟩,
    ⟨(st { dv with vlt := { sessions := [(0, { opened := 0, key := [] })] }, tim := { dt := 1440 * 60000000000 * nsUnit } }), 0, ({ opened := 0, key := [] } : Session), by decide +kernel⟩,
    ⟨base, 0, by decide +kernel⟩,
    ⟨base, 65535, 1, (List.replicate 128 (0 : Byte)), by decide +kernel⟩,
    ⟨base, by decide +kernel⟩⟩

theorem witness_AlarmsEraseAndProvisionRestores :
    (∃ (s : State) (k : Nat), s.ready = true ∧ (8 ≤ k ∨ (k < 2 ∧ s.dev.flag Reg.VLT_ALARM_EN k = false))) ∧
    (∃ (s : State) (k : Nat), s.ready = true ∧ k < 8 ∧ (k < 2 → s.dev.flag Reg.VLT_ALARM_EN k = true) ∧ (s.dev.vlt.erasing = true ∨
      s.dev.mode = .zeroize)) ∧
    (∃ (s : State) (k : Nat), s.ready = true ∧ k < 8 ∧ (k < 2 → s.dev.flag Reg.VLT_ALARM_EN k = true) ∧ s.dev.vlt.erasing = false ∧
      s.dev.mode ≠ .zeroize ∧ s.dev.pkt.planes.length = 2) ∧
    (∃ (s : State), s.ready = true ∧ s.dev.mode = .zeroize ∧ s.dev.mbxTakes 9 = true) ∧
    (∃ (s : State), s.ready = true ∧ (s.dev.mode = .configure ∨ s.dev.mode = .service) ∧ s.dev.mbxTakes 14 = true) ∧
    (∃ (s : State) (v : List Byte), s.ready = true ∧ (s.dev.mode = .configure ∨ s.dev.mode = .service) ∧ s.dev.mbxTakes 14 = true ∧
      byteAt v 0 = 4) ∧
    (∃ (s : State) (v : List Byte), s.ready = true ∧ (s.dev.mode = .configure ∨ s.dev.mode = .service) ∧ s.dev.mbxTakes 14 = true ∧
      (byteAt v 0 = 0 ∨ 4 < byteAt v 0)) ∧
    (∃ (s : State) (v : List Byte), s.ready = true ∧ (s.dev.mode = .configure ∨ s.dev.mode = .service) ∧ s.dev.mbxTakes 14 = true ∧
      byteAt v 0 = 2 ∧ (v.drop 4).length = 32) ∧
    (∃ (s : State) (v : List Byte), s.ready = true ∧ (s.dev.mode = .configure ∨ s.dev.mode = .service) ∧ s.dev.mbxTakes 14 = true ∧
      byteAt v 0 = 1 ∧ ((byteAt v 1 = 1 ∧ (v.drop 4).length = 1312) ∨ (byteAt v 1 = 2 ∧ (v.drop 4).length = 1952))) :=
  ⟨⟨base, 0, by decide +kernel⟩,
    ⟨(st (mo .zeroize)), 7, by decide +kernel⟩,
    ⟨(st (rg dv [(Reg.VLT_ALARM_EN, 0, 0, 1)])), 0, by decide +kernel⟩,
    ⟨(st (mo .zeroize)), by decide +kernel⟩,
    ⟨base, by decide +kernel⟩,
    ⟨base, ([4] : List Byte), by decide +kernel⟩,
    ⟨base, ([] : List Byte), by decide +kernel⟩,
    ⟨base, ([2, 0, 0, 0] ++ List.replicate 32 0), by decide +kernel⟩,
    ⟨base, ([1, 1, 0, 0] ++ List.replicate 1312 0), by decide +kernel⟩⟩

theorem witness_HostQueueOperations :
    (∃ (s : State) (p : Path) (v : Word) (c : _), s.ready = true ∧ c ∈ [Instr.queRead p v, .queMark p v, .queRewind p v, .queSkip p
      v, .queRelease p v, .queFlush p v] ∧ (s.dev.que.stall ≠ none ∨ s.dev.que.refill ≠ none)) ∧
    (∃ (s : State) (p : Path) (v : Word) (c : _), s.ready = true ∧ c ∈ [Instr.queRead p v, .queMark p v, .queRewind p v, .queSkip p
      v, .queRelease p v, .queFlush p v] ∧ s.dev.que.stall = none ∧ s.dev.que.refill = none ∧ (s.dev.mode = .reset ∨ s.dev.mode =
      .boot)) ∧
    (∃ (s : State) (p : Path) (v : Word) (c : _), s.ready = true ∧ c ∈ [Instr.queRead p v, .queMark p v, .queRewind p v, .queSkip p
      v, .queRelease p v, .queFlush p v] ∧ s.dev.que.stall = none ∧ s.dev.que.refill = none ∧ s.dev.mode ≠ .reset ∧ s.dev.mode ≠
      .boot ∧ s.dev.mode ≠ .test ∧ s.dev.queueKind (bits v 17 0) ≠ some 4) ∧
    (∃ (s : State) (v : Word), s.ready = true ∧ s.dev.hostMay (bits v 17 0) ∧ (s.dev.queue (bits v 17 0)).read = (s.dev.queue (bits
      v 17 0)).tail) ∧
    (∃ (s : State) (v : Word) (it : Item), s.ready = true ∧ s.dev.hostMay (bits v 17 0) ∧ (s.dev.queue (bits v 17 0)).read ≠
      (s.dev.queue (bits v 17 0)).tail ∧ (s.dev.queue (bits v 17 0)).front = some it ∧ (s.dev.queue (bits v 17 0)).cold = true ∧
      s.dev.retains (bits v 17 0) = true) ∧
    (∃ (s : State) (v : Word) (it : Item), s.ready = true ∧ s.dev.hostMay (bits v 17 0) ∧ (s.dev.queue (bits v 17 0)).read ≠
      (s.dev.queue (bits v 17 0)).tail ∧ (s.dev.queue (bits v 17 0)).front = some it ∧ (s.dev.queue (bits v 17 0)).cold = false ∧
      s.dev.retains (bits v 17 0) = true) ∧
    (∃ (s : State) (v : Word) (it : Item), s.ready = true ∧ s.dev.hostMay (bits v 17 0) ∧ (s.dev.queue (bits v 17 0)).read ≠
      (s.dev.queue (bits v 17 0)).tail ∧ (s.dev.queue (bits v 17 0)).front = some it ∧ (s.dev.queue (bits v 17 0)).cold = false ∧
      s.dev.retains (bits v 17 0) = false ∧ (s.dev.queue (bits v 17 0)).read = (s.dev.queue (bits v 17 0)).release) ∧
    (∃ (s : State) (p : Path) (v : Word) (c : _), s.ready = true ∧ s.dev.hostMay (bits v 17 0) ∧ s.dev.retains (bits v 17 0) = false
      ∧ c ∈ [Instr.queMark p v, .queRewind p v, .queSkip p v]) ∧
    (∃ (s : State) (v : Word), s.ready = true ∧ s.dev.hostMay (bits v 17 0) ∧ s.dev.retains (bits v 17 0) = true) ∧
    (∃ (s : State) (v : Word), s.ready = true ∧ s.dev.hostMay (bits v 17 0) ∧ posNear (s.dev.queue (bits v 17 0)).release (s.dev.reg
      Reg.QUE_ARG).toNat < (s.dev.queue (bits v 17 0)).release) ∧
    (∃ (s : State) (v : Word), s.ready = true ∧ s.dev.hostMay (bits v 17 0) ∧ (s.dev.queue (bits v 17 0)).release + (s.dev.queue
      (bits v 17 0)).items.length = (s.dev.queue (bits v 17 0)).tail ∧ (s.dev.queue (bits v 17 0)).release ≤ posNear (s.dev.queue
      (bits v 17 0)).release (s.dev.reg Reg.QUE_ARG).toNat) ∧
    (∃ (s : State) (v : Word), s.ready = true ∧ s.dev.hostMay (bits v 17 0)) :=
  ⟨⟨(st { dv with que := { stall := some (0, 0) } }), Path.pcie, (0 : Word), (Instr.queRead Path.pcie 0), by decide +kernel⟩,
    ⟨(st (mo .reset)), Path.pcie, (0 : Word), (Instr.queMark Path.pcie 0), by decide +kernel⟩,
    ⟨base, Path.pcie, (0 : Word), (Instr.queFlush Path.pcie 0), by decide +kernel⟩,
    ⟨(st ({ mo .service with que := { queues := [(0, {})] } }.setEnt .que 1 0 { d1 := 1, d5 := 1073741824 })), (0 : Word), by decide +kernel, by
      unfold Dev.hostMay; decide +kernel, by decide +kernel⟩,
    ⟨(st ({ mo .test with que := { queues := [(0, { tail := 1, items := [{ uid := 1 }], cold := true })] } }.setEnt .que 1 0 { d1 := 1, d5 := 0x10000000 })),
      (0 : Word), ({ uid := 1 } : Item), by decide +kernel, by unfold Dev.hostMay; decide +kernel, by decide +kernel⟩,
    ⟨(st ({ mo .test with que := { queues := [(0, { tail := 1, items := [{ uid := 1 }] })] } }.setEnt .que 1 0 { d1 := 1, d5 := 268435456 })),
      (0 : Word), ({ uid := 1 } : Item), by decide +kernel, by unfold Dev.hostMay; decide +kernel, by decide +kernel⟩,
    ⟨(st ({ mo .test with que := { queues := [(0, { tail := 1, items := [{ uid := 1 }] })] } })), (0 : Word), ({ uid := 1 } : Item), by decide +kernel, by
      unfold Dev.hostMay; decide +kernel, by decide +kernel⟩,
    ⟨(st ({ mo .test with que := { queues := [(0, {})] } })), Path.pcie, (0 : Word), (Instr.queRewind Path.pcie 0), by decide +kernel, by
      unfold Dev.hostMay; decide +kernel, by decide +kernel⟩,
    ⟨(st ({ mo .test with que := { queues := [(0, {})] } }.setEnt .que 1 0 { d1 := 1, d5 := 536870912 })), (0 : Word), by decide +kernel, by
      unfold Dev.hostMay; decide +kernel, by decide +kernel⟩,
    ⟨(st { mo .test with que := { queues := [(0, { tail := 6, read := 5, release := 5, items := [{ uid := 1 }] })] } }), (0 : Word), by decide +kernel, by
      unfold Dev.hostMay; decide +kernel, by decide +kernel⟩,
    ⟨(st ({ mo .test with que := { queues := [(0, { tail := 1, items := [{ uid := 1 }] })] } })), (0 : Word), by decide +kernel, by
      unfold Dev.hostMay; decide +kernel, by decide +kernel⟩,
    ⟨(st ({ mo .test with que := { queues := [(0, {})] } })), (0 : Word), by decide +kernel, by unfold Dev.hostMay; decide +kernel⟩⟩

theorem witness_QueueRefillsAgesAndFlowControl :
    (∃ (s : State), s.ready = true ∧ s.dev.que.refill = none) ∧
    (∃ (s : State) (q : Nat) (pos : Nat) (desc : Entry), s.ready = true ∧ s.dev.que.refill = some (q, desc, pos)) ∧
    (∃ (s : State), s.ready = true ∧ (s.dev.que.stall = none ∨ s.dev.fld Reg.TSK_STALL_TIMEOUT 19 0 = 0 ∨ (∃ x, s.dev.que.stall =
      some x ∧ s.dev.reachNow (x.2 + s.dev.fld Reg.TSK_STALL_TIMEOUT 19 0 * 1500) = none))) ∧
    (∃ (s : State) (q : Nat) (since : Nat), s.ready = true ∧ s.dev.que.stall = some (q, since) ∧ (s.dev.fld Reg.TSK_STALL_TIMEOUT 19
      0) ≠ 0 ∧ since + (s.dev.fld Reg.TSK_STALL_TIMEOUT 19 0) * 1500 ≤ s.dev.now) ∧
    (∃ (s : State) (q : Nat), s.ready = true ∧ ((s.dev.queue q).spilled = false ∨ (∀ it ∈ ((s.dev.queue q).items.drop 4).take
      ((s.dev.queue q).items.length - 8), ∀ x, s.dev.payload it.uid = some x → x.dram = true))) ∧
    (∃ (s : State) (q : Nat) (it : Item) (x : Payload), s.ready = true ∧ (s.dev.queue q).spilled = true ∧ ((((s.dev.queue
      q).items.drop 4).take ((s.dev.queue q).items.length - 8)).find? (fun y => ((s.dev.payload y.uid).map (fun p => !p.dram)).getD
      false) = some it) ∧ s.dev.payload it.uid = some x ∧ (it.cells ≤ (if s.dev.queueKind q = some 1 then s.dev.histFree else
      s.dev.spillFree))) ∧
    (∃ (s : State) (q : Nat) (it : Item) (x : Payload), s.ready = true ∧ (s.dev.queue q).spilled = true ∧ ((((s.dev.queue
      q).items.drop 4).take ((s.dev.queue q).items.length - 8)).find? (fun y => ((s.dev.payload y.uid).map (fun p => !p.dram)).getD
      false) = some it) ∧ s.dev.payload it.uid = some x ∧ ((if s.dev.queueKind q = some 1 then s.dev.histFree else s.dev.spillFree)
      < it.cells)) ∧
    (∃ (s : State), s.ready = true ∧ (∀ q ∈ tabKeys s.dev.que.queues, s.dev.queueKind q = some 1 → s.dev.agedItems q = 0)) ∧
    (∃ (s : State) (q : Nat), s.ready = true ∧ ((tabKeys s.dev.que.queues).filter (fun j => s.dev.queueKind j == some 1 && decide
      (s.dev.agedItems j ≠ 0)) = [q])) ∧
    (∃ (s : State) (o : Nat), s.ready = true ∧ 16 ≤ o) ∧
    (∃ (s : State) (o : Nat), s.ready = true ∧ o < 16 ∧ s.dev.lapse.fcWanted o = s.dev.que.asserted.contains o) ∧
    (∃ (s : State) (o : Nat) (on : Bool), s.ready = true ∧ o < 16 ∧ (s.dev.lapse).fcWanted o = on ∧ s.dev.que.asserted.contains o =
      !on ∧ s.dev.que.asserted.count o ≤ 1) ∧
    (∃ (s : State) (o : Nat), s.ready = true ∧ (o ∉ s.dev.que.asserted ∨ ((s.dev.fcOut o).f 0 31 28 ≠ 1 ∧ (s.dev.fcOut o).f 0 31 28
      ≠ 2) ∨ s.dev.reachNow ((tabFind s.dev.que.repeatAt o).getD 0) = none)) ∧
    (∃ (s : State) (o : Nat) (at_ : Nat), s.ready = true ∧ o ∈ s.dev.que.asserted ∧ (s.dev.fcOut o).f 0 31 28 = 1 ∧ tabFind
      s.dev.que.repeatAt o = some at_ ∧ at_ ≤ s.dev.now) :=
  ⟨⟨base, by decide +kernel⟩,
    ⟨(st { dv with que := { refill := some (0, {}, 0) } }), 0, 0, ({} : Entry), by decide +kernel⟩,
    ⟨base, by decide +kernel⟩,
    ⟨(st { rg dv [(Reg.TSK_STALL_TIMEOUT, 19, 0, 1)] with que := { stall := some (0, 0) }, now := 1500 }), 0, 0, by decide +kernel⟩,
    ⟨base, 0, by decide +kernel⟩,
    ⟨(st ({ mo .service with que := { queues := [(0, { tail := 9, items := [{}, {}, {}, {}, { uid := 1 }, {}, {}, {}, {}], spilled := true })], payloads := [(1, { cells := 1, refs := 1 })] } }.setEnt
      .que 1 0 { d1 := 1, d5 := 268435456 })), 0, ({ uid := 1 } : Item), ({ cells := 1, refs := 1 } : Payload), by decide +kernel⟩,
    ⟨(st ({ mo .service with que := { queues := [(0, { tail := 9, items := [{}, {}, {}, {}, { uid := 1, desc := { d0 := 0x4000 } }, {}, {}, {}, {}], spilled := true })], payloads := [(1, { cells := 1, refs := 1 })] } }.setEnt
      .que 1 0 { d1 := 1, d5 := 268435456 })), 0, ({ uid := 1, desc := { d0 := 0x4000 } } : Item), ({ cells := 1, refs := 1 } : Payload), by decide +kernel⟩,
    ⟨base, by decide +kernel⟩,
    ⟨(st { ({ mo .service with que := { queues := [(0, { tail := 1, items := [{ uid := 1 }] })] } }.setEnt .que 1 0 { d1 := 1, d5 := 268435456 }) with beat := 301 }),
      0, by decide +kernel⟩,
    ⟨base, 16, by decide +kernel⟩,
    ⟨base, 0, by decide +kernel⟩,
    ⟨(st { dv.setEnt .que 1 0 { d5 := 0x0F800000 } with que := { high := [0] } }), 15, true, by decide +kernel⟩,
    ⟨base, 0, by decide +kernel⟩,
    ⟨(st { dv.setEnt .que 2 1 { d0 := 0x10000000 } with que := { asserted := [1], repeatAt := [(1, 0)] } }), 1, 0, by decide +kernel⟩⟩

theorem witness_KeyRequestsWaitAndMerge :
    (∃ (s : State) (b : Nat), s.ready = true ∧ ((s.dev.brood b).reqWant = [] ∨ s.dev.gapOver b = false)) ∧
    (∃ (s : State) (b : Nat) (enc : Nat) (need : Bool), s.ready = true ∧ (s.dev.brood b).reqWant.head? = some (enc, need) ∧
      s.dev.gapOver b = true) ∧
    (∃ (s : State) (x : Nat), s.ready = true ∧ (((s.dev.sub x).st ≠ 2 ∧ (s.dev.sub x).st ≠ 3) ∨ (s.dev.sub x).asked = true ∨
      s.dev.beat < (s.dev.sub x).pendSince + s.dev.fld Reg.FWD_CFG 9 0)) ∧
    (∃ (s : State) (x : Nat), s.ready = true ∧ ((s.dev.sub x).st = 2 ∨ (s.dev.sub x).st = 3) ∧ (s.dev.sub x).asked = false ∧
      (s.dev.sub x).pendSince + s.dev.fld Reg.FWD_CFG 9 0 ≤ s.dev.beat ∧ s.dev.gapOver (s.dev.subBrood x) = false) ∧
    (∃ (s : State) (x : Nat), s.ready = true ∧ ((s.dev.sub x).st = 2 ∨ (s.dev.sub x).st = 3) ∧ (s.dev.sub x).asked = false ∧
      (s.dev.sub x).pendSince + s.dev.fld Reg.FWD_CFG 9 0 ≤ s.dev.beat ∧ s.dev.gapOver (s.dev.subBrood x) = true ∧ (s.dev.brood
      (s.dev.subBrood x)).reqWant = []) ∧
    (∃ (s : State) (x : Nat) (e0 : _) (n0 : _), s.ready = true ∧ ((s.dev.sub x).st = 2 ∨ (s.dev.sub x).st = 3) ∧ (s.dev.sub x).asked
      = false ∧ (s.dev.sub x).pendSince + s.dev.fld Reg.FWD_CFG 9 0 ≤ s.dev.beat ∧ s.dev.gapOver (s.dev.subBrood x) = true ∧
      (s.dev.brood (s.dev.subBrood x)).reqWant.head? = some (e0, n0) ∧ s.dev.fld Reg.FWD_CFG 25 16 ≠ 0) :=
  ⟨⟨base, 0, by decide +kernel⟩,
    ⟨(st { dv with beat := 2000, fwd := { broods := [(0, { reqWant := [(0, true)], reqLast := some 0 })] } }), 0, 0, true, by decide +kernel⟩,
    ⟨base, 0, by decide +kernel⟩,
    ⟨(st { rg dv [(Reg.FWD_CFG, 9, 0, 1), (Reg.FWD_CFG, 25, 16, 10)] with beat := 5, fwd := { subs := [(0, { st := 2 })], broods := [(0, { reqLast := some 0 })] } }),
      0, by decide +kernel⟩,
    ⟨(st { rg dv [(Reg.FWD_CFG, 9, 0, 1), (Reg.FWD_CFG, 25, 16, 10)] with beat := 20, fwd := { subs := [(0, { st := 2 })], broods := [(0, { reqLast := some 0, reqWant := [] })] } }),
      0, by decide +kernel, Or.inl (by decide +kernel), by decide +kernel⟩,
    ⟨(st { rg dv [(Reg.FWD_CFG, 9, 0, 1), (Reg.FWD_CFG, 25, 16, 10)] with beat := 20, fwd := { subs := [(0, { st := 2 })], broods := [(0, { reqLast := some 0, reqWant := [(1, true)] })] } }),
      0, 1, true, by decide +kernel, Or.inl (by decide +kernel), by decide +kernel⟩⟩

theorem witness_LegReportsAndFeedback :
    (∃ (s : State) (b : Nat) (strm : Nat) (q : Nat) (g : Gap), s.ready = true ∧ ((s.dev.brood b).gaps.find? (fun g₁ => g₁.stream ==
      strm && g₁.seqn == q) = some g) ∧ s.dev.relayLink ((s.dev.broodEnt b).f 0 13 0) = none ∧ ((s.dev.fld Reg.FWD_RTCP_CFG 15 8) =
      0 ∨ 2 ≤ g.sent ∨ (g.sent = 0 ∧ s.dev.beat < g.opened + (s.dev.fld Reg.FWD_RTCP_CFG 15 8)) ∨ (g.sent = 1 ∧ (s.dev.beat -
      g.lastSent) * 5000 < 3 * (s.dev.gov ((s.dev.broodEnt b).f 0 13 0)).rtt))) ∧
    (∃ (s : State) (b : Nat) (strm : Nat) (q : Nat) (g : Gap), s.ready = true ∧ ((s.dev.brood b).gaps.find? (fun g₁ => g₁.stream ==
      strm && g₁.seqn == q) = some g) ∧ s.dev.relayLink ((s.dev.broodEnt b).f 0 13 0) = none ∧ (s.dev.fld Reg.FWD_RTCP_CFG 15 8) ≠ 0
      ∧ ((g.sent = 0 ∧ g.opened + (s.dev.fld Reg.FWD_RTCP_CFG 15 8) ≤ s.dev.beat) ∨ (g.sent = 1 ∧ 3 * (s.dev.gov ((s.dev.broodEnt
      b).f 0 13 0)).rtt ≤ (s.dev.beat - g.lastSent) * 5000))) ∧
    (∃ (s : State) (b : Nat) (strm : Nat) (q : Nat), s.ready = true ∧ ((s.dev.brood b).gaps.find? (fun g => g.stream == strm &&
      g.seqn == q) = none)) ∧
    (∃ (s : State) (b : Nat) (strm : Nat) (q : Nat) (k : Nat) (g : Gap), (s.ready = true ∧ ((s.dev.brood b).gaps.find? (fun g₁ => g₁.stream
      == strm && g₁.seqn == q) = some g)) ∧ s.dev.relayLink ((s.dev.broodEnt b).f 0 13 0) = some k ∧ g.sent = 0 ∧ s.dev.fld
      Reg.FWD_RTCP_CFG 15 8 ≠ 0 ∧ g.opened + s.dev.fld Reg.FWD_RTCP_CFG 15 8 ≤ s.dev.beat) ∧
    (∃ (s : State) (x : Nat), s.ready = true ∧ (s.dev.reports x = false ∨ s.dev.reportBeat ((s.dev.subEnt x).f 1 29 16) = false)) ∧
    (∃ (s : State) (x : Nat), s.ready = true ∧ s.dev.reports x = true ∧ s.dev.reportBeat ((s.dev.subEnt x).f 1 29 16) = true) ∧
    (∃ (s : State) (leg : Nat), s.ready = true ∧ (s.dev.legValid leg = false ∨ (s.dev.legEnt leg).b 0 27 = false ∨ s.dev.beat <
      (s.dev.gov leg).fbSent + s.dev.fld Reg.FWD_RTCP_CFG 7 0)) ∧
    (∃ (s : State) (leg : Nat), s.ready = true ∧ s.dev.legValid leg = true ∧ (s.dev.legEnt leg).b 0 27 = true ∧ (s.dev.gov
      leg).fbSent + s.dev.fld Reg.FWD_RTCP_CFG 7 0 ≤ s.dev.beat) ∧
    (∃ (s : State) (leg : Nat), s.ready = true ∧ (s.dev.legValid leg = false ∨ (s.dev.gov leg).lost = true ∨ s.dev.beat < (s.dev.gov
      leg).lastFb + s.dev.fld Reg.LEG_FB_TIMEOUT 15 0)) ∧
    (∃ (s : State) (leg : Nat), s.ready = true ∧ s.dev.legValid leg = true ∧ (s.dev.gov leg).lost = false ∧ (s.dev.gov leg).lastFb +
      s.dev.fld Reg.LEG_FB_TIMEOUT 15 0 ≤ s.dev.beat) ∧
    (∃ (s : State) (leg : Nat), s.ready = true ∧ ((s.dev.gov leg).lost = false ∨ (s.dev.legEnt leg).b 0 25 = true ∨ s.dev.beat <
      (s.dev.gov leg).lastHalve + 600)) ∧
    (∃ (s : State) (leg : Nat), s.ready = true ∧ (s.dev.gov leg).lost = true ∧ (s.dev.legEnt leg).b 0 25 = false ∧ (s.dev.gov
      leg).lastHalve + 600 ≤ s.dev.beat) :=
  ⟨⟨(st { dv with beat := 0, fwd := { broods := [(0, { gaps := [{ stream := 0, seqn := 5, opened := 0 }] })] } }), 0, 0, 5, ({ stream := 0, seqn := 5, opened := 0 } : Gap), by decide +kernel⟩,
    ⟨(st { rg dv [(Reg.FWD_RTCP_CFG, 15, 8, 1)] with beat := 1, fwd := { broods := [(0, { gaps := [{ stream := 0, seqn := 5, opened := 0 }] })] } }),
      0, 0, 5, ({ stream := 0, seqn := 5, opened := 0 } : Gap), by decide +kernel⟩,
    ⟨base, 0, 0, 0, by decide +kernel⟩,
    ⟨(st { relayer with beat := 1000, fwd := { broods := [(0, { gaps := [{ stream := 0, seqn := 5, opened := 0 }] })] } }), 0, 0, 5,
      0, ({ stream := 0, seqn := 5, opened := 0 } : Gap), by decide +kernel, relay_of (by decide +kernel) (by decide +kernel)
      ((congrArg (fun e => e.f 0 13 0) (rfl : ({ relayer with beat := 1000, fwd := { broods := [(0, { gaps := [{ stream := 0, seqn := 5, opened := 0 }] })] } } : Dev).broodEnt
      0 = relayed)).trans relayed_leg), by decide +kernel⟩,
    ⟨base, 0, by decide +kernel⟩,
    ⟨(st { dv.setEnt .fwd 1 0 { d0 := 0x80000000 } with fwd := { subs := [(0, { st := 1 })] } }), 0, by decide +kernel⟩,
    ⟨base, 0, by decide +kernel⟩,
    ⟨(st { dv.setEnt .leg 0 0 { d0 := 0x88000000 } with beat := 300 }), 0, by decide +kernel⟩,
    ⟨base, 0, by decide +kernel⟩,
    ⟨(st { dv.setEnt .leg 0 0 { d0 := 0x80000000 } with beat := 70000 }), 0, by decide +kernel⟩,
    ⟨base, 0, by decide +kernel⟩,
    ⟨(st { dv with beat := 600, fwd := { govs := [(0, { lost := true })] } }), 0, by decide +kernel⟩⟩

theorem witness_FencesFillsAndAccessUnits :
    (∃ (s : State) (c : Nat), s.ready = true ∧ ((s.dev.cell c).job = none ∨ (∃ k, (s.dev.cell c).job = some k ∧ (s.dev.task k = none
      ∨ ∃ x, s.dev.task k = some x ∧ x.kind ≠ Kd.decode)))) ∧
    (∃ (s : State) (c : Nat), s.ready = true ∧ ((s.dev.cell c).job = none ∨ (∃ k, (s.dev.cell c).job = some k ∧ (s.dev.task k = none
      ∨ ∃ x, s.dev.task k = some x ∧ x.kind ≠ Kd.encode)))) ∧
    (∃ (s : State) (c : Nat) (k : Nat) (x : Task), s.ready = true ∧ (s.dev.cell c).job = some k ∧ s.dev.task k = some x ∧ x.st =
      St.running ∧ x.region < 4 ∧ (s.dev.cell c).out = false ∧ x.kind = Kd.decode) ∧
    (∃ (s : State) (c : Nat) (k : Nat) (x : Task), s.ready = true ∧ (s.dev.cell c).job = some k ∧ s.dev.task k = some x ∧ x.st =
      St.running ∧ x.region < 4 ∧ (s.dev.cell c).out = false ∧ x.kind = Kd.encode) ∧
    (∃ (s : State) (k : Nat), s.ready = true ∧ (s.dev.task k = none ∨ (∃ x, s.dev.task k = some x ∧ x.filling = false))) ∧
    (∃ (s : State) (k : Nat) (x : Task), s.ready = true ∧ s.dev.task k = some x ∧ x.filling = true ∧ tabSorted s.dev.tsk.tasks =
      true ∧ (x.kind = Kd.decode ∨ x.kind = Kd.compose ∨ x.kind = Kd.encode) ∧ x.region < 4) ∧
    (∃ (s : State) (e : Nat), s.ready = true ∧ (s.dev.dec e = none ∨ (∃ q, s.dev.dec e = some q ∧ ∀ a ∈ q.aus, a.offered = true ∨
      s.dev.beat < a.first + s.dev.fld Reg.VDC_CFG 7 0))) ∧
    (∃ (s : State) (e : Nat) (q : Dec) (a : Au), s.ready = true ∧ s.dev.dec e = some q ∧ (q.aus.map (·.ref)).Nodup ∧ a ∈ q.aus ∧
      a.offered = false ∧ a.first + s.dev.fld Reg.VDC_CFG 7 0 ≤ s.dev.beat ∧ (∀ b ∈ q.aus, b.ref ≠ a.ref → b.offered = true ∨
      s.dev.beat < b.first + s.dev.fld Reg.VDC_CFG 7 0)) :=
  ⟨⟨base, 0, by decide +kernel⟩,
    ⟨base, 0, by decide +kernel⟩,
    ⟨(st (tc { st := 3, kind := Kd.decode, cells := [0] } 0 { job := some 0 })), 0, 0, ({ st := 3, kind := Kd.decode, cells := [0] } : Task), by decide +kernel⟩,
    ⟨(st (tc { st := 3, kind := Kd.encode, cells := [0] } 0 { job := some 0 })), 0, 0, ({ st := 3, kind := Kd.encode, cells := [0] } : Task), by decide +kernel⟩,
    ⟨base, 0, by decide +kernel⟩,
    ⟨(st (tk { st := 5, kind := Kd.compose, filling := true })), 0, ({ st := 5, kind := Kd.compose, filling := true } : Task), by decide +kernel⟩,
    ⟨base, 0, by decide +kernel⟩,
    ⟨(st { dv with beat := 300, vdc := { decs := [(0, { aus := [{ ref := 1 }] })] } }), 0, ({ aus := [{ ref := 1 }] } : Dec), ({ ref := 1 } : Au), by decide +kernel⟩⟩

theorem witness_MediaAndFlockEntries :
    (∃ (t : _) (i : _), pastEnd vdcTabSize t i = true) ∧
    (∃ (t : _) (i : _), pastEnd vdcTabSize t i = false ∧ t ≠ 0) ∧
    (∃ (t : _) (i : _), venBeyond t i = true) ∧
    (∃ (t : _) (i : _), venBeyond t i = false ∧ t ≠ 0) ∧
    (∃ (t : _) (i : _), audTabSize t ≤ i) ∧
    (∃ (s : State) (v : Word), s.ready = true ∧ (s.dev.writeReg Reg.TSK_TAB_CMD v).fld Reg.TSK_TAB_CMD 27 24 = 0 ∧ ((s.dev.writeReg
      Reg.TSK_TAB_CMD v).fld Reg.TSK_TAB_ADDR 16 0) < 4096) ∧
    (∃ (s : State) (v : Word), s.ready = true ∧ (s.dev.writeReg Reg.VDC_TAB_CMD v).fld Reg.VDC_TAB_CMD 27 24 = 0 ∧ ((s.dev.writeReg
      Reg.VDC_TAB_CMD v).fld Reg.VDC_TAB_ADDR 13 0) < 8192 ∧ (s.dev.dataEntry Reg.VDC_TAB_DATA).b 0 31 = false) ∧
    (∃ (s : State) (v : Word), s.ready = true ∧ (s.dev.writeReg Reg.VDC_TAB_CMD v).fld Reg.VDC_TAB_CMD 27 24 = 0 ∧ ((s.dev.writeReg
      Reg.VDC_TAB_CMD v).fld Reg.VDC_TAB_ADDR 13 0) < 8192 ∧ (s.dev.dataEntry Reg.VDC_TAB_DATA).b 0 31 = true ∧ s.dev.dec
      ((s.dev.writeReg Reg.VDC_TAB_CMD v).fld Reg.VDC_TAB_ADDR 13 0) = none) ∧
    (∃ (s : State) (v : Word) (q : _), s.ready = true ∧ (s.dev.writeReg Reg.VDC_TAB_CMD v).fld Reg.VDC_TAB_CMD 27 24 = 0 ∧
      ((s.dev.writeReg Reg.VDC_TAB_CMD v).fld Reg.VDC_TAB_ADDR 13 0) < 8192 ∧ (s.dev.dataEntry Reg.VDC_TAB_DATA).b 0 31 = true ∧
      s.dev.dec ((s.dev.writeReg Reg.VDC_TAB_CMD v).fld Reg.VDC_TAB_ADDR 13 0) = some q) ∧
    (∃ (s : State) (v : Word), s.ready = true ∧ (s.dev.writeReg Reg.VEN_TAB_CMD v).fld Reg.VEN_TAB_CMD 27 24 = 0 ∧ ((s.dev.writeReg
      Reg.VEN_TAB_CMD v).fld Reg.VEN_TAB_ADDR 13 0) < 4096 ∧ (s.dev.dataEntry Reg.VEN_TAB_DATA).b 0 31 = false) ∧
    (∃ (s : State) (v : Word), s.ready = true ∧ (s.dev.writeReg Reg.VEN_TAB_CMD v).fld Reg.VEN_TAB_CMD 27 24 = 0 ∧ ((s.dev.writeReg
      Reg.VEN_TAB_CMD v).fld Reg.VEN_TAB_ADDR 13 0) < 4096 ∧ (s.dev.dataEntry Reg.VEN_TAB_DATA).b 0 31 = true ∧ s.dev.enc
      ((s.dev.writeReg Reg.VEN_TAB_CMD v).fld Reg.VEN_TAB_ADDR 13 0) = none) ∧
    (∃ (s : State) (v : Word), s.ready = true ∧ (s.dev.writeReg Reg.AUD_TAB_CMD v).fld Reg.AUD_TAB_CMD 27 24 = 0 ∧ (s.dev.dataEntry
      Reg.AUD_TAB_DATA).b 0 31 = false) ∧
    (∃ (s : State) (v : Word), s.ready = true ∧ (s.dev.writeReg Reg.AUD_TAB_CMD v).fld Reg.AUD_TAB_CMD 27 24 = 0 ∧ (s.dev.dataEntry
      Reg.AUD_TAB_DATA).b 0 31 = true ∧ s.dev.audio ((s.dev.writeReg Reg.AUD_TAB_CMD v).fld Reg.AUD_TAB_ADDR 13 0) = none) ∧
    (∃ (s : State) (v : Word), s.ready = true ∧ (s.dev.writeReg Reg.AUD_TAB_CMD v).fld Reg.AUD_TAB_CMD 27 24 = 1 ∧ ((s.dev.writeReg
      Reg.AUD_TAB_CMD v).fld Reg.AUD_TAB_ADDR 13 0) < 4096 ∧ (s.dev.dataEntry Reg.AUD_TAB_DATA).b 0 31 = false) ∧
    (∃ (s : State) (v : Word), s.ready = true ∧ (s.dev.writeReg Reg.AUD_TAB_CMD v).fld Reg.AUD_TAB_CMD 27 24 = 1 ∧ ((s.dev.writeReg
      Reg.AUD_TAB_CMD v).fld Reg.AUD_TAB_ADDR 13 0) < 4096 ∧ (s.dev.dataEntry Reg.AUD_TAB_DATA).b 0 31 = true ∧ s.dev.mix
      ((s.dev.writeReg Reg.AUD_TAB_CMD v).fld Reg.AUD_TAB_ADDR 13 0) = none ∧ mixEntOk (Entry.legal (s.dev.mixEnt ((s.dev.writeReg
      Reg.AUD_TAB_CMD v).fld Reg.AUD_TAB_ADDR 13 0)) { d0 := (s.dev.dataEntry Reg.AUD_TAB_DATA).d0 &&& 0xF8FFFFFF, d1 := (s.dev.dataEntry Reg.AUD_TAB_DATA).d1, d2 := (s.dev.dataEntry Reg.AUD_TAB_DATA).d2, d3 := (s.dev.dataEntry Reg.AUD_TAB_DATA).d3 &&& 0xFF000000 }
      [(1, 30, 28, [(0, 3)]), (1, 14, 12, [(0, 3)]), (2, 30, 28, [(0, 3)]), (2, 14, 12, [(0, 3)])]) = true ∧ keepsR51
      (s.dev.stdTemplate (s.dev.flockRegion ((s.dev.writeReg Reg.AUD_TAB_CMD v).fld Reg.AUD_TAB_ADDR 13 0)) Kd.mix) 6 none = true ∧
      s.dev.audEncLoad (s.dev.flockRegion ((s.dev.writeReg Reg.AUD_TAB_CMD v).fld Reg.AUD_TAB_ADDR 13 0)) + mixCharge (Entry.legal
      (s.dev.mixEnt ((s.dev.writeReg Reg.AUD_TAB_CMD v).fld Reg.AUD_TAB_ADDR 13 0)) { d0 := (s.dev.dataEntry Reg.AUD_TAB_DATA).d0 &&& 0xF8FFFFFF, d1 := (s.dev.dataEntry Reg.AUD_TAB_DATA).d1, d2 := (s.dev.dataEntry Reg.AUD_TAB_DATA).d2, d3 := (s.dev.dataEntry Reg.AUD_TAB_DATA).d3 &&& 0xFF000000 }
      [(1, 30, 28, [(0, 3)]), (1, 14, 12, [(0, 3)]), (2, 30, 28, [(0, 3)]), (2, 14, 12, [(0, 3)])]) ≤ 256 * 8 * s.dev.cellsUp
      (s.dev.flockRegion ((s.dev.writeReg Reg.AUD_TAB_CMD v).fld Reg.AUD_TAB_ADDR 13 0)) 2 8 ∧ s.dev.audMixes (s.dev.flockRegion
      ((s.dev.writeReg Reg.AUD_TAB_CMD v).fld Reg.AUD_TAB_ADDR 13 0)) + 1 ≤ 128 * s.dev.cellsUp (s.dev.flockRegion ((s.dev.writeReg
      Reg.AUD_TAB_CMD v).fld Reg.AUD_TAB_ADDR 13 0)) 2 8) ∧
    (∃ (s : State), s.ready = true ∧ s.dev.flag Reg.MUL_TAB_CMD 0 = true) ∧
    (∃ (s : State) (v : Word), s.ready = true ∧ s.dev.flag Reg.MUL_TAB_CMD 0 = false ∧ (s.dev.writeReg Reg.MUL_TAB_CMD v).fld
      Reg.MUL_TAB_CMD 27 24 = 1 ∧ ((s.dev.writeReg Reg.MUL_TAB_CMD v).fld Reg.MUL_TAB_ADDR 14 0) < 4 ∧ 16 ≤ (s.dev.dataEntry
      Reg.MUL_TAB_DATA).f 5 15 0 ∧ (s.dev.dataEntry Reg.MUL_TAB_DATA).f 5 15 0 ≤ 2000) ∧
    (∃ (s : State) (v : Word), s.ready = true ∧ s.dev.flag Reg.MUL_TAB_CMD 0 = false ∧ (s.dev.writeReg Reg.MUL_TAB_CMD v).fld
      Reg.MUL_TAB_CMD 27 24 = 0 ∧ ((s.dev.writeReg Reg.MUL_TAB_CMD v).fld Reg.MUL_TAB_ADDR 14 0) < 32768 ∧ dirOk ((s.dev.writeReg
      Reg.MUL_TAB_CMD v).fld Reg.MUL_TAB_ADDR 14 0) (s.dev.dataEntry Reg.MUL_TAB_DATA) = true ∧ s.dev.inStack = true ∧
      s.dev.isRooster = false) ∧
    (∃ (s : State) (v : Word), s.ready = true ∧ s.dev.flag Reg.MUL_TAB_CMD 0 = false ∧ (s.dev.writeReg Reg.MUL_TAB_CMD v).fld
      Reg.MUL_TAB_CMD 27 24 = 0 ∧ ((s.dev.writeReg Reg.MUL_TAB_CMD v).fld Reg.MUL_TAB_ADDR 14 0) < 32768 ∧ dirOk ((s.dev.writeReg
      Reg.MUL_TAB_CMD v).fld Reg.MUL_TAB_ADDR 14 0) (s.dev.dataEntry Reg.MUL_TAB_DATA) = true ∧ s.dev.inStack = true ∧
      s.dev.isRooster = true ∧ s.dev.standbyReady = false) :=
  ⟨⟨0, 8192, by decide +kernel⟩,
    ⟨1, 0, by decide +kernel⟩,
    ⟨1, 3, by decide +kernel⟩,
    ⟨1, 2, by decide +kernel⟩,
    ⟨1, 4096, by decide +kernel⟩,
    ⟨base, (0 : Word), by decide +kernel⟩,
    ⟨base, (0 : Word), by decide +kernel⟩,
    ⟨(st (rg dv [(Reg.VDC_TAB_DATA, 31, 31, 1), (Reg.VDC_TAB_ADDR, 12, 0, 4095)])), (0 : Word), by decide +kernel⟩,
    ⟨(st { rg dv [(Reg.VDC_TAB_DATA, 31, 31, 1)] with vdc := { decs := [(0, {})] } }), (0 : Word), ({} : Dec), by decide +kernel⟩,
    ⟨base, (0 : Word), by decide +kernel⟩,
    ⟨(st (rg dv [(Reg.VEN_TAB_DATA, 31, 31, 1), (Reg.VEN_TAB_ADDR, 12, 0, 4095)])), (0 : Word), by decide +kernel⟩,
    ⟨base, (0 : Word), by decide +kernel⟩,
    ⟨(st (rg dv [(Reg.AUD_TAB_DATA, 31, 31, 1), (Reg.AUD_TAB_ADDR, 12, 0, 4095)])), (0 : Word), by decide +kernel⟩,
    ⟨base, (0x01000000 : Word), by decide +kernel⟩,
    ⟨(st { rg dv [(Reg.AUD_TAB_DATA, 31, 31, 1), (Reg.AUD_TAB_DATA + 4, 15, 0, 0x8006)] with regions := [(2, { sec := { templates := [{ id := 0, kind := Kd.mix }] } })] }),
      (0x01000000 : Word), by decide +kernel⟩,
    ⟨(st (rg dv [(Reg.MUL_TAB_CMD, 0, 0, 1)])), by decide +kernel⟩,
    ⟨(st (rg dv [(Reg.MUL_TAB_DATA + 20, 15, 0, 2000), (Reg.MUL_TAB_ADDR, 14, 0, 3)])), (0x01000000 : Word), by decide +kernel⟩,
    ⟨(st (rg dv [(Reg.MUL_STATUS, 21, 19, 2)])), (0 : Word), by decide +kernel⟩,
    ⟨(st (rg dv [(Reg.MUL_STATUS, 21, 19, 3), (Reg.MUL_TAB_ADDR, 14, 0, 32767)])), (0 : Word), by decide +kernel⟩⟩

theorem witness_SampleServo :
    (∃ (s : State) (k : Nat) (src : SampleSrc) (θ : Int), s.ready = true ∧ k < 6 ∧ s.dev.flag (Reg.TIM_DOM_CFG + domOfs k) 31 = true
      ∧ s.dev.fld (Reg.TIM_DOM_CFG + domOfs k) 30 28 = sampleRef src ∧ (θ * smpUnit).natAbs ≤ s.dev.stepThresh) ∧
    (∃ (s : State) (k : Nat) (src : SampleSrc), s.ready = true ∧ (s.dev.flag (Reg.TIM_DOM_CFG + domOfs k) 31 = false ∨ s.dev.fld
      (Reg.TIM_DOM_CFG + domOfs k) 30 28 ≠ sampleRef src)) :=
  ⟨⟨(st (rg dv [(Reg.TIM_DOM_CFG + domOfs 0, 31, 31, 1), (Reg.TIM_DOM_CFG + domOfs 0, 30, 28, 1)])), 0, SampleSrc.ptp, (0 : Int), by decide +kernel⟩,
    ⟨base, 0, SampleSrc.ptp, by decide +kernel⟩⟩

theorem witness_CorrectionsStepOrAreRefused :
    (∃ (s : State) (k : Nat) (src : SampleSrc) (θ : Int), s.ready = true ∧ k < 6 ∧ s.dev.flag (Reg.TIM_DOM_CFG + domOfs k) 31 = true
      ∧ s.dev.fld (Reg.TIM_DOM_CFG + domOfs k) 30 28 = sampleRef src ∧ s.dev.stepThresh < (θ * smpUnit).natAbs ∧ (4 ≤ k ∨ (s.dev.dom
      k).st ≤ 2 ∨ (θ * smpUnit).natAbs ≤ s.dev.jumpLimit)) ∧
    (∃ (s : State) (k : Nat) (src : SampleSrc) (θ : Int), s.ready = true ∧ k < 4 ∧ s.dev.flag (Reg.TIM_DOM_CFG + domOfs k) 31 = true
      ∧ s.dev.fld (Reg.TIM_DOM_CFG + domOfs k) 30 28 = sampleRef src ∧ s.dev.stepThresh < (θ * smpUnit).natAbs ∧ s.dev.jumpLimit <
      (θ * smpUnit).natAbs ∧ ((s.dev.dom k).st = 3 ∨ (s.dev.dom k).st = 4)) ∧
    (∃ (d : Dev) (k : Nat) (θ : Int), k < 4 ∧ (d.dom k).refused = [θ] ∧ (∀ j, j < 6 → j ≠ k → (d.dom j).refused = []) ∧
      d.tim.stepped = false) ∧
    (∃ (d : Dev) (k : Nat) (θ : Int) (j : _), k < 4 ∧ (d.dom k).refused = [θ] ∧ (∀ j₁, j₁ < 6 → j₁ ≠ k → (d.dom j₁).refused = []) ∧
      d.tim.stepped = false ∧ j < 6 ∧ j ≠ k) ∧
    (∃ (d : Dev) (k : Nat) (θ : Int), k < 4 ∧ (d.dom k).refused = [θ] ∧ (∀ j, j < 6 → j ≠ k → (d.dom j).refused = []) ∧
      d.tim.stepped = false ∧ Src.TIME_JUMP_REFUSED ∉ d.evt.once) ∧
    (∃ (n : Nat), 0 < n) :=
  ⟨⟨(st (rg dv [(Reg.TIM_DOM_CFG + domOfs 5, 31, 31, 1), (Reg.TIM_DOM_CFG + domOfs 5, 30, 28, 1)])), 5, SampleSrc.ptp, (10 ^ 14 : Int), by decide +kernel⟩,
    ⟨(st ((rg dv [(Reg.TIM_DOM_CFG + domOfs 3, 31, 31, 1), (Reg.TIM_DOM_CFG + domOfs 3, 30, 28, 4)]).setDom 3 { st := 3 })), 3,
      SampleSrc.host, (-10 ^ 14 : Int), by decide +kernel⟩,
    ⟨({ dv with tim := { doms := [{ refused := [10 ^ 14] }] } } : Dev), 0, (10 ^ 14 : Int), by decide +kernel⟩,
    ⟨({ dv with tim := { doms := [{ refused := [10 ^ 14] }] } } : Dev), 0, (10 ^ 14 : Int), 5, by decide +kernel⟩,
    ⟨({ dv with tim := { doms := [{ refused := [10 ^ 14] }] } } : Dev), 0, (10 ^ 14 : Int), by decide +kernel⟩,
    ⟨1, by decide +kernel⟩⟩

theorem witness_ClockStateCommands :
    (∃ (s : State) (k : Nat), s.ready = true ∧ k < 6 ∧ (s.dev.dom k).st ≠ 0) ∧
    (∃ (s : State) (k : Nat) (l : Nat), s.ready = true ∧ k < 6 ∧ (s.dev.dom k).last = some l ∧ ((s.dev.dom k).st = 2 ∨ (s.dev.dom
      k).st = 3) ∧ l + s.dev.fld (Reg.TIM_DOM_HOLD + domOfs k) 23 16 * secUnit ≤ s.dev.tim.dt) ∧
    (∃ (s : State) (k : Nat), s.ready = true ∧ k < 6 ∧ s.dev.flag (Reg.TIM_DOM_CFG + domOfs k) 31 = true ∧ s.dev.flag
      (Reg.TIM_DOM_CFG + domOfs k) 9 = true) ∧
    (∃ (s : State) (k : Nat), s.ready = true ∧ (s.dev.flag (Reg.TIM_DOM_CFG + domOfs k) 31 = false ∨ s.dev.flag (Reg.TIM_DOM_CFG +
      domOfs k) 9 = false)) :=
  ⟨⟨(st (dv.setDom 5 { st := 1 })), 5, by decide +kernel⟩,
    ⟨(st { dv with tim := { dt := 300 * secUnit, doms := List.replicate 6 { st := 3, last := some 0 } } }), 5, 0, by decide +kernel⟩,
    ⟨(st (rg dv [(Reg.TIM_DOM_CFG + domOfs 5, 31, 31, 1), (Reg.TIM_DOM_CFG + domOfs 5, 9, 9, 1)])), 5, by decide +kernel⟩,
    ⟨base, 0, by decide +kernel⟩⟩

theorem witness_PulsesAndDeviceTime :
    (∃ (s : State) (e : Dev), (s.ready = true ∧ s.dev.flag Reg.TIM_PPS_CFG 31 = true) ∧ ((s.dev.clockOf (s.dev.fld Reg.TIM_PPS_CFG
      30 28) % secUnit < ((if (s.dev.fld Reg.TIM_PPS_CFG 30 28) = 0 then (s.dev.dom s.dev.active).inc else (s.dev.dom ((s.dev.fld
      Reg.TIM_PPS_CFG 30 28) - 1)).inc)) ∧ e = s.dev) ∨ (((if (s.dev.fld Reg.TIM_PPS_CFG 30 28) = 0 then (s.dev.dom
      s.dev.active).inc else (s.dev.dom ((s.dev.fld Reg.TIM_PPS_CFG 30 28) - 1)).inc)) ≤ s.dev.clockOf (s.dev.fld Reg.TIM_PPS_CFG 30
      28) % secUnit ∧ 0 < s.dev.toSecond (s.dev.fld Reg.TIM_PPS_CFG 30 28) ∧ s.dev.toSecond (s.dev.fld Reg.TIM_PPS_CFG 30 28) <
      s.dev.fclkToBoundary ∧ e = s.dev.advance (s.dev.toSecond (s.dev.fld Reg.TIM_PPS_CFG 30 28)))) ∧ e.fld Reg.TIM_PPS_CFG 30 28 =
      (s.dev.fld Reg.TIM_PPS_CFG 30 28) ∧ e.tim.ppsSec ≠ some (e.clockOf (s.dev.fld Reg.TIM_PPS_CFG 30 28) / secUnit)) ∧
    (∃ (s : State), (s.ready = true ∧ s.dev.flag Reg.TIM_PPS_CFG 31 = true) ∧ ((s.dev.clockOf (s.dev.fld Reg.TIM_PPS_CFG 30 28) %
      secUnit < ((if (s.dev.fld Reg.TIM_PPS_CFG 30 28) = 0 then (s.dev.dom s.dev.active).inc else (s.dev.dom ((s.dev.fld
      Reg.TIM_PPS_CFG 30 28) - 1)).inc)) ∧ s.dev.tim.ppsSec = some (s.dev.clockOf (s.dev.fld Reg.TIM_PPS_CFG 30 28) / secUnit)) ∨
      (((if (s.dev.fld Reg.TIM_PPS_CFG 30 28) = 0 then (s.dev.dom s.dev.active).inc else (s.dev.dom ((s.dev.fld Reg.TIM_PPS_CFG 30
      28) - 1)).inc)) ≤ s.dev.clockOf (s.dev.fld Reg.TIM_PPS_CFG 30 28) % secUnit ∧ s.dev.fclkToBoundary ≤ s.dev.toSecond (s.dev.fld
      Reg.TIM_PPS_CFG 30 28)))) ∧
    (∃ (s : State), s.ready = true ∧ s.dev.flag Reg.TIM_PPS_CFG 31 = false) ∧
    (∃ (s : State), s.ready = true ∧ s.dev.mode.live = false ∧ s.dev.stepThresh < s.dev.dtErr.natAbs) ∧
    (∃ (s : State), s.ready = true ∧ (s.dev.mode.live = true ∨ s.dev.dtErr.natAbs ≤ s.dev.stepThresh)) ∧
    (∃ (s : State), s.ready = true ∧ s.dev.fld Reg.MUL_STATUS 21 19 ∉ [2, 4, 5]) ∧
    (∃ (s : State), s.ready = true ∧ s.dev.fld Reg.MUL_STATUS 21 19 ∈ [2, 4, 5]) :=
  ⟨⟨(st (rg dv [(Reg.TIM_PPS_CFG, 31, 31, 1)])), (rg dv [(Reg.TIM_PPS_CFG, 31, 31, 1)]), by decide +kernel, Or.inl (by decide +kernel), by decide +kernel⟩,
    ⟨(st { rg dv [(Reg.TIM_PPS_CFG, 31, 31, 1)] with tim := { ppsSec := some 0 } }), by decide +kernel, Or.inl (by decide +kernel)⟩,
    ⟨base, by decide +kernel⟩,
    ⟨(st ((mo .configure).setDom 4 { clock := 10 ^ 25 })), by decide +kernel⟩,
    ⟨base, by decide +kernel⟩,
    ⟨base, by decide +kernel⟩,
    ⟨(st (rg dv [(Reg.MUL_STATUS, 21, 19, 2)])), by decide +kernel⟩⟩

theorem witness_GateListCommands :
    (∃ (s : State) (q : Nat) (start : Nat), (s.ready = true ∧ q < 8 ∧ s.dev.flag (Reg.GAT_CTRL + gatePort q) 28 = false ∧ 0 <
      (s.dev.fld (Reg.GAT_CYCLE + gatePort q) 29 0 * nsUnit)) ∧ (if s.dev.tim.dt + 1000 * nsUnit ≤ ((((s.dev.reg
      (Reg.GAT_BASE_SEC_LO + gatePort q)).toNat + 2 ^ 32 * s.dev.fld (Reg.GAT_BASE_SEC_HI + gatePort q) 15 0) * 1000000000 +
      (s.dev.reg (Reg.GAT_BASE_NS + gatePort q)).toNat) * nsUnit) then start = ((((s.dev.reg (Reg.GAT_BASE_SEC_LO + gatePort
      q)).toNat + 2 ^ 32 * s.dev.fld (Reg.GAT_BASE_SEC_HI + gatePort q) 15 0) * 1000000000 + (s.dev.reg (Reg.GAT_BASE_NS + gatePort
      q)).toNat) * nsUnit) else ∃ n, start = ((((s.dev.reg (Reg.GAT_BASE_SEC_LO + gatePort q)).toNat + 2 ^ 32 * s.dev.fld
      (Reg.GAT_BASE_SEC_HI + gatePort q) 15 0) * 1000000000 + (s.dev.reg (Reg.GAT_BASE_NS + gatePort q)).toNat) * nsUnit) + n *
      (s.dev.fld (Reg.GAT_CYCLE + gatePort q) 29 0 * nsUnit) ∧ s.dev.tim.dt + 1000 * nsUnit ≤ start ∧ start < s.dev.tim.dt + 1000 *
      nsUnit + (s.dev.fld (Reg.GAT_CYCLE + gatePort q) 29 0 * nsUnit))) ∧
    (∃ (s : State) (q : Nat), s.ready = true ∧ q < 8 ∧ s.dev.flag (Reg.GAT_CTRL + gatePort q) 28 = true) ∧
    (∃ (s : State) (q : Nat) (st : Nat), s.ready = true ∧ q < 8 ∧ (s.dev.gate q).pendStart = some st ∧ s.dev.tim.dt < st) ∧
    (∃ (s : State) (q : Nat) (st : Nat), s.ready = true ∧ q < 8 ∧ (s.dev.gate q).pendStart = some st ∧ st ≤ s.dev.tim.dt) ∧
    (∃ (s : State) (q : Nat) (st : Nat), s.ready = true ∧ (s.dev.gate q).start = some st ∧ 0 < (s.dev.dom s.dev.active).inc ∧
      s.dev.tim.dt < st + (((s.dev.tim.dt - st) / nsUnit) + ((segAt (s.dev.operSegs q) (((s.dev.tim.dt - st) / nsUnit) % max 1
      (s.dev.gate q).cycle) 0).2.2)) * nsUnit ∧ s.dev.fclkTo (st + (((s.dev.tim.dt - st) / nsUnit) + ((segAt (s.dev.operSegs q)
      (((s.dev.tim.dt - st) / nsUnit) % max 1 (s.dev.gate q).cycle) 0).2.2)) * nsUnit) < s.dev.fclkToBoundary) :=
  ⟨⟨(st (rg dv [(Reg.GAT_BASE_NS + gatePort 7, 29, 0, 100000), (Reg.GAT_CYCLE + gatePort 7, 29, 0, 1000)])), 7, (100000 * nsUnit), by decide +kernel,
    (if_pos (by decide +kernel)).mpr (by decide +kernel)⟩,
    ⟨(st (rg dv [(Reg.GAT_CTRL + gatePort 7, 28, 28, 1)])), 7, by decide +kernel⟩,
    ⟨(st { dv with tim := { gates := [(7, { pendStart := some 5 })] } }), 7, 5, by decide +kernel⟩,
    ⟨(st { dv with tim := { dt := 5, gates := [(7, { pendStart := some 5 })] } }), 7, 5, by decide +kernel⟩,
    ⟨(st { dv with tim := { gates := [(7, { start := some 0, len := 1 })] } }), 7, 0, by decide +kernel⟩⟩

theorem witness_KeyRunsAndMoves :
    (∃ (s : State) (leg : Nat), s.ready = true ∧ s.dev.wantsRun leg = false) ∧
    (∃ (s : State) (leg : Nat) (k : Nat), s.ready = true ∧ s.dev.wantsRun leg = true ∧ s.dev.slotFor leg true = some k) ∧
    (∃ (s : State) (leg : Nat), s.ready = true ∧ s.dev.wantsRun leg = true ∧ s.dev.slotFor leg true = none ∧ s.dev.loadRoom ≤
      s.dev.vlt.loads.length) ∧
    (∃ (s : State) (leg : Nat), s.ready = true ∧ s.dev.wantsRun leg = true ∧ s.dev.slotFor leg true = none ∧ s.dev.vlt.loads.length
      < s.dev.loadRoom) ∧
    (∃ (s : State), s.ready = true ∧ ((s.dev.beat - s.dev.egs.n0) % max 1 s.dev.egs.interval ≠ 0 ∨ s.dev.egs.started = some s.dev.beat)) ∧
    (∃ (s : State), s.ready = true ∧ (s.dev.beat - s.dev.egs.n0) % max 1 s.dev.egs.interval = 0 ∧ s.dev.egs.started ≠ some
      s.dev.beat ∧ tabSorted s.dev.tabs = true) ∧
    (∃ (s : State) (leg : Nat), s.ready = true ∧ ((s.dev.egLeg leg).moving = false ∨ (s.dev.egLeg leg).inFlight ≠ 0)) ∧
    (∃ (s : State) (leg : Nat), s.ready = true ∧ (s.dev.egLeg leg).moving = true ∧ (s.dev.egLeg leg).inFlight = 0) ∧
    (∃ (s : State) (p : Nat) (c : Nat), s.ready = true ∧ (tabFind (s.dev.egPort p).heldFrom c = none ∨ s.dev.holdStands p c = false
      ∨ c ∈ (s.dev.egPort p).reported ∨ (∃ b, tabFind (s.dev.egPort p).heldFrom c = some b ∧ s.dev.beat < b + 600))) ∧
    (∃ (s : State) (p : Nat) (c : Nat) (b : _), s.ready = true ∧ tabFind (s.dev.egPort p).heldFrom c = some b ∧ s.dev.holdStands p c
      = true ∧ c ∉ (s.dev.egPort p).reported ∧ b + 600 ≤ s.dev.beat) :=
  ⟨⟨base, 0, by decide +kernel⟩,
    ⟨(st { egd 0xA0000000 1 with vlt := { slots := [(3, { leg := 1, egress := true, handle := 0, gen := 0, profile := 1 })] } }), 1,
      3, by decide +kernel⟩,
    ⟨(st { egd 0xA0000000 1 with tim := { dt := dv.nextEdge - nsUnit } }), 1, by decide +kernel⟩,
    ⟨(st (egd 0xA0000000 1)), 1, by decide +kernel⟩,
    ⟨(st { dv with egs := { started := some 0 } }), by decide +kernel⟩,
    ⟨base, by decide +kernel⟩,
    ⟨base, 0, by decide +kernel⟩,
    ⟨(st { dv with egs := { legs := [(1, { moving := true })] } }), 1, by decide +kernel⟩,
    ⟨base, 0, 0, by decide +kernel⟩,
    ⟨(st { dv with beat := 600, egs := { ports := [(0, { heldFrom := [(0, 0)], holds := [(0, 0, 5)] })] } }), 0, 0, 0, by decide +kernel⟩⟩

theorem witness_SelectionAndPauses :
    (∃ (s : State) (p : Nat), s.ready = true ∧ (8 ≤ p ∨ s.dev.flag (Reg.EGS_PORT_CFG + portOfs p) 31 = false ∨ (s.dev.macPort p).up
      = false)) ∧
    (∃ (s : State) (p : Nat), s.ready = true ∧ p < 8 ∧ s.dev.flag (Reg.EGS_PORT_CFG + portOfs p) 31 = true ∧ (s.dev.macPort p).up =
      true ∧ (∀ x ∈ s.dev.pci.inFlight, x.ring < 33)) ∧
    (∃ (d : Dev) (w : EgsWrite), d.egs.writesAt = d.now ∧ d.egs.writes = [w]) ∧
    (∃ (d : Dev) (p : Nat) (c : Nat), (∀ m, (d.egPort p).clsTurn = some m → m < 8) ∧ (d.pickClass p).1 = some c) ∧
    (∃ (d : Dev) (p : Nat) (c : Nat) (k : _), (∀ m, (d.egPort p).clsTurn = some m → m < 8) ∧ (d.pickClass p).1 = some c ∧ k < 8 ∧
      bit (d.clsCfg p k) 31 = true ∧ d.classEligible p k = true) ∧
    (∃ (d : Dev) (p : Nat) (c : Nat), (∀ m, (d.egPort p).clsTurn = some m → m < 8) ∧ (d.pickClass p).1 = some c ∧ bit (d.clsCfg p c)
      31 = false) ∧
    (∃ (d : Dev) (p : Nat) (c : Nat) (l : Nat), (d.pickLeg p c).1 = some l) ∧
    (∃ (s : State) (p : Nat) (c : Nat) (l : Nat) (st : Nat) (q : Nat) (it : Item), (s.ready = true ∧ p < 8 ∧ s.dev.flag
      (Reg.EGS_PORT_CFG + portOfs p) 31 = true ∧ (s.dev.macPort p).up = true ∧ (s.dev.egPort p).selAt ≠ some s.dev.now ∧
      s.dev.dropNoLeg p = none ∧ (s.dev.egs.writesAt ≠ s.dev.now ∨ s.dev.egs.writes = []) ∧ s.dev.reorderFill (s.dev.planeOf p) <
      4096 ∧ (s.dev.flag Reg.TIM_LAUNCH_CFG 31 = false ∨ (it.desc.b 0 22 = false ∧ ∀ x ∈ (s.dev.egPort p).fifo ++ (s.dev.egPort
      p).sel, x.launch = none))) ∧ (∀ l' ∈ s.dev.egsLegs, ∀ y ∈ s.dev.streamsOf l', ∀ q', s.dev.streamQueue y.1 = some q' → ∀ i,
      (s.dev.queue q').front = some i → s.dev.itemAuth i ≠ 3) ∧ ((s.dev.ent .egs 3 (shaperIdx p 8)).f 0 31 0 = 0 ∨ 0 ≤
      s.dev.shaperTok p 8) ∧ (s.dev.pickClass p).1 = some c ∧ s.dev.rawHead p c = none ∧ (s.dev.pickLeg p c).1 = some l ∧
      s.dev.pickStream l c = some st ∧ s.dev.headOf st = some it ∧ s.dev.streamQueue st = some q ∧ (s.dev.queue q).release ≤
      (s.dev.queue q).read ∧ s.dev.planeOf p < 2 ∧ (∀ x ∈ s.dev.pci.inFlight, x.ring < 33)) ∧
    (∃ (s : State) (p : Nat) (c : Nat), s.ready = true ∧ (8 ≤ p ∨ 8 ≤ c ∨ (s.dev.macPort p).up = false ∨ (tabFind s.dev.egs.txAt (p
      / 4) = some s.dev.now ∧ s.dev.fclkToBoundary ≤ 1) ∨ (tabFind s.dev.egs.txAt (p / 4) ≠ some s.dev.now ∧ (s.dev.egPort
      p).fifo.find? (fun f => decide (f.cls = c)) = none))) ∧
    (∃ (s : State) (p : Nat) (c : Nat) (f : EgFrame) (t : _), s.ready = true ∧ p < 8 ∧ c < 8 ∧ (s.dev.macPort p).up = true ∧
      (tabFind ((if tabFind s.dev.egs.txAt (p / 4) = some s.dev.now then s.dev.toFclk (s.dev.fclk + 1) else s.dev)).egs.txAt (p / 4)
      ≠ some ((if tabFind s.dev.egs.txAt (p / 4) = some s.dev.now then s.dev.toFclk (s.dev.fclk + 1) else s.dev)).now) ∧ ((((if
      tabFind s.dev.egs.txAt (p / 4) = some s.dev.now then s.dev.toFclk (s.dev.fclk + 1) else s.dev)).egPort p).fifo.find? (fun f₁
      => decide (f₁.cls = c)) = some f) ∧ (∀ x ∈ ((if tabFind s.dev.egs.txAt (p / 4) = some s.dev.now then s.dev.toFclk (s.dev.fclk
      + 1) else s.dev)).pci.inFlight, x.ring < 33) ∧ f.due = some t ∧ (((if tabFind s.dev.egs.txAt (p / 4) = some s.dev.now then
      s.dev.toFclk (s.dev.fclk + 1) else s.dev)).tim.dt < t * nsUnit)) ∧
    (∃ (s : State) (p : Nat) (c : Nat) (f : EgFrame), (s.ready = true ∧ p < 8 ∧ c < 8 ∧ (s.dev.macPort p).up = true ∧ (tabFind ((if
      tabFind s.dev.egs.txAt (p / 4) = some s.dev.now then s.dev.toFclk (s.dev.fclk + 1) else s.dev)).egs.txAt (p / 4) ≠ some ((if
      tabFind s.dev.egs.txAt (p / 4) = some s.dev.now then s.dev.toFclk (s.dev.fclk + 1) else s.dev)).now) ∧ ((((if tabFind
      s.dev.egs.txAt (p / 4) = some s.dev.now then s.dev.toFclk (s.dev.fclk + 1) else s.dev)).egPort p).fifo.find? (fun f₁ => decide
      (f₁.cls = c)) = some f) ∧ (∀ x ∈ ((if tabFind s.dev.egs.txAt (p / 4) = some s.dev.now then s.dev.toFclk (s.dev.fclk + 1) else
      s.dev)).pci.inFlight, x.ring < 33)) ∧ (((if tabFind s.dev.egs.txAt (p / 4) = some s.dev.now then s.dev.toFclk (s.dev.fclk + 1)
      else s.dev)).due f) ∧ (((if tabFind s.dev.egs.txAt (p / 4) = some s.dev.now then s.dev.toFclk (s.dev.fclk + 1) else
      s.dev)).mayStart p c f)) ∧
    (∃ (s : State) (p : Nat) (c : Nat) (f : EgFrame) (w : _), (s.ready = true ∧ p < 8 ∧ c < 8 ∧ (s.dev.macPort p).up = true ∧
      (tabFind ((if tabFind s.dev.egs.txAt (p / 4) = some s.dev.now then s.dev.toFclk (s.dev.fclk + 1) else s.dev)).egs.txAt (p / 4)
      ≠ some ((if tabFind s.dev.egs.txAt (p / 4) = some s.dev.now then s.dev.toFclk (s.dev.fclk + 1) else s.dev)).now) ∧ ((((if
      tabFind s.dev.egs.txAt (p / 4) = some s.dev.now then s.dev.toFclk (s.dev.fclk + 1) else s.dev)).egPort p).fifo.find? (fun f₁
      => decide (f₁.cls = c)) = some f) ∧ (∀ x ∈ ((if tabFind s.dev.egs.txAt (p / 4) = some s.dev.now then s.dev.toFclk (s.dev.fclk
      + 1) else s.dev)).pci.inFlight, x.ring < 33)) ∧ (((if tabFind s.dev.egs.txAt (p / 4) = some s.dev.now then s.dev.toFclk
      (s.dev.fclk + 1) else s.dev)).due f) ∧ (((if tabFind s.dev.egs.txAt (p / 4) = some s.dev.now then s.dev.toFclk (s.dev.fclk +
      1) else s.dev)).window p c = some w) ∧ fitsWire p f.len (w * nsUnit) = false) ∧
    (∃ (s : State) (p : Nat) (c : Nat) (f : EgFrame), (s.ready = true ∧ p < 8 ∧ c < 8 ∧ (s.dev.macPort p).up = true ∧ (tabFind ((if
      tabFind s.dev.egs.txAt (p / 4) = some s.dev.now then s.dev.toFclk (s.dev.fclk + 1) else s.dev)).egs.txAt (p / 4) ≠ some ((if
      tabFind s.dev.egs.txAt (p / 4) = some s.dev.now then s.dev.toFclk (s.dev.fclk + 1) else s.dev)).now) ∧ ((((if tabFind
      s.dev.egs.txAt (p / 4) = some s.dev.now then s.dev.toFclk (s.dev.fclk + 1) else s.dev)).egPort p).fifo.find? (fun f₁ => decide
      (f₁.cls = c)) = some f) ∧ (∀ x ∈ ((if tabFind s.dev.egs.txAt (p / 4) = some s.dev.now then s.dev.toFclk (s.dev.fclk + 1) else
      s.dev)).pci.inFlight, x.ring < 33)) ∧ (((if tabFind s.dev.egs.txAt (p / 4) = some s.dev.now then s.dev.toFclk (s.dev.fclk + 1)
      else s.dev)).due f) ∧ (∀ w, ((if tabFind s.dev.egs.txAt (p / 4) = some s.dev.now then s.dev.toFclk (s.dev.fclk + 1) else
      s.dev)).window p c = some w → fitsWire p f.len (w * nsUnit) = true) ∧ (((if tabFind s.dev.egs.txAt (p / 4) = some s.dev.now
      then s.dev.toFclk (s.dev.fclk + 1) else s.dev)).classHeld p c = true ∨ ((if tabFind s.dev.egs.txAt (p / 4) = some s.dev.now
      then s.dev.toFclk (s.dev.fclk + 1) else s.dev)).now < (((if tabFind s.dev.egs.txAt (p / 4) = some s.dev.now then s.dev.toFclk
      (s.dev.fclk + 1) else s.dev)).egPort p).busyUntil)) ∧
    (∃ (s : State) (p : Nat) (c : Nat) (f : EgFrame) (n : _), (s.ready = true ∧ p < 8 ∧ c < 8 ∧ (s.dev.macPort p).up = true ∧
      (tabFind ((if tabFind s.dev.egs.txAt (p / 4) = some s.dev.now then s.dev.toFclk (s.dev.fclk + 1) else s.dev)).egs.txAt (p / 4)
      ≠ some ((if tabFind s.dev.egs.txAt (p / 4) = some s.dev.now then s.dev.toFclk (s.dev.fclk + 1) else s.dev)).now) ∧ ((((if
      tabFind s.dev.egs.txAt (p / 4) = some s.dev.now then s.dev.toFclk (s.dev.fclk + 1) else s.dev)).egPort p).fifo.find? (fun f₁
      => decide (f₁.cls = c)) = some f) ∧ (∀ x ∈ ((if tabFind s.dev.egs.txAt (p / 4) = some s.dev.now then s.dev.toFclk (s.dev.fclk
      + 1) else s.dev)).pci.inFlight, x.ring < 33)) ∧ (((if tabFind s.dev.egs.txAt (p / 4) = some s.dev.now then s.dev.toFclk
      (s.dev.fclk + 1) else s.dev)).due f) ∧ (∀ w, ((if tabFind s.dev.egs.txAt (p / 4) = some s.dev.now then s.dev.toFclk
      (s.dev.fclk + 1) else s.dev)).window p c = some w → fitsWire p f.len (w * nsUnit) = true) ∧ ((((if tabFind s.dev.egs.txAt (p /
      4) = some s.dev.now then s.dev.toFclk (s.dev.fclk + 1) else s.dev)).classHeld p c = false) ∧ ((((if tabFind s.dev.egs.txAt (p
      / 4) = some s.dev.now then s.dev.toFclk (s.dev.fclk + 1) else s.dev)).egPort p).busyUntil ≤ ((if tabFind s.dev.egs.txAt (p /
      4) = some s.dev.now then s.dev.toFclk (s.dev.fclk + 1) else s.dev)).now) ∧ (((if tabFind s.dev.egs.txAt (p / 4) = some
      s.dev.now then s.dev.toFclk (s.dev.fclk + 1) else s.dev)).closing p c = some n)) ∧ fitsWire p f.len n = false) ∧
    (∃ (s : State) (p : Nat) (c : Nat) (t : _), s.ready = true ∧ ((s.dev.egPort p).fifo.find? (fun f => decide (f.cls = c)) = none ∨
      (∃ f, (s.dev.egPort p).fifo.find? (fun f => decide (f.cls = c)) = some f ∧ (f.due = none ∨ (f.due = some t ∧ s.dev.reachDt (t
      * nsUnit) = none))))) ∧
    (∃ (s : State) (p : Nat) (c : Nat) (f : EgFrame) (t : Nat) (e : Dev), (s.ready = true ∧ p < 8 ∧ c < 8 ∧ ((s.dev.egPort
      p).fifo.find? (fun f₁ => decide (f₁.cls = c)) = some f) ∧ f.due = some t ∧ s.dev.reachDt (t * nsUnit) = some e ∧ t * nsUnit ≤
      e.tim.dt ∧ (s.dev.macPort p).up = true ∧ tabFind s.dev.egs.txAt (p / 4) ≠ some e.now ∧ (∀ x ∈ s.dev.pci.inFlight, x.ring <
      33)) ∧ e.mayStart p c f) ∧
    (∃ (s : State) (p : Nat) (c : Nat) (f : EgFrame) (t : Nat) (e : Dev), (s.ready = true ∧ p < 8 ∧ c < 8 ∧ ((s.dev.egPort
      p).fifo.find? (fun f₁ => decide (f₁.cls = c)) = some f) ∧ f.due = some t ∧ s.dev.reachDt (t * nsUnit) = some e ∧ t * nsUnit ≤
      e.tim.dt ∧ (s.dev.macPort p).up = true ∧ tabFind s.dev.egs.txAt (p / 4) ≠ some e.now ∧ (∀ x ∈ s.dev.pci.inFlight, x.ring < 33)
      ∧ (e.classHeld p c = true ∨ e.now < (e.egPort p).busyUntil)) ∧ (∀ w, e.window p c = some w → fitsWire p f.len (w * nsUnit) =
      true)) ∧
    (∃ (s : State) (p : Nat), s.ready = true ∧ (8 ≤ p ∨ s.dev.flag (Reg.EGS_PORT_CFG + portOfs p) 30 = false)) ∧
    (∃ (s : State) (p : Nat), s.ready = true ∧ p < 8 ∧ s.dev.flag (Reg.EGS_PORT_CFG + portOfs p) 30 = true) ∧
    (∃ (s : State) (p : Nat), s.ready = true ∧ (8 ≤ p ∨ s.dev.flag (Reg.EGS_PORT_CFG + portOfs p) 29 = false)) ∧
    (∃ (s : State) (p : Nat), s.ready = true ∧ p < 8 ∧ s.dev.flag (Reg.EGS_PORT_CFG + portOfs p) 29 = true) ∧
    (∃ (s : State) (p : Nat) (c : Nat), s.ready = true ∧ c < 8 ∧ ((max (((tabFind (s.dev.egPort p).holds c).map (·.2)).getD 0)
      (((tabFind (s.dev.egPort p).holds (8 + c)).map (·.2)).getD 0)) = 0 ∨ s.dev.reachNow (max (((tabFind (s.dev.egPort p).holds
      c).map (·.2)).getD 0) (((tabFind (s.dev.egPort p).holds (8 + c)).map (·.2)).getD 0)) = none)) ∧
    (∃ (s : State) (p : Nat) (c : Nat) (e : _), s.ready = true ∧ c < 8 ∧ (max (((tabFind (s.dev.egPort p).holds c).map (·.2)).getD
      0) (((tabFind (s.dev.egPort p).holds (8 + c)).map (·.2)).getD 0)) ≠ 0 ∧ s.dev.reachNow (max (((tabFind (s.dev.egPort p).holds
      c).map (·.2)).getD 0) (((tabFind (s.dev.egPort p).holds (8 + c)).map (·.2)).getD 0)) = some e) :=
  ⟨⟨base, 0, by decide +kernel⟩,
    ⟨(st (egd 0xE0000000 1)), 0, by decide +kernel⟩,
    ⟨({ dv with egs := { writes := [{ tab := 0, idx := 0, old := {}, new := {}, tok := 0, moving := false }] } } : Dev), ({ tab := 0, idx := 0, old := {}, new := {}, tok := 0, moving := false } : EgsWrite), by decide +kernel⟩,
    ⟨(egd 0xE0000000 1), 0, 0, vac (by decide +kernel), by decide +kernel⟩,
    ⟨(egd 0xE0000000 0x80000001), 0, 0, 0, vac (by decide +kernel), by decide +kernel⟩,
    ⟨(egd 0xE0000000 1), 0, 0, vac (by decide +kernel), by decide +kernel⟩,
    ⟨(egd 0xE0000000 1), 0, 0, 1, by decide +kernel⟩,
    ⟨(st (egd 0xE0000000 1)), 0, 0, 1, 0, 0, ({} : Item), by decide +kernel, egd_auth, by decide +kernel⟩,
    ⟨base, 0, 0, by decide +kernel⟩,
    ⟨(st (txd { len := 100, launch := some 5, due := some 5 })), 0, 0, ({ len := 100, launch := some 5, due := some 5 } : EgFrame),
      5, by decide +kernel⟩,
    ⟨(st (txd { len := 100 })), 0, 0, ({ len := 100 } : EgFrame), by decide +kernel, due_now (by decide +kernel), may_start (by decide +kernel)
      (by decide +kernel) (by decide +kernel) (by decide +kernel)⟩,
    ⟨(st (rg (txd { len := 100 }) [(Reg.GAT_ADMIN, 7, 0, 0)])), 0, 0, ({ len := 100 } : EgFrame), 0, by decide +kernel, due_now (by decide +kernel), by decide +kernel,
      no_fit (by decide +kernel)⟩,
    ⟨(st { txd { len := 100 } with egs := { ports := [(0, { fifo := [{ len := 100 }], busyUntil := 10 })] } }), 0, 0, ({ len := 100 } : EgFrame), by decide +kernel,
      due_now (by decide +kernel), each (by decide +kernel), by decide +kernel⟩,
    ⟨(st { rg (txd { len := 100 }) [(Reg.GAT_CTRL, 31, 31, 1)] with tim := { gates := [(0, { pendStart := some nsUnit, pendLen := 1, pendCycle := 1000 })] } }),
      0, 0, ({ len := 100 } : EgFrame), nsUnit, by decide +kernel, due_now (by decide +kernel), each (by decide +kernel), by decide +kernel,
      no_fit (by decide +kernel)⟩,
    ⟨base, 0, 0, 0, by decide +kernel⟩,
    ⟨(st (txd { len := 100, launch := some 5, due := some 5 })), 0, 0, ({ len := 100, launch := some 5, due := some 5 } : EgFrame),
      5, (((txd { len := 100, launch := some 5, due := some 5 }).reachDt (5 * nsUnit)).getD dv), by decide +kernel, may_start (by decide +kernel)
      (by decide +kernel) (by decide +kernel) (by decide +kernel)⟩,
    ⟨(st { txd { len := 100, launch := some 5, due := some 5 } with egs := { ports := [(0, { fifo := [{ len := 100, launch := some 5, due := some 5 }], busyUntil := 100 })] } }),
      0, 0, ({ len := 100, launch := some 5, due := some 5 } : EgFrame), 5, ((({ txd { len := 100, launch := some 5, due := some 5 } with egs := { ports := [(0, { fifo := [{ len := 100, launch := some 5, due := some 5 }], busyUntil := 100 })] } } : Dev).reachDt
      (5 * nsUnit)).getD dv), by decide +kernel, each (by decide +kernel)⟩,
    ⟨base, 8, by decide +kernel⟩,
    ⟨base, 0, by decide +kernel⟩,
    ⟨base, 8, by decide +kernel⟩,
    ⟨base, 0, by decide +kernel⟩,
    ⟨base, 0, 0, by decide +kernel⟩,
    ⟨(st { dv with egs := { ports := [(0, { holds := [(0, 0, 5)] })] } }), 0, 0, (((dv.setEgPort 0 { holds := [(0, 0, 5)] }).reachNow
      5).getD dv), by decide +kernel⟩⟩

theorem witness_ScrubRefreshAndRetraining :
    (∃ (s : State) (k : Nat) (a : Nat) (ecc : Ecc), s.ready = true ∧ (17 ≤ k ∨ s.dev.chState k ≠ 0 ∨ s.dev.chLogical k ≠
      s.dev.homeOf a ∨ s.dev.noMemory a = true ∨ ecc = .clean ∨ (∃ r ∈ (s.dev.memCh k).writes, r.block = a / 128))) ∧
    (∃ (s : State) (k : Nat) (a : Nat), s.ready = true ∧ k < 17 ∧ s.dev.chState k = 0 ∧ s.dev.chLogical k = s.dev.homeOf a ∧
      s.dev.noMemory a = false ∧ (∀ r ∈ (s.dev.memCh k).writes, r.block ≠ a / 128)) ∧
    (∃ (s : State) (k : Nat), s.ready = true ∧ 17 ≤ k) ∧
    (∃ (s : State) (k : Nat), s.ready = true ∧ k < 17) ∧
    (∃ (m : Nat) (a : Int) (b : Int), bestRun (okRuns m 16 32) = some (a, b)) ∧
    (∃ (m : Nat) (a : Int) (b : Int) (o : Int), bestRun (okRuns m 16 32) = some (a, b) ∧ a ≤ o ∧ o ≤ b) ∧
    (∃ (m : Nat) (a : Int) (b : Int) (x : Int) (y : Int), (bestRun (okRuns m 16 32) = some (a, b) ∧ -16 ≤ x ∧ y ≤ 15) ∧ (∀ o, x ≤ o
      → o ≤ y → m.testBit (o + 16).toNat = true)) ∧
    (∃ (s : State) (k : Nat), s.ready = true ∧ (17 ≤ k ∨ s.dev.mode.trains = false ∨ ((s.dev.chState k = 5 ∨ s.dev.chState k = 6 ∨
      s.dev.chState k = 7) ∧ s.dev.mem.cmd ≠ some (2, k)))) ∧
    (∃ (s : State) (k : Nat) (rd : List Nat) (wr : List Nat) (r : List (Int × Int)) (w : List (Int × Int)), s.ready = true ∧ k < 17
      ∧ s.dev.mode.trains = true ∧ s.dev.chState k < 5 ∧ rd.length = 72 ∧ wr.length = 72 ∧ (rd.map (fun x => bestRun (okRuns x 16
      32)) = r.map some) ∧ (wr.map (fun x => bestRun (okRuns x 16 32)) = w.map some) ∧ s.dev.chanOf (s.dev.chLogical k) = k ∧
      (s.dev.spare < 17 ∨ s.dev.spare = 0x1F)) ∧
    (∃ (s : State) (k : Nat) (rd : List Nat) (wr : List Nat), s.ready = true ∧ k < 17 ∧ s.dev.mode.trains = true ∧ s.dev.chState k <
      5 ∧ (∃ x ∈ rd ++ wr, ∀ i, i < 32 → x.testBit i = false)) ∧
    (∃ (s : State) (k : Nat), s.ready = true ∧ ((s.dev.memCh k).retry = none ∨ s.dev.mode.trains = false)) ∧
    (∃ (s : State) (k : Nat) (oks : List Nat) (write : Bool) (r : List (Int × Int)), s.ready = true ∧ k < 17 ∧ s.dev.mode.trains =
      true ∧ (s.dev.memCh k).retry = some write ∧ (s.dev.fld (Reg.MEM_CH_STAT + memOfs k) 23 22 + 1) ≤ 3 ∧ (oks.map (fun x => bestRun
      (okRuns x 4 8)) = r.map some)) ∧
    (∃ (s : State) (k : Nat) (oks : List Nat) (write : Bool), s.ready = true ∧ k < 17 ∧ s.dev.mode.trains = true ∧ (s.dev.memCh
      k).retry = some write ∧ (s.dev.fld (Reg.MEM_CH_STAT + memOfs k) 23 22 + 1) ≤ 3 ∧ (∃ x ∈ oks, ∀ i, i < 8 → x.testBit i = false)
      ∧ (s.dev.fld (Reg.MEM_CH_STAT + memOfs k) 23 22 + 1) < 3) ∧
    (∃ (s : State) (k : Nat) (oks : List Nat) (write : Bool), s.ready = true ∧ k < 17 ∧ s.dev.mode.trains = true ∧ (s.dev.memCh
      k).retry = some write ∧ (s.dev.fld (Reg.MEM_CH_STAT + memOfs k) 23 22 + 1) ≤ 3 ∧ (∃ x ∈ oks, ∀ i, i < 8 → x.testBit i = false)
      ∧ (s.dev.fld (Reg.MEM_CH_STAT + memOfs k) 23 22 + 1) = 3 ∧ s.dev.chState k = 0 ∧ s.dev.fld Reg.MEM_STATUS 27 26 ≠ 1 ∧
      s.dev.spare ≠ k ∧ (s.dev.chLogical k) < 16 ∧ s.dev.spare < 17 ∧ s.dev.chState s.dev.spare = 1) ∧
    (∃ (s : State) (k : Nat) (oks : List Nat) (write : Bool), s.ready = true ∧ k < 17 ∧ s.dev.mode.trains = true ∧ (s.dev.memCh
      k).retry = some write ∧ (s.dev.fld (Reg.MEM_CH_STAT + memOfs k) 23 22 + 1) ≤ 3 ∧ (∃ x ∈ oks, ∀ i, i < 8 → x.testBit i = false)
      ∧ (s.dev.fld (Reg.MEM_CH_STAT + memOfs k) 23 22 + 1) = 3 ∧ s.dev.chState k = 0 ∧ s.dev.fld Reg.MEM_STATUS 27 26 ≠ 1 ∧
      s.dev.spare ≠ k ∧ (s.dev.chLogical k) < 16 ∧ s.dev.spare = 0x1F ∧ s.dev.mem.fold = none) ∧
    (∃ (d : Dev) (f : Nat) (a : Nat), d.mem.fold = some f ∧ f < 16 ∧ logicalOf a = f) ∧
    (∃ (d : Dev) (e : _) (q : _), tabFind d.ven.encs e = some q) ∧
    (∃ (d : Dev) (x : _), x ∈ d.bulkLost.aud.ents) ∧
    (∃ (d : Dev) (x : _) (st : _), tabFind d.bulkLost.fwd.subs x = some st) ∧
    (∃ (d : Dev) (q : Nat) (k : Nat), (d.lostItems (d.queue q)).getLast? = some k) :=
  ⟨⟨base, 17, 0, Ecc.clean, by decide +kernel⟩,
    ⟨(st (rg dv [(Reg.MEM_CH_STAT + memOfs 0, 31, 29, 0), (Reg.MEM_CAP, 17, 0, 16384)])), 0, 0, by decide +kernel⟩,
    ⟨base, 17, by decide +kernel⟩,
    ⟨base, 0, by decide +kernel⟩,
    ⟨(2 ^ 20 - 2 ^ 10), (-6 : Int), (3 : Int), by decide +kernel⟩,
    ⟨(2 ^ 20 - 2 ^ 10), (-6 : Int), (3 : Int), (3 : Int), by decide +kernel⟩,
    ⟨(2 ^ 20 - 2 ^ 10), (-6 : Int), (3 : Int), (0 : Int), (0 : Int), by decide +kernel, by
    intro o h1 h2
    have h : o = 0 := by omega
    subst h
    decide⟩,
    ⟨base, 0, by decide +kernel⟩,
    ⟨(st (rg dv [(Reg.MEM_CH_STAT + memOfs 16, 31, 29, 0), (Reg.MEM_CHAN_MAP, 4, 0, 16), (Reg.MEM_CH_STAT + memOfs 16, 28, 24,
      0)])), 16, (List.replicate 72 (2 ^ 20 - 2 ^ 10)), (List.replicate 72 (2 ^ 20 - 2 ^ 10)), (List.replicate 72 ((-6, 3) : Int ×
      Int)), (List.replicate 72 ((-6, 3) : Int × Int)), by decide +kernel⟩,
    ⟨(st (rg dv [(Reg.MEM_CH_STAT + memOfs 16, 31, 29, 1)])), 16, ([0] : List Nat), ([] : List Nat), by decide +kernel⟩,
    ⟨base, 0, by decide +kernel⟩,
    ⟨(st { dv with mem := { chans := [(16, { retry := some true })] } }), 16, ([0xFF] : List Nat), true, ([((-4, 3) : Int × Int)] : List
      (Int × Int)), by decide +kernel⟩,
    ⟨(st { dv with mem := { chans := [(16, { retry := some true })] } }), 16, ([0] : List Nat), true, by decide +kernel⟩,
    ⟨(st { rg dv [(Reg.MEM_CH_STAT + memOfs 0, 31, 29, 0), (Reg.MEM_CH_STAT, 23, 22, 2), (Reg.MEM_CH_STAT + memOfs 16, 31, 29, 1)] with mem := { chans := [(0, { retry := some true })] } }),
      0, ([0] : List Nat), true, by decide +kernel⟩,
    ⟨(st { rg dv [(Reg.MEM_CH_STAT + memOfs 0, 31, 29, 0), (Reg.MEM_CH_STAT, 23, 22, 2), (Reg.MEM_STATUS, 20, 16, 31)] with mem := { chans := [(0, { retry := some true })] } }),
      0, ([0] : List Nat), true, by decide +kernel⟩,
    ⟨({ dv with mem := { fold := some 3 } } : Dev), 3, 384, by decide +kernel⟩,
    ⟨({ dv with ven := { encs := [(0, {})] } } : Dev), 0, {}, by decide +kernel⟩,
    ⟨({ dv with aud := { ents := [(0, {})] } } : Dev), ((0, { lost := true }) : Nat × AudEnt), by decide +kernel⟩,
    ⟨({ dv with fwd := { subs := [(0, { st := 2 })] } } : Dev), 0, ((tabFind ({ dv with fwd := { subs := [(0, { st := 2 })] } } : Dev).bulkLost.fwd.subs
      0).getD {}), by decide +kernel⟩,
    ⟨({ dv with que := { queues := [(0, { tail := 1, items := [{ uid := 1 }] })], payloads := [(1, { cells := 1, refs := 1, dram := true })] } } : Dev),
      0, 0, by decide +kernel⟩⟩

theorem witness_DramChannelQueues :
    (∃ (c : MemCh) (r : MemReq), (∃ x ∈ c.writes, x.block = r.block)) ∧
    (∃ (c : MemCh) (r : MemReq), (∀ x ∈ c.writes, x.block ≠ r.block)) ∧
    (∃ (c : MemCh), c.writes.length ≤ 64 ∧ c.reads.length ≤ 64) ∧
    (∃ (c : MemCh), c.wait = []) ∧
    (∃ (d : Dev) (t : Nat) (c : MemCh) (free : MemReq → Prop) (w : _) (r : _), (∀ r₁, free r₁ ↔ (tabFind c.tRC (Config.bankOf
      r₁.block % 16)).getD 0 ≤ t) ∧ d.choose t c = some (w, r)) ∧
    (∃ (d : Dev) (t : Nat) (c : MemCh) (free : MemReq → Prop) (w : _) (r : _), (∀ r₁, free r₁ ↔ (tabFind c.tRC (Config.bankOf
      r₁.block % 16)).getD 0 ≤ t) ∧ d.choose t c = some (w, r) ∧ (∃ x ∈ c.reads, free x ∧ d.urgency t x = 2)) ∧
    (∃ (d : Dev) (t : Nat) (c : MemCh) (free : MemReq → Prop) (w : _) (r : _), (∀ r₁, free r₁ ↔ (tabFind c.tRC (Config.bankOf
      r₁.block % 16)).getD 0 ≤ t) ∧ d.choose t c = some (w, r) ∧ (∃ x ∈ c.reads, free x ∧ d.urgency t x = 2) ∧ (∃ x ∈ c.reads, free
      x ∧ d.urgency t x = 2 ∧ x.port = 1)) ∧
    (∃ (d : Dev) (t : Nat) (c : MemCh) (free : MemReq → Prop) (w : _) (r : _), (∀ r₁, free r₁ ↔ (tabFind c.tRC (Config.bankOf
      r₁.block % 16)).getD 0 ≤ t) ∧ d.choose t c = some (w, r) ∧ (∀ x ∈ c.reads, free x → d.urgency t x ≠ 2) ∧ (∃ x ∈ c.writes, free
      x ∧ d.urgency t x = 2)) ∧
    (∃ (d : Dev) (t : Nat) (c : MemCh) (free : MemReq → Prop) (w : _) (r : _), (∀ r₁, free r₁ ↔ (tabFind c.tRC (Config.bankOf
      r₁.block % 16)).getD 0 ≤ t) ∧ d.choose t c = some (w, r) ∧ (∀ x ∈ c.reads ++ c.writes, free x → d.urgency t x ≠ 2) ∧ c.drain =
      true ∧ (∃ x ∈ c.writes, free x)) ∧
    (∃ (d : Dev) (t : Nat) (c : MemCh) (free : MemReq → Prop) (w : _) (r : _), (∀ r₁, free r₁ ↔ (tabFind c.tRC (Config.bankOf
      r₁.block % 16)).getD 0 ≤ t) ∧ d.choose t c = some (w, r) ∧ (∀ x ∈ c.reads ++ c.writes, free x → d.urgency t x ≠ 2) ∧ (c.drain
      = false ∨ (∀ x ∈ c.writes, ¬ free x)) ∧ c.reads ≠ []) ∧
    (∃ (d : Dev) (t : Nat) (c : MemCh) (free : MemReq → Prop) (w : _) (r : _), (∀ r₁, free r₁ ↔ (tabFind c.tRC (Config.bankOf
      r₁.block % 16)).getD 0 ≤ t) ∧ d.choose t c = some (w, r) ∧ (∀ x ∈ c.reads ++ c.writes, free x → d.urgency t x ≠ 2) ∧ (c.drain
      = false ∨ (∀ x ∈ c.writes, ¬ free x)) ∧ c.reads ≠ [] ∧ (∃ x ∈ c.reads, free x ∧ d.urgency t x = 1)) ∧
    (∃ (d : Dev) (b : Nat) (c : _), d.criticalAt (b * 128) = true ∧ d.chState (d.chanOf (d.homeOf (b * 128))) = 0 ∧ d.chState
      (d.chanOf (d.homeOf (copyOf (b * 128)))) = 0 ∧ (d.homeOf (b * 128)) ∉ d.mem.single ∧ (d.homeOf (copyOf (b * 128))) ∉
      d.mem.single ∧ (if d.chLoad (d.chanOf (d.homeOf (copyOf (b * 128)))) < d.chLoad (d.chanOf (d.homeOf (b * 128))) then c =
      (d.homeOf (copyOf (b * 128))) else if d.chLoad (d.chanOf (d.homeOf (b * 128))) < d.chLoad (d.chanOf (d.homeOf (copyOf (b *
      128)))) then c = (d.homeOf (b * 128)) else c = min (d.homeOf (b * 128)) (d.homeOf (copyOf (b * 128))))) :=
  ⟨⟨({ writes := [{ block := 0, port := 1, at_ := 0 }] } : MemCh), ({ block := 0, port := 1, at_ := 0 } : MemReq), by decide +kernel⟩,
    ⟨({} : MemCh), ({ block := 0, port := 1, at_ := 0 } : MemReq), by decide +kernel⟩,
    ⟨({} : MemCh), by decide +kernel⟩,
    ⟨({} : MemCh), by decide +kernel⟩,
    ⟨dv, 0, ({ reads := [{ block := 0, port := 1, at_ := 0 }] } : MemCh), (fun _ => True), false, ({ block := 0, port := 1, at_ := 0 } : MemReq),
      fun _ => ⟨fun _ => Nat.zero_le _, fun _ => trivial⟩, by decide +kernel⟩,
    ⟨dv, 0, ({ reads := [{ block := 0, port := 1, at_ := 0 }] } : MemCh), (fun _ => True), false, ({ block := 0, port := 1, at_ := 0 } : MemReq),
      fun _ => ⟨fun _ => Nat.zero_le _, fun _ => trivial⟩, by decide +kernel⟩,
    ⟨dv, 0, ({ reads := [{ block := 0, port := 1, at_ := 0 }] } : MemCh), (fun _ => True), false, ({ block := 0, port := 1, at_ := 0 } : MemReq),
      fun _ => ⟨fun _ => Nat.zero_le _, fun _ => trivial⟩, by decide +kernel⟩,
    ⟨dv, 0, ({ writes := [{ block := 0, port := 1, at_ := 0 }] } : MemCh), (fun _ => True), true, ({ block := 0, port := 1, at_ := 0 } : MemReq),
      fun _ => ⟨fun _ => Nat.zero_le _, fun _ => trivial⟩, by decide +kernel⟩,
    ⟨dv, 0, ({ writes := [{ block := 0, port := 8, at_ := 0 }], drain := true } : MemCh), (fun _ => True), true, ({ block := 0, port := 8, at_ := 0 } : MemReq),
      fun _ => ⟨fun _ => Nat.zero_le _, fun _ => trivial⟩, by decide +kernel⟩,
    ⟨dv, 0, ({ reads := [{ block := 0, port := 8, at_ := 0 }] } : MemCh), (fun _ => True), false, ({ block := 0, port := 8, at_ := 0 } : MemReq),
      fun _ => ⟨fun _ => Nat.zero_le _, fun _ => trivial⟩, by decide +kernel⟩,
    ⟨(rg dv [(Reg.MEM_PORT_CFG + 4, 31, 31, 0), (Reg.MEM_PORT_CFG + 4, 15, 0, 100)]), 75, ({ reads := [{ block := 0, port := 1, at_ := 0 }] } : MemCh),
      (fun _ => True), false, ({ block := 0, port := 1, at_ := 0 } : MemReq), fun _ => ⟨fun _ => Nat.zero_le _, fun _ => trivial⟩, by decide +kernel⟩,
    ⟨({ rg dv ((List.range 16).map (fun k => (Reg.MEM_CH_STAT + memOfs k, 31, 29, 0))) with mem := { allocs := [{ id := 0, critical := true, use := 2, base := 0, size := 1 }] } } : Dev),
      0, 0, by decide +kernel⟩⟩

theorem witness_SetPointsAndMigration :
    (∃ (s : State), s.ready = true) ∧
    (∃ (s : State), s.ready = true ∧ s.dev.flag Reg.MEM_STATUS 29 = false) ∧
    (∃ (s : State), s.ready = true ∧ s.dev.flag Reg.MEM_STATUS 29 = true ∧ s.dev.mem.fspTo < 2) ∧
    (∃ (s : State) (v : Word), s.ready = true ∧ bit v 31 = false) ∧
    (∃ (s : State) (v : Word), s.ready = true ∧ bit v 31 = true ∧ (s.dev.mem.cmd.isSome = true ∨ s.dev.flag Reg.MEM_STATUS 29 = true)) ∧
    (∃ (s : State) (v : Word), s.ready = true ∧ bit v 31 = true ∧ s.dev.mem.cmd = none ∧ s.dev.flag Reg.MEM_STATUS 29 = false ∧
      s.dev.mode.memCmd = false) ∧
    (∃ (s : State) (v : Word), s.ready = true ∧ bit v 31 = true ∧ s.dev.mem.cmd = none ∧ s.dev.flag Reg.MEM_STATUS 29 = false ∧
      s.dev.mode.memCmd = true ∧ (s.dev.spare = 0x1F ∨ s.dev.chState s.dev.spare ≠ 1)) ∧
    (∃ (s : State) (v : Word), s.ready = true ∧ bit v 31 = true ∧ s.dev.mem.cmd = none ∧ s.dev.flag Reg.MEM_STATUS 29 = false ∧
      s.dev.mode.memCmd = true ∧ s.dev.spare < 17 ∧ s.dev.chState s.dev.spare = 1 ∧ s.dev.chState (s.dev.chanOf (bits v 3 0)) ≠ 0) ∧
    (∃ (s : State) (v : Word), s.ready = true ∧ bit v 31 = true ∧ s.dev.mem.cmd = none ∧ s.dev.flag Reg.MEM_STATUS 29 = false ∧
      s.dev.mode.memCmd = true ∧ s.dev.spare < 17 ∧ s.dev.chState s.dev.spare = 1 ∧ (s.dev.chanOf (bits v 3 0)) < 17 ∧ s.dev.chState
      (s.dev.chanOf (bits v 3 0)) = 0) ∧
    (∃ (s : State), s.ready = true ∧ s.dev.fld Reg.MEM_STATUS 27 26 ≠ 1) ∧
    (∃ (s : State), s.ready = true ∧ s.dev.fld Reg.MEM_STATUS 27 26 ≠ 2) ∧
    (∃ (s : State), s.ready = true ∧ (s.dev.mem.mig) < 16 ∧ (s.dev.chanOf (s.dev.mem.mig)) < 17 ∧ s.dev.fld Reg.MEM_STATUS 27 26 = 1
      ∧ s.dev.spare < 17 ∧ s.dev.spare ≠ (s.dev.chanOf (s.dev.mem.mig))) ∧
    (∃ (s : State), s.ready = true ∧ (s.dev.mem.mig) < 16 ∧ (s.dev.chanOf (s.dev.mem.mig)) < 17 ∧ s.dev.fld Reg.MEM_STATUS 27 26 = 2) ∧
    (∃ (s : State) (v : Word), s.ready = true ∧ s.dev.mem.cmd = none ∧ s.dev.flag Reg.MEM_STATUS 29 = false ∧ s.dev.mode.memCmd =
      false ∧ bit v 30 = true) ∧
    (∃ (s : State) (v : Word), s.ready = true ∧ s.dev.mem.cmd = none ∧ s.dev.flag Reg.MEM_STATUS 29 = false ∧ s.dev.mode.memCmd =
      false ∧ bit v 29 = true) ∧
    (∃ (s : State) (v : Word), s.ready = true ∧ s.dev.mem.cmd = none ∧ s.dev.flag Reg.MEM_STATUS 29 = false ∧ s.dev.mode.memCmd =
      true ∧ bit v 29 = true) ∧
    (∃ (s : State) (v : Word), s.ready = true ∧ s.dev.mem.cmd = none ∧ s.dev.flag Reg.MEM_STATUS 29 = false ∧ s.dev.mode.memCmd =
      true ∧ bit v 30 = true ∧ (((if bits v 12 8 ≤ 16 then bits v 12 8 else s.dev.fld Reg.MEM_CTRL 12 8)) < 17)) ∧
    (∃ (s : State) (v : Word), s.ready = true ∧ (s.dev.mem.cmd.isSome = true ∨ s.dev.flag Reg.MEM_STATUS 29 = true) ∧ bit v 30 = true) ∧
    (∃ (s : State) (v : Word), s.ready = true ∧ (s.dev.mem.cmd.isSome = true ∨ s.dev.flag Reg.MEM_STATUS 29 = true) ∧ bit v 29 = true) ∧
    (∃ (s : State) (k : Nat), s.ready = true ∧ s.dev.mem.cmd ≠ some (1, k)) ∧
    (∃ (s : State) (k : Nat) (m0 : Nat) (m1 : Nat), s.ready = true ∧ s.dev.mem.cmd = some (1, k) ∧ k < 17 ∧ m0 < 256 ∧ m1 < 256) :=
  ⟨⟨base, by decide +kernel⟩,
    ⟨base, by decide +kernel⟩,
    ⟨(st { rg dv [(Reg.MEM_STATUS, 29, 29, 1)] with mem := { fspTo := 1 } }), by decide +kernel⟩,
    ⟨base, (0 : Word), by decide +kernel⟩,
    ⟨(st { dv with mem := { cmd := some (1, 0) } }), (0x80000000 : Word), by decide +kernel⟩,
    ⟨(st (mo .configure)), (0x80000000 : Word), by decide +kernel⟩,
    ⟨base, (0x80000000 : Word), by decide +kernel⟩,
    ⟨(st (rg dv [(Reg.MEM_CH_STAT + memOfs 16, 31, 29, 1)])), (0x8000000F : Word), by decide +kernel⟩,
    ⟨(st (rg dv [(Reg.MEM_CH_STAT + memOfs 16, 31, 29, 1), (Reg.MEM_CH_STAT + memOfs 15, 31, 29, 0)])), (0x8000000F : Word), by decide +kernel⟩,
    ⟨base, by decide +kernel⟩,
    ⟨base, by decide +kernel⟩,
    ⟨(st (rg dv [(Reg.MEM_STATUS, 27, 26, 1)])), by decide +kernel⟩,
    ⟨(st (rg dv [(Reg.MEM_STATUS, 27, 26, 2)])), by decide +kernel⟩,
    ⟨(st (mo .configure)), (0x40001000 : Word), by decide +kernel⟩,
    ⟨(st (mo .configure)), (0x20001000 : Word), by decide +kernel⟩,
    ⟨base, (0x20001000 : Word), by decide +kernel⟩,
    ⟨base, (0x40001000 : Word), by decide +kernel⟩,
    ⟨(st { dv with mem := { cmd := some (1, 0) } }), (0x40001000 : Word), by decide +kernel⟩,
    ⟨(st { dv with mem := { cmd := some (1, 0) } }), (0x20001000 : Word), by decide +kernel⟩,
    ⟨base, 0, by decide +kernel⟩,
    ⟨(st { dv with mem := { cmd := some (1, 16) } }), 16, 255, 0, by decide +kernel⟩⟩

theorem witness_MuleFramesIn :
    (∃ (s : State) (k : Nat) (f : MuleFrame) (c : _), s.ready = true ∧ (s.dev.linkOk k = false ∨ (f.crcOk = true ∧ f.src =
      s.dev.devId)) ∧ c ∈ [Instr.muleMedia k f, .mulePartial k f, .muleTalkers k f, .muleDemand k f, .muleTime k f, .muleHeartbeat k
      f, .muleDirectory k f, .muleCredit k f, .muleTunNak k f]) ∧
    (∃ (s : State) (k : Nat) (f : MuleFrame) (c : _), s.ready = true ∧ s.dev.linkOk k = true ∧ f.crcOk = false ∧ c ∈
      [Instr.muleMedia k f, .mulePartial k f, .muleTalkers k f, .muleDemand k f, .muleTime k f, .muleHeartbeat k f, .muleDirectory k
      f, .muleCredit k f, .muleTunNak k f]) ∧
    (∃ (d : Dev) (k : Nat) (f : MuleFrame), d.linkOk k = true ∧ f.crcOk = true ∧ f.src ≠ d.devId ∧ d.tunnel k = false) ∧
    (∃ (d : Dev) (k : Nat) (f : MuleFrame) (last : _), d.linkOk k = true ∧ f.crcOk = true ∧ f.src ≠ d.devId ∧ d.tunnel k = true ∧
      f.cls ≠ 0 ∧ (d.mulLink k).inSeq = some last ∧ (d.mulLink k).missing = [] ∧ d.mesh = true ∧ f.seqn < 65536 ∧ 32768 ≤ (toField
      16 ((f.seqn : Int) - last - 1))) ∧
    (∃ (d : Dev) (k : Nat) (f : MuleFrame) (last : _), d.linkOk k = true ∧ f.crcOk = true ∧ f.src ≠ d.devId ∧ d.tunnel k = true ∧
      f.cls ≠ 0 ∧ (d.mulLink k).inSeq = some last ∧ (d.mulLink k).missing = [] ∧ d.mesh = true ∧ f.seqn < 65536 ∧ (toField 16
      ((f.seqn : Int) - last - 1)) < 32768) ∧
    (∃ (s : State) (k : Nat) (f : MuleFrame), (s.ready = true ∧ s.dev.linkOk k = true ∧ f.crcOk = true ∧ f.src ≠ s.dev.devId) ∧
      (((s.dev.muleIn k muleMedia f).2).broodEnt f.brood).b 0 31 = true ∧ ((s.dev.muleIn k muleMedia f).2).relayLink
      ((((s.dev.muleIn k muleMedia f).2).broodEnt f.brood).f 0 13 0) = some k ∧ ((s.dev.muleIn k muleMedia f).2).mode.carries =
      true) ∧
    (∃ (s : State) (k : Nat) (f : MuleFrame) (w : Entry), s.ready = true ∧ (s.dev.muleIn k mulePartial f).1 = true ∧ ((s.dev.muleIn
      k mulePartial f).2).wide f.flock = some w) ∧
    (∃ (s : State) (k : Nat) (f : MuleFrame) (w : Entry), s.ready = true ∧ (s.dev.muleIn k muleTalkers f).1 = true ∧ ((s.dev.muleIn
      k muleTalkers f).2).wide f.flock = some w) ∧
    (∃ (s : State) (k : Nat) (f : MuleFrame), s.ready = true ∧ (s.dev.muleIn k muleDemand f).1 = true) ∧
    (∃ (s : State) (k : Nat) (f : MuleFrame), s.ready = true ∧ (s.dev.muleIn k muleTime f).1 = true ∧ k < 4) ∧
    (∃ (s : State) (k : Nat) (f : MuleFrame), s.ready = true ∧ (s.dev.muleIn k muleHeartbeat f).1 = true ∧ f.src < 8) ∧
    (∃ (s : State) (k : Nat) (f : MuleFrame), s.ready = true ∧ (s.dev.muleIn k muleDirectory f).1 = true ∧ ((s.dev.muleIn k
      muleDirectory f).2).mulState ≠ 5) ∧
    (∃ (s : State) (k : Nat) (cls : Nat) (f : MuleFrame), s.ready = true ∧ (s.dev.muleIn k muleCredit f).1 = true ∧ cls < 4 ∧
      ((s.dev.muleIn k muleCredit f).2).tunnel k = true) ∧
    (∃ (s : State) (k : Nat) (cls : Nat) (f : MuleFrame), s.ready = true ∧ (s.dev.muleIn k muleCredit f).1 = true ∧ cls < 4 ∧
      ((s.dev.muleIn k muleCredit f).2).tunnel k = false) ∧
    (∃ (s : State) (k : Nat) (f : MuleFrame), s.ready = true ∧ (s.dev.muleIn k muleTunNak f).1 = true) :=
  ⟨⟨base, 4, ({ src := 1 } : MuleFrame), (Instr.muleMedia 4 ({ src := 1 } : MuleFrame)), by decide +kernel⟩,
    ⟨(st (mu 0)), 0, ({ crcOk := false } : MuleFrame), (Instr.muleTime 0 ({ crcOk := false } : MuleFrame)), by decide +kernel⟩,
    ⟨(mu 0), 0, ({ src := 1 } : MuleFrame), by decide +kernel⟩,
    ⟨({ rg (mu (2 ^ 30)) [(Reg.MUL_CFG, 31, 31, 1)] with mul := { links := [(0, { inSeq := some 5 })] } } : Dev), 0, ({ src := 1, cls := 1, seqn := 5 } : MuleFrame),
      5, by decide +kernel⟩,
    ⟨({ rg (mu (2 ^ 30)) [(Reg.MUL_CFG, 31, 31, 1)] with mul := { links := [(0, { inSeq := some 5 })] } } : Dev), 0, ({ src := 1, cls := 1, seqn := 6 } : MuleFrame),
      5, by decide +kernel⟩,
    ⟨(st relayer), 0, ({ src := 1 } : MuleFrame), by decide +kernel, (congrArg (fun e => e.b 0 31) relayer_ent).trans relayed_valid,
      relay_of (by decide +kernel) (by decide +kernel) ((congrArg (fun e => e.f 0 13 0) relayer_ent).trans relayed_leg), by decide +kernel⟩,
    ⟨(st { mu 0 with mul := { applied := [(0, { d0 := 0xA0040000 })] } }), 0, ({ src := 1 } : MuleFrame), ({ d0 := 0xA0040000 } : Entry), by decide +kernel⟩,
    ⟨(st { mu 0 with mul := { applied := [(0, { d0 := 0xA0040000 })] } }), 0, ({ src := 1 } : MuleFrame), ({ d0 := 0xA0040000 } : Entry), by decide +kernel⟩,
    ⟨(st (mu 0)), 0, ({ src := 1 } : MuleFrame), by decide +kernel⟩,
    ⟨(st (mu 0)), 0, ({ src := 1 } : MuleFrame), by decide +kernel⟩,
    ⟨(st (mu 0)), 0, ({ src := 1 } : MuleFrame), by decide +kernel⟩,
    ⟨(st (mu 0)), 0, ({ src := 1 } : MuleFrame), by decide +kernel⟩,
    ⟨(st (mu (2 ^ 30))), 0, 3, ({ src := 1 } : MuleFrame), by decide +kernel⟩,
    ⟨(st (mu 0)), 0, 3, ({ src := 1 } : MuleFrame), by decide +kernel⟩,
    ⟨(st (mu 0)), 0, ({ src := 1 } : MuleFrame), by decide +kernel⟩⟩

theorem witness_MuleFrameRoundTrip :
    (∃ (kind : Nat) (f : MuleFrame), kind < 16 ∧ f.cls < 4 ∧ f.src < 8 ∧ f.dst < 8 ∧ f.hops < 8 ∧ f.flock < 65536 ∧ f.brood < 65536
      ∧ f.seqn < 65536 ∧ f.beat < 2 ^ 32 ∧ f.payload.length < 65536 ∧ f.crcOk = true) ∧
    (∃ (f : MuleFrame) (n : _), f.payload.length < 65536 ∧ n < f.payload.length + 20) ∧
    (∃ (bs : List Byte), byteAt bs 0 / 16 ≠ 1) :=
  ⟨⟨0, ({} : MuleFrame), by decide +kernel⟩,
    ⟨({} : MuleFrame), 0, by decide +kernel⟩,
    ⟨([] : List Byte), by decide +kernel⟩⟩

theorem witness_MuleLinksAndRooster :
    (∃ (s : State) (k : Nat), s.ready = true ∧ 4 ≤ k) ∧
    (∃ (s : State) (k : Nat), s.ready = true ∧ k < 4 ∧ s.dev.linkSt k = 0) ∧
    (∃ (s : State) (k : Nat), s.ready = true ∧ k < 4 ∧ s.dev.linkSt k < 2) ∧
    (∃ (s : State) (k : Nat), s.ready = true ∧ k < 4) ∧
    (∃ (s : State) (k : Nat), s.ready = true ∧ k < 4 ∧ s.dev.linkSt k = 2) ∧
    (∃ (s : State) (k : Nat) (c : _), (s.ready = true ∧ k < 4) ∧ ((c = Instr.muleLinkDown k ∧ s.dev.linkSt k ≠ 0) ∨ (c =
      Instr.muleLaneLoss k ∧ s.dev.linkSt k = 3))) ∧
    (∃ (s : State) (k : Nat), s.ready = true ∧ k < 4 ∧ s.dev.linkSt k ≠ 0) ∧
    (∃ (s : State) (k : Nat), s.ready = true ∧ k < 4 ∧ s.dev.linkSt k = 3) ∧
    (∃ (s : State) (k : Nat) (q : Nat), s.ready = true ∧ ((s.dev.mulLink k).missing.find? (fun m => m.1 == q) = none)) ∧
    (∃ (s : State) (k : Nat) (q : Nat) (n : Nat) (sent : Nat) (a : Nat), s.ready = true ∧ ((s.dev.mulLink k).missing.find? (fun m => m.1
      == q) = some (n, sent, a)) ∧ s.dev.now < a + s.dev.fld (Reg.MUL_LINK_STAT + mulOfs k) 19 0 * 1500) ∧
    (∃ (s : State) (k : Nat) (q : Nat) (n : Nat) (sent : Nat) (a : Nat), s.ready = true ∧ ((s.dev.mulLink k).missing.find? (fun m => m.1
      == q) = some (n, sent, a)) ∧ a + s.dev.fld (Reg.MUL_LINK_STAT + mulOfs k) 19 0 * 1500 ≤ s.dev.now ∧ sent < 2) ∧
    (∃ (s : State) (k : Nat) (q : Nat) (n : Nat) (sent : Nat) (a : Nat), s.ready = true ∧ ((s.dev.mulLink k).missing.find? (fun m => m.1
      == q) = some (n, sent, a)) ∧ a + s.dev.fld (Reg.MUL_LINK_STAT + mulOfs k) 19 0 * 1500 ≤ s.dev.now ∧ 2 ≤ sent) ∧
    (∃ (s : State), s.ready = true ∧ ((s.dev.inStack = false ∧ s.dev.mulState ≠ 1) ∨ (∃ b, s.dev.mul.timeAt = some b ∧ s.dev.beat <
      b + s.dev.fld Reg.MUL_CFG 7 0))) ∧
    (∃ (s : State), (s.ready = true ∧ (s.dev.inStack = true ∨ s.dev.mulState = 1)) ∧ (∀ b, s.dev.mul.timeAt = some b → b + s.dev.fld
      Reg.MUL_CFG 7 0 ≤ s.dev.beat)) ∧
    (∃ (s : State) (i : Nat), s.ready = true ∧ (s.dev.mul.writes.find? (fun w => w.idx == i) = none ∨ s.dev.isRooster = false ∨ (∃
      w, s.dev.mul.writes.find? (fun w => w.idx == i) = some w ∧ (w.sent = none ∨ ∃ b, w.sent = some b ∧ s.dev.beat < b + 6)))) ∧
    (∃ (s : State) (i : Nat) (w : _) (b : _), s.ready = true ∧ (s.dev.mul.writes.find? (fun w₁ => w₁.idx == i) = some w) ∧
      s.dev.isRooster = true ∧ w.sent = some b ∧ b + 6 ≤ s.dev.beat) ∧
    (∃ (s : State), s.ready = true ∧ s.dev.inStack = false) ∧
    (∃ (s : State), s.ready = true ∧ s.dev.inStack = true ∧ s.dev.isRooster = true) ∧
    (∃ (s : State), s.ready = true ∧ s.dev.inStack = true ∧ s.dev.isRooster = false) ∧
    (∃ (s : State) (i : Nat), s.ready = true ∧ (∀ c ∈ s.dev.mul.commits, c.1 = i → s.dev.beat + 1 < c.2.2)) ∧
    (∃ (s : State) (i : Nat), s.ready = true ∧ (∃ c ∈ s.dev.mul.commits, c.1 = i ∧ c.2.2 ≤ s.dev.beat)) ∧
    (∃ (s : State) (i : Nat), s.ready = true ∧ (∀ c ∈ s.dev.mul.commits, c.1 = i → s.dev.beat < c.2.2) ∧ (∃ c ∈ s.dev.mul.commits,
      c.1 = i ∧ c.2.2 = s.dev.beat + 1)) :=
  ⟨⟨base, 4, by decide +kernel⟩,
    ⟨base, 0, by decide +kernel⟩,
    ⟨base, 0, by decide +kernel⟩,
    ⟨base, 0, by decide +kernel⟩,
    ⟨(st (rg dv [(Reg.MUL_LINK_STAT + mulOfs 3, 31, 30, 2)])), 3, by decide +kernel⟩,
    ⟨(st (rg dv [(Reg.MUL_LINK_STAT + mulOfs 3, 31, 30, 3)])), 3, (Instr.muleLaneLoss 3), by decide +kernel, Or.inr ⟨rfl, by decide +kernel⟩⟩,
    ⟨(st (rg dv [(Reg.MUL_LINK_STAT + mulOfs 3, 31, 30, 1)])), 3, by decide +kernel⟩,
    ⟨(st (rg dv [(Reg.MUL_LINK_STAT + mulOfs 3, 31, 30, 3)])), 3, by decide +kernel⟩,
    ⟨base, 0, 0, by decide +kernel⟩,
    ⟨(st { rg dv [(Reg.MUL_LINK_STAT, 19, 0, 1)] with now := 1499, mul := { links := [(0, { missing := [(5, 0, 0)] })] } }), 0, 5,
      5, 0, 0, by decide +kernel⟩,
    ⟨(st { rg dv [(Reg.MUL_LINK_STAT, 19, 0, 1)] with now := 1500, mul := { links := [(0, { missing := [(5, 1, 0)] })] } }), 0, 5,
      5, 1, 0, by decide +kernel⟩,
    ⟨(st { rg dv [(Reg.MUL_LINK_STAT, 19, 0, 1)] with now := 1500, mul := { links := [(0, { missing := [(5, 2, 0)] })] } }), 0, 5,
      5, 2, 0, by decide +kernel⟩,
    ⟨base, by decide +kernel⟩,
    ⟨(st { mu 0 with beat := 255, mul := { timeAt := some 0 } }), by decide +kernel, each (by decide +kernel)⟩,
    ⟨base, 0, by decide +kernel⟩,
    ⟨(st { rg dv [(Reg.MUL_STATUS, 21, 19, 3)] with beat := 6, mul := { writes := [{ idx := 5, ent := {}, dev := 0, sent := some 0 }] } }),
      5, ({ idx := 5, ent := {}, dev := 0, sent := some 0 } : DirWrite), 0, by decide +kernel⟩,
    ⟨base, by decide +kernel⟩,
    ⟨(st (rg dv [(Reg.MUL_STATUS, 21, 19, 3)])), by decide +kernel⟩,
    ⟨(st (mu 0)), by decide +kernel⟩,
    ⟨base, 0, by decide +kernel⟩,
    ⟨(st { dv with mul := { commits := [(5, {}, 0)] } }), 5, by decide +kernel⟩,
    ⟨(st { dv with mul := { commits := [(5, {}, 1)] } }), 5, by decide +kernel⟩⟩

theorem witness_JoinLeaveAndHandover :
    (∃ (s : State) (v : Word), s.ready = true ∧ bit v 30 = false ∧ bit v 29 = false ∧ (s.dev.mul.step ≠ 0 ∨ s.dev.pwr.want.isSome =
      true ∨ s.dev.pwr.toRecovery = true ∨ s.dev.cfgBusy = true)) ∧
    (∃ (s : State) (v : Word), s.ready = true ∧ bit v 30 = false ∧ bit v 29 = false ∧ s.dev.mul.step = 0 ∧ s.dev.pwr.want = none ∧
      s.dev.pwr.toRecovery = false ∧ s.dev.cfgBusy = false ∧ s.dev.mode ≠ .service) ∧
    (∃ (s : State) (v : Word), s.ready = true ∧ bit v 30 = false ∧ bit v 29 = false ∧ s.dev.mul.step = 0 ∧ s.dev.pwr.want = none ∧
      s.dev.pwr.toRecovery = false ∧ s.dev.cfgBusy = false ∧ s.dev.mode = .service) ∧
    (∃ (s : State) (v : Word), s.ready = true ∧ bit v 31 = false ∧ bit v 29 = false ∧ s.dev.mul.step ≠ 0) ∧
    (∃ (s : State) (v : Word), s.ready = true ∧ bit v 31 = false ∧ bit v 29 = false ∧ s.dev.mul.step = 0) ∧
    (∃ (s : State) (v : Word), s.ready = true ∧ bit v 31 = false ∧ bit v 30 = false) ∧
    (∃ (s : State) (h : Hello), s.ready = true ∧ (h.up = false ∨ (s.dev.mul.step ≠ 1 ∧ (s.dev.mul.step ≠ 0 ∨ s.dev.inStack = false)))) ∧
    (∃ (s : State) (h : Hello), s.ready = true ∧ s.dev.mul.step = 0 ∧ s.dev.inStack = true ∧ h.up = true) ∧
    (∃ (s : State) (h : Hello), s.ready = true ∧ s.dev.mul.step = 1 ∧ h.up = true ∧ (s.dev.devId ∈ (h.devices.map (·.1)) ∨ ¬
      (h.devices.map (·.1)).Nodup)) ∧
    (∃ (s : State) (h : Hello), s.ready = true ∧ s.dev.mul.step = 1 ∧ h.up = true ∧ s.dev.devId ∉ (h.devices.map (·.1)) ∧
      (h.devices.map (·.1)).Nodup ∧ (h.badTopology = true ∨ (s.dev.mesh = true ∧ 5 < (h.devices.map (·.1)).length + 1))) ∧
    (∃ (s : State) (h : Hello), s.ready = true ∧ s.dev.mul.step = 1 ∧ h.up = true ∧ s.dev.devId ∉ (h.devices.map (·.1)) ∧
      (h.devices.map (·.1)).Nodup ∧ h.badTopology = false ∧ (s.dev.mesh = true → (h.devices.map (·.1)).length + 1 ≤ 5) ∧
      (s.dev.stackSize < (h.devices.map (·.1)).length + 1 ∨ 8 < (h.devices.map (·.1)).length + 1)) ∧
    (∃ (s : State) (h : Hello) (r : _), s.ready = true ∧ s.dev.mul.step = 1 ∧ h.up = true ∧ s.dev.devId ∉ (h.devices.map (·.1)) ∧
      (h.devices.map (·.1)).Nodup ∧ h.badTopology = false ∧ (s.dev.mesh = true → (h.devices.map (·.1)).length + 1 ≤ 5) ∧
      (h.devices.map (·.1)).length + 1 ≤ s.dev.stackSize ∧ (∀ m ∈ (h.devices.map (·.1)), m < 8) ∧ h.rooster = some r ∧ r < 8) ∧
    (∃ (s : State) (h : Hello), s.ready = true ∧ s.dev.mul.step = 1 ∧ h.up = true ∧ s.dev.devId ∉ (h.devices.map (·.1)) ∧
      (h.devices.map (·.1)).Nodup ∧ h.badTopology = false ∧ (s.dev.mesh = true → (h.devices.map (·.1)).length + 1 ≤ 5) ∧
      (h.devices.map (·.1)).length + 1 ≤ s.dev.stackSize ∧ (∀ m ∈ (h.devices.map (·.1)), m < 8) ∧ h.rooster = none ∧ s.dev.pairOf.1
      ≠ 0 ∧ (∀ x ∈ h.devices, x.2.1 ≠ 0 → pairBelow s.dev.pairOf (x.2.1, x.2.2.1) = false)) ∧
    (∃ (s : State), s.ready = true ∧ (s.dev.mul.step ≠ 2 ∨ ∃ k, (k = 4 ∨ k = 5) ∧ ((s.dev.dom k).st ≠ 3 ∨ s.dev.fld (Reg.TIM_DOM_CFG
      + domOfs k) 30 28 ≠ 3))) ∧
    (∃ (s : State), (s.ready = true ∧ s.dev.mul.step = 2) ∧ (∀ k, k = 4 ∨ k = 5 → (s.dev.dom k).st = 3 ∧ s.dev.fld (Reg.TIM_DOM_CFG
      + domOfs k) 30 28 = 3)) ∧
    (∃ (s : State), s.ready = true ∧ s.dev.mul.step ≠ 3) ∧
    (∃ (s : State), s.ready = true ∧ s.dev.mul.step = 3 ∧ (((s.dev.mul.joinFrom == .service && s.dev.tsk.tasks.any (fun x => decide
      (x.2.st < 5)))) = false)) ∧
    (∃ (s : State), s.ready = true ∧ s.dev.mul.step = 3 ∧ (((s.dev.mul.joinFrom == .service && s.dev.tsk.tasks.any (fun x => decide
      (x.2.st < 5)))) = true) ∧ s.dev.jumpLimit < s.dev.dtErr.natAbs) ∧
    (∃ (s : State), s.ready = true ∧ s.dev.mul.step = 3 ∧ (((s.dev.mul.joinFrom == .service && s.dev.tsk.tasks.any (fun x => decide
      (x.2.st < 5)))) = true) ∧ s.dev.dtErr.natAbs ≤ s.dev.jumpLimit ∧ s.dev.dtErr.natAbs ≤ nsUnit / 4) ∧
    (∃ (s : State), s.ready = true ∧ s.dev.mul.step = 3 ∧ (((s.dev.mul.joinFrom == .service && s.dev.tsk.tasks.any (fun x => decide
      (x.2.st < 5)))) = true) ∧ s.dev.dtErr.natAbs ≤ s.dev.jumpLimit ∧ nsUnit / 4 < s.dev.dtErr.natAbs) ∧
    (∃ (s : State), s.ready = true ∧ s.dev.mul.step ≠ 4) ∧
    (∃ (s : State) (es : List DirEnt), s.ready = true ∧ s.dev.mul.step = 4 ∧ (es.map (·.idx)).Nodup ∧ (∀ x ∈ es, x.idx < 32768)) ∧
    (∃ (s : State), s.ready = true ∧ (s.dev.mul.step = 0 ∨ (s.dev.mul.step = 1 ∧ s.dev.beat < s.dev.mul.stepBeat + 6) ∨
      (s.dev.mul.step = 2 ∧ s.dev.now < s.dev.mul.stepAt + 15000000000) ∨ (s.dev.mul.step = 3 ∧ (s.dev.mul.joinFrom = .service ∨
      s.dev.beat ≤ s.dev.mul.stepBeat + 1)) ∨ (s.dev.mul.step = 4 ∧ s.dev.beat < s.dev.mul.stepBeat + 60))) ∧
    (∃ (s : State), s.ready = true ∧ s.dev.mul.step = 1 ∧ s.dev.mul.stepBeat + 6 ≤ s.dev.beat ∧ s.dev.pairOf.1 = 0) ∧
    (∃ (s : State), s.ready = true ∧ s.dev.mul.step = 1 ∧ s.dev.mul.stepBeat + 6 ≤ s.dev.beat ∧ s.dev.pairOf.1 ≠ 0) ∧
    (∃ (s : State), s.ready = true ∧ s.dev.mul.step = 2 ∧ s.dev.mul.stepAt + 15000000000 ≤ s.dev.now) ∧
    (∃ (s : State), s.ready = true ∧ s.dev.mul.step = 3 ∧ s.dev.mul.joinFrom ≠ .service ∧ s.dev.mul.stepBeat + 1 < s.dev.beat) ∧
    (∃ (s : State), s.ready = true ∧ s.dev.mul.step = 4 ∧ s.dev.mul.stepBeat + 60 ≤ s.dev.beat) :=
  ⟨⟨(st { dv with mul := { step := 1 } }), (0x80000000 : Word), by decide +kernel⟩,
    ⟨State.reset, (0 : Word), by decide +kernel⟩,
    ⟨base, (0 : Word), by decide +kernel⟩,
    ⟨(st { dv with mul := { step := 1 } }), (0x40000000 : Word), by decide +kernel⟩,
    ⟨base, (0 : Word), by decide +kernel⟩,
    ⟨base, (0 : Word), by decide +kernel⟩,
    ⟨base, ({} : Hello), by decide +kernel⟩,
    ⟨(st (mu 0)), ({ up := true } : Hello), by decide +kernel⟩,
    ⟨(st { dv with mul := { step := 1 } }), ({ devices := [(0, 0, 0, true)] } : Hello), by decide +kernel⟩,
    ⟨(st { dv with mul := { step := 1 } }), ({ badTopology := true } : Hello), by decide +kernel⟩,
    ⟨(st { rg dv [(Reg.MUL_CFG, 30, 28, 0)] with mul := { step := 1 } }), ({ devices := [(1, 0, 0, true)] } : Hello), by decide +kernel⟩,
    ⟨(st { rg dv [(Reg.MUL_CFG, 30, 28, 7), (Reg.MUL_ROOSTER, 2, 0, 1)] with mul := { step := 1 } }), ({ devices := [(7, 0, 0, true)], rooster := some 7 } : Hello),
      7, by decide +kernel⟩,
    ⟨(st { rg dv [(Reg.MUL_CFG, 30, 28, 7), (Reg.MUL_ROOSTER, 2, 0, 1)] with mul := { step := 1 } }), ({ devices := [(7, 1, 0, true)] } : Hello), by decide +kernel⟩,
    ⟨(st { dv with mul := { step := 1 } }), by decide +kernel, Or.inl (by decide +kernel)⟩,
    ⟨(st { rg dv [(Reg.TIM_DOM_CFG + domOfs 4, 30, 28, 3), (Reg.TIM_DOM_CFG + domOfs 5, 30, 28, 3)] with tim := { doms := List.replicate 6 { st := 3 } }, mul := { step := 2 } }), by decide +kernel, by
    intro k hk
    rcases hk with h | h
    all_goals subst h; decide +kernel⟩,
    ⟨base, by decide +kernel⟩,
    ⟨(st { dv with mul := { step := 3 } }), by decide +kernel⟩,
    ⟨(st { tk { st := 4 } with mul := { step := 3, joinFrom := .service }, tim := { dt := 0, doms := List.replicate 6 { clock := 10 ^ 25 } } }), by decide +kernel⟩,
    ⟨(st { tk { st := 4 } with mul := { step := 3, joinFrom := .service }, tim := { dt := 0, doms := List.replicate 6 { clock := nsUnit / 4 } } }), by decide +kernel⟩,
    ⟨(st { tk { st := 4 } with mul := { step := 3, joinFrom := .service }, tim := { dt := 0, doms := List.replicate 6 { clock := (nsUnit / 4 + 1) } } }), by decide +kernel⟩,
    ⟨base, by decide +kernel⟩,
    ⟨(st { dv with mul := { step := 4 } }), ([{ idx := 32767, d := {} }] : List DirEnt), by decide +kernel⟩,
    ⟨base, by decide +kernel⟩,
    ⟨(st { { dv with beat := 6 } with mul := { step := 1 } }), by decide +kernel⟩,
    ⟨(st { { rg dv [(Reg.MUL_CFG, 30, 28, 7), (Reg.MUL_ROOSTER, 2, 0, 1)] with beat := 6 } with mul := { step := 1 } }), by decide +kernel⟩,
    ⟨(st { { dv with now := 15000000000 } with mul := { step := 2 } }), by decide +kernel⟩,
    ⟨(st { { dv with beat := 2 } with mul := { step := 3, joinFrom := .configure } }), by decide +kernel⟩,
    ⟨(st { { dv with beat := 60 } with mul := { step := 4 } }), by decide +kernel⟩⟩

theorem witness_ResetBootAndRails :
    (∃ (s : State) (n : Nat), s.ready = true ∧ n ≤ 500) ∧
    (∃ (s : State) (n : Nat), s.ready = true ∧ 1000 ≤ n) ∧
    (∃ (s : State) (n : Nat), s.ready = true ∧ 500 < n ∧ n < 1000) ∧
    (∃ (s : State) (b : _), s.ready = true ∧ s.dev.pwr.fault = some b ∧ b + 600 ≤ s.dev.beat) ∧
    (∃ (s : State), s.ready = true ∧ (∀ b, s.dev.pwr.fault = some b → s.dev.beat < b + 600)) ∧
    (∃ (s : State) (r : Nat), s.ready = true ∧ 8 ≤ r) ∧
    (∃ (s : State), s.ready = true) ∧
    (∃ (s : State) (r : Nat), s.ready = true ∧ r < 8 ∧ r ≠ 3) ∧
    (∃ (s : State), s.ready = true ∧ (s.dev.mode ≠ .reset ∨ s.dev.pwr.waitRails = true ∨ s.dev.pwr.waitClk = true)) ∧
    (∃ (s : State) (id : Nat) (pri : Nat), s.ready = true ∧ s.dev.mode = .reset ∧ s.dev.pwr.waitRails = false ∧ s.dev.pwr.waitClk =
      false ∧ id < 8 ∧ pri < 8 ∧ s.dev.que.stall = none) ∧
    (∃ (s : State), s.ready = true ∧ (s.dev.mode ≠ .boot ∨ s.dev.flag Reg.TOP_STATUS 31 = true)) ∧
    (∃ (s : State), s.ready = true ∧ s.dev.mode = .boot ∧ s.dev.flag Reg.TOP_STATUS 31 = false ∧ s.dev.que.stall = none) ∧
    (∃ (s : State) (p : Nat), s.ready = true ∧ (8 ≤ p ∨ s.dev.mode = .reset)) ∧
    (∃ (s : State) (p : Nat), s.ready = true ∧ p < 8 ∧ s.dev.mode ≠ .reset) ∧
    (∃ (s : State) (p : Nat), s.ready = true ∧ (8 ≤ p ∨ (s.dev.macPort p).up = false)) ∧
    (∃ (s : State) (p : Nat), s.ready = true ∧ p < 8 ∧ (s.dev.macPort p).up = true) ∧
    (∃ (s : State) (r : RefClk), s.ready = true ∧ (s.dev.mode = .reset ∨ r = .freqIn ∨ r = .ppsIn ∨ (∃ n, 2 ≤ n ∧ r = .eth n))) ∧
    (∃ (s : State) (n : _), s.ready = true ∧ n < 2 ∧ s.dev.mode ≠ .reset) ∧
    (∃ (s : State), s.ready = true ∧ s.dev.mode ≠ .reset) :=
  ⟨⟨base, 0, by decide +kernel⟩,
    ⟨base, 1000, by decide +kernel⟩,
    ⟨base, 501, by decide +kernel⟩,
    ⟨(st { dv with beat := 600, pwr := { fault := some 0 } }), 0, by decide +kernel⟩,
    ⟨base, by decide +kernel⟩,
    ⟨base, 8, by decide +kernel⟩,
    ⟨base, by decide +kernel⟩,
    ⟨base, 0, by decide +kernel⟩,
    ⟨base, by decide +kernel⟩,
    ⟨State.reset, 0, 0, by decide +kernel⟩,
    ⟨base, by decide +kernel⟩,
    ⟨(st (mo .boot)), by decide +kernel⟩,
    ⟨State.reset, 0, by decide +kernel⟩,
    ⟨base, 0, by decide +kernel⟩,
    ⟨base, 0, by decide +kernel⟩,
    ⟨(st { dv with mac := { ports := [(7, { up := true })] } }), 7, by decide +kernel⟩,
    ⟨base, RefClk.freqIn, by decide +kernel, Or.inr (Or.inl rfl)⟩,
    ⟨base, 0, by decide +kernel⟩,
    ⟨base, by decide +kernel⟩⟩

theorem witness_ModesStagesAndSprint :
    (∃ (s : State), (s.ready = true ∧ s.dev.fclk ≠ 0) ∧ (s.dev.pwr.want.isSome = true ∨ s.dev.pwr.toRecovery = true)) ∧
    (∃ (s : State), s.ready = true ∧ s.dev.fclk ≠ 0) ∧
    (∃ (d : Dev), d.mode = .reset) ∧
    (∃ (d : Dev), d.mode ≠ .reset) ∧
    (∃ (s : State), s.ready = true ∧ s.dev.fclk = 0 ∧ s.dev.pwr.want = none ∧ s.dev.pwr.toRecovery = false) ∧
    (∃ (s : State) (m : _) (b : _), s.ready = true ∧ s.dev.fclk = 0 ∧ s.dev.pwr.want = some (m, b) ∧ s.dev.pwr.toRecovery = false) ∧
    (∃ (s : State), s.ready = true ∧ s.dev.fclk = 0 ∧ s.dev.pwr.toRecovery = true) ∧
    (∃ (s : State) (v : Word), s.ready = true ∧ (((if s.dev.pwr.want.isSome = true ∨ s.dev.pwr.toRecovery = true ∨ s.dev.cfgBusy =
      true ∨ s.dev.mul.step ≠ 0 then 1 else if (s.dev.mode, bits v 3 0) ∉ [(Mode.configure, 4), (.join, 4), (.recovery, 4),
      (.reload, 4), (.shed, 4), (.sprint, 4), (.configure, 8), (.service, 8), (.service, 9), (.reload, 9), (.shed, 9), (.sprint, 9),
      (.join, 9), (.configure, 10)] then 2 else if (bits v 3 0 = 4 ∨ bits v 3 0 = 8) ∧ 0 < s.dev.stage then 3 else if bits v 3 0 = 4
      ∧ s.dev.mode = .configure ∧ (s.dev.flag Reg.MEM_STATUS 31 = false ∨ (List.range 6).any (fun n => s.dev.regionState n != 0) =
      true ∨ (s.dev.locked = false ∧ bit v 31 = false)) then 3 else 0)) ≠ 0)) ∧
    (∃ (s : State) (v : Word), s.ready = true ∧ (((if s.dev.pwr.want.isSome = true ∨ s.dev.pwr.toRecovery = true ∨ s.dev.cfgBusy =
      true ∨ s.dev.mul.step ≠ 0 then 1 else if (s.dev.mode, bits v 3 0) ∉ [(Mode.configure, 4), (.join, 4), (.recovery, 4),
      (.reload, 4), (.shed, 4), (.sprint, 4), (.configure, 8), (.service, 8), (.service, 9), (.reload, 9), (.shed, 9), (.sprint, 9),
      (.join, 9), (.configure, 10)] then 2 else if (bits v 3 0 = 4 ∨ bits v 3 0 = 8) ∧ 0 < s.dev.stage then 3 else if bits v 3 0 = 4
      ∧ s.dev.mode = .configure ∧ (s.dev.flag Reg.MEM_STATUS 31 = false ∨ (List.range 6).any (fun n => s.dev.regionState n != 0) =
      true ∨ (s.dev.locked = false ∧ bit v 31 = false)) then 3 else 0)) = 0) ∧ s.dev.mode.carries = true) ∧
    (∃ (s : State) (v : Word), s.ready = true ∧ (((if s.dev.pwr.want.isSome = true ∨ s.dev.pwr.toRecovery = true ∨ s.dev.cfgBusy =
      true ∨ s.dev.mul.step ≠ 0 then 1 else if (s.dev.mode, bits v 3 0) ∉ [(Mode.configure, 4), (.join, 4), (.recovery, 4),
      (.reload, 4), (.shed, 4), (.sprint, 4), (.configure, 8), (.service, 8), (.service, 9), (.reload, 9), (.shed, 9), (.sprint, 9),
      (.join, 9), (.configure, 10)] then 2 else if (bits v 3 0 = 4 ∨ bits v 3 0 = 8) ∧ 0 < s.dev.stage then 3 else if bits v 3 0 = 4
      ∧ s.dev.mode = .configure ∧ (s.dev.flag Reg.MEM_STATUS 31 = false ∨ (List.range 6).any (fun n => s.dev.regionState n != 0) =
      true ∨ (s.dev.locked = false ∧ bit v 31 = false)) then 3 else 0)) = 0) ∧ s.dev.mode.carries = false) ∧
    (∃ (d : Dev) (rails : List Nat) (r : _) (m : _), d.mode ≠ .reset ∧ r < 8 ∧ rails[r]? = some m ∧ m < 65536) ∧
    (∃ (d : Dev) (rails : List Nat) (r : _) (m : _) (k : _), d.mode ≠ .reset ∧ r < 8 ∧ rails[r]? = some m ∧ m < 65536 ∧ 1 ≤ k ∧ k ≤ 6) ∧
    (∃ (s : State) (rails : List Nat), s.ready = true ∧ s.dev.fclk = 0 ∧ s.dev.mode ≠ .reset ∧ (s.dev.setRails rails).pwr.deep ≤
      (s.dev.setRails rails).stage) ∧
    (∃ (s : State) (rails : List Nat), s.ready = true ∧ s.dev.fclk = 0 ∧ s.dev.mode ≠ .reset ∧ (s.dev.setRails rails).stage <
      (s.dev.setRails rails).pwr.deep ∧ (s.dev.setRails rails).pwr.deep < 8) ∧
    (∃ (d : Dev), (d.mode.carries = true ∨ d.mode = .test ∨ d.mode = .recovery)) ∧
    (∃ (d : Dev) (k : Nat) (x : _), (d.mode.carries = true ∨ d.mode = .test ∨ d.mode = .recovery) ∧ d.enc k = some x ∧ 1 < enLayers
      (d.encEnt k)) ∧
    (∃ (d : Dev) (n : _), (d.mode.carries = true ∨ d.mode = .test ∨ d.mode = .recovery) ∧ d.aud.mixes = [] ∧ d.aud.ents = [] ∧
      d.composingFlocks = [] ∧ tabSorted d.tsk.tasks = true ∧ (n = 4 ∨ n = 5)) ∧
    (∃ (d : Dev) (k : Nat) (x : _), (d.mode.carries = true ∨ d.mode = .test ∨ d.mode = .recovery) ∧ d.aud.mixes = [] ∧ d.aud.ents =
      [] ∧ d.composingFlocks = [] ∧ tabSorted d.tsk.tasks = true ∧ d.task k = some x) ∧
    (∃ (d : Dev) (k : Nat) (x : _), (d.mode.carries = true ∨ d.mode = .test ∨ d.mode = .recovery) ∧ d.task k = some x ∧ tabSorted
      d.tsk.tasks = true ∧ d.composingFlocks = []) ∧
    (∃ (d : Dev) (k : Nat) (x : _), (d.mode.carries = true ∨ d.mode = .test ∨ d.mode = .recovery) ∧ d.task k = some x ∧ tabSorted
      d.tsk.tasks = true) ∧
    (∃ (s : State) (rails : List Nat), s.ready = true ∧ s.dev.fclk = 0 ∧ s.dev.mode ≠ .reset ∧ ((s.dev.setRails rails).stage = 0 ∨
      (s.dev.setRails rails).fld Reg.PWR_STATUS 4 0 < 30 ∨ (∃ r, r < 8 ∧ ((s.dev.setRails rails).stage + 1) * railNominal r ≤
      (railNominal r - (s.dev.setRails rails).railMean r) * 100) ∨ (s.dev.setRails rails).stage ≤ (s.dev.setRails rails).pinStageNow
      ∨ (s.dev.setRails rails).stage ≤ (s.dev.setRails rails).fld Reg.PWR_STATUS 22 20)) ∧
    (∃ (s : State) (rails : List Nat), s.ready = true ∧ s.dev.fclk = 0 ∧ s.dev.mode ≠ .reset ∧ 0 < (s.dev.setRails rails).stage ∧ 30
      ≤ (s.dev.setRails rails).fld Reg.PWR_STATUS 4 0 ∧ (∀ r, r < 8 → (railNominal r - (s.dev.setRails rails).railMean r) * 100 <
      ((s.dev.setRails rails).stage + 1) * railNominal r) ∧ (s.dev.setRails rails).pinStageNow < (s.dev.setRails rails).stage ∧
      (s.dev.setRails rails).fld Reg.PWR_STATUS 22 20 < (s.dev.setRails rails).stage) :=
  ⟨⟨(st { dv with fclk := 1, pwr := { want := some (.join, 0) } }), by decide +kernel, Or.inl (by decide +kernel)⟩,
    ⟨(st { dv with fclk := 1 }), by decide +kernel⟩,
    ⟨(mo .reset), by decide +kernel⟩,
    ⟨dv, by decide +kernel⟩,
    ⟨base, by decide +kernel⟩,
    ⟨(st { dv with pwr := { want := some (.join, 0) } }), Mode.join, 0, by decide +kernel⟩,
    ⟨(st { dv with pwr := { toRecovery := true } }), by decide +kernel⟩,
    ⟨base, (0 : Word), by decide +kernel⟩,
    ⟨base, (8 : Word), by decide +kernel⟩,
    ⟨(st (mo .configure)), (10 : Word), by decide +kernel⟩,
    ⟨dv, ([700] : List Nat), 0, 700, by decide +kernel⟩,
    ⟨dv, ([700] : List Nat), 0, 700, 1, by decide +kernel⟩,
    ⟨base, ([] : List Nat), by decide +kernel⟩,
    ⟨base, ([700] : List Nat), by decide +kernel⟩,
    ⟨dv, Or.inl (by decide +kernel)⟩,
    ⟨({ dv.setEnt .ven 0 0 { d0 := 0x05000000 } with ven := { encs := [(0, {})] } } : Dev), 0, ({} : Enc), Or.inl (by decide +kernel), by decide +kernel⟩,
    ⟨dv, 4, Or.inl (by decide +kernel), by decide +kernel⟩,
    ⟨(tk { st := 2 }), 0, ({ st := 2 } : Task), Or.inl (by decide +kernel), by decide +kernel⟩,
    ⟨(tk { st := 2 }), 0, ({ st := 2 } : Task), Or.inl (by decide +kernel), by decide +kernel⟩,
    ⟨(tk { st := 2 }), 0, ({ st := 2 } : Task), Or.inl (by decide +kernel), by decide +kernel⟩,
    ⟨base, ([] : List Nat), by decide +kernel⟩,
    ⟨(st (rg dv [(Reg.PWR_STATUS, 31, 29, 1), (Reg.PWR_STATUS, 4, 0, 30)])), ([] : List Nat), by decide +kernel⟩⟩

theorem witness_SprintAndHeat :
    (∃ (s : State), s.ready = true) ∧
    (∃ (s : State) (v : Word), s.ready = true ∧ bit v 31 = true) ∧
    (∃ (s : State) (v : Word), s.ready = true ∧ bit v 31 = false) ∧
    (∃ (s : State), s.ready = true ∧ s.dev.pwr.sprintReq = false) ∧
    (∃ (s : State), s.ready = true ∧ s.dev.pwr.sprintReq = true ∧ s.dev.fclk = 0) ∧
    (∃ (s : State), s.ready = true ∧ (s.dev.sprinting = false ∨ (s.dev.pwr.sprintEnd = false ∧ s.dev.pwr.sprintHot = false ∧
      s.dev.sprintWindow < 72000 ∧ s.dev.pwr.residue < 4320000000))) ∧
    (∃ (s : State), s.ready = true ∧ s.dev.sprinting = true ∧ s.dev.fclk = 0 ∧ (s.dev.pwr.sprintEnd = true ∨ s.dev.pwr.sprintHot =
      true ∨ 72000 ≤ s.dev.sprintWindow ∨ 4320000000 ≤ s.dev.pwr.residue)) ∧
    (∃ (s : State) (temps : List Int) (c : Instr), s.ready = true ∧ c ∈ [Instr.thermThrottle temps, .thermEmergency temps,
      .thermTrip temps] ∧ (s.dev.mode = .reset ∨ temps = [])) ∧
    (∃ (s : State) (temps : List Int) (tj : Int) (lo : Int) (hot : Nat) (c : Instr), s.ready = true ∧ c ∈ [Instr.thermThrottle
      temps, .thermEmergency temps, .thermTrip temps] ∧ s.dev.mode ≠ .reset ∧ temps.length ≤ 24 ∧ (∀ x ∈ temps, -128 ≤ x ∧ x ≤ 127 ∧
      x ≤ tj ∧ lo ≤ x) ∧ lo ∈ temps ∧ temps[hot]? = some tj ∧ (∀ j, j < hot → temps[j]? ≠ some tj)) :=
  ⟨⟨base, by decide +kernel⟩,
    ⟨base, (0x80000000 : Word), by decide +kernel⟩,
    ⟨base, (0 : Word), by decide +kernel⟩,
    ⟨base, by decide +kernel⟩,
    ⟨(st { dv with pwr := { sprintReq := true } }), by decide +kernel⟩,
    ⟨base, by decide +kernel⟩,
    ⟨(st { rg dv [(Reg.PWR_STATUS, 19, 19, 1)] with pwr := { sprintEnd := true } }), by decide +kernel⟩,
    ⟨base, ([] : List Int), (Instr.thermTrip []), by decide +kernel⟩,
    ⟨base, ([5, 7] : List Int), (7 : Int), (5 : Int), 1, (Instr.thermEmergency [5, 7]), by decide +kernel⟩⟩

theorem witness_LineModules :
    (∃ (s : State) (m : Nat), s.ready = true ∧ (8 ≤ m ∨ s.dev.mode = .reset)) ∧
    (∃ (s : State) (m : Nat), s.ready = true ∧ m < 8 ∧ s.dev.mode ≠ .reset) ∧
    (∃ (s : State) (m : Nat), s.ready = true ∧ m < 8 ∧ tabFind s.dev.lmd.fell m = none) ∧
    (∃ (s : State) (m : Nat) (at_ : Nat), s.ready = true ∧ m < 8 ∧ tabFind s.dev.lmd.fell m = some at_ ∧ s.dev.reachNow (at_ +
      3000000000) = none) ∧
    (∃ (s : State) (m : Nat) (at_ : Nat) (id : ModuleId) (e : _), s.ready = true ∧ m < 8 ∧ tabFind s.dev.lmd.fell m = some at_ ∧
      s.dev.reachNow (at_ + 3000000000) = some e ∧ id.ok = false) ∧
    (∃ (s : State) (m : Nat) (at_ : Nat) (id : ModuleId) (e : _), s.ready = true ∧ m < 8 ∧ tabFind s.dev.lmd.fell m = some at_ ∧
      s.dev.reachNow (at_ + 3000000000) = some e ∧ id.ok = true ∧ tabSorted e.lmd.recs = true ∧ (∀ r ∈ e.lmd.recs, r.1 < 128) ∧
      id.cmis < 16) ∧
    (∃ (s : State) (m : Nat), s.ready = true ∧ (8 ≤ m ∨ s.dev.mode = .reset ∨ s.dev.modPresent m = false)) ∧
    (∃ (s : State) (m : Nat), s.ready = true ∧ m < 8 ∧ s.dev.mode ≠ .reset ∧ s.dev.modPresent m = true ∧ (∀ x ∈ s.dev.pci.inFlight,
      x.ring < 33)) ∧
    (∃ (s : State) (m : Nat), s.ready = true ∧ tabFind s.dev.lmd.hourAt m = none) ∧
    (∃ (s : State) (m : Nat) (mon : ModuleMon) (x : _), s.ready = true ∧ tabFind s.dev.lmd.hourAt m = some x ∧ m < 8 ∧ mon.cmis < 16) ∧
    (∃ (s : State) (mons : List ModuleMon), s.ready = true ∧ (∀ x ∈ mons, x.cmis < 16)) ∧
    (∃ (h : WearHour), h.laser = false) ∧
    (∃ (h : WearHour), h.laser = true) ∧
    (∃ (w : Wear) (h : WearHour), h.laser = true ∧ w.baseHours < 100) ∧
    (∃ (w : Wear), 100 ≤ w.baseHours) ∧
    (∃ (s : State) (m : Nat), s.ready = true ∧ m < 8 ∧ tabFind s.dev.lmd.hourAt m = none) ∧
    (∃ (s : State) (m : Nat) (at_ : Nat), s.ready = true ∧ m < 8 ∧ tabFind s.dev.lmd.hourAt m = some at_ ∧ s.dev.reachNow (at_ +
      5400000000000) = none) ∧
    (∃ (s : State) (m : Nat) (at_ : Nat) (e : _), s.ready = true ∧ m < 8 ∧ tabFind s.dev.lmd.hourAt m = some at_ ∧ s.dev.reachNow
      (at_ + 5400000000000) = some e ∧ tabFind e.lmd.recs (e.fld (modStat m) 6 0) = none) ∧
    (∃ (s : State) (m : Nat) (at_ : Nat) (e : _) (w : _), s.ready = true ∧ m < 8 ∧ tabFind s.dev.lmd.hourAt m = some at_ ∧
      s.dev.reachNow (at_ + 5400000000000) = some e ∧ tabFind e.lmd.recs (e.fld (modStat m) 6 0) = some w) ∧
    (∃ (s : State) (p : Path) (m : Nat) (v : Word) (w : Word) (c : Instr), s.ready = true ∧ ((c = Instr.lmdDrain p m v ∧ w = v |||
      0x80000000) ∨ (c = Instr.lmdModReset p m v ∧ w = v ||| 0x40000000)) ∧ 8 ≤ m) ∧
    (∃ (s : State) (p : Path) (m : Nat) (v : Word) (w : Word) (c : Instr), s.ready = true ∧ ((c = Instr.lmdDrain p m v ∧ w = v |||
      0x80000000) ∨ (c = Instr.lmdModReset p m v ∧ w = v ||| 0x40000000)) ∧ m < 8) ∧
    (∃ (s : State) (b : Nat), s.ready = true ∧ (4 ≤ b ∨ s.dev.mode = .reset)) ∧
    (∃ (s : State) (b : Nat), s.ready = true ∧ b < 4 ∧ s.dev.mode ≠ .reset) :=
  ⟨⟨State.reset, 0, by decide +kernel⟩,
    ⟨base, 0, by decide +kernel⟩,
    ⟨base, 0, by decide +kernel⟩,
    ⟨(st { dv with lmd := { fell := [(7, 0)] } }), 7, 0, by decide +kernel⟩,
    ⟨(st { dv with now := 3000000000, lmd := { fell := [(7, 0)] } }), 7, 0, ({ ok := false } : ModuleId), (st { dv with now := 3000000000, lmd := { fell := [(7, 0)] } }).dev, by decide +kernel⟩,
    ⟨(st { dv with now := 3000000000, lmd := { fell := [(7, 0)] } }), 7, 0, ({} : ModuleId), (st { dv with now := 3000000000, lmd := { fell := [(7, 0)] } }).dev, by decide +kernel⟩,
    ⟨base, 0, by decide +kernel⟩,
    ⟨(st (rg dv [(modStat 7, 31, 31, 1)])), 7, by decide +kernel⟩,
    ⟨base, 0, by decide +kernel⟩,
    ⟨(st { dv with lmd := { hourAt := [(7, 0)] } }), 7, ({} : ModuleMon), 0, by decide +kernel⟩,
    ⟨base, ({} : List ModuleMon), by decide +kernel⟩,
    ⟨({ laser := false } : WearHour), by decide +kernel⟩,
    ⟨({} : WearHour), by decide +kernel⟩,
    ⟨({} : Wear), ({} : WearHour), by decide +kernel⟩,
    ⟨({ baseHours := 100 } : Wear), by decide +kernel⟩,
    ⟨base, 0, by decide +kernel⟩,
    ⟨(st { dv with lmd := { hourAt := [(7, 0)] } }), 7, 0, by decide +kernel⟩,
    ⟨(st { dv with now := 5400000000000, lmd := { hourAt := [(7, 0)] } }), 7, 0, (st { dv with now := 5400000000000, lmd := { hourAt := [(7, 0)] } }).dev, by decide +kernel⟩,
    ⟨(st { dv with now := 5400000000000, lmd := { hourAt := [(7, 0)], recs := [(0, {})] } }), 7, 0, (st { dv with now := 5400000000000, lmd := { hourAt := [(7, 0)], recs := [(0, {})] } }).dev,
      ({} : Wear), by decide +kernel⟩,
    ⟨base, Path.pcie, 8, (0 : Word), (0x80000000 : Word), (Instr.lmdDrain Path.pcie 8 0), by decide +kernel⟩,
    ⟨base, Path.pcie, 7, (0 : Word), (0x40000000 : Word), (Instr.lmdModReset Path.pcie 7 0), by decide +kernel⟩,
    ⟨State.reset, 0, by decide +kernel⟩,
    ⟨base, 0, by decide +kernel⟩⟩

theorem witness_WindowAndRings :
    (∃ (s : State), s.ready = true) ∧
    (∃ (s : State), s.ready = true ∧ s.dev.mode ≠ .reset) ∧
    (∃ (s : State) (ring : Nat), s.ready = true ∧ 16 ≤ ring) ∧
    (∃ (s : State) (ring : Nat) (tail : Nat) (hw : HostWrites) (c : _) (r : _), s.ready = true ∧ ring < 16 ∧ tail < 65536 ∧ ((c =
      Instr.puntRingDoorbell ring tail hw ∧ r = ring) ∨ (c = Instr.injectRingDoorbell ring tail hw ∧ r = 16 + ring))) ∧
    (∃ (it : Item) (total : Nat) (len : Nat) (p : Punt), it.punt = some p ∧ len < 65536 ∧ total < 65536) ∧
    (∃ (it : Item) (auth : Nat) (total : Nat) (len : Nat) (p : Punt), it.punt = some p ∧ len < 65536 ∧ total < 65536 ∧ auth < 4) ∧
    (∃ (s : State) (ring : Nat), s.ready = true ∧ (16 ≤ ring ∨ s.dev.ringOn ring = false ∨ s.dev.hostQueue ring = none)) ∧
    (∃ (s : State) (ring : Nat) (q : _), s.ready = true ∧ s.dev.hostQueue ring = some q ∧ (s.dev.queue q).front = none) ∧
    (∃ (s : State) (ring : Nat) (q : _) (it : _) (pl : _), (s.ready = true ∧ ring < 16 ∧ s.dev.ringOn ring = true ∧ s.dev.hostQueue
      ring = some q ∧ (s.dev.queue q).front = some it ∧ s.dev.payload it.uid = some pl) ∧ (∃ k, k < (max 1 (ceilDiv (pl.bytes.take
      (pl.bytes.length - 4)).length (s.dev.fld (Reg.RING_CFG + ringOfs ring) 6 0 * 256))) ∧ (s.dev.ringPosted ring ≤ k ∨ byteAt
      (memBytes s.hostMem (s.dev.ringSlot ring k) 12) 11 < 128))) ∧
    (∃ (s : State) (ring : Nat) (q : _) (it : _) (pl : _), s.ready = true ∧ ring < 16 ∧ s.dev.ringOn ring = true ∧ s.dev.hostQueue
      ring = some q ∧ (s.dev.queue q).front = some it ∧ s.dev.payload it.uid = some pl ∧ (∀ k, k < (max 1 (ceilDiv (pl.bytes.take
      (pl.bytes.length - 4)).length (s.dev.fld (Reg.RING_CFG + ringOfs ring) 6 0 * 256))) → k < s.dev.ringPosted ring ∧ 128 ≤ byteAt
      (memBytes s.hostMem (s.dev.ringSlot ring k) 12) 11) ∧ (s.dev.queue q).release ≤ (s.dev.queue q).read ∧ (∀ x ∈
      s.dev.pci.inFlight, 16 ≤ x.ring ∧ x.ring < 32)) ∧
    (∃ (s : State) (ring : Nat), s.ready = true ∧ (16 ≤ ring ∨ s.dev.ringOn (16 + ring) = false)) ∧
    (∃ (s : State) (ring : Nat) (kind : Nat) (c : Instr), s.ready = true ∧ (c = .injectRawPort ring ∧ kind = 1 ∨ c = .injectLegCtrl
      ring ∧ kind = 2 ∨ c = .injectReparse ring ∧ kind = 3) ∧ ring < 16 ∧ s.dev.ringOn (16 + ring) = true ∧ (injItem (((List.range
      (s.dev.ringPosted (16 + ring) - (s.dev.ringRec (16 + ring)).taken)).map (fun k => injDesc s.hostMem (s.dev.ringSlot (16 +
      ring) ((s.dev.ringRec (16 + ring)).taken + k)))).takeWhile (fun x => decide (128 ≤ x.flags))) [] = none)) ∧
    (∃ (s : State) (ring : Nat) (kind : Nat) (c : Instr) (x : _) (xs : _) (marks : _), s.ready = true ∧ (c = .injectRawPort ring ∧
      kind = 1 ∨ c = .injectLegCtrl ring ∧ kind = 2 ∨ c = .injectReparse ring ∧ kind = 3) ∧ ring < 16 ∧ s.dev.ringOn (16 + ring) =
      true ∧ (injItem (((List.range (s.dev.ringPosted (16 + ring) - (s.dev.ringRec (16 + ring)).taken)).map (fun k => injDesc
      s.hostMem (s.dev.ringSlot (16 + ring) ((s.dev.ringRec (16 + ring)).taken + k)))).takeWhile (fun x₁ => decide (128 ≤
      x₁.flags))) [] = some (x :: xs, marks)) ∧ x.kind ≠ kind ∧ 1 ≤ x.kind ∧ x.kind ≤ 3) ∧
    (∃ (s : State) (ring : Nat) (kind : Nat) (c : Instr) (x : _) (xs : _) (marks : _), s.ready = true ∧ (c = .injectRawPort ring ∧
      kind = 1 ∨ c = .injectLegCtrl ring ∧ kind = 2 ∨ c = .injectReparse ring ∧ kind = 3) ∧ ring < 16 ∧ s.dev.ringOn (16 + ring) =
      true ∧ (injItem (((List.range (s.dev.ringPosted (16 + ring) - (s.dev.ringRec (16 + ring)).taken)).map (fun k => injDesc
      s.hostMem (s.dev.ringSlot (16 + ring) ((s.dev.ringRec (16 + ring)).taken + k)))).takeWhile (fun x₁ => decide (128 ≤
      x₁.flags))) [] = some (x :: xs, marks)) ∧ (x.kind = kind ∨ x.kind = 0 ∨ 3 < x.kind)) ∧
    (∃ (s : State) (ring : Nat), s.ready = true ∧ (s.dev.ringRec ring).firstAt = none) ∧
    (∃ (s : State) (ring : Nat) (at_ : _), s.ready = true ∧ (s.dev.ringRec ring).firstAt = some at_ ∧ ring < 33 ∧ s.dev.reachNow
      (at_ + s.dev.fld (Reg.RING_IRQ + ringOfs ring) 23 16 * 1500) = none) ∧
    (∃ (s : State) (ring : Nat) (at_ : _) (e : _), s.ready = true ∧ (s.dev.ringRec ring).firstAt = some at_ ∧ ring < 33 ∧
      s.dev.reachNow (at_ + s.dev.fld (Reg.RING_IRQ + ringOfs ring) 23 16 * 1500) = some e) ∧
    (∃ (s : State) (k : Nat), s.ready = true ∧ s.dev.task k = none) ∧
    (∃ (s : State) (k : Nat) (x : _), s.ready = true ∧ s.dev.task k = some x ∧ (x.st < 5 ∨ x.notify = false ∨ x.filling = true ∨
      s.dev.ringOn 32 = false ∨ s.dev.ringPosted 32 = 0)) ∧
    (∃ (s : State) (k : Nat) (x : _), s.ready = true ∧ s.dev.task k = some x ∧ 5 ≤ x.st ∧ x.notify = true ∧ x.filling = false ∧
      s.dev.ringOn 32 = true ∧ 0 < s.dev.ringPosted 32) :=
  ⟨⟨base, by decide +kernel⟩,
    ⟨base, by decide +kernel⟩,
    ⟨base, 16, by decide +kernel⟩,
    ⟨base, 15, 65535, ([] : HostWrites), (Instr.injectRingDoorbell 15 65535 []), 31, by decide +kernel⟩,
    ⟨({ punt := some { reason := 1 } } : Item), 65535, 65535, ({ reason := 1 } : Punt), by decide +kernel⟩,
    ⟨({ punt := some { reason := 1 } } : Item), 3, 65535, 65535, ({ reason := 1 } : Punt), by decide +kernel⟩,
    ⟨base, 0, by decide +kernel⟩,
    ⟨(st (dv.setEnt .que 1 0 { d1 := 1, d5 := 0x40000000 })), 0, 0, by decide +kernel⟩,
    ⟨({ pending := [], hostMem := [], dram := [], dev := { (rg dv [(Reg.PCI_STATUS, 31, 31, 1), (Reg.RING_CFG + ringOfs 0, 31, 31, 1), (Reg.RING_CFG + ringOfs 0, 20, 16, 1), (Reg.RING_TAIL + ringOfs 0, 15, 0, 0)]).setEnt .que 1 0 { d1 := 1, d5 := 0x40000000 } with que := { queues := [(0, { tail := 1, items := [{ uid := 1 }] })], payloads := [(1, { cells := 1, refs := 1, bytes := List.replicate 64 0 })] } } } : State),
      0, 0, ({ uid := 1 } : Item), ({ cells := 1, refs := 1, bytes := List.replicate 64 0 } : Payload), by decide +kernel, ⟨0, by decide +kernel,
      Or.inl (by decide +kernel)⟩⟩,
    ⟨({ pending := [], hostMem := [(11, 128)], dram := [], dev := { (rg dv [(Reg.PCI_STATUS, 31, 31, 1), (Reg.RING_CFG + ringOfs 0, 31, 31, 1), (Reg.RING_CFG + ringOfs 0, 20, 16, 1), (Reg.RING_TAIL + ringOfs 0, 15, 0, 1)]).setEnt .que 1 0 { d1 := 1, d5 := 0x40000000 } with que := { queues := [(0, { tail := 1, items := [{ uid := 1 }] })], payloads := [(1, { cells := 1, refs := 1, bytes := List.replicate 64 0 })] } } } : State),
      0, 0, ({ uid := 1 } : Item), ({ cells := 1, refs := 1, bytes := List.replicate 64 0 } : Payload), by decide +kernel⟩,
    ⟨base, 0, by decide +kernel⟩,
    ⟨({ pending := [], hostMem := [], dram := [], dev := { (rg dv [(Reg.PCI_STATUS, 31, 31, 1), (Reg.RING_CFG + ringOfs 16, 31, 31, 1), (Reg.RING_CFG + ringOfs 16, 20, 16, 1), (Reg.RING_TAIL + ringOfs 16, 15, 0, 0)]).setEnt .que 1 0 { d1 := 1, d5 := 0x40000000 } with que := { queues := [(0, { tail := 1, items := [{ uid := 1 }] })], payloads := [(1, { cells := 1, refs := 1, bytes := List.replicate 64 0 })] } } } : State),
      0, 1, (Instr.injectRawPort 0), by decide +kernel⟩,
    ⟨({ pending := [], hostMem := [(10, 2), (11, 224)], dram := [], dev := { (rg dv [(Reg.PCI_STATUS, 31, 31, 1), (Reg.RING_CFG + ringOfs 16, 31, 31, 1), (Reg.RING_CFG + ringOfs 16, 20, 16, 1), (Reg.RING_TAIL + ringOfs 16, 15, 0, 1)]).setEnt .que 1 0 { d1 := 1, d5 := 0x40000000 } with que := { queues := [(0, { tail := 1, items := [{ uid := 1 }] })], payloads := [(1, { cells := 1, refs := 1, bytes := List.replicate 64 0 })] } } } : State),
      0, 1, (Instr.injectRawPort 0), (⟨0, 0, 2, 224, 0, 0, 0, 0⟩ : InjDesc), ([] : List InjDesc), true, by decide +kernel⟩,
    ⟨({ pending := [], hostMem := [(10, 1), (11, 224)], dram := [], dev := { (rg dv [(Reg.PCI_STATUS, 31, 31, 1), (Reg.RING_CFG + ringOfs 16, 31, 31, 1), (Reg.RING_CFG + ringOfs 16, 20, 16, 1), (Reg.RING_TAIL + ringOfs 16, 15, 0, 1)]).setEnt .que 1 0 { d1 := 1, d5 := 0x40000000 } with que := { queues := [(0, { tail := 1, items := [{ uid := 1 }] })], payloads := [(1, { cells := 1, refs := 1, bytes := List.replicate 64 0 })] } } } : State),
      0, 1, (Instr.injectRawPort 0), (⟨0, 0, 1, 224, 0, 0, 0, 0⟩ : InjDesc), ([] : List InjDesc), true, by decide +kernel⟩,
    ⟨base, 0, by decide +kernel⟩,
    ⟨(st { rg dv [(Reg.RING_IRQ + ringOfs 32, 23, 16, 255)] with tim := { dt := dv.nextEdge - nsUnit }, pci := { rings := [(32, { firstAt := some 0 })] } }),
      32, 0, by decide +kernel⟩,
    ⟨(st { dv with now := 400000, pci := { rings := [(32, { firstAt := some 0 })] } }), 32, 0, ({ dv with now := 400000, pci := { rings := [(32, { firstAt := some 0 })] } } : Dev), by decide +kernel⟩,
    ⟨base, 0, by decide +kernel⟩,
    ⟨(st (tk { st := 2 })), 0, ({ st := 2 } : Task), by decide +kernel⟩,
    ⟨(st { rg dv [(Reg.PCI_STATUS, 31, 31, 1), (Reg.RING_CFG + ringOfs 32, 31, 31, 1), (Reg.RING_CFG + ringOfs 32, 20, 16, 1), (Reg.RING_TAIL + ringOfs 32, 15, 0, 1)] with tsk := { tasks := [(0, { st := 5, notify := true })] } }),
      0, ({ st := 5, notify := true } : Task), by decide +kernel⟩⟩

theorem witness_LinkEventsAndReset :
    (∃ (s : State), s.ready = true ∧ s.dev.flag Reg.PCI_STATUS 31 = false) ∧
    (∃ (s : State), s.ready = true ∧ s.dev.flag Reg.PCI_STATUS 31 = true) ∧
    (∃ (s : State), s.ready = true ∧ (s.dev.mode = .reset ∨ s.dev.flag Reg.PCI_STATUS 31 = true)) ∧
    (∃ (s : State), s.ready = true ∧ s.dev.mode ≠ .reset ∧ s.dev.flag Reg.PCI_STATUS 31 = false) ∧
    (∃ (s : State), s.ready = true ∧ s.dev.mode = .reset) ∧
    (∃ (s : State), s.ready = true ∧ s.dev.mode ≠ .reset) ∧
    (∃ (d : Dev) (op : Nat) (seq : Nat) (at_ : Nat) (q : Bool), d.pci.mbx.busy = some (op, seq, at_, q)) ∧
    (∃ (s : State) (w : Nat), s.ready = true ∧ 20 ≤ w) ∧
    (∃ (s : State) (w : Nat), s.ready = true ∧ w < 20) ∧
    (∃ (s : State) (v : Nat), s.ready = true ∧ 64 ≤ v) ∧
    (∃ (s : State) (v : Nat), s.ready = true ∧ v < 64) :=
  ⟨⟨base, by decide +kernel⟩,
    ⟨(st (rg dv [(Reg.PCI_STATUS, 31, 31, 1)])), by decide +kernel⟩,
    ⟨State.reset, by decide +kernel⟩,
    ⟨base, by decide +kernel⟩,
    ⟨State.reset, by decide +kernel⟩,
    ⟨base, by decide +kernel⟩,
    ⟨({ dv with pci := { mbx := { busy := some (1, 0, 0, false) } } } : Dev), 1, 0, 0, false, by decide +kernel⟩,
    ⟨base, 20, by decide +kernel⟩,
    ⟨base, 0, by decide +kernel⟩,
    ⟨base, 64, by decide +kernel⟩,
    ⟨base, 0, by decide +kernel⟩⟩

theorem witness_MailboxCommands :
    (∃ (s : State) (seq : Nat) (a : Nat) (b : Nat) (n : Nat) (op : Nat) (f : Bool) (v : Word) (bs : List Byte) (rs : List (List
      Byte)) (c : Instr), s.ready = true ∧ (c, op) ∈ [(Instr.getInfo seq, 1), (.modeSet seq a f, 2), (.loadRegion seq v a b [], 3),
      (.attest seq bs, 4), (.importOpen seq bs bs, 5), (.importWrap seq a rs, 5), (.importClose seq a, 5), (.blobGet seq a b, 5),
      (.blobPut seq a b rs, 5), (.lmRead seq a b n n n bs, 6), (.sprintReq seq a, 7), (.eventLog seq a b, 8), (.provision seq, 9),
      (.fwWrite seq a b bs f, 10), (.fwSwitch seq, 11), (.rollbackSet seq a, 12), (.portRead seq a, 13), (.policySet seq bs, 14)] ∧
      s.dev.mode = .reset) ∧
    (∃ (s : State) (seq : Nat) (a : Nat) (b : Nat) (n : Nat) (op : Nat) (f : Bool) (v : Word) (bs : List Byte) (rs : List (List
      Byte)) (c : Instr), s.ready = true ∧ (c, op) ∈ [(Instr.getInfo seq, 1), (.modeSet seq a f, 2), (.loadRegion seq v a b [], 3),
      (.attest seq bs, 4), (.importOpen seq bs bs, 5), (.importWrap seq a rs, 5), (.importClose seq a, 5), (.blobGet seq a b, 5),
      (.blobPut seq a b rs, 5), (.lmRead seq a b n n n bs, 6), (.sprintReq seq a, 7), (.eventLog seq a b, 8), (.provision seq, 9),
      (.fwWrite seq a b bs f, 10), (.fwSwitch seq, 11), (.rollbackSet seq a, 12), (.portRead seq a, 13), (.policySet seq bs, 14)] ∧
      s.dev.mode ≠ .reset ∧ s.dev.mbxTakes op = false) ∧
    (∃ (s : State) (x : Nat) (y : Nat) (z : Nat) (q : Bool), s.sound = true ∧ s.dev.tsk.todo = [] ∧ s.dev.mode ≠ .reset ∧
      s.dev.pci.mbx.busy = some (x, y, z, q) ∧ x ≠ 3 ∧ x ≠ 7) ∧
    (∃ (s : State), s.ready = true ∧ s.dev.mbxTakes 1 = true) ∧
    (∃ (s : State) (target : Nat) (f : Bool), s.ready = true ∧ s.dev.mbxTakes 2 = true ∧ (s.dev.judgeMode (target % 16) f) ≠ 0) ∧
    (∃ (s : State) (target : Nat) (f : Bool), s.ready = true ∧ s.dev.mbxTakes 2 = true ∧ (s.dev.judgeMode (target % 16) f) = 0 ∧
      s.dev.mode.carries = true) ∧
    (∃ (s : State) (target : Nat) (f : Bool), s.ready = true ∧ s.dev.mbxTakes 2 = true ∧ (s.dev.judgeMode (target % 16) f) = 0 ∧
      s.dev.mode.carries = false) ∧
    (∃ (s : State) (v : Word), s.ready = true ∧ s.dev.mbxTakes 3 = true ∧ s.dev.cfgBusy = true ∧ cmdField Reg.CFG_CTRL 31 28 v ≠ 3) ∧
    (∃ (s : State) (v : Word), s.ready = true ∧ s.dev.mbxTakes 3 = true ∧ (s.dev.cfgBusy = false ∨ cmdField Reg.CFG_CTRL 31 28 v = 3)) ∧
    (∃ (d : Dev) (seq : Nat) (at_ : Nat), d.pci.mbx.busy = some (3, seq, at_, false) ∧ d.cfgBusy = true) ∧
    (∃ (d : Dev) (seq : Nat) (at_ : Nat), d.pci.mbx.busy = some (3, seq, at_, false) ∧ d.cfgBusy = false) ∧
    (∃ (d : Dev) (seq : Nat) (at_ : Nat), d.pci.mbx.busy = some (7, seq, at_, false) ∧ d.pwr.sprintReq = false) ∧
    (∃ (s : State), s.ready = true ∧ s.dev.mbxTakes 7 = true ∧ s.dev.sprintRefusal ≠ 0) ∧
    (∃ (s : State) (op : Nat), s.ready = true ∧ s.dev.mbxTakes 7 = true ∧ op = 1 ∧ s.dev.sprintRefusal = 0) ∧
    (∃ (s : State), s.ready = true ∧ s.dev.mbxTakes 7 = true) ∧
    (∃ (s : State) (op : Nat), s.ready = true ∧ s.dev.mbxTakes 7 = true ∧ op ≠ 1 ∧ op ≠ 2) ∧
    (∃ (s : State), s.ready = true ∧ s.dev.mbxTakes 8 = true) ∧
    (∃ (s : State) (count : Nat), s.ready = true ∧ s.dev.mbxTakes 8 = true ∧ 0 < count ∧ count ≤ 1024) ∧
    (∃ (s : State) (p : Nat), s.ready = true ∧ s.dev.mbxTakes 13 = true ∧ 8 ≤ p) ∧
    (∃ (s : State) (p : Nat), s.ready = true ∧ s.dev.mbxTakes 13 = true ∧ p < 8) ∧
    (∃ (s : State) (fl : Nat), s.ready = true ∧ s.dev.mbxTakes 12 = true ∧ (fl % 2 ^ 32 < (s.dev.reg Reg.CFG_ROLLBACK).toNat ∨
      s.dev.cfg.secVer < fl % 2 ^ 32)) ∧
    (∃ (s : State) (fl : Nat), s.ready = true ∧ s.dev.mbxTakes 12 = true ∧ (s.dev.reg Reg.CFG_ROLLBACK).toNat ≤ fl % 2 ^ 32 ∧ fl % 2
      ^ 32 ≤ s.dev.cfg.secVer) ∧
    (∃ (s : State), s.ready = true ∧ s.dev.mbxTakes 6 = true) ∧
    (∃ (s : State), s.ready = true ∧ s.dev.mbxTakes 10 = true ∧ s.dev.pwr.fw.length = 2 ∧ s.dev.pwr.fwOk.length = 2) ∧
    (∃ (s : State), s.ready = true ∧ s.dev.mbxTakes 11 = true ∧ s.dev.pwr.fwOk.getD (1 - s.dev.fld Reg.TOP_STATUS 30 30) false = false) ∧
    (∃ (s : State), s.ready = true ∧ s.dev.mbxTakes 11 = true ∧ s.dev.pwr.fwOk.getD (1 - s.dev.fld Reg.TOP_STATUS 30 30) false = true) ∧
    (∃ (s : State), s.sound = true ∧ s.dev.tsk.todo = [] ∧ s.dev.evt.mcDown = false ∧ s.dev.pci.mbx.busy = none) ∧
    (∃ (s : State), (s.sound = true ∧ s.dev.tsk.todo = [] ∧ s.dev.evt.mcDown = true) ∧ (s.dev.pci.mbx.busy = none ∨ (∃ seq a,
      s.dev.pci.mbx.busy = some (11, seq, a, false)))) ∧
    (∃ (s : State), s.sound = true ∧ s.dev.tsk.todo = [] ∧ s.dev.pci.mbx.busy = none) ∧
    (∃ (s : State) (op : Nat) (seq : Nat) (at_ : Nat), s.sound = true ∧ s.dev.tsk.todo = [] ∧ s.dev.pci.mbx.busy = some (op, seq,
      at_, false) ∧ (op = 11 ∨ (op = 3 ∧ s.dev.cfgBusy = true) ∨ (op = 7 ∧ s.dev.pwr.sprintReq = true)) ∧ (s.dev.reachNow (at_ + if
      op = 3 then 1500000000 else if op = 7 then 5000000 else 150000000) = none)) ∧
    (∃ (s : State) (op : Nat) (seq : Nat) (at_ : Nat) (e : _), s.sound = true ∧ s.dev.tsk.todo = [] ∧ s.dev.pci.mbx.busy = some (op,
      seq, at_, false) ∧ (op = 11 ∨ (op = 3 ∧ s.dev.cfgBusy = true) ∨ (op = 7 ∧ s.dev.pwr.sprintReq = true)) ∧ (s.dev.reachNow (at_
      + if op = 3 then 1500000000 else if op = 7 then 5000000 else 150000000) = some e)) :=
  ⟨⟨(st (mo .reset)), 0, 0, 0, 0, 1, true, (0 : Word), ([] : List Byte), ([] : List (List Byte)), (Instr.getInfo 0), by decide +kernel⟩,
    ⟨base, 0, 0, 0, 0, 9, true, (0 : Word), ([] : List Byte), ([] : List (List Byte)), (Instr.provision 0), by decide +kernel⟩,
    ⟨(st { dv with pci := { mbx := { busy := some (1, 0, 0, false) } } }), 1, 0, 0, false, by decide +kernel⟩,
    ⟨base, by decide +kernel⟩,
    ⟨base, 0, true, by decide +kernel⟩,
    ⟨base, 8, true, by decide +kernel⟩,
    ⟨(st (mo .configure)), 10, true, by decide +kernel⟩,
    ⟨(st (rg dv [(Reg.CFG_STATUS, 7, 0, 1)])), (0 : Word), by decide +kernel⟩,
    ⟨base, (0 : Word), by decide +kernel⟩,
    ⟨({ rg dv [(Reg.CFG_STATUS, 7, 0, 1)] with pci := { mbx := { busy := some (3, 0, 0, false) } } } : Dev), 0, 0, by decide +kernel⟩,
    ⟨({ dv with pci := { mbx := { busy := some (3, 0, 0, false) } } } : Dev), 0, 0, by decide +kernel⟩,
    ⟨({ dv with pci := { mbx := { busy := some (7, 0, 0, false) } } } : Dev), 0, 0, by decide +kernel⟩,
    ⟨base, by decide +kernel⟩,
    ⟨(st { rg dv [(Reg.PWR_CFG, 30, 30, 1)] with pwr := { beats := 360000 } }), 1, by decide +kernel⟩,
    ⟨base, by decide +kernel⟩,
    ⟨base, 0, by decide +kernel⟩,
    ⟨base, by decide +kernel⟩,
    ⟨base, 1024, by decide +kernel⟩,
    ⟨base, 8, by decide +kernel⟩,
    ⟨base, 0, by decide +kernel⟩,
    ⟨base, 1, by decide +kernel⟩,
    ⟨base, 0, by decide +kernel⟩,
    ⟨base, by decide +kernel⟩,
    ⟨base, by decide +kernel⟩,
    ⟨(st { dv with pwr := { fwOk := [true, false] } }), by decide +kernel⟩,
    ⟨base, by decide +kernel⟩,
    ⟨base, by decide +kernel⟩,
    ⟨(st { dv with evt := { mcDown := true } }), by decide +kernel, Or.inl (by decide +kernel)⟩,
    ⟨base, by decide +kernel⟩,
    ⟨(st { dv with pci := { mbx := { busy := some (11, 0, 0, false) } } }), 11, 0, 0, by decide +kernel⟩,
    ⟨(st { dv with pci := { mbx := { busy := some (11, 0, 0, false) } }, now := 150000000 }), 11, 0, 0, (st { dv with pci := { mbx := { busy := some (11, 0, 0, false) } }, now := 150000000 }).dev, by decide +kernel⟩⟩

theorem witness_TapPort :
    (∃ (dev : Nat) (n : Nat) (it : TapItem), it.kind < 16 ∧ it.sub < 16 ∧ it.flags < 16 ∧ dev < 8 ∧ it.flock < 4096 ∧ it.ident <
      65536 ∧ it.seg < 4096 ∧ it.segs < 4096 ∧ 0 < n ∧ n ≤ 65536) ∧
    (∃ (s : State) (lane : Nat), s.ready = true ∧ (s.dev.laneUp lane = false ∨ s.dev.tap.held ≠ none)) ∧
    (∃ (s : State) (lane : Nat), s.ready = true ∧ s.dev.tapPick lane = none) ∧
    (∃ (s : State) (lane : Nat) (e : _) (video : _) (it : _) (rest : _), s.ready = true ∧ s.dev.laneUp lane = true ∧ s.dev.tap.held
      = none ∧ s.dev.tapPick lane = some (e, video) ∧ (s.dev.tapStream e).items = it :: rest) ∧
    (∃ (s : State), s.ready = true ∧ s.dev.tap.held ≠ none) ∧
    (∃ (s : State), s.ready = true ∧ s.dev.tap.held = none) ∧
    (∃ (s : State), s.ready = true ∧ s.dev.tap.outUp.length = 4 ∧ s.dev.tap.inUp.length = 2) ∧
    (∃ (s : State) (lane : Nat), s.ready = true ∧ (s.dev.tap.inUp.getD lane false = false ∨ s.dev.flag Reg.TAP_CFG (26 + lane) = false)) ∧
    (∃ (s : State) (lane : Nat) (bs : List Byte), s.ready = true ∧ s.dev.tap.inUp.getD lane false = true ∧ s.dev.flag Reg.TAP_CFG
      (26 + lane) = true ∧ (bs.length < 16 ∨ byteAt bs 15 ≠ crc8 (bs.take 15) ∨ byteAt bs 0 / 16 ≠ 1)) ∧
    (∃ (s : State) (lane : Nat) (bs : List Byte) (k : _), s.ready = true ∧ s.dev.tap.inUp.getD lane false = true ∧ s.dev.flag
      Reg.TAP_CFG (26 + lane) = true ∧ 16 ≤ bs.length ∧ byteAt bs 15 = crc8 (bs.take 15) ∧ byteAt bs 0 / 16 = 1 ∧ (byteAt bs 0 % 16
      ≠ 5 ∨ s.dev.inEntry (byteAt bs 1 / 16) (be16 bs 2 % 4096) (be16 bs 4) = none) ∧ (k = (if (decide (bs.length = (be16 bs 13 + 1)
      + 20 ∧ be32 bs (16 + (be16 bs 13 + 1)) = crc32 (slice bs 16 (be16 bs 13 + 1)))) then 7 else 6))) ∧
    (∃ (s : State) (lane : Nat) (bs : List Byte) (e : _), s.ready = true ∧ s.dev.tap.inUp.getD lane false = true ∧ s.dev.flag
      Reg.TAP_CFG (26 + lane) = true ∧ 16 ≤ bs.length ∧ byteAt bs 15 = crc8 (bs.take 15) ∧ byteAt bs 0 / 16 = 1 ∧ byteAt bs 0 % 16 =
      5 ∧ s.dev.inEntry (byteAt bs 1 / 16) (be16 bs 2 % 4096) (be16 bs 4) = some e) ∧
    (∃ (s : State) (lane : Nat) (bs : List Byte) (good : _) (e : _), s.ready = true ∧ s.dev.tap.inUp.getD lane false = true ∧
      s.dev.flag Reg.TAP_CFG (26 + lane) = true ∧ 16 ≤ bs.length ∧ byteAt bs 15 = crc8 (bs.take 15) ∧ byteAt bs 0 / 16 = 1 ∧ good = decide
      (bs.length = (be16 bs 13 + 1) + 20 ∧ be32 bs (16 + (be16 bs 13 + 1)) = crc32 (slice bs 16 (be16 bs 13 + 1))) ∧ byteAt bs 0 %
      16 = 5 ∧ s.dev.inEntry (byteAt bs 1 / 16) (be16 bs 2 % 4096) (be16 bs 4) = some e ∧ good = false) ∧
    (∃ (s : State) (lane : Nat) (bs : List Byte) (e : _), s.ready = true ∧ s.dev.tap.inUp.getD lane false = true ∧ s.dev.flag
      Reg.TAP_CFG (26 + lane) = true ∧ 16 ≤ bs.length ∧ byteAt bs 15 = crc8 (bs.take 15) ∧ byteAt bs 0 / 16 = 1 ∧ byteAt bs 0 % 16 =
      5 ∧ s.dev.inEntry (byteAt bs 1 / 16) (be16 bs 2 % 4096) (be16 bs 4) = some e ∧ (decide (bs.length = (be16 bs 13 + 1) + 20 ∧
      be32 bs (16 + (be16 bs 13 + 1)) = crc32 (slice bs 16 (be16 bs 13 + 1)))) = true ∧ ((tabFind s.dev.tap.ins (inKey lane e) =
      none ∧ (beNat (slice bs 10 3)) / 4096 ≠ 0) ∨ (tabFind s.dev.tap.ins (inKey lane e) = none ∧ (beNat (slice bs 10 3)) % 4096 =
      0) ∨ (∃ x, tabFind s.dev.tap.ins (inKey lane e) = some x ∧ (beNat (slice bs 10 3)) / 4096 ≠ 0 ∧ ((beNat (slice bs 10 3)) /
      4096 ≠ x.next ∨ (beNat (slice bs 10 3)) % 4096 ≠ x.count ∨ (be32 bs 6) ≠ x.beat ∨ (beNat (slice bs 10 3)) % 4096 ≤ (beNat
      (slice bs 10 3)) / 4096)))) ∧
    (∃ (s : State) (lane : Nat) (bs : List Byte) (e : _), s.ready = true ∧ s.dev.tap.inUp.getD lane false = true ∧ s.dev.flag
      Reg.TAP_CFG (26 + lane) = true ∧ 16 ≤ bs.length ∧ byteAt bs 15 = crc8 (bs.take 15) ∧ byteAt bs 0 / 16 = 1 ∧ byteAt bs 0 % 16 =
      5 ∧ s.dev.inEntry (byteAt bs 1 / 16) (be16 bs 2 % 4096) (be16 bs 4) = some e ∧ (decide (bs.length = (be16 bs 13 + 1) + 20 ∧
      be32 bs (16 + (be16 bs 13 + 1)) = crc32 (slice bs 16 (be16 bs 13 + 1)))) = true ∧ (beNat (slice bs 10 3)) / 4096 = 0 ∧ 1 <
      (beNat (slice bs 10 3)) % 4096) ∧
    (∃ (s : State) (lane : Nat) (bs : List Byte) (e : _) (x : _), s.ready = true ∧ s.dev.tap.inUp.getD lane false = true ∧
      s.dev.flag Reg.TAP_CFG (26 + lane) = true ∧ 16 ≤ bs.length ∧ byteAt bs 15 = crc8 (bs.take 15) ∧ byteAt bs 0 / 16 = 1 ∧ byteAt
      bs 0 % 16 = 5 ∧ s.dev.inEntry (byteAt bs 1 / 16) (be16 bs 2 % 4096) (be16 bs 4) = some e ∧ (decide (bs.length = (be16 bs 13 +
      1) + 20 ∧ be32 bs (16 + (be16 bs 13 + 1)) = crc32 (slice bs 16 (be16 bs 13 + 1)))) = true ∧ tabFind s.dev.tap.ins (inKey lane
      e) = some x ∧ (beNat (slice bs 10 3)) / 4096 = x.next ∧ (beNat (slice bs 10 3)) / 4096 ≠ 0 ∧ (beNat (slice bs 10 3)) % 4096 =
      x.count ∧ (be32 bs 6) = x.beat ∧ x.next + 1 < x.count) ∧
    (∃ (s : State) (lane : Nat) (bs : List Byte) (e : _) (x : _), s.ready = true ∧ s.dev.tap.inUp.getD lane false = true ∧
      s.dev.flag Reg.TAP_CFG (26 + lane) = true ∧ 16 ≤ bs.length ∧ byteAt bs 15 = crc8 (bs.take 15) ∧ byteAt bs 0 / 16 = 1 ∧ byteAt
      bs 0 % 16 = 5 ∧ s.dev.inEntry (byteAt bs 1 / 16) (be16 bs 2 % 4096) (be16 bs 4) = some e ∧ (decide (bs.length = (be16 bs 13 +
      1) + 20 ∧ be32 bs (16 + (be16 bs 13 + 1)) = crc32 (slice bs 16 (be16 bs 13 + 1)))) = true ∧ x.entry = e ∧ x.sub = (byteAt bs 1
      / 16) ∧ x.flock = (be16 bs 2 % 4096) ∧ x.ident = (be16 bs 4) ∧ x.beat = (be32 bs 6) ∧ ((beNat (slice bs 10 3)) / 4096 = 0 ∧
      (beNat (slice bs 10 3)) % 4096 = 1 ∧ tabFind s.dev.tap.ins (inKey lane e) = none ∧ x.bytes = [] ∨ tabFind s.dev.tap.ins (inKey
      lane e) = some x ∧ (beNat (slice bs 10 3)) / 4096 = x.next ∧ (beNat (slice bs 10 3)) / 4096 ≠ 0 ∧ (beNat (slice bs 10 3)) %
      4096 = x.count ∧ x.next + 1 = x.count) ∧ (byteAt bs 1 / 16) = 3) ∧
    (∃ (s : State) (lane : Nat) (bs : List Byte) (e : _) (x : _) (k : _), s.ready = true ∧ s.dev.tap.inUp.getD lane false = true ∧
      s.dev.flag Reg.TAP_CFG (26 + lane) = true ∧ 16 ≤ bs.length ∧ byteAt bs 15 = crc8 (bs.take 15) ∧ byteAt bs 0 / 16 = 1 ∧ byteAt
      bs 0 % 16 = 5 ∧ s.dev.inEntry (byteAt bs 1 / 16) (be16 bs 2 % 4096) (be16 bs 4) = some e ∧ (decide (bs.length = (be16 bs 13 +
      1) + 20 ∧ be32 bs (16 + (be16 bs 13 + 1)) = crc32 (slice bs 16 (be16 bs 13 + 1)))) = true ∧ x.entry = e ∧ x.sub = (byteAt bs 1
      / 16) ∧ x.flock = (be16 bs 2 % 4096) ∧ x.ident = (be16 bs 4) ∧ x.beat = (be32 bs 6) ∧ ((beNat (slice bs 10 3)) / 4096 = 0 ∧
      (beNat (slice bs 10 3)) % 4096 = 1 ∧ tabFind s.dev.tap.ins (inKey lane e) = none ∧ x.bytes = [] ∨ tabFind s.dev.tap.ins (inKey
      lane e) = some x ∧ (beNat (slice bs 10 3)) / 4096 = x.next ∧ (beNat (slice bs 10 3)) / 4096 ≠ 0 ∧ (beNat (slice bs 10 3)) %
      4096 = x.count ∧ x.next + 1 = x.count) ∧ (byteAt bs 1 / 16) = 2 ∧ k < (s.dev.tapIn e).f 4 7 0 ∧ (∀ b ∈ s.dev.tap.bufs, b.1 = e
      → b.2.1 ≠ k) ∧ (∀ j, j < k → ∃ b ∈ s.dev.tap.bufs, b.1 = e ∧ b.2.1 = j) ∧ pictureSize (x.bytes ++ slice bs 16 (be16 bs 13 +
      1)) ≤ (s.dev.tapIn e).f 4 31 8 * 4096) ∧
    (∃ (s : State) (lane : Nat) (bs : List Byte) (e : _) (x : _), (s.ready = true ∧ s.dev.tap.inUp.getD lane false = true ∧
      s.dev.flag Reg.TAP_CFG (26 + lane) = true ∧ 16 ≤ bs.length ∧ byteAt bs 15 = crc8 (bs.take 15) ∧ byteAt bs 0 / 16 = 1 ∧ byteAt
      bs 0 % 16 = 5 ∧ s.dev.inEntry (byteAt bs 1 / 16) (be16 bs 2 % 4096) (be16 bs 4) = some e ∧ (decide (bs.length = (be16 bs 13 +
      1) + 20 ∧ be32 bs (16 + (be16 bs 13 + 1)) = crc32 (slice bs 16 (be16 bs 13 + 1)))) = true ∧ x.entry = e ∧ x.sub = (byteAt bs 1
      / 16) ∧ x.flock = (be16 bs 2 % 4096) ∧ x.ident = (be16 bs 4) ∧ x.beat = (be32 bs 6) ∧ ((beNat (slice bs 10 3)) / 4096 = 0 ∧
      (beNat (slice bs 10 3)) % 4096 = 1 ∧ tabFind s.dev.tap.ins (inKey lane e) = none ∧ x.bytes = [] ∨ tabFind s.dev.tap.ins (inKey
      lane e) = some x ∧ (beNat (slice bs 10 3)) / 4096 = x.next ∧ (beNat (slice bs 10 3)) / 4096 ≠ 0 ∧ (beNat (slice bs 10 3)) %
      4096 = x.count ∧ x.next + 1 = x.count) ∧ (byteAt bs 1 / 16) = 2) ∧ ((s.dev.tapIn e).f 4 31 8 * 4096 < pictureSize (x.bytes ++
      slice bs 16 (be16 bs 13 + 1)) ∨ (∀ j, j < (s.dev.tapIn e).f 4 7 0 → ∃ b ∈ s.dev.tap.bufs, b.1 = e ∧ b.2.1 = j))) ∧
    (∃ (s : State) (lane : Nat), s.ready = true ∧ ((s.dev.tap.ins.filter (fun x => x.1 / 256 == lane && decide (x.2.first +
      s.dev.fld Reg.TAP_CFG 15 8 ≤ s.dev.beat))) = [])) ∧
    (∃ (s : State) (lane : Nat), s.ready = true ∧ ((s.dev.tap.ins.filter (fun x => x.1 / 256 == lane && decide (x.2.first +
      s.dev.fld Reg.TAP_CFG 15 8 ≤ s.dev.beat))) ≠ [])) ∧
    (∃ (s : State), s.ready = true ∧ s.dev.tap.outUp.length = 4) :=
  ⟨⟨7, 65536, ({ kind := 15, sub := 15, flock := 4095, ident := 65535, flags := 15, seg := 4094, len := 268369920 } : TapItem), by decide +kernel⟩,
    ⟨base, 0, by decide +kernel⟩,
    ⟨base, 0, by decide +kernel⟩,
    ⟨(st { (rg dv [(Reg.TAP_CFG, 28, 28, 1)]).setEnt .tap 0 0 { d0 := 0xC0000000 } with tap := { outUp := [true, false, false, false], streams := [(0, { items := [({ kind := 4, sub := 0, flock := 0, ident := 0, len := 10 } : TapItem)] })] } }),
      0, 0, false, ({ kind := 4, sub := 0, flock := 0, ident := 0, len := 10 } : TapItem), ([] : List TapItem), by decide +kernel⟩,
    ⟨(st { dv with tap := { held := some 0 } }), by decide +kernel⟩,
    ⟨base, by decide +kernel⟩,
    ⟨base, by decide +kernel⟩,
    ⟨base, 0, by decide +kernel⟩,
    ⟨(st (tin {})), 1, ([] : List Byte), by decide +kernel⟩,
    ⟨(st (tin {})), 1, (tapFrame [20, 48, 0, 5, 0, 9, 0, 0, 0, 0, 0, 0, 1, 0, 3] [1, 2, 3, 4]), 7, by decide +kernel⟩,
    ⟨(st (tin { d0 := 2197815305, d1 := 5242880 })), 1, (tapFrame [21, 48, 0, 5, 0, 9, 0, 0, 0, 0, 0, 0, 1, 0, 3] [1, 2, 3, 4]), 3, by decide +kernel⟩,
    ⟨(st (tin { d0 := 2197815305, d1 := 5242880, d4 := 0 })), 1, (tapFrame [21, 48, 0, 5, 0, 9, 0, 0, 0, 0, 0, 0, 1, 0, 9] [1, 2, 3,
      4]), false, 3, by decide +kernel⟩,
    ⟨(st (tin { d0 := 2197815305, d1 := 5242880, d4 := 0 })), 1, (tapFrame [21, 48, 0, 5, 0, 9, 0, 0, 0, 0, 0, 16, 2, 0, 3] [1, 2,
      3, 4]), 3, by decide +kernel⟩,
    ⟨(st (tin { d0 := 2197815305, d1 := 5242880 })), 1, (tapFrame [21, 48, 0, 5, 0, 9, 0, 0, 0, 0, 0, 15, 255, 0, 3] [1, 2, 3, 4]),
      3, by decide +kernel⟩,
    ⟨(st { tin { d0 := 2197815305, d1 := 5242880 } with tap := { inUp := [true, true], ins := [(259, { entry := 3, sub := 3, flock := 5, ident := 9, beat := 0, count := 3, next := 1 })] } }),
      1, (tapFrame [21, 48, 0, 5, 0, 9, 0, 0, 0, 0, 0, 16, 3, 0, 3] [1, 2, 3, 4]), 3, ({ entry := 3, sub := 3, flock := 5, ident := 9, beat := 0, count := 3, next := 1 } : TapIn), by decide +kernel⟩,
    ⟨(st { tin { d0 := 2197815305, d1 := 5242880 } with tap := { inUp := [true, true], ins := [(259, { entry := 3, sub := 3, flock := 5, ident := 9, beat := 0, count := 2, next := 1 })] } }),
      1, (tapFrame [21, 48, 0, 5, 0, 9, 0, 0, 0, 0, 0, 16, 2, 0, 3] [1, 2, 3, 4]), 3, ({ entry := 3, sub := 3, flock := 5, ident := 9, beat := 0, count := 2, next := 1 } : TapIn), by decide +kernel⟩,
    ⟨(st (tin { d0 := 2181038089, d1 := 5242880, d4 := 258 })), 1, (tapFrame [21, 32, 0, 5, 0, 9, 0, 0, 0, 0, 0, 0, 1, 0, 21] [0, 2,
      0, 2, 8, 0, 0, 0, 0, 0, 0, 0, 0, 0, 0, 0, 1, 1, 1, 1, 1, 1]), 3, ({ entry := 3, sub := 2, flock := 5, ident := 9, beat := 0, count := 0, next := 0 } : TapIn),
      0, by decide +kernel⟩,
    ⟨(st (tin { d0 := 2181038089, d1 := 5242880, d4 := 0 })), 1, (tapFrame [21, 32, 0, 5, 0, 9, 0, 0, 0, 0, 0, 0, 1, 0, 21] [0, 2,
      0, 2, 8, 0, 0, 0, 0, 0, 0, 0, 0, 0, 0, 0, 1, 1, 1, 1, 1, 1]), 3, ({ entry := 3, sub := 2, flock := 5, ident := 9, beat := 0, count := 0, next := 0 } : TapIn), by decide +kernel,
      Or.inr (by decide +kernel)⟩,
    ⟨(st { rg dv [(Reg.TAP_CFG, 15, 8, 255)] with beat := 0, tap := { ins := [(1, ({ entry := 3, sub := 3, flock := 5, ident := 9, beat := 0, count := 2, next := 1 } : TapIn))] } }),
      1, by decide +kernel⟩,
    ⟨(st { rg dv [(Reg.TAP_CFG, 15, 8, 255)] with beat := 255, tap := { ins := [(259, { entry := 3, sub := 3, flock := 5, ident := 9, beat := 0, count := 2, next := 1 })] } }),
      1, by decide +kernel⟩,
    ⟨base, by decide +kernel⟩⟩

/-- A device with an index in a table's ADDR and words in its DATA. -/
def tabd (addr data i : Nat) (ws : List Nat) : Dev :=
  rg dv ((addr, 31, 0, i) :: ws.zipIdx.map (fun x => (data + 4 * x.2, 31, 0, x.1)))

/-- Some state and operand name an entry that is, or is not, beyond the table. -/
def readable (cmd addr hi : Nat) (beyond : Nat → Nat → Bool) (tables : Nat) (b : Bool) : Prop :=
  ∃ (s : State) (v : Word), s.ready = true ∧
    beyond (if bits v 27 24 < tables then bits v 27 24 else s.dev.fld cmd 27 24) (s.dev.fld addr hi 0) = b

/-- Some state and operand meet what a table's WRITE asks. -/
def takes (cmd addr data hi tables : Nat) (ok : Dev → Nat → Nat → Entry → Prop) : Prop :=
  ∃ (s : State) (v : Word), s.ready = true ∧
    ok (s.dev.writeReg cmd v) (if bits v 27 24 < tables then bits v 27 24 else s.dev.fld cmd 27 24) (s.dev.fld addr hi 0)
      (s.dev.dataEntry data)

/-- Some state and operand meet the condition on which a table's WRITE is turned away. -/
def turnsAway (cmd : Nat) (when_ : Dev → Word → Prop) : Prop :=
  ∃ (s : State) (v : Word), s.ready = true ∧ when_ (s.dev.writeReg cmd v) v

theorem witness_TableReads :
    readable Reg.TSK_TAB_CMD Reg.TSK_TAB_ADDR 16 tskBeyond 4 false ∧
    readable Reg.TSK_TAB_CMD Reg.TSK_TAB_ADDR 16 tskBeyond 4 true ∧
    readable Reg.MAT_TAB_CMD Reg.MAT_TAB_ADDR 24 (pastEnd matTabSize) 7 false ∧
    readable Reg.MAT_TAB_CMD Reg.MAT_TAB_ADDR 24 (pastEnd matTabSize) 7 true ∧
    readable Reg.MET_TAB_CMD Reg.MET_TAB_ADDR 20 (pastEnd metTabSize) 2 false ∧
    readable Reg.MET_TAB_CMD Reg.MET_TAB_ADDR 20 (pastEnd metTabSize) 2 true ∧
    readable Reg.QUE_TAB_CMD Reg.QUE_TAB_ADDR 17 (pastEnd queTabSize) 3 false ∧
    readable Reg.QUE_TAB_CMD Reg.QUE_TAB_ADDR 17 (pastEnd queTabSize) 3 true ∧
    readable Reg.FWD_TAB_CMD Reg.FWD_TAB_ADDR 22 (pastEnd fwdTabSize) 5 false ∧
    readable Reg.FWD_TAB_CMD Reg.FWD_TAB_ADDR 22 (pastEnd fwdTabSize) 5 true ∧
    readable Reg.LEG_TAB_CMD Reg.LEG_TAB_ADDR 13 (pastEnd fun _ => 16384) 1 false ∧
    readable Reg.VDC_TAB_CMD Reg.VDC_TAB_ADDR 13 (pastEnd vdcTabSize) 4 false ∧
    readable Reg.VDC_TAB_CMD Reg.VDC_TAB_ADDR 13 (pastEnd vdcTabSize) 4 true ∧
    readable Reg.CMP_TAB_CMD Reg.CMP_TAB_ADDR 17 (pastEnd cmpTabSize) 4 false ∧
    readable Reg.CMP_TAB_CMD Reg.CMP_TAB_ADDR 17 (pastEnd cmpTabSize) 4 true ∧
    readable Reg.VEN_TAB_CMD Reg.VEN_TAB_ADDR 13 venBeyond 2 false ∧
    readable Reg.VEN_TAB_CMD Reg.VEN_TAB_ADDR 13 venBeyond 2 true ∧
    readable Reg.AUD_TAB_CMD Reg.AUD_TAB_ADDR 13 (pastEnd audTabSize) 2 false ∧
    readable Reg.AUD_TAB_CMD Reg.AUD_TAB_ADDR 13 (pastEnd audTabSize) 2 true ∧
    readable Reg.FLT_TAB_CMD Reg.FLT_TAB_ADDR 13 (pastEnd fltTabSize) 2 false ∧
    readable Reg.FLT_TAB_CMD Reg.FLT_TAB_ADDR 13 (pastEnd fltTabSize) 2 true ∧
    readable Reg.GAT_TAB_CMD Reg.GAT_TAB_ADDR 9 (fun t _ => decide (8 ≤ t)) 8 false ∧
    readable Reg.EGS_TAB_CMD Reg.EGS_TAB_ADDR 17 (pastEnd egsTabSize) 4 false ∧
    readable Reg.EGS_TAB_CMD Reg.EGS_TAB_ADDR 17 (pastEnd egsTabSize) 4 true ∧
    readable Reg.MUL_TAB_CMD Reg.MUL_TAB_ADDR 14 (pastEnd mulTabSize) 2 false ∧
    readable Reg.MUL_TAB_CMD Reg.MUL_TAB_ADDR 14 (pastEnd mulTabSize) 2 true ∧
    readable Reg.LMD_TAB_CMD Reg.LMD_TAB_ADDR 6 (pastEnd fun t => if t = 0 then 128 else 0) 1 false ∧
    readable Reg.TAP_TAB_CMD Reg.TAP_TAB_ADDR 9 (pastEnd tapTabSize) 2 false ∧
    readable Reg.TAP_TAB_CMD Reg.TAP_TAB_ADDR 9 (pastEnd tapTabSize) 2 true :=
  ⟨⟨base, 0, by decide +kernel, by decide +kernel⟩,
    ⟨st (rg dv [(Reg.TSK_TAB_ADDR, 16, 0, 131071)]), 0x11000000, by decide +kernel, by decide +kernel⟩,
    ⟨base, 0, by decide +kernel, by decide +kernel⟩,
    ⟨st (rg dv [(Reg.MAT_TAB_ADDR, 24, 0, 33554431)]), 0x10000000, by decide +kernel, by decide +kernel⟩,
    ⟨base, 0, by decide +kernel, by decide +kernel⟩,
    ⟨st (rg dv [(Reg.MET_TAB_ADDR, 20, 0, 2097151)]), 0x10000000, by decide +kernel, by decide +kernel⟩,
    ⟨base, 0, by decide +kernel, by decide +kernel⟩,
    ⟨st (rg dv [(Reg.QUE_TAB_ADDR, 17, 0, 262143)]), 0x11000000, by decide +kernel, by decide +kernel⟩,
    ⟨base, 0, by decide +kernel, by decide +kernel⟩,
    ⟨st (rg dv [(Reg.FWD_TAB_ADDR, 22, 0, 8388607)]), 0x10000000, by decide +kernel, by decide +kernel⟩,
    ⟨base, 0, by decide +kernel, by decide +kernel⟩,
    ⟨base, 0, by decide +kernel, by decide +kernel⟩,
    ⟨st (rg dv [(Reg.VDC_TAB_ADDR, 13, 0, 16383)]), 0x10000000, by decide +kernel, by decide +kernel⟩,
    ⟨base, 0, by decide +kernel, by decide +kernel⟩,
    ⟨st (rg dv [(Reg.CMP_TAB_ADDR, 17, 0, 262143)]), 0x10000000, by decide +kernel, by decide +kernel⟩,
    ⟨base, 0, by decide +kernel, by decide +kernel⟩,
    ⟨st (rg dv [(Reg.VEN_TAB_ADDR, 13, 0, 16383)]), 0x10000000, by decide +kernel, by decide +kernel⟩,
    ⟨base, 0, by decide +kernel, by decide +kernel⟩,
    ⟨st (rg dv [(Reg.AUD_TAB_ADDR, 13, 0, 16383)]), 0x11000000, by decide +kernel, by decide +kernel⟩,
    ⟨base, 0, by decide +kernel, by decide +kernel⟩,
    ⟨st (rg dv [(Reg.FLT_TAB_ADDR, 13, 0, 16383)]), 0x11000000, by decide +kernel, by decide +kernel⟩,
    ⟨base, 0, by decide +kernel, by decide +kernel⟩,
    ⟨base, 0, by decide +kernel, by decide +kernel⟩,
    ⟨st (rg dv [(Reg.EGS_TAB_ADDR, 17, 0, 262143)]), 0x12000000, by decide +kernel, by decide +kernel⟩,
    ⟨base, 0, by decide +kernel, by decide +kernel⟩,
    ⟨st (rg dv [(Reg.MUL_TAB_ADDR, 14, 0, 32767)]), 0x11000000, by decide +kernel, by decide +kernel⟩,
    ⟨base, 0, by decide +kernel, by decide +kernel⟩,
    ⟨base, 0, by decide +kernel, by decide +kernel⟩,
    ⟨st (rg dv [(Reg.TAP_TAB_ADDR, 9, 0, 1023)]), 0x11000000, by decide +kernel, by decide +kernel⟩⟩

theorem witness_TableWrites :
    takes Reg.MET_TAB_CMD Reg.MET_TAB_ADDR Reg.MET_TAB_DATA 20 2 (fun _ t i n => t = 0 ∧ i < 262144 ∧ 9279 ≤ n.f 3 23 0 ∧ (9279 ≤
      n.f 4 23 0 ∨ n.b 0 31 = true)) ∧
    takes Reg.MAT_TAB_CMD Reg.MAT_TAB_ADDR Reg.MAT_TAB_DATA 24 7 (fun d t i _ => t ≠ 2 ∧ i < matTabSize t ∧ (banked t = true →
      d.flag Reg.MAT_TAB_CMD 23 = true ∧ d.flag Reg.MAT_EPOCH 30 = true) ∧ (t = 5 → i ≠ 0)) ∧
    takes Reg.QUE_TAB_CMD Reg.QUE_TAB_ADDR Reg.QUE_TAB_DATA 17 3 (fun d t i n => (t = 0 ∧ i < 262144) ∨ (t = 1 ∧ i < queTabSize 1 ∧
      n.word 0 = (d.group i).word 0 ∧ n.word 1 = (d.group i).word 1 ∧ n.word 2 = (d.group i).word 2 ∧ n.word 5 = (d.group i).word 5
      ∧ n.f 4 27 0 < n.f 3 27 0) ∨ (t = 2 ∧ i < 16 ∧ n.f 0 31 28 = (d.fcOut i).f 0 31 28 ∧ n.f 0 26 16 = (d.fcOut i).f 0 26 16 ∧ n.f
      0 15 0 ≠ 0)) ∧
    takes Reg.FWD_TAB_CMD Reg.FWD_TAB_ADDR Reg.FWD_TAB_DATA 22 5 (fun d t i _ => t < 4 ∧ i < fwdTabSize t ∧ (t = 2 → d.composedSubs
      i = [])) ∧
    takes Reg.LEG_TAB_CMD Reg.LEG_TAB_ADDR Reg.LEG_TAB_DATA 13 1 (fun _ _ _ _ => True) ∧
    takes Reg.CMP_TAB_CMD Reg.CMP_TAB_ADDR Reg.CMP_TAB_DATA 17 4 (fun d t i n => (t = 1 ∧ i < 262144 ∧ tileOk (d.layEnt (i / 64))
      (Entry.legal (d.ent .cmp 1 i) { d0 := n.d0, d1 := n.d1, d2 := n.d2 &&& 0xF8FFFFFF, d3 := n.d3 &&& 0x0FFFFFFF } [(2, 31, 30,
      [(0, 2)]), (2, 29, 28, [(0, 2)])]) = true) ∨ (t = 2 ∧ i < 4096) ∨ (t = 3 ∧ 128 ≤ i ∧ i < 512 ∧ tapsSum { d0 := n.d0, d1 := n.d1, d2 := n.d2 &&& 0xFFFF }
      = 256)) ∧
    takes Reg.FLT_TAB_CMD Reg.FLT_TAB_ADDR Reg.FLT_TAB_DATA 13 2 (fun _ t i n => t = 1 ∧ i < 8 ∧ profileOk { d0 := n.d0 &&& 0xC7FFFFFF, d1 := n.d1, d2 := n.d2, d3 := n.d3 &&& 0xFF }
      = true) ∧
    takes Reg.GAT_TAB_CMD Reg.GAT_TAB_ADDR Reg.GAT_TAB_DATA 9 8 (fun d t _ n => t < 8 ∧ d.flag Reg.GAT_TAB_CMD 23 = true ∧ d.flag
      (Reg.GAT_CTRL + gatePort t) 28 = false ∧ n.f 1 31 0 ≠ 0 ∧ n.f 1 31 0 ≤ 1000000000 ∧ n.f 0 31 8 = 0) ∧
    takes Reg.EGS_TAB_CMD Reg.EGS_TAB_ADDR Reg.EGS_TAB_DATA 17 4 (fun _ t i n => (t = 0 ∧ i < 262144) ∨ (t = 3 ∧ i < 72 ∧ (n.f 0 31
      0 = 0 ∨ 1536 ≤ n.f 1 23 0)) ∨ (t = 2 ∧ i < 1024 ∧ n.f 0 7 0 ≠ 0)) ∧
    takes Reg.TAP_TAB_CMD Reg.TAP_TAB_ADDR Reg.TAP_TAB_DATA 9 2 (fun _ t i _ => (t = 0 ∧ i < 1024) ∨ (t = 1 ∧ i < 256)) :=
  ⟨⟨st (tabd Reg.MET_TAB_ADDR Reg.MET_TAB_DATA 262143 [0, 0, 0, 9279, 9279]), 0x20000000, by decide +kernel, by dsimp only; decide +kernel⟩,
    ⟨st (rg (tabd Reg.MAT_TAB_ADDR Reg.MAT_TAB_DATA 1 []) [(Reg.MAT_EPOCH, 30, 30, 1)]), 0x25800000, by decide +kernel, by dsimp only; decide +kernel⟩,
    ⟨st (tabd Reg.QUE_TAB_ADDR Reg.QUE_TAB_DATA 262143 [0, 0, 0, 0, 0, 0, 36]), 0x20000000, by decide +kernel, by dsimp only; decide +kernel⟩,
    ⟨st (tabd Reg.FWD_TAB_ADDR Reg.FWD_TAB_DATA 0 []), 0x23000000, by decide +kernel, by dsimp only; decide +kernel⟩,
    ⟨st (tabd Reg.LEG_TAB_ADDR Reg.LEG_TAB_DATA 16383 []), 0x20000000, by decide +kernel, trivial⟩,
    ⟨st (tabd Reg.CMP_TAB_ADDR Reg.CMP_TAB_DATA 4095 []), 0x22000000, by decide +kernel, by dsimp only; decide +kernel⟩,
    ⟨st (tabd Reg.FLT_TAB_ADDR Reg.FLT_TAB_DATA 7 [6144, 655370, 65586]), 0x21000000, by decide +kernel, by dsimp only; decide +kernel⟩,
    ⟨st (tabd Reg.GAT_TAB_ADDR Reg.GAT_TAB_DATA 511 [255, 1000000000]), 0x27800000, by decide +kernel, by dsimp only; decide +kernel⟩,
    ⟨st (tabd Reg.EGS_TAB_ADDR Reg.EGS_TAB_DATA 1023 [255]), 0x22000000, by decide +kernel, by dsimp only; decide +kernel⟩,
    ⟨st (tabd Reg.TAP_TAB_ADDR Reg.TAP_TAB_DATA 255 []), 0x21000000, by decide +kernel, by dsimp only; decide +kernel⟩⟩

theorem witness_TableWritesRefused :
    turnsAway Reg.TSK_TAB_CMD (fun d _ => d.fld Reg.TSK_TAB_CMD 27 24 ≠ 0 ∨ 4096 ≤ d.fld Reg.TSK_TAB_ADDR 16 0) ∧
    turnsAway Reg.MAT_TAB_CMD (fun d _ => matTabSize (d.fld Reg.MAT_TAB_CMD 27 24) ≤ d.fld Reg.MAT_TAB_ADDR 24 0) ∧
    turnsAway Reg.MAT_TAB_CMD (fun d _ => d.fld Reg.MAT_TAB_ADDR 24 0 < matTabSize (d.fld Reg.MAT_TAB_CMD 27 24) ∧ banked (d.fld
      Reg.MAT_TAB_CMD 27 24) = true ∧ d.flag Reg.MAT_TAB_CMD 23 = false) ∧
    turnsAway Reg.MAT_TAB_CMD (fun d _ => d.fld Reg.MAT_TAB_ADDR 24 0 < matTabSize (d.fld Reg.MAT_TAB_CMD 27 24) ∧ banked (d.fld
      Reg.MAT_TAB_CMD 27 24) = true ∧ d.flag Reg.MAT_TAB_CMD 23 = true ∧ d.flag Reg.MAT_EPOCH 30 = false) ∧
    turnsAway Reg.MET_TAB_CMD (fun d _ => metTabSize (d.fld Reg.MET_TAB_CMD 27 24) ≤ d.fld Reg.MET_TAB_ADDR 20 0) ∧
    turnsAway Reg.VLT_TAB_CMD (fun d _ => vltTabSize (d.fld Reg.VLT_TAB_CMD 27 24) ≤ d.fld Reg.VLT_TAB_ADDR 15 0) ∧
    turnsAway Reg.VLT_TAB_CMD (fun d _ => d.fld Reg.VLT_TAB_ADDR 15 0 < vltTabSize (d.fld Reg.VLT_TAB_CMD 27 24) ∧ d.fld
      Reg.VLT_TAB_CMD 27 24 ≠ 0) ∧
    turnsAway Reg.QUE_TAB_CMD (fun d _ => queTabSize (d.fld Reg.QUE_TAB_CMD 27 24) ≤ d.fld Reg.QUE_TAB_ADDR 17 0) ∧
    turnsAway Reg.FWD_TAB_CMD (fun d _ => fwdTabSize (d.fld Reg.FWD_TAB_CMD 27 24) ≤ d.fld Reg.FWD_TAB_ADDR 22 0 ∨ d.fld
      Reg.FWD_TAB_CMD 27 24 = 4) ∧
    turnsAway Reg.VDC_TAB_CMD (fun d _ => d.fld Reg.VDC_TAB_CMD 27 24 ≠ 0 ∧ d.fld Reg.VDC_TAB_ADDR 13 0 < vdcTabSize (d.fld
      Reg.VDC_TAB_CMD 27 24)) ∧
    turnsAway Reg.VDC_TAB_CMD (fun d _ => vdcTabSize (d.fld Reg.VDC_TAB_CMD 27 24) ≤ d.fld Reg.VDC_TAB_ADDR 13 0) ∧
    turnsAway Reg.CMP_TAB_CMD (fun d _ => cmpTabSize (d.fld Reg.CMP_TAB_CMD 27 24) ≤ d.fld Reg.CMP_TAB_ADDR 17 0) ∧
    turnsAway Reg.CMP_TAB_CMD (fun d _ => d.fld Reg.CMP_TAB_CMD 27 24 = 3 ∧ d.fld Reg.CMP_TAB_ADDR 17 0 < 128) ∧
    turnsAway Reg.VEN_TAB_CMD (fun d _ => d.fld Reg.VEN_TAB_CMD 27 24 ≠ 0 ∧ venBeyond (d.fld Reg.VEN_TAB_CMD 27 24) (d.fld
      Reg.VEN_TAB_ADDR 13 0) = false) ∧
    turnsAway Reg.VEN_TAB_CMD (fun d _ => venBeyond (d.fld Reg.VEN_TAB_CMD 27 24) (d.fld Reg.VEN_TAB_ADDR 13 0) = true) ∧
    turnsAway Reg.AUD_TAB_CMD (fun d _ => audTabSize (d.fld Reg.AUD_TAB_CMD 27 24) ≤ d.fld Reg.AUD_TAB_ADDR 13 0) ∧
    turnsAway Reg.FLT_TAB_CMD (fun d _ => d.fld Reg.FLT_TAB_CMD 27 24 ≠ 1 ∧ d.fld Reg.FLT_TAB_ADDR 13 0 < fltTabSize (d.fld
      Reg.FLT_TAB_CMD 27 24)) ∧
    turnsAway Reg.FLT_TAB_CMD (fun d _ => fltTabSize (d.fld Reg.FLT_TAB_CMD 27 24) ≤ d.fld Reg.FLT_TAB_ADDR 13 0) ∧
    turnsAway Reg.GAT_TAB_CMD (fun d _ => d.fld Reg.GAT_TAB_CMD 27 24 < 8 ∧ d.flag Reg.GAT_TAB_CMD 23 = false) ∧
    turnsAway Reg.GAT_TAB_CMD (fun d _ => d.fld Reg.GAT_TAB_CMD 27 24 < 8 ∧ d.flag Reg.GAT_TAB_CMD 23 = true ∧ d.flag (Reg.GAT_CTRL
      + gatePort (d.fld Reg.GAT_TAB_CMD 27 24)) 28 = true) ∧
    turnsAway Reg.EGS_TAB_CMD (fun d _ => egsTabSize (d.fld Reg.EGS_TAB_CMD 27 24) ≤ d.fld Reg.EGS_TAB_ADDR 17 0) ∧
    turnsAway Reg.TAP_TAB_CMD (fun d _ => tapTabSize (d.fld Reg.TAP_TAB_CMD 27 24) ≤ d.fld Reg.TAP_TAB_ADDR 9 0) ∧
    (∃ (s : State) (v : Word), s.ready = true ∧ s.dev.flag Reg.MUL_TAB_CMD 0 = false ∧ mulTabSize ((s.dev.writeReg Reg.MUL_TAB_CMD
      v).fld Reg.MUL_TAB_CMD 27 24) ≤ s.dev.fld Reg.MUL_TAB_ADDR 14 0) :=
  ⟨⟨st (tabd Reg.TSK_TAB_ADDR 0 0 []), 0x21000000, by decide +kernel, by dsimp only; decide +kernel⟩,
    ⟨st (tabd Reg.MAT_TAB_ADDR 0 33554431 []), 0x20000000, by decide +kernel, by dsimp only; decide +kernel⟩,
    ⟨st (tabd Reg.MAT_TAB_ADDR 0 0 []), 0x20000000, by decide +kernel, by dsimp only; decide +kernel⟩,
    ⟨st (rg (tabd Reg.MAT_TAB_ADDR 0 0 []) [(Reg.MAT_EPOCH, 30, 30, 0)]), 0x20800000, by decide +kernel, by dsimp only; decide +kernel⟩,
    ⟨st (tabd Reg.MET_TAB_ADDR 0 2097151 []), 0x20000000, by decide +kernel, by dsimp only; decide +kernel⟩,
    ⟨st (tabd Reg.VLT_TAB_ADDR 0 65535 []), 0x20000000, by decide +kernel, by dsimp only; decide +kernel⟩,
    ⟨st (tabd Reg.VLT_TAB_ADDR 0 0 []), 0x21000000, by decide +kernel, by dsimp only; decide +kernel⟩,
    ⟨st (tabd Reg.QUE_TAB_ADDR 0 262143 []), 0x21000000, by decide +kernel, by dsimp only; decide +kernel⟩,
    ⟨st (tabd Reg.FWD_TAB_ADDR 0 0 []), 0x24000000, by decide +kernel, by dsimp only; decide +kernel⟩,
    ⟨st (tabd Reg.VDC_TAB_ADDR 0 0 []), 0x21000000, by decide +kernel, by dsimp only; decide +kernel⟩,
    ⟨st (tabd Reg.VDC_TAB_ADDR 0 8192 []), 0x20000000, by decide +kernel, by dsimp only; decide +kernel⟩,
    ⟨st (tabd Reg.CMP_TAB_ADDR 0 4096 []), 0x22000000, by decide +kernel, by dsimp only; decide +kernel⟩,
    ⟨st (tabd Reg.CMP_TAB_ADDR 0 127 []), 0x23000000, by decide +kernel, by dsimp only; decide +kernel⟩,
    ⟨st (tabd Reg.VEN_TAB_ADDR 0 0 []), 0x21000000, by decide +kernel, by dsimp only; decide +kernel⟩,
    ⟨st (tabd Reg.VEN_TAB_ADDR 0 4096 []), 0x20000000, by decide +kernel, by dsimp only; decide +kernel⟩,
    ⟨st (tabd Reg.AUD_TAB_ADDR 0 16383 []), 0x21000000, by decide +kernel, by dsimp only; decide +kernel⟩,
    ⟨st (tabd Reg.FLT_TAB_ADDR 0 0 []), 0x20000000, by decide +kernel, by dsimp only; decide +kernel⟩,
    ⟨st (tabd Reg.FLT_TAB_ADDR 0 8 []), 0x21000000, by decide +kernel, by dsimp only; decide +kernel⟩,
    ⟨st (tabd Reg.GAT_TAB_ADDR 0 0 []), 0x27000000, by decide +kernel, by dsimp only; decide +kernel⟩,
    ⟨st (rg (tabd Reg.GAT_TAB_ADDR 0 0 []) [(Reg.GAT_CTRL + gatePort 7, 28, 28, 1)]), 0x27800000, by decide +kernel, by dsimp only; decide +kernel⟩,
    ⟨st (tabd Reg.EGS_TAB_ADDR 0 1024 []), 0x22000000, by decide +kernel, by dsimp only; decide +kernel⟩,
    ⟨st (tabd Reg.TAP_TAB_ADDR 0 256 []), 0x21000000, by decide +kernel, by dsimp only; decide +kernel⟩,
    ⟨st (tabd Reg.MUL_TAB_ADDR 0 32767 []), 0x21000000, by decide +kernel⟩⟩


/-- What the statements over every ready state assume is met at reset and in SERVICE. -/
theorem witness_ready : State.reset.ready = true ∧ base.ready = true := by decide +kernel

/-! ### Well-formedness -/

theorem smoke_taken_1 :
   ([.registerWrite .pcie Reg.LMD_CFG 0, .readLoLatch .pcie Reg.RING_BASE_LO, .writeLoHold .pcie Reg.RING_BASE_LO 0,
   .writeHiCommit .pcie (Reg.RING_BASE_LO + 4) 0, .rcRead .pcie Reg.PWR_CNT_LO 0, .beatBoundary, .cellYielded 0,
   .yieldGraceExpiry, .cellResetDone 0, .jobRetire 0 {}, .jobIssue 0, .deadlineSettle 0, .taskWaitLimit 0, .msSlotHoldExpiry 0,
   .cellParityError 0 true, .cacheUncorrectableError 0 0, .regionScrubDone 0 true, .regionAutoReloadDone 0 true [],
   .chipFaultResetTimer, .timBeatOffsetWrite .pcie 0, .dtLoad, .configureLoad .pcie 0x10000000 [],
   .reloadRegion .pcie 0x20000000 [], .cancel .pcie 0x30000000, .checkOnly .pcie 0x40000000 [], .loadRegion 0 0 0 0 [],
   .reloadCheckDone, .reloadDrainDone [], .reloadDrainLimit, .portSteer 0, .reloadWriteDone, .reloadVerifyDone true,
   .reloadRejoinDone [], .trainDone [], .configureSectionsDone, .tskTabRead .pcie 0x10000000, .tskTabWrite .pcie 0x20000000,
   .tskAbort .pcie 0, .abortResolved, .abortStopTimeout, .tskPost .pcie 0, .hwaitArm .pcie 0 0,
   .hwaitCancel .pcie 0 0x40000000, .hwaitTimeout 0, .stallTimeout, .completionRecordWrite 0, .frameReceived 0 [] true,
   .flowBucketFill 0 0, .passDecision 0 0, .recircSecondPass 0 0, .reorderRelease 0 0, .flowAgeSweep 0,
   .matTabRead .pcie 0x10000000, .matTabWrite .pcie 0x20000000, .matTabInsert .pcie 0x30000000, .matTabDelete .pcie 0x40000000,
   .matTabLookup .pcie 0x50000000, .matTabCopyActive .pcie 0x60000000, .matEpochCommit .pcie 0x80000000, .epochReclaimed,
   .metTabRead .pcie 0x10000000, .metTabWrite .pcie 0x20000000, .metTabReadClear .pcie 0x70000000 0,
   .cipherPlaintextRelease 0 0] : List Instr).all Instr.wf = true := by
  decide +kernel

theorem smoke_taken_2 :
   ([.cipherProgramEnd 0 0, .authTimeout 0, .slotLoadDone 0, .keyWaitTimeout 0 0, .importOpen 0 [] [], .importWrap 0 0 [],
   .importClose 0 0, .blobGet 0 0 0, .blobPut 0 0 0 [], .importSessionExpiry 0, .vaultAlarm 0, .zeroizeErasureDone,
   .provision 0, .attest 0 [], .vltTabRead .pcie 0x10000000, .vltTabWrite .pcie 0x20000000, .queRead .pcie 0x10000000,
   .queMark .pcie 0x20000000, .queRewind .pcie 0x30000000, .queSkip .pcie 0x40000000, .queRelease .pcie 0x50000000,
   .queFlush .pcie 0x60000000, .queHeadRefillDone, .spillMoveDone 0, .historyAge, .fcOutputChange 0, .pauseRepeat 0,
   .queTabRead .pcie 0x10000000, .queTabWrite .pcie 0x20000000, .keyreqWaitExpiry 0, .keyreqGapExpiry 0, .upstreamNack 0 0 0,
   .srGenerate 0, .twccFeedbackGenerate 0, .legFeedbackTimeout 0, .feedbackLostHalve 0, .fwdTabRead .pcie 0x10000000,
   .fwdTabWrite .pcie 0x20000000, .legTabRead .pcie 0x10000000, .legTabWrite .pcie 0x20000000, .auWaitExpiry 0, .decFenceHit 0,
   .fillEngineDone 0, .vdcTabRead .pcie 0x10000000, .vdcTabWrite .pcie 0x20000000, .cmpTabRead .pcie 0x10000000,
   .cmpTabWrite .pcie 0x20000000, .encFenceHit 0, .venTabRead .pcie 0x10000000, .venTabWrite .pcie 0x20000000,
   .audTabRead .pcie 0x10000000, .audTabWrite .pcie 0x20000000, .fltTabRead .pcie 0x10000000, .fltTabWrite .pcie 0x20000000,
   .timCapture .pcie 0x80000000, .timSwitch .pcie 0x40000000, .timDomSample 0 .ptp 0, .ppsInEdge, .ppsOutEdge,
   .syntonSecond 0 0, .clockHoldoverTimeout 0, .timAcceptJump .pcie 0 0x80000000, .timRestart .pcie 0 0x40000000,
   .launchTimeReached 0 0] : List Instr).all Instr.wf = true := by
  decide +kernel

theorem smoke_taken_3 :
   ([.gateCommit .pcie 0 0x40000000, .gateCancel .pcie 0 0x20000000, .gateListStart 0, .gateEntryChange 0,
   .gatTabRead .pcie 0x10000000, .gatTabWrite .pcie 0x20000000, .egressSelect 0, .runIntervalStart, .frameTxStart 0 0,
   .pauseReceived 0 0, .pfcReceived 0 0 (List.replicate 8 0), .pauseHoldExpiry 0 0, .egressPauseHeld 0 0, .egressMoveDone 0,
   .egsTabRead .pcie 0x10000000, .egsTabWrite .pcie 0x20000000, .scrubRead 0 0 .clean, .refresh 0, .retrainPass 0 [] [],
   .retrainRetry 0 [], .memFspWrite .pcie 0, .fspChangeDone, .memMigrate .pcie 0x80000000, .migrationDone, .restoreDone,
   .memRetest .pcie 0x40000000, .retestDone 0 0 0, .memRetrain .pcie 0x20000000, .cascadeJoin .pcie 0x80000000,
   .cascadeLeave .pcie 0x40000000, .handover .pcie 0x20000000, .joinHelloDone {}, .joinTimeLocked, .joinAlign,
   .joinDirectoryDone [], .joinStepTimeout, .muleMedia 0 {}, .mulePartial 0 {}, .muleTalkers 0 {}, .muleDemand 0 {},
   .muleTime 0 {}, .muleHeartbeat 0 {}, .muleDirectory 0 {}, .muleCredit 0 {}, .muleTunNak 0 {}, .tunNakRetry 0 0,
   .muleTimeExchange, .heartbeatTimeout [], .mulTabRead .pcie 0x10000000, .mulTabWrite .pcie 0x20000000, .standbyAckTimeout 0,
   .directoryApply 0, .muleLaneLoss 0, .muleLinkDown 0, .topModeReq .pcie 0, .modeSet 0 0 true, .modeTransition,
   .resetNAssert 0, .resetRelease 0 0, .bootFwVerified true true, .shedStageEnter (List.replicate 8 0),
   .shedStageLift (List.replicate 8 0) [], .sagPinChange 0, .brownOut 0] : List Instr).all Instr.wf = true := by
  decide +kernel

theorem smoke_taken_4 :
   ([.thermThrottle (List.replicate 24 0), .thermEmergency (List.replicate 24 0), .thermTrip (List.replicate 24 0),
   .sprintRequest .pcie 0x80000000, .sprintReq 0 0, .sprintEnter, .sprintEndRequest .pcie 0x40000000, .sprintAutoEnd,
   .lmPresentFall 0, .lmInsertDelay 0 {}, .lmPresentRise 0, .lmInt [], .lmPoll 0 {}, .wearRecordUpdate 0 {},
   .lmdDrain .pcie 0 0x80000000, .lmdModReset .pcie 0 0x40000000, .lmdTabRead .pcie 0x10000000, .lmRead 0 0 0 0 0 0 [],
   .lmBusStuck 0, .functionLevelReset, .pcieLinkDown, .bar2Read (2 ^ 32) 0, .bar2Write (2 ^ 32) [], .puntRingDoorbell 0 0 [],
   .injectRingDoorbell 0 0 [], .puntDeliver 0, .injectRawPort 0, .injectLegCtrl 0, .injectReparse 0, .ringCoalTimer 0,
   .getInfo 0, .eventLog 0 0 0, .fwWrite 0 0 0 [] true, .fwSwitch 0, .mcRestart, .rollbackSet 0 0, .portRead 0 0,
   .policySet 0 [], .evtStatWrite .pcie 0 0 0, .msixUnmask 0, .tapFrameTx 0, .tapHoldAssert, .tapHoldRelease, .tapHoldLong,
   .tapLaneDown 0, .tapLaneUp 0, .tapInputFrame 0 [], .tapSegWaitExpiry 0, .tapTabRead .pcie 0x10000000,
   .tapTabWrite .pcie 0x20000000, .sysRefclkLost, .refclkReturn, .referenceClockLost (.eth 1), .portLinkDown 0, .railsGood,
   .auxPowerOn, .runRequest 0, .muleLinkUp 0, .portLinkUp 0, .pcieLinkUp, .mailboxCommandTimeout, .pcieUncorrectableError] : List Instr).all Instr.wf = true := by
  decide +kernel

theorem smoke_refused_1 :
   ([.registerWrite .pcie Reg.TSK_ABORT 0, .registerWrite .pcie Reg.RING_BASE_LO 0,
   .registerWrite .pcie (Reg.RING_BASE_LO + 4) 0, .registerWrite .pcie (2 ^ 32 - 4) 0,
   .registerWrite .pcie Reg.QUE_CMD 0x10000000, .registerWrite .pcie Reg.MSIX_CTRL 0,
   .readLoLatch .pcie (Reg.RING_BASE_LO + 4), .writeLoHold .pcie (Reg.RING_BASE_LO + 4) 0, .writeLoHold .pcie Reg.PWR_CNT_LO 0,
   .writeHiCommit .pcie 0 0, .writeHiCommit .pcie Reg.RING_BASE_LO 0, .writeHiCommit .pcie (Reg.PWR_CNT_LO + 4) 0,
   .writeHiCommit .pcie (Reg.TSK_POST_TAG_LO + 4) 0, .writeHiCommit .pcie (Reg.TIM_DOM_OFS_LO + 4) 0,
   .rcRead .pcie Reg.LMD_CFG 0, .cellYielded 64, .cellResetDone 64, .jobRetire 64 {}, .jobIssue 64, .deadlineSettle 131072,
   .taskWaitLimit 131072, .msSlotHoldExpiry 65536, .cellParityError 64 true, .cacheUncorrectableError 6 0,
   .regionScrubDone 6 true, .regionAutoReloadDone 6 true [], .configureLoad .pcie 0xF0000000 [],
   .configureLoad .pcie 0x10000000 [(2 ^ 64, 0)], .reloadRegion .pcie 0xF0000000 [],
   .reloadRegion .pcie 0x20000000 [(2 ^ 64, 0)], .cancel .pcie 0xF0000000, .checkOnly .pcie 0xF0000000 [],
   .checkOnly .pcie 0x40000000 [(2 ^ 64, 0)], .loadRegion 65536 0 0 0 [], .loadRegion 0 0 0 0 [(2 ^ 64, 0)],
   .reloadDrainDone [(2 ^ 64, 0)], .portSteer 8, .tskTabRead .pcie 0xF0000000, .tskTabWrite .pcie 0xF0000000,
   .hwaitArm .pcie 64 0, .hwaitCancel .pcie 64 0x40000000, .hwaitCancel .pcie 0 0, .hwaitTimeout 64,
   .completionRecordWrite 131072, .frameReceived 8 [] true, .flowBucketFill 2 0, .passDecision 2 0, .recircSecondPass 2 0,
   .reorderRelease 2 0, .reorderRelease 0 8, .matTabRead .pcie 0xF0000000, .matTabWrite .pcie 0xF0000000,
   .matTabInsert .pcie 0xF0000000, .matTabDelete .pcie 0xF0000000, .matTabLookup .pcie 0xF0000000,
   .matTabCopyActive .pcie 0xF0000000, .matEpochCommit .pcie 0, .metTabRead .pcie 0xF0000000, .metTabWrite .pcie 0xF0000000,
   .metTabReadClear .pcie 0xF0000000 0, .cipherPlaintextRelease 2 0, .cipherPlaintextRelease 0 64, .cipherProgramEnd 2 0,
   .cipherProgramEnd 0 64] : List Instr).all (fun i => !i.wf) = true := by
  decide +kernel

theorem smoke_refused_2 :
   ([.slotLoadDone 2, .keyWaitTimeout 2 0, .importOpen 65536 [] [], .importWrap 65536 0 [],
   .importWrap 0 0 [List.replicate 71 0], .importClose 65536 0, .importClose 0 16, .blobGet 65536 0 0, .blobPut 65536 0 0 [],
   .blobPut 0 0 0 [List.replicate 127 0], .importSessionExpiry 16, .vaultAlarm 8, .provision 65536, .attest 65536 [],
   .vltTabRead .pcie 0xF0000000, .vltTabWrite .pcie 0xF0000000, .queRead .pcie 0xF0000000, .queMark .pcie 0xF0000000,
   .queRewind .pcie 0xF0000000, .queSkip .pcie 0xF0000000, .queRelease .pcie 0xF0000000, .queFlush .pcie 0xF0000000,
   .spillMoveDone 262144, .fcOutputChange 16, .pauseRepeat 16, .queTabRead .pcie 0xF0000000, .queTabWrite .pcie 0xF0000000,
   .keyreqWaitExpiry 262144, .keyreqGapExpiry 65536, .upstreamNack 65536 0 0, .srGenerate 262144, .twccFeedbackGenerate 16384,
   .legFeedbackTimeout 16384, .feedbackLostHalve 16384, .fwdTabRead .pcie 0xF0000000, .fwdTabWrite .pcie 0xF0000000,
   .legTabRead .pcie 0xF0000000, .legTabWrite .pcie 0xF0000000, .auWaitExpiry 16384, .decFenceHit 64, .fillEngineDone 131072,
   .vdcTabRead .pcie 0xF0000000, .vdcTabWrite .pcie 0xF0000000, .cmpTabRead .pcie 0xF0000000, .cmpTabWrite .pcie 0xF0000000,
   .encFenceHit 64, .venTabRead .pcie 0xF0000000, .venTabWrite .pcie 0xF0000000, .audTabRead .pcie 0xF0000000,
   .audTabWrite .pcie 0xF0000000, .fltTabRead .pcie 0xF0000000, .fltTabWrite .pcie 0xF0000000, .timCapture .pcie 0,
   .timSwitch .pcie 0, .timDomSample 6 .ptp 0, .syntonSecond 6 0, .clockHoldoverTimeout 6, .timAcceptJump .pcie 6 0x80000000,
   .timAcceptJump .pcie 0 0, .timRestart .pcie 6 0x40000000, .timRestart .pcie 0 0, .launchTimeReached 8 0,
   .launchTimeReached 0 8, .gateCommit .pcie 8 0x40000000] : List Instr).all (fun i => !i.wf) = true := by
  decide +kernel

theorem smoke_refused_3 :
   ([.gateCommit .pcie 0 0, .gateCancel .pcie 8 0x20000000, .gateCancel .pcie 0 0, .gateListStart 8, .gateEntryChange 8,
   .gatTabRead .pcie 0xF0000000, .gatTabWrite .pcie 0xF0000000, .egressSelect 8, .frameTxStart 8 0, .frameTxStart 0 8,
   .pauseReceived 8 0, .pauseReceived 0 65536, .pfcReceived 8 0 (List.replicate 8 0), .pfcReceived 0 256 (List.replicate 8 0),
   .pfcReceived 0 0 [], .pauseHoldExpiry 8 0, .pauseHoldExpiry 0 8, .egressPauseHeld 8 0, .egressPauseHeld 0 8,
   .egressMoveDone 16384, .egsTabRead .pcie 0xF0000000, .egsTabWrite .pcie 0xF0000000, .scrubRead 17 0 .clean, .refresh 17,
   .retrainPass 17 [] [], .retrainRetry 17 [], .memMigrate .pcie 0, .memRetest .pcie 0, .retestDone 17 0 0,
   .memRetrain .pcie 0, .cascadeJoin .pcie 0, .cascadeLeave .pcie 0, .handover .pcie 0, .joinDirectoryDone [⟨32768, {}⟩],
   .muleMedia 4 {}, .muleMedia 0 { cls := 4 }, .muleMedia 0 { payload := List.replicate 9217 0 }, .muleMedia 0 { src := 8 },
   .muleMedia 0 { dst := 8 }, .muleMedia 0 { hops := 8 }, .muleMedia 0 { flock := 4096 }, .muleMedia 0 { brood := 65536 },
   .muleMedia 0 { seqn := 65536 }, .muleMedia 0 { beat := 2 ^ 32 }, .mulePartial 4 {}, .mulePartial 0 { src := 8 },
   .muleTalkers 4 {}, .muleTalkers 0 { src := 8 }, .muleDemand 4 {}, .muleDemand 0 { src := 8 }, .muleTime 4 {},
   .muleTime 0 { src := 8 }, .muleHeartbeat 4 {}, .muleHeartbeat 0 { src := 8 }, .muleDirectory 4 {},
   .muleDirectory 0 { src := 8 }, .muleCredit 4 {}, .muleCredit 0 { src := 8 }, .muleTunNak 4 {}, .muleTunNak 0 { src := 8 },
   .tunNakRetry 4 0, .heartbeatTimeout [8], .mulTabRead .pcie 0xF0000000, .mulTabWrite .pcie 0xF0000000] : List Instr).all (fun i => !i.wf) = true := by
  decide +kernel

theorem smoke_refused_4 :
   ([.muleLaneLoss 4, .muleLinkDown 4, .modeSet 65536 0 true, .modeSet 0 16 true, .resetRelease 8 0, .resetRelease 0 8,
   .shedStageEnter [], .shedStageLift [] [], .sagPinChange 4, .brownOut 8, .thermThrottle [], .thermEmergency [],
   .thermTrip [], .sprintRequest .pcie 0, .sprintReq 65536 0, .sprintEndRequest .pcie 0, .lmPresentFall 8, .lmInsertDelay 8 {},
   .lmPresentRise 8, .lmInt (List.replicate 9 {}), .lmPoll 8 {}, .wearRecordUpdate 8 {}, .lmdDrain .pcie 8 0x80000000,
   .lmdDrain .pcie 0 0, .lmdModReset .pcie 8 0x40000000, .lmdModReset .pcie 0 0, .lmdTabRead .pcie 0xF0000000,
   .lmRead 65536 0 0 0 0 0 [], .lmRead 0 8 0 0 0 0 [], .lmRead 0 0 0 0 0 1 [], .lmBusStuck 4, .bar2Read (2 ^ 32) 1,
   .bar2Write (2 ^ 32) [0], .puntRingDoorbell 16 0 [], .puntRingDoorbell 0 65536 [], .puntRingDoorbell 0 0 [(2 ^ 64, 0)],
   .injectRingDoorbell 16 0 [], .injectRingDoorbell 0 65536 [], .injectRingDoorbell 0 0 [(2 ^ 64, 0)], .puntDeliver 16,
   .injectRawPort 16, .injectLegCtrl 16, .injectReparse 16, .ringCoalTimer 33, .getInfo 65536, .eventLog 65536 0 0,
   .fwWrite 65536 0 0 [] true, .fwWrite 0 2 0 [] true, .fwSwitch 65536, .rollbackSet 65536 0, .portRead 65536 0, .portRead 0 8,
   .policySet 65536 [], .evtStatWrite .pcie 20 0 0, .msixUnmask 64, .tapFrameTx 4, .tapLaneDown 6, .tapLaneUp 6,
   .tapInputFrame 2 [], .tapSegWaitExpiry 2, .tapTabRead .pcie 0xF0000000, .tapTabWrite .pcie 0xF0000000,
   .referenceClockLost (.eth 2), .portLinkDown 8] : List Instr).all (fun i => !i.wf) = true := by
  decide +kernel

theorem smoke_refused_5 :
   ([.runRequest 16384, .muleLinkUp 4, .portLinkUp 8] : List Instr).all (fun i => !i.wf) = true := by
  decide +kernel

/-! ### The spec's own numbers -/

/-- The device after a command; the device before it where the command answers no next state. -/
def after (c : Instr) (s : State) : Dev :=
  match exec c s with
  | .next t => t.dev
  | _ => s.dev

/-- 00_scope, R4 and Table 0.5: M2/B1/C5 has code 0x002D, M2/B3/F1 0x3005, P1/ST3 0x7009. -/
theorem test_cell_codes : cellCode 0 (2 * 16 + 8 + 5) = 0x002D ∧ cellRegion 0x002D = 4 ∧ cellRegion 0x3005 = 4 ∧ cellRegion 0x7009 = 1 ∧
    cellValid 0x8000 = false := by decide +kernel

/-- 05_vault_and_cipher: 1,216 authenticated bytes cost 21 compressions, 1,680 FCLK of a lane. -/
theorem test_hash_lane_cost : laneCost 3 1216 = 1680 := by decide +kernel

/-- 12_time, "carrier windows": the windows of classes 6, 0 and 7. -/
theorem test_whole_windows :
    let segs := gateSegs [(0x40, 120000), (0x3F, 879400), (0x80, 600)] 1000000
    wholeWindow segs 6 = some 120000 ∧ wholeWindow segs 0 = some 879400 ∧ wholeWindow segs 7 = some 600 := by decide +kernel

/-- 13_egress_scheduling, "a thinned viewer leg": 1,864.58 bytes of depth at 1,750 kb/s. -/
theorem test_pacer_depth :
    ({ dv with fwd := { govs := [(5, { pacing := 1750000 })] } } : Dev).paceDepth 5 * 100 / tokScale = 186458 := by decide +kernel

/-- 16_modes, "a sag": VDD_MEDIA at 0.680 V is 5.6 % low, stage S3; at 0.713 V none. -/
theorem test_sag_stage : railStage 1 680 = 3 ∧ railStage 1 713 = 0 := by decide +kernel

/-- The same sag at a boundary: S3 is entered, and the mode is SHED. -/
theorem test_shed_enter :
    let d := after (.shedStageEnter [750, 680, 850, 800, 900, 1200, 1200, 1800]) base
    d.stage = 3 ∧ d.mode = .shed := by decide +kernel

/-- 17_host_events_tap, Table 17.14's HCRC is the CRC-8 with polynomial 0x07; its published check value. -/
theorem test_crc8 : crc8 [0x31, 0x32, 0x33, 0x34, 0x35, 0x36, 0x37, 0x38, 0x39] = 0xF4 := by decide +kernel

/-- The CRC of a Mule frame is Ethernet's; its published check value. -/
theorem test_crc32 : crc32 [0x31, 0x32, 0x33, 0x34, 0x35, 0x36, 0x37, 0x38, 0x39] = 0xCBF43926 := by decide +kernel

/-- R336: the stages lie at d of 3, 4, 5, 6, 7 and 8 per cent of the nominal voltage. -/
theorem test_stage_bounds : railStage 5 1164 = 1 ∧ railStage 5 1165 = 0 ∧ railStage 5 1104 = 6 ∧ railStage 5 1105 = 5 := by
  decide +kernel

end Sys2Proof.Tests
end

section
/-! Pulses and the device time (R18, R19, R257, R259, R264, R272): PPS_IN, PPS_OUT, the load of DT and TIM_BEAT_OFFSET. -/

namespace Sys2Proof.Machine
open Sys2Proof

/-! ### PPS_OUT -/

/-- The increment per FCLK of the clock a SEL index names, as toSecond reads it. -/
def Dev.incOf (d : Dev) (i : Nat) : Nat := if i = 0 then (d.dom d.active).inc else (d.dom (i - 1)).inc

theorem toSecond_first (d : Dev) (i : Nat) (h : d.clockOf i % secUnit < d.incOf i) : d.toSecond i = 0 := by
  unfold Dev.toSecond
  exact if_pos h

theorem ppsRise_once (d : Dev) (h : d.tim.ppsSec = some (d.clockOf (d.fld Reg.TIM_PPS_CFG 30 28) / secUnit)) : d.ppsRise = d := by
  unfold Dev.ppsRise
  exact if_pos h

theorem ppsRise_new (d : Dev) (h : d.tim.ppsSec ≠ some (d.clockOf (d.fld Reg.TIM_PPS_CFG 30 28) / secUnit)) :
    d.ppsRise = ({ d with tim := { d.tim with ppsOut := some (d.now + d.fld Reg.TIM_PPS_CFG 19 0 * 1500),
                                              ppsSec := some (d.clockOf (d.fld Reg.TIM_PPS_CFG 30 28) / secUnit) } }).emit (.pin 5 1) := by
  unfold Dev.ppsRise
  exact if_neg h

theorem ppsRise_parts (d : Dev) : d.changesOnly [.tim, .out] d.ppsRise := by
  unfold Dev.ppsRise
  dsimp only
  split
  · exact Dev.changesOnly_refl _ _
  · exact ((Dev.changesOnly_refl _ d).with_tim (by decide) _).emit (by decide) _

/-- With EN 1, where the present FCLK is the first of a second. -/
theorem ppsOutEdge_first (d : Dev) (he : d.flag Reg.TIM_PPS_CFG 31 = true) (h : d.toSecond (d.fld Reg.TIM_PPS_CFG 30 28) = 0) :
    ppsOutEdge d = d.ppsRise := by
  unfold ppsOutEdge
  rw [if_pos he]
  exact if_pos h

/-- With EN 1, where the first FCLK of the next second lies within the beat. -/
theorem ppsOutEdge_within (d : Dev) (he : d.flag Reg.TIM_PPS_CFG 31 = true) (h0 : 0 < d.toSecond (d.fld Reg.TIM_PPS_CFG 30 28))
    (h : d.toSecond (d.fld Reg.TIM_PPS_CFG 30 28) < d.fclkToBoundary) :
    ppsOutEdge d = (d.advance (d.toSecond (d.fld Reg.TIM_PPS_CFG 30 28))).ppsRise := by
  unfold ppsOutEdge
  rw [if_pos he]
  dsimp only
  rw [if_neg (by omega), if_pos h]

theorem fclkToBoundary_pos (d : Dev) : 0 < d.fclkToBoundary := Nat.lt_of_lt_of_le Nat.zero_lt_one (Nat.le_max_left ..)

/-- With EN 1, where the next second begins beyond the beat. -/
theorem ppsOutEdge_beyond (d : Dev) (he : d.flag Reg.TIM_PPS_CFG 31 = true) (h : d.fclkToBoundary ≤ d.toSecond (d.fld Reg.TIM_PPS_CFG 30 28)) :
    ppsOutEdge d = d := by
  have hp := fclkToBoundary_pos d
  unfold ppsOutEdge
  rw [if_pos he]
  dsimp only
  rw [if_neg (by omega), if_neg (by omega)]

theorem ppsOutEdge_off (d : Dev) (he : d.flag Reg.TIM_PPS_CFG 31 = false) : ppsOutEdge d = d := by
  unfold ppsOutEdge
  rw [if_neg (by rw [he]; decide)]

/-- The passing of time keeps what the answer of a command needs kept. -/
theorem advance_keeps (d : Dev) (n : Nat) :
    (d.advance n).tsk.todo = d.tsk.todo ∧ (d.advance n).pci = d.pci ∧ (d.advance n).mode = d.mode := by
  by_cases h : n = 0
  · subst h
    exact ⟨rfl, rfl, rfl⟩
  · obtain ⟨hp, ht, _⟩ := advance_spec d n h
    exact ⟨ht, hp .pci (by decide), hp .mode (by decide)⟩

/-! ### The load of DT -/

/-- What a reload of the beat number leaves (R19). -/
structure Reloaded (d e : Dev) : Prop where
  beat : e.beat = d.dtBeat
  tim : e.tim = d.tim
  mark : e.flag Reg.TIM_BEAT_STAT 2 = true
  event : d.raised Src.BEAT_RELOADED e
  parts : d.changesOnly [.beat, .fclk, .regs, .evt, .out] e
  regs : d.keepsRegsE [Reg.TIM_BEAT_STAT] e

theorem reloadBeat_spec (d : Dev) : Reloaded d d.reloadBeat := by
  unfold Dev.reloadBeat
  dsimp only
  generalize (d.tim.dt - d.tim.ofs * nsUnit - ceilDiv (d.dtBeat * beat3Unit) 3) / 512000000000 = n
  generalize hg : ({ d with beat := d.dtBeat, fclk := n } : Dev) = g
  have gp : d.changesOnly [.beat, .fclk, .regs, .evt, .out] g := by
    rw [← hg]
    exact ((Dev.changesOnly_refl [.beat, .fclk, .regs, .evt, .out] d).with_beat (by decide) d.dtBeat).with_fclk (by decide) n
  have gr : d.keepsRegsE [Reg.TIM_BEAT_STAT] g := (Dev.keepsRegsE_refl _ d).regs_eq (by rw [← hg])
  have gs : d.statLe (g.setFlag Reg.TIM_BEAT_STAT 2 true) :=
    (Dev.statLe_eqRegs (by rw [← hg])).setFlag _ _ (by decide)
  refine ⟨?_, ?_, ?_, ?_, (gp.setFlag (by decide) _ _ _).raise (by decide) _ _ _, (gr.setFlag _ _ (by simp)).raise _ _ _⟩
  · rw [Dev.raise_beat, Dev.setFlag_beat, ← hg]
  · rw [Dev.raise_tim, Dev.setFlag_tim, ← hg]
  · unfold Dev.flag
    rw [Dev.raise_reg _ _ _ _ (by decide)]
    exact Dev.flag_setFlag_self _ _ _ _ (by decide)
  · exact Dev.raised.before gs (Dev.raise_raised _ _ _ _) (by decide)

/-- In a mode in which DT may be loaded the members are never apart (R264). -/
theorem checkApart_still (d : Dev) (h : d.mode.live = false) : d.checkApart = { d with tim := { d.tim with apart := false } } := by
  unfold Dev.checkApart
  dsimp only
  rw [h]
  rfl

theorem dtLoad_takes (d : Dev) (hm : d.mode.live = false) (ht : d.stepThresh < d.dtErr.natAbs) :
    dtLoad d = ({ d with tim := { d.tim with dt := (d.dom d.active).clock } } : Dev).reloadBeat.checkApart := by
  unfold dtLoad
  rw [if_neg (by rw [hm]; simpa using ht)]

theorem dtLoad_same (d : Dev) (h : d.mode.live = true ∨ d.dtErr.natAbs ≤ d.stepThresh) : dtLoad d = d := by
  unfold dtLoad
  exact if_pos (by simpa using h)

/-- What a load of DT leaves (R264, R272). -/
structure DtLoaded (d e : Dev) : Prop where
  dt : e.tim.dt = (d.dom d.active).clock
  beat : e.beat = ((d.dom d.active).clock - d.tim.ofs * nsUnit) * 3 / beat3Unit
  mark : e.flag Reg.TIM_BEAT_STAT 2 = true
  event : d.raised Src.BEAT_RELOADED e
  doms : e.tim.doms = d.tim.doms
  apart : e.tim.apart = false
  parts : d.changesOnly [.beat, .fclk, .regs, .tim, .evt, .out] e
  regs : d.keepsRegsE [Reg.TIM_BEAT_STAT] e

theorem dtLoad_spec (d : Dev) (hm : d.mode.live = false) (ht : d.stepThresh < d.dtErr.natAbs) : DtLoaded d (dtLoad d) := by
  rw [dtLoad_takes d hm ht]
  generalize hg : ({ d with tim := { d.tim with dt := (d.dom d.active).clock } } : Dev) = g
  have gt : g.tim = { d.tim with dt := (d.dom d.active).clock } := by rw [← hg]
  have gr : g.regs = d.regs := by rw [← hg]
  have gp : d.changesOnly [.beat, .fclk, .regs, .tim, .evt, .out] g := by rw [← hg]; exact (d.parts_tim _).of
  obtain ⟨hb, htim, hmark, hev, hparts, hregs⟩ := reloadBeat_spec g
  have hmode : g.reloadBeat.mode.live = false := by
    have e1 : g.reloadBeat.mode = g.mode := hparts .mode (by decide)
    have e2 : g.mode = d.mode := gp .mode (by decide)
    rw [e1, e2, hm]
  rw [checkApart_still _ hmode]
  generalize g.reloadBeat = f at hb htim hmark hev hparts hregs ⊢
  have hgate : d.statLe g := Dev.statLe_eqRegs gr
  refine ⟨?_, ?_, ?_, ?_, ?_, rfl, ?_, ?_⟩
  · show f.tim.dt = _
    rw [htim, gt]
  · show f.beat = _
    rw [hb]
    unfold Dev.dtBeat
    rw [gt]
  · exact hmark
  · exact (Dev.raised.before hgate hev (by decide)).after (Dev.statLe_tim _ _) (by decide)
  · show f.tim.doms = _
    rw [htim, gt]
  · exact (gp.trans hparts.of).with_tim (by decide) _
  · exact (((Dev.keepsRegsE_refl _ d).regs_eq gr).trans hregs).with_tim _

/-! ### TIM_BEAT_OFFSET -/

theorem timBeatOffsetWrite_free (v : Word) (d : Dev) (h : d.fld Reg.MUL_STATUS 21 19 ∉ [2, 4, 5]) :
    timBeatOffsetWrite v d = d.writeReg Reg.TIM_BEAT_OFFSET v := by
  unfold timBeatOffsetWrite
  exact if_neg (by simpa using h)

theorem timBeatOffsetWrite_bound (v : Word) (d : Dev) (h : d.fld Reg.MUL_STATUS 21 19 ∈ [2, 4, 5]) : timBeatOffsetWrite v d = d := by
  unfold timBeatOffsetWrite
  exact if_pos (by simpa using h)

theorem beatOffset_legal (v : Word) (d : Dev) :
    (d.writeReg Reg.TIM_BEAT_OFFSET v).fld Reg.TIM_BEAT_OFFSET 20 0 =
      if bits v 20 0 ≤ 1666666 then bits v 20 0 else d.fld Reg.TIM_BEAT_OFFSET 20 0 := by
  rw [Dev.fld_writeReg d Reg.TIM_BEAT_OFFSET v (hi := 20) (lo := 0) (f := rw 20 0 [(0, 1666666)]) rfl (List.mem_singleton.2 rfl) rfl rfl]
  simp [fieldWrite, RegField.legal, rw]

/-! ### The statement -/

/-- Settles O39: PPS_IN by the fold of the six clocks' samples, PPS_OUT by where the next second lies, DT by the load's own law. -/
theorem pulsesAndDeviceTime : Obligations.PulsesAndDeviceTime := by
  unfold Obligations.PulsesAndDeviceTime
  refine ⟨?_, ?_, ?_, ?_, ?_, ?_, ?_, ?_⟩
  · intro s hr
    obtain ⟨fdt, fpps, fparts, -, foff, fon⟩ := fold_samples
      (fun k => ppsTheta ((s.dev.tim.doms.map (fun t => corrected t.clock 0)).getD k 0)) 6 (by decide)
      { s.dev with tim := { s.dev.tim with ppsIn := some ⟨corrected s.dev.tim.dt 0, s.dev.tim.doms.map (fun t => corrected t.clock 0)⟩ } }
      _ rfl
    rw [← ppsInEdge_eq] at fdt fpps fparts foff fon
    have parts : s.dev.changesOnly timParts (ppsInEdge s.dev) := ((s.dev.parts_tim _).of).trans fparts
    obtain ⟨htodo, hpci, hmode⟩ := tsk_of_tim parts
    refine Answers.of_ready (exec_ppsInEdge s) hr htodo hpci hmode ⟨?_, ?_, ?_, fdt, parts, rfl, rfl, rfl⟩
    · simp only [fpps, corrected0]
    · intro k hk hl hen href r hr' θ hθ
      have hlast := fon k hk hen href
      have hv : ppsTheta ((s.dev.tim.doms.map (fun t => corrected t.clock 0)).getD k 0) = θ := by
        rw [map_getD _ _ hl, corrected0, hθ, hr']
        rfl
      rwa [hv] at hlast
    · exact foff
  · intro s i inc e hr hen hi hinc hwhen hsel hnew
    subst hi hinc
    have hrun : ppsOutEdge s.dev = e.ppsRise := by
      rcases hwhen with ⟨hfirst, rfl⟩ | ⟨-, hpos, hin, rfl⟩
      · exact ppsOutEdge_first _ hen (toSecond_first _ _ hfirst)
      · exact ppsOutEdge_within _ hen hpos hin
    have hkeep : e.tsk.todo = s.dev.tsk.todo ∧ e.pci = s.dev.pci ∧ e.mode = s.dev.mode := by
      rcases hwhen with ⟨-, rfl⟩ | ⟨-, -, -, rfl⟩
      · exact ⟨rfl, rfl, rfl⟩
      · exact advance_keeps _ _
    obtain ⟨htodo, hpci, hmode⟩ := hkeep
    have hp := ppsRise_parts e
    have hrise := ppsRise_new e (by rw [hsel]; exact hnew)
    rw [hsel] at hrise
    refine Answers.of_eq (exec_ppsOutEdge s) hrun hr ((congrArg Tsk.todo (hp .tsk (by decide))).trans htodo)
      (Eq.trans (hp .pci (by decide)) hpci) (Eq.trans (hp .mode (by decide)) hmode) ⟨?_, ?_, hp, rfl, rfl, rfl⟩
    · exact congrArg Dev.out hrise
    · exact congrArg Dev.tim hrise
  · intro s i inc hr hen hi hinc hwhen
    subst hi hinc
    refine exec_same (exec_ppsOutEdge s) ?_ hr
    rcases hwhen with ⟨hfirst, hdone⟩ | ⟨-, hfar⟩
    · rw [ppsOutEdge_first _ hen (toSecond_first _ _ hfirst), ppsRise_once _ hdone]
    · exact ppsOutEdge_beyond _ hen hfar
  · intro s hr hoff
    exact exec_same (exec_ppsOutEdge s) (ppsOutEdge_off _ hoff) hr
  · intro s hr hm ht
    have h := dtLoad_spec s.dev hm ht
    exact Answers.of_ready (exec_dtLoad s) hr (congrArg Tsk.todo (h.parts .tsk (by decide))) (h.parts .pci (by decide)) (h.parts .mode (by decide))
      ⟨h.dt, h.beat, h.mark, h.event, h.doms, h.apart, h.parts, h.regs, rfl, rfl, rfl⟩
  · intro s hr h
    exact exec_same (exec_dtLoad s) (dtLoad_same _ h) hr
  · intro s p v hr h
    refine Answers.of_eq (exec_timBeatOffsetWrite p v s) (timBeatOffsetWrite_free v _ h) hr (by simp) (by simp) (by simp)
      ⟨beatOffset_legal v _, ?_, (Dev.changesOnly_refl _ _).writeReg (by decide) _ _, rfl, rfl, rfl⟩
    exact fun o ho => Dev.reg_writeReg_ne _ _ _ fun e => ho (List.mem_singleton.2 e)
  · intro s p v hr h
    exact exec_same (exec_timBeatOffsetWrite p v s) (timBeatOffsetWrite_bound v _ h) hr

end Sys2Proof.Machine
end

section
/-! Regions that scrub, reload from their stored image and fail (R15, R353). -/

namespace Sys2Proof.Machine
open Sys2Proof

/-- The effect of a command whose operation is known. -/
theorem Does.of {c : Instr} {s : State} {f : Dev → Dev} {P : Dev → Prop} (hx : exec c s = onDev f s) (h : P (f s.dev)) : Does c s P :=
  ⟨f s.dev, h, hx⟩

/-! ### A region's record -/

/-- The device with another record of a region. -/
def Dev.putRegion (d : Dev) (n : Nat) (x : Region) : Dev := { d with regions := recSet d.regions n x }

@[simp] theorem Dev.regionOf_putRegion_self (d : Dev) (n : Nat) (x : Region) : (d.putRegion n x).regionOf n = x := by
  unfold Dev.putRegion Dev.regionOf
  simp

theorem Dev.regionOf_putRegion_ne (d : Dev) {n m : Nat} (x : Region) (h : m ≠ n) : (d.putRegion n x).regionOf m = d.regionOf m :=
  congrArg (fun o : Option Region => o.getD {}) (tabFind_recSet_ne _ _ _ h)

theorem Dev.putRegion_parts (d : Dev) (n : Nat) (x : Region) : d.changesOnly [.regions] (d.putRegion n x) := d.parts_regions _

theorem Dev.putRegion_mac (d : Dev) (n : Nat) (x : Region) : (d.putRegion n x).mac = d.mac := rfl

theorem Dev.putRegion_reg (d : Dev) (n : Nat) (x : Region) (o : Nat) : (d.putRegion n x).reg o = d.reg o := rfl

theorem Dev.keepsRegsE.putRegion {l : List Nat} {d e : Dev} (h : d.keepsRegsE l e) (n : Nat) (x : Region) : d.keepsRegsE l (e.putRegion n x) :=
  h.with_regions _

theorem Dev.statLe.putRegion {d e : Dev} (h : d.statLe e) (n : Nat) (x : Region) : d.statLe (e.putRegion n x) := h.with_regions _

theorem Dev.changesOnly.putRegion {ps : List Part} {d e : Dev} (h : d.changesOnly ps e) (hp : ps.contains .regions = true) (n : Nat) (x : Region) :
    d.changesOnly ps (e.putRegion n x) := h.with_regions hp _

/-- A region's state is a field of its register. -/
theorem regionState_congr {d e : Dev} {n : Nat} (h : e.reg (Reg.CFG_REGION_STAT + 4 * n) = d.reg (Reg.CFG_REGION_STAT + 4 * n)) :
    e.regionState n = d.regionState n := by
  unfold Dev.regionState Dev.fld
  rw [h]

theorem regionState_setRegionState (d : Dev) (n st : Nat) (h : st < 16) : (d.setRegionState n st).regionState n = st :=
  (Dev.fld_setFld_self d _ 11 8 st (by decide) (by decide)).trans (Nat.mod_eq_of_lt h)

theorem regionState_setRegionState_ne (d : Dev) {n m : Nat} (st : Nat) (h : m ≠ n) : (d.setRegionState n st).regionState m = d.regionState m :=
  regionState_congr (Dev.reg_setFld_ne _ _ _ _ _ (by omega))

/-- Registers below those of the event unit. -/
theorem evtReg_low {o : Nat} (h : o < 0x01000000) : evtReg o = false := by
  have e2 : Reg.EVT_STAT = 0x01A00100 := rfl
  have e3 : Reg.EVT_CNT_LO = 0x01A00200 := rfl
  have e4 : Reg.MSIX_PBA = 0x01909000 := rfl
  have e5 : Reg.EVT_LOG_HEAD = 0x01A00030 := rfl
  have e6 : Reg.EVT_LOG_TAIL = 0x01A00034 := rfl
  unfold evtReg
  rw [e2, e3, e4, e5, e6, decide_eq_false (show ¬ (0x01A00100 ≤ o) by omega), decide_eq_false (show ¬ (0x01A00200 ≤ o) by omega),
    decide_eq_false (show ¬ (0x01909000 ≤ o) by omega), beq_eq_false_iff_ne.2 (show o ≠ 0x01A00030 by omega),
    beq_eq_false_iff_ne.2 (show o ≠ 0x01A00034 by omega)]
  rfl

theorem evtReg_region {n : Nat} (h : n < 6) : evtReg (Reg.CFG_REGION_STAT + 4 * n) = false :=
  evtReg_low (by have : Reg.CFG_REGION_STAT = 0x00200040 := rfl; omega)

theorem evtSetReg_region {n : Nat} (h : n < 6) : evtSetReg (Reg.CFG_REGION_STAT + 4 * n) = false := by
  have e0 : Reg.CFG_REGION_STAT = 0x00200040 := rfl
  have e1 : Reg.EVT_SRC_CFG = 0x01A01000 := rfl
  have e2 : Reg.EVT_STAT = 0x01A00100 := rfl
  unfold evtSetReg statReg
  rw [e0, e1, e2, decide_eq_false (show ¬ (0x01A00100 ≤ 0x00200040 + 4 * n) by omega),
    decide_eq_false (show ¬ (0x01A01000 ≤ 0x00200040 + 4 * n) by omega)]
  rfl

theorem srcRegion_lt {n i : Nat} (hn : n < 6) (hi : i < 64) : srcRegion n i < 640 := by unfold srcRegion; omega

/-! ### The automatic reload of a plane -/

/-- Whether a region reloads depends on the configuration unit, its status register and the regions' records. -/
theorem reloading_congr {d e : Dev} (h1 : e.cfg = d.cfg) (h2 : e.reg Reg.CFG_STATUS = d.reg Reg.CFG_STATUS)
    (h3 : ∀ n, (e.regionOf n).auto = (d.regionOf n).auto) : e.reloading = d.reloading := by
  unfold Dev.reloading Dev.fld
  rw [h1, h2]
  simp only [h3]

theorem not_auto_of_not_reloading {d : Dev} (h : d.reloading = false) {n : Nat} (hn : n < 6) : (d.regionOf n).auto = false := by
  unfold Dev.reloading at h
  simp only [Bool.or_eq_false_iff, List.any_eq_false, List.mem_range, Bool.not_eq_true] at h
  exact h.2 n hn

theorem mayReload_congr {d e : Dev} {n : Nat} (h1 : e.mode = d.mode) (h2 : e.regionState n = d.regionState n) :
    e.mayReload n = d.mayReload n := by
  unfold Dev.mayReload
  rw [h1, h2]

/-- The owed reload that begins is that of the one region that owes one. -/
theorem nextAuto_only (d : Dev) (n : Nat) (hn : n < 6) (hr : d.reloading = false) (hd : (d.regionOf n).due = true)
    (hm : d.mayReload n = true) (ho : ∀ m, m < 6 → m ≠ n → (d.regionOf m).due = false) : d.nextAuto = d.autoStart n := by
  have hf : (List.range 6).find? (fun m => (d.regionOf m).due && d.mayReload m) = some n := by
    rw [List.find?_range_eq_some]
    refine ⟨by rw [hd, hm]; rfl, List.mem_range.2 hn, fun m hlt => ?_⟩
    rw [ho m (by omega) (by omega)]
    rfl
  unfold Dev.nextAuto
  rw [if_neg (by rw [hr]; decide), hf]

/-- What the reload of a plane from its stored image begins with (R15, R41). -/
structure PlaneReload (n : Nat) (d e : Dev) : Prop where
  state : e.regionState n = 2
  auto : (e.regionOf n).auto = true
  want : e.mac.want = if d.regionState (1 - n) = 0 then d.mac.want.map (fun _ => 1 - n) else d.mac.want
  steer : e.mac.steer = d.mac.steer
  regs : d.keepsRegsE [Reg.CFG_REGION_STAT + 4 * n] e
  stats : d.statLe e
  parts : d.changesOnly [.regs, .regions, .mac, .evt, .out] e

theorem steerAway_cases (d : Dev) (n : Nat) : d.steerAway n =
    { d with mac := { d.mac with want := if d.regionState (1 - n) = 0 then d.mac.want.map (fun _ => 1 - n) else d.mac.want } } := by
  unfold Dev.steerAway
  split <;> rfl

theorem autoStart_plane (d : Dev) (n : Nat) (hn : n < 2) : PlaneReload n d (d.autoStart n) := by
  have hstart : d.autoStart n = ((d.setRegionState n 2).putRegion n { d.regionOf n with auto := true, due := false }).steerAway n := by
    unfold Dev.autoStart Dev.putRegion
    rw [if_pos hn, Dev.setRegionState, Dev.setFld_regions]
  generalize hx : ({ d.regionOf n with auto := true, due := false } : Region) = x at hstart
  generalize hg : (d.setRegionState n 2).putRegion n x = g at hstart
  have gs : ∀ m, g.regionState m = (d.setRegionState n 2).regionState m := fun m => by
    rw [← hg]
    exact regionState_congr (Dev.putRegion_reg ..)
  have gm : g.mac = d.mac := by rw [← hg]; exact (Dev.putRegion_mac ..).trans (Dev.setFld_mac _ _ _ _ _)
  have gp : d.changesOnly [.regs, .regions, .mac, .evt, .out] g := by
    rw [← hg]
    exact ((Dev.changesOnly_refl _ d).setFld (by decide) _ _ _ _).putRegion (by decide) _ _
  rw [hstart, steerAway_cases, gs, regionState_setRegionState_ne _ _ (by omega), gm]
  refine ⟨?_, ?_, rfl, rfl, ?_, ?_, gp.with_mac (by decide) _⟩
  · exact (gs n).trans (regionState_setRegionState d n 2 (by decide))
  · show (g.regionOf n).auto = true
    rw [← hg, Dev.regionOf_putRegion_self, ← hx]
  · refine Dev.keepsRegsE.with_mac (l := [Reg.CFG_REGION_STAT + 4 * n]) ?_ _
    rw [← hg]
    exact ((Dev.keepsRegsE_refl _ d).setFld _ _ _ (by simp)).putRegion _ _
  · refine Dev.statLe.with_mac ?_ _
    rw [← hg]
    exact ((Dev.statLe_refl d).setFld _ _ _ (evtSetReg_region (by omega))).putRegion _ _

/-- A plane in service loads its stored image at once where no region reloads and none owes a reload. -/
theorem autoReload_plane (d : Dev) (n : Nat) (hn : n < 2) (hr : d.reloading = false) (hdue : ∀ m, m < 6 → (d.regionOf m).due = false)
    (hm : d.mayReload n = true) : PlaneReload n d (d.autoReload n) ∧ d.raised (srcRegion n 2) (d.autoReload n) := by
  have hauto : (d.regionOf n).auto = false := not_auto_of_not_reloading hr (by omega)
  have hrun : d.autoReload n = ((d.raise (srcRegion n 2)).putRegion n { d.regionOf n with due := true }).nextAuto := by
    unfold Dev.autoReload
    rw [if_neg (by rw [hauto]; decide)]
    dsimp only
    rw [show (d.raise (srcRegion n 2)).regionOf n = d.regionOf n by unfold Dev.regionOf; rw [Dev.raise_regions]]
    rfl
  generalize hg : (d.raise (srcRegion n 2)).putRegion n { d.regionOf n with due := true } = g at hrun
  have gself : g.regionOf n = { d.regionOf n with due := true } := by rw [← hg, Dev.regionOf_putRegion_self]
  have gother : ∀ m, m ≠ n → g.regionOf m = d.regionOf m := fun m h => by
    rw [← hg, Dev.regionOf_putRegion_ne _ _ h]
    unfold Dev.regionOf
    rw [Dev.raise_regions]
  have gauto : ∀ m, (g.regionOf m).auto = (d.regionOf m).auto := fun m => by
    by_cases h : m = n
    · rw [h, gself]
    · rw [gother m h]
  have gk : d.keepsRegsE [Reg.CFG_REGION_STAT + 4 * n] g := by
    rw [← hg]
    exact ((Dev.keepsRegsE_refl _ d).raise _ _ _).putRegion _ _
  have greg : ∀ o, evtReg o = false → g.reg o = d.reg o := fun o h => by
    rw [← hg]
    exact Dev.raise_reg d _ _ _ h
  have gstate : ∀ m, m < 6 → g.regionState m = d.regionState m := fun m h => regionState_congr (greg _ (evtReg_region h))
  have gp : d.changesOnly [.regs, .regions, .mac, .evt, .out] g := by
    rw [← hg]
    exact ((Dev.changesOnly_refl _ d).raise (by decide) _ _ _).putRegion (by decide) _ _
  have gmode : g.mode = d.mode := gp .mode (by decide)
  have gcfg : g.cfg = d.cfg := gp .cfg (by decide)
  have gmac : g.mac = d.mac := by rw [← hg]; exact Dev.raise_mac ..
  have gr : g.reloading = false := (reloading_congr gcfg (greg _ (by decide)) gauto).trans hr
  have gm : g.mayReload n = true := (mayReload_congr gmode (gstate n (by omega))).trans hm
  have graised : d.raised (srcRegion n 2) g := by
    rw [← hg]
    exact (Dev.raise_raised d _ _ _).after (Dev.statLe_regions _ _) (srcRegion_lt (by omega) (by decide))
  rw [hrun, nextAuto_only g n (by omega) gr (by rw [gself]) gm fun m h1 h2 => by rw [gother m h2]; exact hdue m h1]
  have h := autoStart_plane g n hn
  refine ⟨⟨h.state, h.auto, ?_, ?_, gk.trans h.regs, ?_, gp.trans h.parts⟩, graised.after h.stats (srcRegion_lt (by omega) (by decide))⟩
  · rw [h.want, gstate _ (by omega), gmac]
  · rw [h.steer, gmac]
  · rw [← hg] at h ⊢
    exact (((Dev.statLe_refl d).raise _ _ _).putRegion _ _).trans h.stats

/-! ### The commands, by the state of the region -/

theorem cacheError_out (d : Dev) (r b : Nat) (h : d.regionState (r % 6) = 7 ∨ d.regionState (r % 6) = 8) :
    cacheUncorrectableError r b d = d := by
  unfold cacheUncorrectableError
  exact if_pos h

theorem cacheError_scrubs (d : Dev) (r b : Nat) (h7 : d.regionState (r % 6) ≠ 7) (h8 : d.regionState (r % 6) ≠ 8) :
    cacheUncorrectableError r b d = d.startScrub (r % 6) b := by
  unfold cacheUncorrectableError
  exact if_neg (not_or.2 ⟨h7, h8⟩)

/-- Whether a scrub needed now is a second one within 10 s of the one before (R15). -/
def Dev.scrubNear (d : Dev) (n : Nat) : Bool :=
  ((d.regionOf n).scrubbing && (d.regionOf n).again) ||
    (match (d.regionOf n).lastScrub with | some t => decide (d.now < t + 15000000000) | none => false)

theorem scrubNear_iff (d : Dev) (n : Nat) : d.scrubNear n = true ↔
    ((d.regionOf n).scrubbing = true ∧ (d.regionOf n).again = true) ∨ ∃ x, (d.regionOf n).lastScrub = some x ∧ d.now < x + 15000000000 := by
  unfold Dev.scrubNear
  cases (d.regionOf n).lastScrub <;> simp

theorem startScrub_eq (d : Dev) (n b : Nat) : d.startScrub n b =
    (d.raise (srcRegion n 1) b).putRegion n { d.regionOf n with scrubbing := true, lastScrub := some d.now, again := d.scrubNear n } := by
  unfold Dev.startScrub Dev.putRegion
  rw [Dev.raise_regions]
  rfl

theorem scrubDone_none (d : Dev) (r : Nat) (ok : Bool) (h : (d.regionOf (r % 6)).scrubbing = false) : regionScrubDone r ok d = d := by
  unfold regionScrubDone
  dsimp only
  rw [h]
  rfl

/-- The end of a scrub: the record is cleared, and what it left over leads to a reload. -/
theorem scrubDone_eq (d : Dev) (r : Nat) (ok : Bool) (h : (d.regionOf (r % 6)).scrubbing = true) : regionScrubDone r ok d =
    if ((!ok || (d.regionOf (r % 6)).again) && d.regionState (r % 6) != 7 && d.regionState (r % 6) != 8) = true
    then (d.putRegion (r % 6) { d.regionOf (r % 6) with scrubbing := false, again := false }).autoReload (r % 6)
    else d.putRegion (r % 6) { d.regionOf (r % 6) with scrubbing := false, again := false } := by
  unfold regionScrubDone
  dsimp only
  rw [h]
  rfl

theorem autoReloadDone_none (d : Dev) (r : Nat) (ok : Bool) (bad : List Nat) (h : (d.regionOf (r % 6)).auto = false) :
    regionAutoReloadDone r ok bad d = d := by
  unfold regionAutoReloadDone
  dsimp only
  rw [h]
  rfl

theorem autoReloadDone_verified (d : Dev) (r : Nat) (bad : List Nat) (h : (d.regionOf (r % 6)).auto = true) :
    regionAutoReloadDone r true bad d =
      ((d.putRegion (r % 6) { d.regionOf (r % 6) with pend := some (d.regionOf (r % 6)).stored }).rejoin (r % 6) bad).2.nextAuto := by
  unfold regionAutoReloadDone
  dsimp only
  rw [h]
  rfl

theorem autoReloadDone_failed (d : Dev) (r : Nat) (bad : List Nat) (h : (d.regionOf (r % 6)).auto = true) :
    regionAutoReloadDone r false bad d =
      if 2 ≤ (d.regionOf (r % 6)).verifyFails + 1
      then ((d.putRegion (r % 6) { d.regionOf (r % 6) with verifyFails := (d.regionOf (r % 6)).verifyFails + 1 }).failRegion (r % 6)).nextAuto
      else d.putRegion (r % 6) { d.regionOf (r % 6) with verifyFails := (d.regionOf (r % 6)).verifyFails + 1 } := by
  unfold regionAutoReloadDone
  dsimp only
  rw [h]
  rfl

/-! ### The statement -/

/-- The reload of a plane after its scrub, seen from before the scrub's end. -/
theorem scrubbed_plane_reloads (d : Dev) (n : Nat) (x : Region) (hx : x = { d.regionOf n with scrubbing := false, again := false }) (hn : n < 2)
    (hr : d.reloading = false) (hdue : ∀ m, m < 6 → (d.regionOf m).due = false) (hm : d.mayReload n = true) :
    PlaneReload n d ((d.putRegion n x).autoReload n) ∧ d.raised (srcRegion n 2) ((d.putRegion n x).autoReload n) := by
  generalize hg : d.putRegion n x = g
  have gk : d.keepsRegsE [Reg.CFG_REGION_STAT + 4 * n] g := by rw [← hg]; exact (Dev.keepsRegsE_refl _ d).putRegion _ _
  have gp : d.changesOnly [.regs, .regions, .mac, .evt, .out] g := by rw [← hg]; exact (d.putRegion_parts n x).of
  have gs : d.statLe g := by rw [← hg]; exact Dev.statLe_regions _ _
  have grec : ∀ m, (g.regionOf m).auto = (d.regionOf m).auto ∧ (g.regionOf m).due = (d.regionOf m).due := fun m => by
    rw [← hg]
    by_cases h : m = n
    · rw [h, Dev.regionOf_putRegion_self, hx]
      exact ⟨rfl, rfl⟩
    · rw [Dev.regionOf_putRegion_ne _ _ h]
      exact ⟨rfl, rfl⟩
  have gr : g.reloading = false := by
    rw [← hr]
    exact reloading_congr (by rw [← hg]; rfl) (by rw [← hg]; rfl) fun m => (grec m).1
  have gm : g.mayReload n = true := by
    rw [← hm]
    exact mayReload_congr (by rw [← hg]; rfl) (by rw [← hg]; rfl)
  have gmac : g.mac = d.mac := by rw [← hg]; rfl
  have gst : g.regionState (1 - n) = d.regionState (1 - n) := by rw [← hg]; rfl
  obtain ⟨h, hraised⟩ := autoReload_plane g n hn gr (fun m hm6 => (grec m).2.trans (hdue m hm6)) gm
  refine ⟨⟨h.state, h.auto, ?_, ?_, gk.trans h.regs, gs.trans h.stats, gp.trans h.parts⟩,
    Dev.raised.before gs hraised (srcRegion_lt (by omega) (by decide))⟩
  · rw [h.want, gst, gmac]
  · rw [h.steer, gmac]

/-- Settles O21: each command by the state of the region's record; the one reload followed to its end is a plane's. -/
theorem regionsScrubReloadAndFail : Obligations.RegionsScrubReloadAndFail := by
  unfold Obligations.RegionsScrubReloadAndFail
  refine ⟨?_, ?_, ?_, ?_, ?_, ?_, ?_⟩
  · intro s r b hr h
    exact exec_same (exec_cacheUncorrectableError r b s) (cacheError_out _ r b h) hr
  · intro s r b hr h7 h8
    refine Answers.of_eq (exec_cacheUncorrectableError r b s) ((cacheError_scrubs _ r b h7 h8).trans (startScrub_eq _ _ _)) hr
      (congrArg Tsk.todo (Dev.raise_tsk ..)) (Dev.raise_pci ..) (Dev.raise_mode ..)
      ⟨⟨s.dev.scrubNear (r % 6), Dev.regionOf_putRegion_self .., scrubNear_iff _ _⟩, ?_, ?_, ?_, rfl, rfl, rfl⟩
    · exact (Dev.raise_raised s.dev _ _ _).after (Dev.statLe_regions _ _) (srcRegion_lt (Nat.mod_lt _ (by decide)) (by decide))
    · exact ((Dev.keepsRegsE_refl [] s.dev).raise _ _ _).putRegion _ _
    · exact ((Dev.changesOnly_refl [.regs, .regions, .evt, .out] s.dev).raise (by decide) _ _ _).putRegion (by decide) _ _
  · intro s r ok hr h
    exact exec_same (exec_regionScrubDone r ok s) (scrubDone_none _ r ok h) hr
  · intro s r hr hs ha
    have hend := scrubDone_eq s.dev r true hs
    rw [ha, if_neg (by simp)] at hend
    exact Answers.of_eq (exec_regionScrubDone r true s) hend hr rfl rfl rfl
      ⟨Dev.regionOf_putRegion_self .., Dev.putRegion_parts _ _ _, rfl, rfl, rfl⟩
  · intro s r ok hr hs h7 h8 hleft
    have hc : ((!ok || (s.dev.regionOf (r % 6)).again) && s.dev.regionState (r % 6) != 7 && s.dev.regionState (r % 6) != 8) = true := by
      rcases hleft with h | h <;> simp [h, h7, h8]
    have hend := (scrubDone_eq s.dev r ok hs).trans (if_pos hc)
    refine Does.of (exec_regionScrubDone r ok s)
      ⟨_, Dev.regionOf_putRegion_self .., Dev.putRegion_parts _ _ _, hend, fun hn hrel hdue hmay => ?_⟩
    rw [hend]
    obtain ⟨h, hraised⟩ := scrubbed_plane_reloads s.dev (r % 6) _ rfl hn hrel hdue hmay
    exact ⟨h.state, h.auto, h.want, h.steer, hraised, h.regs, h.parts⟩
  · intro s r ok bad hr h
    exact exec_same (exec_regionAutoReloadDone r ok bad s) (autoReloadDone_none _ r ok bad h) hr
  · intro s r bad hr ha
    have hfail := autoReloadDone_failed s.dev r bad ha
    refine ⟨?_, fun h0 => ?_, fun h1 => ?_⟩
    · exact Does.of (exec_regionAutoReloadDone r true bad s)
        ⟨_, Dev.regionOf_putRegion_self .., Dev.putRegion_parts _ _ _, autoReloadDone_verified _ r bad ha⟩
    · rw [if_neg (by omega), h0] at hfail
      exact Answers.of_eq (exec_regionAutoReloadDone r false bad s) hfail hr rfl rfl rfl
        ⟨Dev.regionOf_putRegion_self .., Dev.putRegion_parts _ _ _, rfl, rfl, rfl⟩
    · rw [if_pos (by omega)] at hfail
      exact Does.of (exec_regionAutoReloadDone r false bad s) ⟨_, Dev.regionOf_putRegion_self .., Dev.putRegion_parts _ _ _, hfail⟩

end Sys2Proof.Machine
end

section
/-! The end of a task at the end of the grace and by an abort (R25, R55, R64, R69). -/

namespace Sys2Proof.Machine
open Sys2Proof

/-! ### The end of a task, seen from an earlier state and from a later one -/

/-- The registers of the counters of final states. -/
theorem tskCnt_lt {st : Nat} (h : st < 13) : Reg.TSK_CNT_LO + 8 * (st - 5) + 4 < Reg.TSK_CNT_LO + 64 := by
  have : Reg.TSK_CNT_LO = 0x00300200 := rfl
  omega

/-- What follows the end of a task and keeps tasks, slots, cells and counters leaves it ended. -/
theorem Dev.taskEnded.after {t st : Nat} {d e f : Dev} (h : d.taskEnded t st e) (ht : f.tsk.tasks = e.tsk.tasks) (hs : f.tsk.slots = e.tsk.slots)
    (hc : f.tsk.cells = e.tsk.cells) (h5 : st < 13)
    (hr : ∀ o, Reg.TSK_CNT_LO ≤ o → o < Reg.TSK_CNT_LO + 64 → f.reg o = e.reg o) : d.taskEnded t st f := by
  have htask : ∀ j, f.task j = e.task j := fun j => congrArg (tabFind · j) ht
  have hcell : ∀ j, f.cell j = e.cell j := fun j => congrArg (tabGet (fun _ => ({} : CellSt)) · j) hc
  have hlt := tskCnt_lt h5
  unfold Dev.taskEnded at h ⊢
  simp only [htask, hcell, hs, hc]
  obtain ⟨hself, hothers, hslots, hres, hcnt⟩ := h
  exact ⟨hself, hothers, hslots, hres, hcnt.after (hr _ (by omega) (by omega)) (hr _ (by omega) (by omega))⟩

/-- What comes before the end of a task and keeps tasks, the order of the cells, counters and the time does not show in it. -/
theorem Dev.taskEnded.before {t st : Nat} {d e f : Dev} (h : e.taskEnded t st f) (ht : e.tsk.tasks = d.tsk.tasks)
    (hc : tabSorted d.tsk.cells = true → tabSorted e.tsk.cells = true) (hb : e.beat = d.beat) (hn : e.now = d.now) (h5 : st < 13)
    (hr : ∀ o, Reg.TSK_CNT_LO ≤ o → o < Reg.TSK_CNT_LO + 64 → e.reg o = d.reg o) : d.taskEnded t st f := by
  have htask : ∀ j, e.task j = d.task j := fun j => congrArg (tabFind · j) ht
  have hlt := tskCnt_lt h5
  unfold Dev.taskEnded at h ⊢
  simp only [htask, ht, hb, hn] at h
  obtain ⟨hself, hothers, hslots, hres, hcnt⟩ := h
  refine ⟨fun x hx => ?_, hothers, hslots, hres, hcnt.before (hr _ (by omega) (by omega)) (hr _ (by omega) (by omega))⟩
  obtain ⟨hentry, hfree⟩ := hself x hx
  exact ⟨hentry, fun hrun hsort => hfree hrun (hc hsort)⟩

/-! ### What the end of a task leaves of a cell -/

/-- A key whose mapped value is listed at all reads the mapped value, whatever the order of the store. -/
theorem tabFind_tabMap_kept {α : Type} [DecidableEq α] (d : Nat → α) (f : Nat → α → α) (t : Tab α) (k : Nat) (v : α)
    (h : tabFind t k = some v) (hv : f k v ≠ d k) : tabFind (tabMap d f t) k = some (f k v) := by
  induction t with
  | nil => cases h
  | cons p t ih =>
    obtain ⟨j, w⟩ := p
    have hm : tabMap d f ((j, w) :: t) = if f j w = d j then tabMap d f t else (j, f j w) :: tabMap d f t := by
      unfold tabMap
      by_cases hw : f j w = d j <;> simp [hw]
    rw [hm]
    rw [tabFind] at h
    split at h
    · rename_i hk
      cases h
      subst hk
      rw [if_neg hv, tabFind, if_pos rfl]
    · rename_i hk
      split
      · exact ih h
      · rw [tabFind, if_neg hk]
        exact ih h

/-- A cell that is resetting is listed. -/
theorem cell_listed {d : Dev} {c : Nat} (h : (d.cell c).resetting = true) : ∃ v, tabFind d.tsk.cells c = some v ∧ v = d.cell c := by
  unfold Dev.cell tabGet at h ⊢
  cases hf : tabFind d.tsk.cells c with
  | none =>
    rw [hf] at h
    exact absurd (show false = true from h) (by decide)
  | some v => exact ⟨v, rfl, rfl⟩

theorem unreserve_resetting (d : Dev) (t c : Nat) (h : (d.cell c).resetting = true) : ((d.unreserve t).cell c).resetting = true := by
  obtain ⟨v, hf, rfl⟩ := cell_listed h
  generalize d.cell c = v at hf h
  have hr : (if v.reserved = some t then { v with reserved := none } else v).resetting = true := by
    split <;> exact h
  have hne : (if v.reserved = some t then { v with reserved := none } else v) ≠ ({} : CellSt) := fun he => by
    rw [he] at hr
    exact absurd hr (by decide)
  have hm := tabFind_tabMap_kept (fun _ => ({} : CellSt)) (fun _ c => if c.reserved = some t then { c with reserved := none } else c) _ c v hf hne
  show (tabGet (fun _ => ({} : CellSt)) (d.unreserve t).tsk.cells c).resetting = true
  unfold tabGet Dev.unreserve
  dsimp only
  rw [hm]
  exact hr

theorem clearCells_resetting (d : Dev) (l : List Nat) (c : Nat) (h : (d.cell c).resetting = true) :
    ((d.clearCells l).cell c).resetting = true := by
  rw [Dev.clearCells_cell]
  split <;> exact h

/-- What is done in a terminate after the cells are let go of. -/
theorem terminate_cells (d : Dev) (t st : Nat) (x : Task) (hx : d.task t = some x) (hl : x.st < 5) : ∃ l, (d.terminate t st).tsk.cells =
    (((d.mapSlots (fun s => { s with tasks := s.tasks.filter (fun y => y != t) })).clearCells l).unreserve t).tsk.cells := by
  refine ⟨if x.st = St.running ∨ x.st = St.parked then x.cells else [], ?_⟩
  unfold Dev.terminate
  rw [hx]
  dsimp only
  rw [if_neg (by omega)]
  generalize (((d.mapSlots (fun s => { s with tasks := s.tasks.filter (fun y => y != t) })).clearCells
    (if x.st = St.running ∨ x.st = St.parked then x.cells else [])).unreserve t) = d1
  have hset : (d1.settleAbort t (if st = St.aborted then 0 else 1)).tsk.cells = d1.tsk.cells := by
    unfold Dev.settleAbort
    split <;> rfl
  generalize d1.settleAbort t (if st = St.aborted then 0 else 1) = d2 at hset ⊢
  have hcnt : ((d2.setTask t { x with st := st, ended := d2.beat, endNow := d2.now }).tskCount (endCounter st) 1).tsk.cells = d2.tsk.cells := by
    unfold Dev.tskCount
    rw [Dev.cnt_tsk]
    rfl
  generalize (d2.setTask t { x with st := st, ended := d2.beat, endNow := d2.now }).tskCount (endCounter st) 1 = d3 at hcnt ⊢
  have hrs : (if st = St.expired then d3.raiseOnce Src.TASK_EXPIRED (d3.handle t) else d3).tsk.cells = d3.tsk.cells := by
    split
    · rw [Dev.raiseOnce_tsk]
    · rfl
  generalize (if st = St.expired then d3.raiseOnce Src.TASK_EXPIRED (d3.handle t) else d3) = d4 at hrs ⊢
  obtain ⟨-, hwait, -⟩ := d4.endWaits_spec ((d4.tsk.waits.filter (fun w => w.2.onTask && w.2.name == d4.handle t)).map (·.1)) 1
  generalize d4.endWaits ((d4.tsk.waits.filter (fun w => w.2.onTask && w.2.name == d4.handle t)).map (·.1)) 1 = d5 at hwait ⊢
  obtain ⟨hready, -⟩ := d5.settleAll_spec ((d5.tsk.tasks.filter (fun q => q.2.pred == some x.order)).map (·.1))
  show (foldDev _ (fun q d => d.settleReady q) d5).tsk.cells = d1.tsk.cells
  rw [hready]
  exact hwait.trans (hrs.trans (hcnt.trans hset))

/-- A cell that resets goes on resetting when a task ends. -/
theorem terminate_resetting (d : Dev) (t st c : Nat) (x : Task) (hx : d.task t = some x) (hl : x.st < 5) (h : (d.cell c).resetting = true) :
    ((d.terminate t st).cell c).resetting = true := by
  obtain ⟨l, hc⟩ := terminate_cells d t st x hx hl
  have hcell : (d.terminate t st).cell c = _ := congrArg (tabGet (fun _ => ({} : CellSt)) · c) hc
  rw [hcell]
  exact unreserve_resetting _ t c (clearCells_resetting _ l c h)

/-! ### A cell that overran its grace -/

theorem setCell_sorted (d : Dev) (c : Nat) (x : CellSt) (h : tabSorted d.tsk.cells = true) : tabSorted (d.setCell c x).tsk.cells = true := by
  unfold Dev.setCell
  dsimp only
  unfold tabSet
  split
  · exact tabSorted_tabErase c h
  · exact tabSorted_tabInsert c _ h

/-- What the first overrun of a cell does (R15, R24): the cell is stopped and resets, and CELL_OVERRUN is raised. -/
structure Overrun (c : Nat) (d e : Dev) : Prop where
  resetting : (e.cell c).resetting = true
  tsk : e.tsk = { d.tsk with cells := e.tsk.cells }
  sorted : tabSorted d.tsk.cells = true → tabSorted e.tsk.cells = true
  event : d.raised Src.CELL_OVERRUN e
  regs : d.keepsRegsE [] e
  stats : d.statLe e
  parts : d.changesOnly [.regs, .tsk, .evt, .out] e

theorem overrun_first (d : Dev) (c : Nat) (h : (d.cell c).expiries = []) : Overrun c d (d.overrun c) := by
  unfold Dev.overrun
  dsimp only
  generalize hy : ({ d.cell c with job := none, yielding := false, aborting := false, resetting := true, stopAt := d.now - 1 } : CellSt) = y
  have hyr : y.resetting = true := by rw [← hy]
  have hye : y.expiries = [] := by rw [← hy]; exact h
  generalize hg : d.setCell c y = g
  have gt : g.tsk = { d.tsk with cells := g.tsk.cells } := by rw [← hg]; rfl
  have gs : d.statLe g := by rw [← hg]; exact Dev.statLe_tsk _ _
  have gp : d.changesOnly [.regs, .tsk, .evt, .out] g := by rw [← hg]; exact (d.parts_tsk _).of
  have gr : d.keepsRegsE [] g := by rw [← hg]; exact (Dev.keepsRegsE_refl _ d).with_tsk _
  have gsort : tabSorted d.tsk.cells = true → tabSorted g.tsk.cells = true := fun hs => by rw [← hg]; exact setCell_sorted _ _ _ hs
  have gcell : g.cell c = y := by rw [← hg, Dev.cell_setCell, if_pos rfl]
  generalize hf : g.raise Src.CELL_OVERRUN c = f
  have ft : f.tsk = g.tsk := by rw [← hf]; exact Dev.raise_tsk ..
  have fcell : f.cell c = y := (congrArg (fun t : Tsk => tabGet (fun _ => ({} : CellSt)) t.cells c) ft).trans gcell
  have hw : f.watchdog c = f.setCell c { y with expiries := [f.now] } := by
    unfold Dev.watchdog
    dsimp only
    rw [fcell, hye]
    rfl
  rw [hw]
  have fev : d.raised Src.CELL_OVERRUN f := by
    rw [← hf]
    exact Dev.raised.before gs (Dev.raise_raised g _ _ _) (by decide)
  have fs : d.statLe f := by rw [← hf]; exact gs.raise _ _ _
  have fp : d.changesOnly [.regs, .tsk, .evt, .out] f := by rw [← hf]; exact gp.raise (by decide) _ _ _
  have fr : d.keepsRegsE [] f := by rw [← hf]; exact gr.raise _ _ _
  refine ⟨?_, ?_, fun hs => setCell_sorted _ _ _ (ft ▸ gsort hs), fev.after (Dev.statLe_tsk _ _) (by decide), fr.with_tsk _, fs.with_tsk _,
    fp.with_tsk (by decide) _⟩
  · rw [Dev.cell_setCell, if_pos rfl]
    exact hyr
  · generalize ({ y with expiries := [f.now] } : CellSt) = z
    calc (f.setCell c z).tsk = { f.tsk with cells := (f.setCell c z).tsk.cells } := rfl
      _ = { d.tsk with cells := (f.setCell c z).tsk.cells } := by rw [ft, gt]

theorem cell_aborting {d : Dev} {x : Task} {c : Nat} (hc : x.cells = [c]) : d.aborting x = (d.cell c).aborting := by
  unfold Dev.aborting
  rw [hc]
  simp

theorem countForced_zero (d : Dev) : d.countForced 0 = d := by
  unfold Dev.countForced
  split <;> rfl

/-- A task of one cell that has not yielded: the cell overruns, and the task ends LATE. -/
theorem stopTask_single (d : Dev) (t c : Nat) (x : Task) (hc : x.cells = [c]) (ha : (d.cell c).aborting = false) (he : x.ending ≠ 2) :
    d.stopTask t x [c] = (d.overrun c).terminate t St.late := by
  unfold Dev.stopTask
  rw [cell_aborting hc, ha, if_neg Bool.false_ne_true]
  dsimp only
  rw [if_neg (fun h => he h.1), countForced_zero]
  rfl

/-! ### The commands, by the task they meet -/

theorem deadlineSettle_none (d : Dev) (k : Nat) (h : ∀ x, d.task k = some x → 5 ≤ x.st ∨ d.beat < x.deadline) : deadlineSettle k d = d := by
  unfold deadlineSettle
  split
  · rfl
  · rename_i x hx
    exact if_pos (h x hx)

theorem deadlineSettle_idle (d : Dev) (k : Nat) (x : Task) (hx : d.task k = some x) (hl : x.st < 5) (hn : x.st ≠ St.running)
    (hb : x.deadline ≤ d.beat) : deadlineSettle k d = d.endGrace.terminate k St.expired := by
  unfold deadlineSettle
  rw [hx]
  dsimp only
  rw [if_neg (by omega), if_neg hn]

theorem deadlineSettle_running (d : Dev) (k : Nat) (x : Task) (hx : d.task k = some x) (hr : x.st = St.running)
    (hb : x.deadline ≤ d.beat) : deadlineSettle k d = d.endGrace.stopTask k x (x.cells.filter (fun c => (d.cell c).yielding)) := by
  have : x.st = 3 := hr
  unfold deadlineSettle
  rw [hx]
  dsimp only
  rw [if_neg (by omega), if_pos hr]

theorem endGrace_todo (d : Dev) : d.endGrace.tsk.todo = d.tsk.todo := by
  unfold Dev.endGrace Dev.toFclk
  split
  · exact (advance_keeps _ _).1
  · rfl

theorem byHandle_task {d : Dev} {h : Nat} {x : Task} (hb : d.byHandle h = some (some x)) : d.task (h % 2 ^ 17) = some x := by
  unfold Dev.byHandle at hb
  dsimp only at hb
  split at hb
  · cases hb
  · split at hb
    · exact Option.some.inj hb
    · cases hb

/-- What the end of an abort does (R69). -/
structure AbortDone (code : Nat) (d e : Dev) : Prop where
  tsk : e.tsk = { d.tsk with abort := none, abortEnd := none }
  result : e.reg Reg.TSK_ABORT_RESULT = BitVec.ofNat 32 (2 ^ 31 + code)
  event : d.raised Src.ABORT_DONE e
  regs : d.keepsRegsE [Reg.TSK_ABORT_RESULT] e
  parts : d.changesOnly [.regs, .tsk, .evt, .out] e

theorem abortDone_spec (d : Dev) (h code : Nat) : AbortDone code d (d.abortDone h code) := by
  unfold Dev.abortDone Dev.abortResult
  generalize hg : ({ d with tsk := { d.tsk with abort := none, abortEnd := none } } : Dev) = g
  have gt : g.tsk = { d.tsk with abort := none, abortEnd := none } := by rw [← hg]
  have gp : d.changesOnly [.regs, .tsk, .evt, .out] g := by rw [← hg]; exact (d.parts_tsk _).of
  have gr : d.keepsRegsE [Reg.TSK_ABORT_RESULT] g := by rw [← hg]; exact (Dev.keepsRegsE_refl _ d).with_tsk _
  have gs : d.statLe g := by rw [← hg]; exact Dev.statLe_tsk _ _
  refine ⟨?_, ?_, ?_, (gr.setReg _ (by simp)).raise _ _ _, (gp.setReg (by decide) _ _).raise (by decide) _ _ _⟩
  · rw [Dev.raise_tsk, Dev.setReg_tsk, gt]
  · rw [Dev.raise_reg _ _ _ _ (by decide), Dev.reg_setReg_self]
    rfl
  · exact Dev.raised.before (gs.setReg _ (by decide)) (Dev.raise_raised _ _ _ _) (by decide)

theorem abortResolved_ended (d : Dev) {h a c : Nat} (ha : d.tsk.abort = some (h, a)) (he : d.tsk.abortEnd = some c) :
    abortResolved d = d.abortDone h c := by
  unfold abortResolved
  rw [ha]
  dsimp only
  rw [he]

theorem abortResolved_stale (d : Dev) {h a : Nat} (ha : d.tsk.abort = some (h, a)) (he : d.tsk.abortEnd = none) (hb : d.byHandle h = none) :
    abortResolved d = d.abortDone h 2 := by
  unfold abortResolved
  rw [ha]
  dsimp only
  rw [he]
  dsimp only
  rw [hb]

theorem abortResolved_gone (d : Dev) {h a : Nat} (ha : d.tsk.abort = some (h, a)) (he : d.tsk.abortEnd = none)
    (hb : d.byHandle h = some none ∨ ∃ x, d.byHandle h = some (some x) ∧ 5 ≤ x.st) : abortResolved d = d.abortDone h 1 := by
  unfold abortResolved
  rw [ha]
  dsimp only
  rw [he]
  rcases hb with hb | ⟨x, hb, hx⟩
  · dsimp only
    rw [hb]
  · dsimp only
    rw [hb]
    exact if_pos hx

theorem abortResolved_live (d : Dev) {h a : Nat} {x : Task} (ha : d.tsk.abort = some (h, a)) (he : d.tsk.abortEnd = none)
    (hb : d.byHandle h = some (some x)) (hl : x.st < 5) (hn : x.st ≠ St.running) :
    abortResolved d = (d.terminate (h % 2 ^ 17) St.aborted).abortDone h 0 := by
  unfold abortResolved
  rw [ha]
  dsimp only
  rw [he]
  dsimp only
  rw [hb]
  dsimp only
  rw [if_neg (by omega), if_neg hn]

theorem abortResolved_running (d : Dev) {h a : Nat} {x : Task} {e : Dev} (ha : d.tsk.abort = some (h, a)) (he : d.tsk.abortEnd = none)
    (hb : d.byHandle h = some (some x)) (hr : x.st = St.running) (hat : d.reachNow ((d.cell (x.cells.headD 0)).acceptAt + 1) = some e) :
    abortResolved d = (e.terminate (h % 2 ^ 17) St.aborted).abortDone h 0 := by
  have : x.st = 3 := hr
  unfold abortResolved
  rw [ha]
  dsimp only
  rw [he]
  dsimp only
  rw [hb]
  dsimp only
  rw [if_neg (by omega), if_pos hr]
  unfold Dev.atNow
  rw [hat]

theorem reachNow_todo {d e : Dev} {t : Nat} (h : d.reachNow t = some e) : e.tsk.todo = d.tsk.todo := by
  unfold Dev.reachNow at h
  split at h
  · cases h
    rfl
  · split at h
    · cases h
      exact (advance_keeps _ _).1
    · cases h

/-- What an abort that ends its task does (R69). -/
structure AbortEnds (t : Nat) (d e : Dev) : Prop where
  ended : d.taskEnded t St.aborted e
  todo : e.tsk.todo = d.tsk.todo ++ [.ended t]
  abort : e.tsk.abort = none
  result : e.reg Reg.TSK_ABORT_RESULT = 0x80000000
  event : d.raised Src.ABORT_DONE e
  parts : d.changesOnly [.regs, .tsk, .evt, .out] e

theorem abortEnds_spec (d : Dev) (t h : Nat) (x : Task) (hx : d.task t = some x) (hl : x.st < 5) :
    AbortEnds t d ((d.terminate t St.aborted).abortDone h 0) := by
  obtain ⟨hend, htodo, -, -, hparts, hstats⟩ := d.terminate_spec t St.aborted x hx hl (by decide) (by decide)
  generalize d.terminate t St.aborted = e at hend htodo hparts hstats ⊢
  have ha := abortDone_spec e h 0
  refine ⟨hend.after (by rw [ha.tsk]) (by rw [ha.tsk]) (by rw [ha.tsk]) (by decide) ?_, ?_, ?_, ha.result,
    Dev.raised.before hstats ha.event (by decide), hparts.trans ha.parts⟩
  · intro o h1 h2
    have e1 : Reg.TSK_CNT_LO = 0x00300200 := rfl
    have e2 : Reg.TSK_ABORT_RESULT < 0x00300200 ∨ 0x00300240 ≤ Reg.TSK_ABORT_RESULT := by decide
    refine ha.regs o ?_ (evtReg_low (by omega))
    rw [List.mem_singleton]
    omega
  · rw [ha.tsk]
    exact htodo
  · rw [ha.tsk]

/-! ### The statement -/

/-- The end of the grace of a task of one cell that still runs. -/
theorem graceStop_spec (d : Dev) (k c : Nat) (x : Task) (hx : d.task k = some x) (hl : x.st < 5) (he : (d.cell c).expiries = []) :
    d.taskEnded k St.late ((d.overrun c).terminate k St.late) ∧ ((d.overrun c).terminate k St.late).tsk.todo = d.tsk.todo ++ [.ended k] ∧
    (((d.overrun c).terminate k St.late).cell c).resetting = true ∧ d.raised Src.CELL_OVERRUN ((d.overrun c).terminate k St.late) ∧
    d.changesOnly [.regs, .tsk, .evt, .out] ((d.overrun c).terminate k St.late) := by
  have ho := overrun_first d c he
  generalize d.overrun c = e at ho ⊢
  have htasks : e.tsk.tasks = d.tsk.tasks := by rw [ho.tsk]
  have hxe : e.task k = some x := (congrArg (tabFind · k) htasks).trans hx
  obtain ⟨hend, htodo, -, -, hparts, hstats⟩ := e.terminate_spec k St.late x hxe hl (by decide) (by decide)
  refine ⟨hend.before htasks ho.sorted (ho.parts .beat (by decide)) (ho.parts .now (by decide)) (by decide) ?_, ?_,
    terminate_resetting e k _ c x hxe hl ho.resetting, ho.event.after hstats (by decide), ho.parts.trans hparts⟩
  · intro o h1 h2
    have e1 : Reg.TSK_CNT_LO = 0x00300200 := rfl
    exact ho.regs o List.not_mem_nil (evtReg_low (by omega))
  · rw [htodo, ho.tsk]

/-- Settles O11: each command by the task it meets, and the end of a task by `terminate_spec`. -/
theorem tasksEndAtGraceOrAbort : Obligations.TasksEndAtGraceOrAbort := by
  unfold Obligations.TasksEndAtGraceOrAbort
  refine ⟨?_, ?_, ?_, ?_, ?_, ?_⟩
  · intro s k x hr hx hl hn hb hxe
    obtain ⟨hidle, -⟩ := State.ready_spec hr
    have hrun := deadlineSettle_idle s.dev k x hx hl hn hb
    obtain ⟨hend, htodo, -, -, hparts, -⟩ := s.dev.endGrace.terminate_spec k St.expired x hxe hl (by decide) (by decide)
    rw [endGrace_todo, hidle] at htodo
    rw [← hrun] at hend htodo hparts
    exact HandsOn.of (exec_deadlineSettle k s) htodo ⟨hend, hparts⟩
  · intro s k c x hr hx hst hb hc hy ha he hend hxe hce
    obtain ⟨hidle, -⟩ := State.ready_spec hr
    have hrun := deadlineSettle_running s.dev k x hx hst hb
    rw [hc, List.filter_cons_of_pos (by simpa using hy), List.filter_nil,
      stopTask_single _ _ _ _ hc (by rw [hce, ha]) hend] at hrun
    obtain ⟨hended, htodo, hreset, hev, hparts⟩ :=
      graceStop_spec s.dev.endGrace k c x hxe (by rw [hst]; decide) (by rw [hce, he])
    rw [endGrace_todo, hidle] at htodo
    rw [← hrun] at hended htodo hreset hev hparts
    exact HandsOn.of (exec_deadlineSettle k s) htodo ⟨hended, hreset, hev, hparts⟩
  · intro s k hr h
    exact exec_same (exec_deadlineSettle k s) (deadlineSettle_none _ k h) hr
  · intro s h a x hr ha he hb hl hn
    obtain ⟨hidle, -⟩ := State.ready_spec hr
    have hrun := abortResolved_live s.dev ha he hb hl hn
    have hends := abortEnds_spec s.dev (h % 2 ^ 17) h x (byHandle_task hb) hl
    rw [← hrun] at hends
    exact HandsOn.of (exec_abortResolved s) (by rw [hends.todo, hidle]; rfl) ⟨hends.ended, hends.abort, hends.result, hends.event, hends.parts⟩
  · intro s h a x e hr ha he hb hst hat hxe
    obtain ⟨hidle, -⟩ := State.ready_spec hr
    have hrun := abortResolved_running s.dev ha he hb hst hat
    have hends := abortEnds_spec e (h % 2 ^ 17) h x hxe (by rw [hst]; decide)
    rw [← hrun] at hends
    exact HandsOn.of (exec_abortResolved s) (by rw [hends.todo, reachNow_todo hat, hidle]; rfl)
      ⟨hends.ended, hends.abort, hends.result, hends.event, hends.parts⟩
  · intro s h a c hr ha hcase
    have hrun : abortResolved s.dev = s.dev.abortDone h c := by
      rcases hcase with he | ⟨he, rfl, hb⟩ | ⟨he, rfl, hb⟩
      · exact abortResolved_ended _ ha he
      · exact abortResolved_gone _ ha he hb
      · exact abortResolved_stale _ ha he hb
    have hd := abortDone_spec s.dev h c
    exact Answers.of_eq (exec_abortResolved s) hrun hr (by rw [hd.tsk]) (hd.parts .pci (by decide)) (hd.parts .mode (by decide))
      ⟨hd.tsk, hd.result, hd.event, hd.regs, hd.parts, rfl, rfl, rfl⟩

end Sys2Proof.Machine
end

section
/-! The issue of jobs and their retirement (R15, R61, R62, R63, R65). -/

namespace Sys2Proof.Machine
open Sys2Proof

/-! ### The head of a sorted list -/

theorem head?_insertBy_self {α : Type} (le : α → α → Bool) (m : α) (l : List α)
    (h : l.head? = some m ∨ ∀ y, l.head? = some y → le m y = true) :
    (insertBy le m l).head? = some m := by
  cases l with
  | nil => rfl
  | cons y ys =>
    rw [insertBy]
    split
    · rfl
    · rename_i hn
      rcases h with h | h
      · exact h
      · exact absurd (h y rfl) hn

theorem mem_insertBy {α : Type} {le : α → α → Bool} {x y : α} {l : List α} (h : y ∈ insertBy le x l) : y = x ∨ y ∈ l := by
  induction l with
  | nil => exact .inl (List.mem_singleton.1 h)
  | cons z zs ih =>
    rw [insertBy] at h
    split at h
    · exact List.mem_cons.1 h
    · rcases List.mem_cons.1 h with rfl | h
      · exact .inr (List.mem_cons_self ..)
      · exact (ih h).imp_right (List.mem_cons_of_mem _)

theorem mem_sortBy {α : Type} {le : α → α → Bool} {y : α} {l : List α} (h : y ∈ sortBy le l) : y ∈ l := by
  induction l with
  | nil => exact h
  | cons a l ih =>
    rcases mem_insertBy (le := le) (l := sortBy le l) h with rfl | h
    · exact List.mem_cons_self ..
    · exact List.mem_cons_of_mem _ (ih h)

/-- An element that goes before every other one, and that no other one goes before, is the first. -/
theorem head?_sortBy {α : Type} [DecidableEq α] (le : α → α → Bool) (m : α) (l : List α) (hm : m ∈ l)
    (h : ∀ y ∈ l, y ≠ m → le m y = true ∧ le y m = false) : (sortBy le l).head? = some m := by
  induction l with
  | nil => exact absurd hm List.not_mem_nil
  | cons a l ih =>
    show (insertBy le a (sortBy le l)).head? = some m
    by_cases ha : a = m
    · subst ha
      refine head?_insertBy_self le a _ ?_
      by_cases hl : (sortBy le l).head? = some a
      · exact .inl hl
      · refine .inr fun y hy => (h y (List.mem_cons_of_mem _ (mem_sortBy (List.mem_of_head? hy))) ?_).1
        rintro rfl
        exact hl hy
    · have hml : m ∈ l := (List.mem_cons.1 hm).resolve_left (Ne.symm ha)
      have hhead := ih hml fun y hy => h y (List.mem_cons_of_mem _ hy)
      cases hs : sortBy le l with
      | nil =>
        rw [hs] at hhead
        cases hhead
      | cons b bs =>
        rw [hs] at hhead
        cases hhead
        rw [insertBy, if_neg (by rw [(h a (List.mem_cons_self ..) ha).2]; exact Bool.false_ne_true)]
        rfl

/-- The order of R62 between two tasks. -/
def Dev.goesBefore (d : Dev) (x y : Task) : Prop :=
  x.deadline < y.deadline ∨ (x.deadline = y.deadline ∧
    (d.flockPrio y.flock < d.flockPrio x.flock ∨ (d.flockPrio y.flock = d.flockPrio x.flock ∧
      (y.prio < x.prio ∨ (y.prio = x.prio ∧ x.order < y.order)))))

theorem issueBefore_of_goesBefore (d : Dev) (a b : Nat × Task) (h : d.goesBefore a.2 b.2) :
    d.issueBefore a b = true ∧ d.issueBefore b a = false := by
  unfold Dev.issueBefore
  dsimp only
  rcases h with h | ⟨h1, h | ⟨h2, h | ⟨h3, h⟩⟩⟩
  · rw [if_pos (by omega), if_pos (by omega)]
    exact ⟨decide_eq_true h, decide_eq_false (by omega)⟩
  · rw [if_neg (by omega), if_pos (by omega), if_neg (by omega), if_pos (by omega)]
    exact ⟨decide_eq_true h, decide_eq_false (by omega)⟩
  · rw [if_neg (by omega), if_neg (by omega), if_pos (by omega), if_neg (by omega), if_neg (by omega), if_pos (by omega)]
    exact ⟨decide_eq_true h, decide_eq_false (by omega)⟩
  · rw [if_neg (by omega), if_neg (by omega), if_neg (by omega), if_neg (by omega), if_neg (by omega), if_neg (by omega)]
    exact ⟨decide_eq_true (by omega), decide_eq_false (by omega)⟩

/-! ### The freeze of an operand set -/

/-- The operands as they stand once the set is frozen: what has not arrived is missing (R63). -/
def frozenOps (x : Task) : List Operand := x.ops.map fun o => if o.st = 0 then { o with st := 2 } else o

/-- What a freeze does to the task unit. -/
structure Froze (t : Nat) (x : Task) (d e : Dev) : Prop where
  tasks : e.tsk.tasks = recSet d.tsk.tasks t { x with frozen := true, ops := frozenOps x }
  cells : e.tsk.cells = d.tsk.cells
  todo : e.tsk.todo = d.tsk.todo ++ [.frozen t]
  parts : d.changesOnly [.tsk] e

/-- Letting go of slots changes nothing but the slots. -/
theorem foldSlots_spec {α : Type} (f : α → Dev → Dev) (h : ∀ a d, ∃ y, f a d = { d with tsk := { d.tsk with slots := y } }) (l : List α) (d : Dev) :
    ∃ y, foldDev l f d = { d with tsk := { d.tsk with slots := y } } := by
  induction l generalizing d with
  | nil => exact ⟨d.tsk.slots, rfl⟩
  | cons a l ih =>
    obtain ⟨y, hy⟩ := h a d
    obtain ⟨z, hz⟩ := ih (f a d)
    refine ⟨z, ?_⟩
    show foldDev l f (f a d) = _
    rw [hz, hy]

theorem freeze_frozen (d : Dev) (t : Nat) (x : Task) (hx : d.task t = some x) (hf : x.frozen = true) : d.freeze t = d := by
  unfold Dev.freeze
  rw [hx]
  exact if_pos hf

theorem freeze_spec (d : Dev) (t : Nat) (x : Task) (hx : d.task t = some x) (hf : x.frozen = false) : Froze t x d (d.freeze t) := by
  unfold Dev.freeze
  rw [hx]
  dsimp only
  rw [if_neg (by rw [hf]; exact Bool.false_ne_true)]
  generalize hg : foldDev x.ops _ d = g
  obtain ⟨y, hy⟩ : ∃ y, g = { d with tsk := { d.tsk with slots := y } } := by
    rw [← hg]
    refine foldSlots_spec _ (fun o d => ?_) _ _
    split
    · split
      · exact ⟨_, rfl⟩
      · exact ⟨d.tsk.slots, rfl⟩
    · exact ⟨d.tsk.slots, rfl⟩
  rw [hy]
  exact ⟨rfl, rfl, rfl, ((Dev.changesOnly_refl [.tsk] d).with_tsk (by decide) _)⟩

/-! ### The issue -/

/-- The issue of a task to one cell. -/
theorem issueOn_one (d : Dev) (t c : Nat) (y : Task) (hy : (d.freeze t).task t = some y) : d.issueOn t [c] =
    ((d.freeze t).setCell c { (d.freeze t).cell c with job := some t, reserved := none, yielding := false }).setTask t
      { y with st := St.running, cells := [c] } := by
  unfold Dev.issueOn
  dsimp only
  rw [hy]
  rfl

/-- What the issue of a task to one cell does (R61, R63). -/
structure Issued (t c : Nat) (x : Task) (d e : Dev) : Prop where
  task : e.task t = some { x with st := St.running, cells := [c], frozen := true, ops := if x.frozen then x.ops else frozenOps x }
  others : ∀ j, j ≠ t → e.task j = d.task j
  job : (e.cell c).job = some t
  free : (e.cell c).reserved = none
  cells : ∀ j, j ≠ c → e.cell j = d.cell j
  todo : e.tsk.todo = d.tsk.todo ++ if x.frozen then [] else [.frozen t]
  parts : d.changesOnly [.tsk] e

theorem task_setTask (d : Dev) (t : Nat) (v : Task) (j : Nat) : (d.setTask t v).task j = if j = t then some v else d.task j :=
  tabFind_tabInsert _ _ _ _

theorem cell_setTask (d : Dev) (t : Nat) (v : Task) (j : Nat) : (d.setTask t v).cell j = d.cell j := rfl

theorem task_setCell (d : Dev) (c : Nat) (v : CellSt) (j : Nat) : (d.setCell c v).task j = d.task j := rfl

theorem issueOn_spec (d : Dev) (t c : Nat) (x : Task) (hx : d.task t = some x) : Issued t c x d (d.issueOn t [c]) := by
  -- the task and the device once the set is frozen
  obtain ⟨y, hy, hyv, hoth, hcells, htodo, hparts⟩ : ∃ y, (d.freeze t).task t = some y ∧
      y = { x with frozen := true, ops := if x.frozen then x.ops else frozenOps x } ∧ (∀ j, j ≠ t → (d.freeze t).task j = d.task j) ∧
      (d.freeze t).tsk.cells = d.tsk.cells ∧ (d.freeze t).tsk.todo = d.tsk.todo ++ (if x.frozen then [] else [.frozen t]) ∧
      d.changesOnly [.tsk] (d.freeze t) := by
    cases hf : x.frozen with
    | true =>
      rw [freeze_frozen d t x hx hf]
      refine ⟨x, hx, ?_, fun _ _ => rfl, rfl, (List.append_nil _).symm, Dev.changesOnly_refl _ _⟩
      cases x
      cases hf
      rfl
    | false =>
      obtain ⟨h1, h2, h3, h4⟩ := freeze_spec d t x hx hf
      refine ⟨_, (congrArg (tabFind · t) h1).trans (tabFind_recSet_self ..), rfl, fun j hj => ?_, h2, h3, h4⟩
      exact (congrArg (tabFind · j) h1).trans (tabFind_recSet_ne _ _ _ hj)
  have hcell : ∀ j, (d.freeze t).cell j = d.cell j := fun j => congrArg (tabGet (fun _ => ({} : CellSt)) · j) hcells
  rw [issueOn_one d t c y hy]
  generalize d.freeze t = e at *
  refine ⟨?_, fun j hj => ?_, ?_, ?_, fun j hj => ?_, htodo, (hparts.with_tsk (by decide) _).with_tsk (by decide) _⟩
  · rw [task_setTask, if_pos rfl, hyv]
  · rw [task_setTask, if_neg hj, task_setCell, hoth j hj]
  · rw [cell_setTask, Dev.cell_setCell, if_pos rfl]
  · rw [cell_setTask, Dev.cell_setCell, if_pos rfl]
  · rw [cell_setTask, Dev.cell_setCell, if_neg hj, hcell]

/-- The cell may take no job. -/
def Dev.shut (d : Dev) (c : Nat) : Bool :=
  (d.cell c).out || (d.cell c).resetting || (d.cell c).job.isSome || d.gated c || !cellValid c

theorem not_shut_of {d : Dev} {c : Nat} (hv : cellValid c = true) (ho : (d.cell c).out = false) (hr : (d.cell c).resetting = false)
    (hj : (d.cell c).job = none) (hg : d.gated c = false) : d.shut c = false := by
  unfold Dev.shut
  rw [hv, ho, hr, hj, hg]
  rfl

/-- A cell that cannot take a job, or that no task waits for: the FCLK passes alone. -/
theorem jobIssue_none (d : Dev) (c : Nat) (h : d.lapse.shut c = true ∨ d.lapse.issueable c = []) : jobIssue c d = d.lapse := by
  unfold jobIssue
  generalize d.lapse = n at h ⊢
  by_cases hs : n.shut c = true
  · exact if_pos hs
  · refine (if_neg hs).trans ?_
    have hh : (sortBy (fun a b => n.issueBefore a b) (n.issueable c)).head? = none := by
      rw [h.resolve_left hs]
      rfl
    rw [hh]

theorem jobIssue_single (d : Dev) (c k : Nat) (x : Task) (hs : d.lapse.shut c = false)
    (hh : (sortBy (fun a b => d.lapse.issueBefore a b) (d.lapse.issueable c)).head? = some (k, x)) (hg : x.gang ≤ 1) :
    jobIssue c d = d.lapse.issueOn k [c] := by
  unfold jobIssue
  generalize d.lapse = n at hs hh ⊢
  refine (if_neg (show ¬ n.shut c = true by rw [hs]; exact Bool.false_ne_true)).trans ?_
  rw [hh]
  exact if_pos hg

/-- The first cell of a gang that asks is reserved for it. -/
theorem jobIssue_reserves (d : Dev) (c k : Nat) (x : Task) (hs : d.lapse.shut c = false) (hi : d.lapse.issueable c = [(k, x)]) (hg : 1 < x.gang)
    (hst : x.st = St.ready) (hm : ((cellBlock c).filter (fun j => ((d.lapse.setCell c { d.lapse.cell c with reserved := some k }).cell j).reserved == some k)).length = 1) :
    jobIssue c d = d.lapse.setCell c { d.lapse.cell c with reserved := some k } := by
  unfold jobIssue
  generalize d.lapse = n at hs hi hm ⊢
  refine (if_neg (show ¬ n.shut c = true by rw [hs]; exact Bool.false_ne_true)).trans ?_
  have hh : (sortBy (fun a b => n.issueBefore a b) (n.issueable c)).head? = some (k, x) := by
    rw [hi]
    rfl
  rw [hh]
  refine (if_neg (show ¬ x.gang ≤ 1 by omega)).trans ((if_neg (show ¬ x.st = St.parked by rw [hst]; decide)).trans ?_)
  exact if_neg (fun hle => absurd (Nat.le_trans hle (Nat.le_of_eq hm)) (by omega))

/-- Where no other cell of the block is reserved for the gang, the one that asks is alone. -/
theorem gang_alone (d : Dev) (c k : Nat) (ho : ∀ j ∈ cellBlock c, j ≠ c → (d.cell j).reserved ≠ some k) (hc : (cellBlock c).count c = 1) :
    ((cellBlock c).filter (fun j => ((d.setCell c { d.cell c with reserved := some k }).cell j).reserved == some k)).length = 1 := by
  have hf : (cellBlock c).filter (fun j => ((d.setCell c { d.cell c with reserved := some k }).cell j).reserved == some k) =
      (cellBlock c).filter (· == c) := by
    refine List.filter_congr fun j hj => ?_
    rw [Dev.cell_setCell]
    by_cases h : j = c
    · subst h
      simp
    · rw [if_neg h, beq_eq_false_iff_ne.2 (ho j hj h), beq_eq_false_iff_ne.2 h]
  rw [hf, ← hc]
  exact (List.count_eq_length_filter ..).symm

/-! ### The retirement -/

theorem jobRetire_accepted (d : Dev) (c k : Nat) (x : Task) (res : JobResult) (hj : (d.cell c).job = some k) (hx : d.task k = some x)
    (hs : x.st = St.running) (hc : x.cells.head? = some c) (ha : d.accepted x = true) : jobRetire c res d = d.terminate k St.aborted := by
  unfold jobRetire
  rw [hj]
  dsimp only
  rw [hx]
  dsimp only
  rw [if_pos ⟨hs, hc⟩, if_pos ha]

/-- The retirement of a MIX task is its completion. -/
theorem jobRetire_mix (d : Dev) (c k : Nat) (x : Task) (res : JobResult) (hj : (d.cell c).job = some k) (hx : d.task k = some x)
    (hs : x.st = St.running) (hc : x.cells.head? = some c) (ha : d.accepted x = false) (hk : x.kind = Kd.mix) :
    jobRetire c res d = d.terminate k St.complete := by
  unfold jobRetire
  rw [hj]
  dsimp only
  rw [hx]
  dsimp only
  rw [if_pos ⟨hs, hc⟩, if_neg (by rw [ha]; exact Bool.false_ne_true)]
  unfold Dev.onRetire
  rw [hk]
  rfl

/-! ### The statement -/

theorem lapse_keeps {d n : Dev} (hn : n = d.lapse) : n.tsk.todo = d.tsk.todo ∧ n.pci = d.pci ∧ n.mode = d.mode := by
  subst hn
  unfold Dev.lapse
  split
  · exact advance_keeps _ _
  · exact ⟨rfl, rfl, rfl⟩

/-- What keeps a cell from a job. -/
theorem no_issue_of {n : Dev} {c : Nat} (h : (n.cell c).out = true ∨ (n.cell c).resetting = true ∨ (n.cell c).job.isSome = true ∨
    n.gated c = true ∨ cellValid c = false ∨ n.issueable c = []) : n.shut c = true ∨ n.issueable c = [] := by
  unfold Dev.shut
  rcases h with h | h | h | h | h | h <;> simp [h]

/-- Settles O13: the task a cell takes is the head of the order of R62; a retirement is the end of its task. -/
theorem jobsIssueAndRetire : Obligations.JobsIssueAndRetire := by
  unfold Obligations.JobsIssueAndRetire
  refine ⟨?_, ?_, ?_, ?_⟩
  · intro s c k x n hr hn hv ho hrs hj hg hx hm hgang hbest
    obtain ⟨hidle, -⟩ := State.ready_spec hr
    have hhead := head?_sortBy (fun a b => n.issueBefore a b) (k, x) _ hm
      fun y hy hne => issueBefore_of_goesBefore n (k, x) y (hbest y hy hne)
    have hs := not_shut_of hv ho hrs hj hg
    have hrun : jobIssue c s.dev = n.issueOn k [c] := by
      rw [hn] at hs hhead ⊢
      exact jobIssue_single s.dev c k x hs hhead hgang
    have h := issueOn_spec n k c x hx
    rw [← hrun] at h
    exact HandsOn.of (exec_jobIssue c s) (by rw [h.todo, (lapse_keeps hn).1, hidle, List.nil_append])
      ⟨h.task, h.others, h.job, h.free, h.cells, h.parts⟩
  · intro s c n hr hn h
    obtain ⟨htodo, hpci, hmode⟩ := lapse_keeps hn
    have hnone := no_issue_of h
    have hrun : jobIssue c s.dev = n := by
      rw [hn] at hnone ⊢
      exact jobIssue_none s.dev c hnone
    exact Answers.of_eq (exec_jobIssue c s) hrun hr htodo hpci hmode ⟨rfl, rfl, rfl, rfl⟩
  · intro s c k x n hr hn hv ho hrs hj hg hi hgang hst hoth hcount
    obtain ⟨htodo, hpci, hmode⟩ := lapse_keeps hn
    have hs := not_shut_of hv ho hrs hj hg
    have hone := gang_alone n c k hoth hcount
    have hrun : jobIssue c s.dev = n.setCell c { n.cell c with reserved := some k } := by
      rw [hn] at hs hi hone ⊢
      exact jobIssue_reserves s.dev c k x hs hi hgang hst hone
    refine Answers.of_eq (exec_jobIssue c s) hrun hr htodo hpci hmode ⟨?_, fun j hjc => ?_, rfl, rfl, ?_, rfl, rfl, rfl⟩
    · exact (Dev.cell_setCell ..).trans (if_pos rfl)
    · exact (Dev.cell_setCell ..).trans (if_neg hjc)
    · exact (Dev.changesOnly_refl [.tsk] n).with_tsk (by decide) _
  · intro s c k x res hr hj hx hk hst hc
    obtain ⟨hidle, -⟩ := State.ready_spec hr
    have hrun : jobRetire c res s.dev = s.dev.terminate k (if s.dev.accepted x then St.aborted else St.complete) := by
      cases ha : s.dev.accepted x with
      | true => exact jobRetire_accepted _ c k x res hj hx hst hc ha
      | false => exact jobRetire_mix _ c k x res hj hx hst hc ha hk
    have hfin : (if s.dev.accepted x then St.aborted else St.complete) < 13 ∧ 5 ≤ (if s.dev.accepted x then St.aborted else St.complete) := by
      split <;> decide
    obtain ⟨hend, htodo, -, -, hparts, -⟩ := s.dev.terminate_spec k _ x hx (by rw [hst]; decide) hfin.1 hfin.2
    rw [← hrun] at hend htodo hparts
    exact HandsOn.of (exec_jobRetire c res s) (by rw [htodo, hidle]; rfl) ⟨hend, hparts⟩

end Sys2Proof.Machine
end

section
/-! O51. The beat boundary's clause lists `once = []` of the state at the boundary. `toBoundary` empties `once` first and reloads
the beat number after it, so with the event log full that reload's own record notes EVENT_LOG_OVERRUN in it. -/

namespace Sys2Proof.Machine
open Sys2Proof

/-! ### What a change of mode leaves -/

@[simp] theorem Dev.putDesc_mode (d : Dev) (e : Entry) : (d.putDesc e).mode = d.mode :=
  foldDev_parts [.regs] _ (fun _ d => d.parts_regs _) _ _ .mode (by decide)

@[simp] theorem Dev.endStall_mode (d : Dev) : d.endStall.mode = d.mode := by
  unfold Dev.endStall
  split
  · split
    · simp [Dev.quePos, Dev.queResult]
    · rfl
  · rfl

theorem Dev.setMode_same {d : Dev} {m : Mode} (h : d.mode = m) : d.setMode m = d := if_pos h

@[simp] theorem Dev.setMode_mode (d : Dev) (m : Mode) : (d.setMode m).mode = m := by
  unfold Dev.setMode
  split
  · assumption
  · simp

/-- No stage lies between a stage and itself. -/
theorem Dev.stageActions_zero (d : Dev) : d.stageActions 0 0 = d := rfl

theorem Dev.changeMode_test_of_test {d : Dev} (hm : d.mode = .test) (hs : d.stage = 0) : d.changeMode .test = d := by
  have : d.changeMode .test = (d.setMode .test).stageActions 0 (d.setMode .test).stage := rfl
  rw [this, Dev.setMode_same hm, hs, Dev.stageActions_zero]

/-- Out of TEST a change of mode ends in the mode asked for. -/
theorem Dev.changeMode_mode_of_test {d : Dev} {m : Mode} (hm : d.mode = .test) (hne : m ≠ .test) : (d.changeMode m).mode = m := by
  cases m with
  | test => exact absurd rfl hne
  | service => simp [Dev.changeMode, hm]
  | join => simp [Dev.changeMode, Dev.beginJoin]
  | reset | boot | configure | train | reload | shed | sprint | recovery | zeroize => simp [Dev.changeMode]

/-- In TEST a change that is due either leaves the record of what was raised in this beat, or leaves TEST. -/
theorem Dev.makeChange_of_test {d : Dev} (hm : d.mode = .test) (hs : d.stage = 0) :
    d.makeChange.evt.once = d.evt.once ∨ d.makeChange.mode ≠ .test := by
  unfold Dev.makeChange
  split
  · left
    simp [hm, Mode.carries]
  · split
    next m b _ =>
      by_cases hne : m = .test
      · subst hne
        left
        rw [Dev.changeMode_test_of_test (by exact hm) (by exact hs)]
      · right
        rwa [Dev.changeMode_mode_of_test (by exact hm) hne]
    · exact .inl rfl

/-! ### The counterexample -/

/-- TEST; a new beat offset waits for the boundary, BEAT_RELOADED is enabled and logged at every severity, and the log is full. -/
def overrunDev : Dev :=
  { mode := .test
    regs := [(Reg.TIM_BEAT_OFFSET, 1000000), (Reg.EVT_LOG_TAIL, 1), (Reg.EVT_LOG_CFG, 0),
      (Reg.EVT_SRC_CFG + 4 * Src.BEAT_RELOADED, 0x80000000)] }

/-- In TEST with something raised once in this beat. -/
def Dev.onceInTest (d : Dev) : Bool := d.mode == .test && !d.evt.once.isEmpty

/-- A command at the boundary whose result, FCLK count 1 or 0, tells whether it finds such a state. -/
def tellOnce (d : Dev) : Dev := { now := if d.onceInTest then 1 else 0 }

/-- What a boundary does after the command's own part. -/
def Dev.afterPre (d : Dev) : Dev := d.enterStages.sprintFinish.sprintBegin.configureBeat.cascadeBeat.beatWork

theorem Dev.boundary_eq_afterPre {d : Dev} (f : Dev → Dev) (h : d.toBoundary.powerBeat.mode ≠ .reset) :
    d.boundary f = (f d.toBoundary.powerBeat.makeChange).afterPre :=
  if_neg h

theorem overrunDev_boundary : overrunDev.toBoundary.powerBeat.mode = .test ∧ overrunDev.toBoundary.powerBeat.evt.once = [Src.EVENT_LOG_OVERRUN] ∧
    overrunDev.toBoundary.powerBeat.pwr.want = none ∧ overrunDev.toBoundary.powerBeat.pwr.toRecovery = false := by
  decide +kernel

theorem overrunDev_stage : overrunDev.stage = 0 := by decide +kernel

theorem afterPre_now_of_found : ({ now := 1 } : Dev).afterPre.now = 1 := by decide +kernel

theorem afterPre_now_of_not_found : ({ now := 0 } : Dev).afterPre.now = 0 := by decide +kernel

/-- With no change due the command finds the state as the boundary left it. -/
theorem overrunDev_boundary_tellOnce : (overrunDev.boundary tellOnce).now = 1 := by
  obtain ⟨hmode, honce, hwant, hrec⟩ := overrunDev_boundary
  have hstay : overrunDev.toBoundary.powerBeat.makeChange = overrunDev.toBoundary.powerBeat := by
    simp [Dev.makeChange, hrec, hwant]
  have htell : tellOnce overrunDev.toBoundary.powerBeat = { now := 1 } := by
    simp [tellOnce, Dev.onceInTest, hmode, honce]
  rw [Dev.boundary_eq_afterPre _ (by rw [hmode]; decide), hstay, htell, afterPre_now_of_found]

/-- A state of the clause's description, with nothing raised once, is never told as found. -/
theorem tellOnce_makeChange {e : Dev} (hm : e.mode = .test) (hs : e.stage = 0) (ho : e.evt.once = []) :
    tellOnce e.makeChange = { now := 0 } := by
  have : e.makeChange.onceInTest = false := by
    obtain h | h := Dev.makeChange_of_test hm hs
    · simp [Dev.onceInTest, h, ho]
    · simp [Dev.onceInTest, h]
  simp [tellOnce, this]

/-- Refutes O51: the state at a boundary need not have an empty `once`. In TEST a new TIM_BEAT_OFFSET reloads the beat number at
the boundary; with the event log full its record is an overrun, noted in `once` after the boundary emptied it. -/
theorem not_modesStagesAndSprint : ¬ Obligations.ModesStagesAndSprint := by
  intro h
  obtain ⟨-, -, -, -, -, hclause, -⟩ := h
  obtain ⟨e, hbound, -, hmode, hstage, honce, -⟩ := hclause overrunDev tellOnce (by decide)
  have hnow : (overrunDev.boundary tellOnce).now = 0 := by
    rw [hbound, tellOnce_makeChange hmode (hstage.trans overrunDev_stage) honce]
    exact afterPre_now_of_not_found
  rw [overrunDev_boundary_tellOnce] at hnow
  exact absurd hnow (by decide)

end Sys2Proof.Machine
end

section
/-! A write of TSK_ABORT, and an abort that the cells do not obey (R15, R69). -/

namespace Sys2Proof.Machine
open Sys2Proof

/-! ### The write of TSK_ABORT -/

/-- The cells a message goes to: told to stop, they accept it k FCLK from now. -/
structure Told (cs : List Nat) (k : Nat) (d e : Dev) : Prop where
  cell : ∀ c, e.cell c = if c ∈ cs then { d.cell c with aborting := true, acceptAt := d.now + k } else d.cell c
  tsk : e.tsk = { d.tsk with cells := e.tsk.cells }
  regs : e.regs = d.regs
  parts : d.changesOnly [.tsk] e

theorem foldTold_spec (cs : List Nat) (k : Nat) (d : Dev) :
    Told cs k d (foldDev cs (fun c d => d.setCell c { d.cell c with aborting := true, acceptAt := d.now + k }) d) := by
  induction cs generalizing d with
  | nil => exact ⟨fun _ => rfl, rfl, rfl, Dev.changesOnly_refl _ _⟩
  | cons a cs ih =>
    have h := ih (d.setCell a { d.cell a with aborting := true, acceptAt := d.now + k })
    refine ⟨fun c => (h.cell c).trans ?_, h.tsk, h.regs, (d.parts_tsk _).trans h.parts⟩
    rw [Dev.cell_setCell]
    by_cases hc : c = a
    · subst hc
      simp [Dev.setCell]
    · simp [hc, Dev.setCell]

/-- The cells an abort of the task that a handle names is sent to: those of a running task (R69). -/
def Dev.abortTargets (d : Dev) (h : Nat) : List Nat :=
  match d.byHandle h with
  | some (some x) => if x.st = St.running then x.cells else []
  | _ => []

theorem abortTargets_running {d : Dev} {h : Nat} {x : Task} (hb : d.byHandle h = some (some x)) (hr : x.st = St.running) :
    d.abortTargets h = x.cells := by
  unfold Dev.abortTargets
  rw [hb]
  exact if_pos hr

theorem mem_abortTargets {d : Dev} {h c : Nat} (hc : c ∈ d.abortTargets h) :
    ∃ x, d.byHandle h = some (some x) ∧ x.st = St.running ∧ c ∈ x.cells := by
  unfold Dev.abortTargets at hc
  split at hc
  · rename_i x hx
    split at hc
    · exact ⟨x, hx, ‹_›, hc⟩
    · exact absurd hc List.not_mem_nil
  · exact absurd hc List.not_mem_nil

/-- The abort of a handle is noted, and TSK_ABORT_RESULT reads 0. -/
def Dev.noteAbort (d : Dev) (h : Nat) : Dev :=
  ({ d with tsk := { d.tsk with abort := some (h, d.now), abortEnd := none } }).abortResult false 0

/-- What a write of TSK_ABORT that starts an abort does (R69). -/
structure AbortBegun (h : Nat) (d e : Dev) : Prop where
  tsk : e.tsk = { d.tsk with abort := some (h, d.now), abortEnd := none, cells := e.tsk.cells }
  cells : ∃ k, k ≤ 8 ∧ ∀ c, e.cell c =
    if c ∈ d.abortTargets h then { d.cell c with aborting := true, acceptAt := d.now + k } else d.cell c
  result : e.reg Reg.TSK_ABORT_RESULT = 0
  regs : d.keepsRegs [Reg.TSK_ABORT_RESULT] e
  parts : d.changesOnly [.regs, .tsk, .free] e

theorem noteAbort_regs (d : Dev) (h : Nat) : (d.noteAbort h).reg Reg.TSK_ABORT_RESULT = 0 ∧
    d.keepsRegs [Reg.TSK_ABORT_RESULT] (d.noteAbort h) :=
  ⟨Dev.reg_setReg_self .., fun _ ho => Dev.reg_setReg_ne _ _ _ fun he => ho (List.mem_singleton.2 he)⟩

theorem noteAbort_parts (d : Dev) (h : Nat) : d.changesOnly [.regs, .tsk, .free] (d.noteAbort h) :=
  ((Dev.changesOnly_refl _ d).with_tsk (by decide) _).setReg (by decide) _ _

/-- The message of an abort reaches the cells within 8 FCLK. -/
theorem abortCells_begun (d : Dev) (h : Nat) : AbortBegun h d ((d.noteAbort h).abortCells (d.abortTargets h)) := by
  unfold Dev.abortCells Dev.drawBelow
  dsimp only
  generalize hk : Config.freeNat (d.noteAbort h).free % 9 = k
  generalize hg : ({ d.noteAbort h with free := (d.noteAbort h).free + 1 } : Dev) = g
  have ht := foldTold_spec (d.abortTargets h) k g
  generalize foldDev (d.abortTargets h) _ g = e at ht ⊢
  have gparts : d.changesOnly [.regs, .tsk, .free] g := by
    rw [← hg]
    exact (noteAbort_parts d h).with_free (by decide) _
  have gregs : ∀ o, e.reg o = (d.noteAbort h).reg o := fun o => congrArg (tabGet regReset · o) (ht.regs.trans (by rw [← hg]))
  have hnote := noteAbort_regs d h
  refine ⟨?_, ⟨k, by omega, fun c => ?_⟩, (gregs _).trans hnote.1, fun o ho => (gregs o).trans (hnote.2 o ho), gparts.trans ht.parts.of⟩
  · rw [ht.tsk, ← hg]
    rfl
  · rw [ht.cell, ← hg]
    rfl

theorem tskAbort_running (d : Dev) (v : Word) (x : Task) (ha : d.tsk.abort = none) (hb : d.byHandle (bits v 23 0) = some (some x))
    (hr : x.st = St.running) : tskAbort v d = (d.noteAbort (bits v 23 0)).abortCells x.cells := by
  have hb' : (d.noteAbort (bits v 23 0)).byHandle (bits v 23 0) = some (some x) := hb
  unfold Dev.noteAbort at hb'
  unfold tskAbort
  rw [ha]
  dsimp only
  rw [hb']
  exact if_pos hr

theorem tskAbort_still (d : Dev) (v : Word) (ha : d.tsk.abort = none)
    (hn : ∀ x, d.byHandle (bits v 23 0) = some (some x) → x.st ≠ St.running) : tskAbort v d = d.noteAbort (bits v 23 0) := by
  unfold tskAbort
  rw [ha]
  dsimp only
  split
  · rename_i x hx
    exact if_neg (hn x hx)
  · rfl

/-- With no abort unresolved the write starts one. -/
theorem tskAbort_begins (d : Dev) (v : Word) (ha : d.tsk.abort = none) : AbortBegun (bits v 23 0) d (tskAbort v d) := by
  by_cases hrun : ∃ x, d.byHandle (bits v 23 0) = some (some x) ∧ x.st = St.running
  · obtain ⟨x, hb, hr⟩ := hrun
    rw [tskAbort_running d v x ha hb hr, ← abortTargets_running hb hr]
    exact abortCells_begun d _
  · have hnone : d.abortTargets (bits v 23 0) = [] := List.eq_nil_iff_forall_not_mem.2 fun c hc => by
      obtain ⟨x, hb, hr, -⟩ := mem_abortTargets hc
      exact hrun ⟨x, hb, hr⟩
    rw [tskAbort_still d v ha fun x hb hr => hrun ⟨x, hb, hr⟩]
    exact ⟨rfl, ⟨0, by decide, fun c => by rw [hnone]; rfl⟩, (noteAbort_regs d _).1, (noteAbort_regs d _).2, noteAbort_parts d _⟩

/-- While an abort is unresolved a write reads BUSY. -/
theorem tskAbort_busy (d : Dev) (v : Word) {a : Nat × Nat} (ha : d.tsk.abort = some a) : tskAbort v d = d.setReg Reg.TSK_ABORT_RESULT 3 := by
  unfold tskAbort
  rw [ha]
  rfl

/-! ### A cell that does not stop -/

/-- A cell that overran its grace for the first time. -/
def overrunCell (x : CellSt) (now : Nat) : CellSt :=
  { x with job := none, yielding := false, aborting := false, resetting := true, stopAt := now - 1, expiries := [now] }

theorem overrun_cell (d : Dev) (c : Nat) (h : (d.cell c).expiries = []) : (d.overrun c).cell c = overrunCell (d.cell c) d.now := by
  unfold Dev.overrun
  dsimp only
  generalize hy : ({ d.cell c with job := none, yielding := false, aborting := false, resetting := true, stopAt := d.now - 1 } : CellSt) = y
  generalize hg : (d.setCell c y).raise Src.CELL_OVERRUN c = g
  have gcell : g.cell c = y := by
    have ht : g.tsk = (d.setCell c y).tsk := by rw [← hg]; exact Dev.raise_tsk ..
    exact (congrArg (fun t : Tsk => tabGet (fun _ => ({} : CellSt)) t.cells c) ht).trans ((Dev.cell_setCell ..).trans (if_pos rfl))
  have gnow : g.now = d.now := by rw [← hg]; exact Dev.raise_now ..
  have hw : g.watchdog c = g.setCell c { y with expiries := [g.now] } := by
    unfold Dev.watchdog
    dsimp only
    rw [gcell, show y.expiries = [] by rw [← hy]; exact h]
    rfl
  rw [hw, Dev.cell_setCell, if_pos rfl, gnow, ← hy]
  rfl

/-- Letting go of a task's reservations leaves a cell that resets as it is but for a reservation. -/
theorem unreserve_cell (d : Dev) (t c : Nat) (h : (d.cell c).resetting = true) :
    ∃ r, (d.unreserve t).cell c = { d.cell c with reserved := r } := by
  obtain ⟨v, hf, hv⟩ := cell_listed h
  rw [← hv] at h ⊢
  have hr : (if v.reserved = some t then { v with reserved := none } else v).resetting = true := by
    split <;> exact h
  have hm := tabFind_tabMap_kept (fun _ => ({} : CellSt)) (fun _ c => if c.reserved = some t then { c with reserved := none } else c) _ c v hf
    fun he => by
      rw [he] at hr
      exact absurd hr (by decide)
  have hcell : (d.unreserve t).cell c = if v.reserved = some t then { v with reserved := none } else v :=
    congrArg (fun o : Option CellSt => o.getD {}) hm
  rw [hcell]
  split
  · exact ⟨none, rfl⟩
  · exact ⟨v.reserved, rfl⟩

/-- The end of a task leaves a cell that overran as it is but for a reservation. -/
theorem terminate_overrunCell (d : Dev) (t st c n : Nat) (x : Task) (y : CellSt) (hx : d.task t = some x) (hl : x.st < 5)
    (h : d.cell c = overrunCell y n) : ∃ r, (d.terminate t st).cell c = { overrunCell y n with reserved := r } := by
  obtain ⟨l, hc⟩ := terminate_cells d t st x hx hl
  have hcell : (d.terminate t st).cell c = _ := congrArg (tabGet (fun _ => ({} : CellSt)) · c) hc
  rw [hcell]
  generalize hg : (d.mapSlots (fun s => { s with tasks := s.tasks.filter (fun y => y != t) })).clearCells l = g
  have gcell : g.cell c = overrunCell y n := by
    rw [← hg, Dev.clearCells_cell]
    show (if c ∈ l then { d.cell c with job := none, yielding := false, aborting := false } else d.cell c) = _
    rw [h]
    split <;> rfl
  obtain ⟨r, hr⟩ := unreserve_cell g t c (by rw [gcell]; rfl)
  exact ⟨r, by rw [← gcell]; exact hr⟩

/-- A task of one cell under an abort that has not stopped: the cell overruns, and the task ends ABORTED. -/
theorem stopTask_aborting (d : Dev) (t c : Nat) (x : Task) (hc : x.cells = [c]) (ha : (d.cell c).aborting = true) :
    d.stopTask t x [c] = (d.overrun c).terminate t St.aborted := by
  unfold Dev.stopTask
  rw [cell_aborting hc, ha, if_pos rfl]
  dsimp only
  rw [if_neg (fun h => absurd h.2 (by decide)), countForced_zero]
  rfl

theorem abortStopTimeout_past (d : Dev) {h a : Nat} {x : Task} (ha : d.tsk.abort = some (h, a)) (hb : d.byHandle h = some (some x))
    (hr : x.st = St.running) (hn : a + 3001 ≤ d.now) : abortStopTimeout d = (d.stopTask (h % 2 ^ 17) x x.cells).abortDone h 0 := by
  unfold abortStopTimeout
  rw [ha]
  dsimp only
  rw [hb]
  dsimp only
  rw [if_neg (fun h => h hr)]
  unfold Dev.atNow Dev.reachNow graceEnd
  rw [if_pos hn]

theorem abortDone_statLe (d : Dev) (h code : Nat) : d.statLe (d.abortDone h code) := by
  unfold Dev.abortDone Dev.abortResult
  exact ((Dev.statLe_tsk d _).setReg _ (by decide)).raise _ _ _

/-- What the limit of an abort does to a task of one cell (R15, R69). -/
structure AbortStopped (t c : Nat) (d e : Dev) : Prop where
  ends : AbortEnds t d e
  cell : ∃ r, e.cell c = { overrunCell (d.cell c) d.now with reserved := r }
  overrun : d.raised Src.CELL_OVERRUN e

theorem abortStopped_spec (d : Dev) (t h c : Nat) (x : Task) (hx : d.task t = some x) (hl : x.st < 5) (he : (d.cell c).expiries = []) :
    AbortStopped t c d (((d.overrun c).terminate t St.aborted).abortDone h 0) := by
  have ho := overrun_first d c he
  have hcell := overrun_cell d c he
  generalize d.overrun c = e at ho hcell ⊢
  have htasks : e.tsk.tasks = d.tsk.tasks := by rw [ho.tsk]
  have hxe : e.task t = some x := (congrArg (tabFind · t) htasks).trans hx
  have hends := abortEnds_spec e t h x hxe hl
  obtain ⟨-, -, -, -, -, hstats⟩ := e.terminate_spec t St.aborted x hxe hl (by decide) (by decide)
  obtain ⟨r, hr⟩ := terminate_overrunCell e t St.aborted c _ x _ hxe hl hcell
  refine ⟨⟨?_, ?_, hends.abort, hends.result, Dev.raised.before ho.stats hends.event (by decide), ho.parts.trans hends.parts⟩, ⟨r, ?_⟩,
    ho.event.after (hstats.trans (abortDone_statLe _ _ _)) (by decide)⟩
  · refine hends.ended.before htasks ho.sorted (ho.parts .beat (by decide)) (ho.parts .now (by decide)) (by decide) fun o h1 h2 => ?_
    have e1 : Reg.TSK_CNT_LO = 0x00300200 := rfl
    exact ho.regs o List.not_mem_nil (evtReg_low (by omega))
  · rw [hends.todo, ho.tsk]
  · have hdone := (abortDone_spec (e.terminate t St.aborted) h 0).tsk
    exact (congrArg (fun t : Tsk => tabGet (fun _ => ({} : CellSt)) t.cells c) hdone).trans hr

/-! ### The statement -/

/-- Settles O12: the write by what its handle names; the limit as the overrun of the cell and the end of its task. -/
theorem abortsAndTimeouts : Obligations.AbortsAndTimeouts := by
  unfold Obligations.AbortsAndTimeouts
  refine ⟨?_, ?_, ?_⟩
  · intro s p v hr ha
    have h := tskAbort_begins s.dev v ha
    obtain ⟨k, hk, hcells⟩ := h.cells
    refine Answers.of_ready (exec_tskAbort p v s) hr (by rw [h.tsk]) (h.parts .pci (by decide)) (h.parts .mode (by decide))
      ⟨by rw [h.tsk], h.result, fun x hb hrun => ⟨s.dev.now + k, by omega, by omega, fun c hc => ?_⟩, fun c hc => ?_,
        by rw [h.tsk], by rw [h.tsk], by rw [h.tsk], h.regs, h.parts, rfl, rfl, rfl⟩
    · exact (hcells c).trans (if_pos (by rw [abortTargets_running hb hrun]; exact hc))
    · refine (hcells c).trans (if_neg fun hm => ?_)
      obtain ⟨x, hb, hrun, hx⟩ := mem_abortTargets hm
      exact hc x hb hrun hx
  · intro s p v a hr ha
    exact Answers.of_eq (exec_tskAbort p v s) (tskAbort_busy s.dev v ha) hr (by simp) (by simp) (by simp)
      ⟨by simp, Dev.reg_setReg_self .., fun o ho => Dev.reg_setReg_ne _ _ _ fun he => ho (List.mem_singleton.2 he),
        (Dev.changesOnly_refl _ _).setReg (by decide) _ _, rfl, rfl, rfl⟩
  · intro s h a c x hr ha hb hrun hc _ hn he hab
    obtain ⟨hidle, -⟩ := State.ready_spec hr
    have hstop := abortStopTimeout_past s.dev ha hb hrun hn
    rw [hc, stopTask_aborting _ _ _ _ hc hab] at hstop
    obtain ⟨hends, ⟨r, hcell⟩, hover⟩ := abortStopped_spec s.dev (h % 2 ^ 17) h c x (byHandle_task hb) (by rw [hrun]; decide) he
    rw [← hstop] at hends hcell hover
    refine HandsOn.of (exec_abortStopTimeout s) (by rw [hends.todo, hidle]; rfl)
      ⟨⟨_, hends.ended, rfl⟩, ?_, ?_, ?_, ?_, ?_, hends.abort, hends.result, hover, hends.event, hends.parts⟩ <;> rw [hcell] <;> rfl

end Sys2Proof.Machine
end

section
/-! Posts, slots whose hold has passed, and the wait limit (R56, R57, R64, R67). -/

namespace Sys2Proof.Machine
open Sys2Proof

/-! ### Halves of a register and held halves -/

theorem heldLo_hold_self (d : Dev) (p : Path) (w : Word) : (d.hold p w).heldLo p = w := tabGet_tabSet_self ..

theorem reg_setReg64_hi (d : Dev) (lo hi : Nat) (a b : Word) : (d.setReg64 lo hi (a.toNat + 2 ^ 32 * b.toNat)).reg hi = b := by
  unfold Dev.setReg64
  rw [Dev.reg_setReg_self]
  refine BitVec.eq_of_toNat_eq ?_
  have ha := a.isLt
  have hb := b.isLt
  rw [BitVec.toNat_ofNat]
  omega

/-! ### The commit of TSK_POST_TAG_HI -/

/-- The tag that a commit with the high half v names (R67). -/
def Dev.postTag (d : Dev) (p : Path) (v : Word) : Nat := (d.heldLo p).toNat + 2 ^ 32 * v.toNat

/-- The tag is in its registers, and the path holds no half. -/
def Dev.posting (d : Dev) (p : Path) (v : Word) : Dev := (d.hold p 0).setReg64 Reg.TSK_POST_TAG_LO Reg.TSK_POST_TAG_HI (d.postTag p v)

@[simp] theorem Dev.posting_tsk (d : Dev) (p : Path) (v : Word) : (d.posting p v).tsk = d.tsk := by simp [Dev.posting]

theorem Dev.posting_reg (d : Dev) (p : Path) (v : Word) : d.keepsRegs [Reg.TSK_POST_TAG_LO, Reg.TSK_POST_TAG_HI] (d.posting p v) := fun o ho => by
  simp only [List.mem_cons, List.not_mem_nil, or_false, not_or] at ho
  exact (Dev.reg_setReg64_ne _ _ _ _ ho.1 ho.2).trans (congrArg (tabGet regReset · o) (Dev.hold_regs ..))

theorem Dev.posting_parts (d : Dev) (p : Path) (v : Word) : d.changesOnly [.regs, .held] (d.posting p v) :=
  ((Dev.changesOnly_refl _ d).hold (by decide) _ _).setReg64 (by decide) _ _ _

theorem Dev.posting_hi (d : Dev) (p : Path) (v : Word) : (d.posting p v).reg Reg.TSK_POST_TAG_HI = v := reg_setReg64_hi ..

theorem Dev.posting_heldLo (d : Dev) (p : Path) (v : Word) : (d.posting p v).heldLo p = 0 :=
  (congrArg (tabGet (fun _ => (0 : Word)) · (pathKey p)) (Dev.setReg64_held ..)).trans (heldLo_hold_self ..)

theorem Dev.posting_findSlot (d : Dev) (p : Path) (v : Word) (tag : Nat) : (d.posting p v).findSlot tag = d.findSlot tag := by
  unfold Dev.findSlot
  rw [Dev.posting_tsk]

theorem Dev.posting_barred (d : Dev) (p : Path) (v : Word) (tag : Nat) : (d.posting p v).barred tag = d.barred tag := by
  unfold Dev.barred
  rw [Dev.posting_findSlot, Dev.posting_tsk]

/-- A post that is refused (R67). -/
structure PostRefused (d e : Dev) : Prop where
  stat : e.flag Reg.TSK_POST_STAT 0 = true
  tsk : e.tsk = d.tsk
  parts : d.changesOnly [.regs, .held, .setNow] e

theorem hwSet_tsk (d : Dev) (o i : Nat) : (d.hwSet o i).tsk = d.tsk := Dev.setFlag_tsk d o i true

theorem hwSet_reg_ne (d : Dev) {o o' : Nat} (i : Nat) (h : o' ≠ o) : (d.hwSet o i).reg o' = d.reg o' := Dev.reg_setFlag_ne d o i true h

theorem hwSet_flag (d : Dev) (o i : Nat) (h : i < 32) : (d.hwSet o i).flag o i = true := Dev.flag_setFlag_self d o i true h

theorem hwSet_parts (d : Dev) (o i : Nat) : d.changesOnly [.regs, .setNow] (d.hwSet o i) :=
  ((Dev.changesOnly_refl _ d).setFlag (by decide) o i true).step (Dev.parts_setNow _ _) (by decide)

theorem postRefused_hwSet {d e : Dev} (ht : e.tsk = d.tsk) (hp : d.changesOnly [.regs, .held] e) : PostRefused d (e.hwSet Reg.TSK_POST_STAT 0) :=
  ⟨hwSet_flag _ _ _ (by decide), (hwSet_tsk ..).trans ht, (hp.of : d.changesOnly [.regs, .held, .setNow] e).trans (hwSet_parts e _ _).of⟩

theorem tskPost_otherClass (d : Dev) (p : Path) (v : Word) (h : tagClass (d.postTag p v) ≠ Cl.host) :
    tskPost p v d = (d.posting p v).hwSet Reg.TSK_POST_STAT 0 := by
  unfold tskPost
  exact if_pos h

/-- A commit of class HOST is an arrival. -/
theorem tskPost_arrives (d : Dev) (p : Path) (v : Word) (h : tagClass (d.postTag p v) = Cl.host) {ok : Bool} {e : Dev}
    (ha : (d.posting p v).arrive (d.postTag p v) (d.reg64 Reg.TSK_POST_REF_LO Reg.TSK_POST_REF_HI) 0 = (ok, e)) :
    tskPost p v d = if ok then e else e.hwSet Reg.TSK_POST_STAT 0 := by
  have href : (d.posting p v).reg64 Reg.TSK_POST_REF_LO Reg.TSK_POST_REF_HI = d.reg64 Reg.TSK_POST_REF_LO Reg.TSK_POST_REF_HI := by
    unfold Dev.reg64
    rw [d.posting_reg p v _ (by decide), d.posting_reg p v _ (by decide)]
  rw [← href] at ha
  unfold tskPost
  refine (if_neg fun hne => hne h).trans ?_
  unfold Dev.posting Dev.postTag at *
  dsimp only
  rw [ha]

/-! ### Arrivals -/

theorem arrive_barred (d : Dev) (tag ref q : Nat) (h : d.barred tag = true) : d.arrive tag ref q = (false, d.tskCount 7 1) := by
  unfold Dev.arrive
  exact if_pos (.inr (.inr h))

theorem length_tabInsert_le {α : Type} (t : Tab α) (k : Nat) (v : α) : (tabInsert t k v).length ≤ t.length + 1 := by
  induction t with
  | nil => exact Nat.le_refl _
  | cons p t ih =>
    obtain ⟨j, w⟩ := p
    rw [tabInsert]
    split
    · exact Nat.le_refl _
    · split
      · exact Nat.le_succ _
      · exact Nat.succ_le_succ ih

theorem slotOf_setSlot (d : Dev) (k : Nat) (s : Slot) (j : Nat) : (d.setSlot k s).slotOf j = if j = k then some s else d.slotOf j :=
  tabFind_tabInsert _ _ _ _

/-- A slot that is free is taken for a tag, and the fill stays below the mark. -/
theorem newSlot_low (d : Dev) (tag k : Nat) (hk : freeKey d.tsk.slots msSlots = some k)
    (hl : d.tsk.slots.length + 1 < d.fld Reg.TSK_MS_HIWAT 15 0) :
    d.newSlot tag = (some k, d.setSlot k { tag := tag, holdUntil := d.holdUntil tag }) := by
  unfold Dev.newSlot
  rw [hk]
  have hlen := length_tabInsert_le d.tsk.slots k ({ tag := tag, holdUntil := d.holdUntil tag } : Slot)
  exact if_neg fun h => absurd (Nat.le_trans h.1 hlen) (by show ¬ d.fld Reg.TSK_MS_HIWAT 15 0 ≤ _; omega)

/-- An arrival of class HOST with no slot: one is taken for it, and it holds the item (R56). -/
theorem arrive_newSlot (d : Dev) (tag ref k : Nat) (hc : tagClass tag = Cl.host) (hb : d.barred tag = false) (hf : d.findSlot tag = none)
    (hk : freeKey d.tsk.slots msSlots = some k) (hl : d.tsk.slots.length + 1 < d.fld Reg.TSK_MS_HIWAT 15 0) :
    d.arrive tag ref 0 = (true, (d.setSlot k { tag := tag, holdUntil := d.holdUntil tag }).setSlot k
      { tag := tag, holdUntil := d.holdUntil tag, arrived := true, ref := ref }) := by
  unfold Dev.arrive
  dsimp only
  rw [hc, hb, if_neg (by decide), hf]
  dsimp only
  rw [newSlot_low d tag k hk hl]
  dsimp only
  rw [slotOf_setSlot, if_pos rfl]
  rfl

/-- The slot of a posted item (R56, R67). -/
def Dev.postedSlot (d : Dev) (tag : Nat) : Slot :=
  { tag := tag, arrived := true, ref := d.reg64 Reg.TSK_POST_REF_LO Reg.TSK_POST_REF_HI, holdUntil := d.holdUntil tag }

theorem Dev.posting_fld (d : Dev) (p : Path) (v : Word) {o : Nat} (hi lo : Nat) (h : o ∉ [Reg.TSK_POST_TAG_LO, Reg.TSK_POST_TAG_HI]) :
    (d.posting p v).fld o hi lo = d.fld o hi lo :=
  congrArg (bits · hi lo) (d.posting_reg p v o h)

/-- A post that takes a slot. -/
theorem tskPost_taken (d : Dev) (p : Path) (v : Word) (k : Nat) (hc : tagClass (d.postTag p v) = Cl.host) (hb : d.barred (d.postTag p v) = false)
    (hf : d.findSlot (d.postTag p v) = none) (hk : freeKey d.tsk.slots msSlots = some k)
    (hl : d.tsk.slots.length + 1 < d.fld Reg.TSK_MS_HIWAT 15 0) :
    tskPost p v d = ((d.posting p v).setSlot k { tag := d.postTag p v, holdUntil := d.holdUntil (d.postTag p v) }).setSlot k
      (d.postedSlot (d.postTag p v)) := by
  have ht := d.posting_tsk p v
  have hhold : (d.posting p v).holdUntil (d.postTag p v) = d.holdUntil (d.postTag p v) := by
    unfold Dev.holdUntil
    rw [d.posting_fld p v _ _ (by decide)]
  rw [tskPost_arrives d p v hc (arrive_newSlot (d.posting p v) _ _ k hc ((d.posting_barred p v _).trans hb)
    ((d.posting_findSlot p v _).trans hf) (by rw [ht]; exact hk)
    (by rw [ht, d.posting_fld p v _ _ (by decide)]; exact hl)), hhold]
  rfl

/-! ### A slot that is freed -/

/-- What the freeing of a slot does (R57). -/
structure SlotFreed (k : Nat) (d e : Dev) : Prop where
  gone : e.slotOf k = none
  others : ∀ j, j ≠ k → e.slotOf j = d.slotOf j
  tasks : e.tsk.tasks = d.tsk.tasks
  todo : e.tsk.todo = d.tsk.todo
  regs : e.regs = d.regs
  parts : d.changesOnly [.tsk, .tap] e

theorem freeSlot_spec (d : Dev) (k : Nat) : SlotFreed k d (d.freeSlot k) := by
  unfold Dev.freeSlot
  split
  · exact ⟨‹_›, fun _ _ => rfl, rfl, rfl, rfl, Dev.changesOnly_refl _ _⟩
  · rename_i sl _
    have hself : tabFind (tabErase d.tsk.slots k) k = none := (tabFind_tabErase ..).trans (if_pos rfl)
    have hother : ∀ j, j ≠ k → tabFind (tabErase d.tsk.slots k) j = tabFind d.tsk.slots j := fun j hj =>
      (tabFind_tabErase ..).trans (if_neg hj)
    dsimp only
    split
    · exact ⟨hself, hother, rfl, rfl, rfl,
        (((Dev.changesOnly_refl [.tsk, .tap] d).with_tsk (by decide) _).with_tsk (by decide) _).with_tap (by decide) _⟩
    · exact ⟨hself, hother, rfl, rfl, rfl, ((Dev.changesOnly_refl [.tsk, .tap] d).with_tsk (by decide) _).with_tap (by decide) _⟩

/-- The item of a slot is counted UNCLAIMED where it came and no consumer ever took it. -/
def Dev.countUnclaimed (d : Dev) (sl : Slot) : Dev := if sl.arrived && !sl.everConsumed then d.tskCount 5 1 else d

theorem countUnclaimed_tsk (d : Dev) (sl : Slot) : (d.countUnclaimed sl).tsk = d.tsk := by
  unfold Dev.countUnclaimed
  split
  · exact Dev.cnt_tsk ..
  · rfl

theorem countUnclaimed_parts (d : Dev) (sl : Slot) : d.changesOnly [.regs] (d.countUnclaimed sl) := by
  unfold Dev.countUnclaimed
  split
  · exact (Dev.changesOnly_refl _ d).cnt (by decide) _ _ _
  · exact Dev.changesOnly_refl _ _

theorem countUnclaimed_regs (d : Dev) (sl : Slot) : d.keepsRegs [Reg.TSK_CNT_LO + 40, Reg.TSK_CNT_LO + 44] (d.countUnclaimed sl) := fun o ho => by
  simp only [List.mem_cons, List.not_mem_nil, or_false, not_or] at ho
  unfold Dev.countUnclaimed
  split
  · exact Dev.reg_cnt_ne _ _ _ _ ho.1 ho.2
  · rfl

theorem countUnclaimed_counted (d : Dev) (sl : Slot) (ha : sl.arrived = true) (he : sl.everConsumed = false) :
    d.counted Reg.TSK_CNT_LO 5 1 (d.countUnclaimed sl) := by
  unfold Dev.countUnclaimed
  rw [ha, he]
  exact Dev.cnt_counted ..

theorem holdExpiry_frees (d : Dev) (k : Nat) (sl : Slot) (hs : d.slotOf k = some sl) (ht : sl.tasks = []) (hw : sl.hostWaits = [])
    (hb : d.beatNear sl.holdUntil ≤ d.beat) : msSlotHoldExpiry k d = (d.countUnclaimed sl).freeSlot k := by
  unfold msSlotHoldExpiry
  rw [hs]
  exact if_pos (by rw [ht, hw, decide_eq_true hb]; rfl)

theorem holdExpiry_keeps (d : Dev) (k : Nat)
    (h : ∀ sl, d.slotOf k = some sl → sl.tasks ≠ [] ∨ sl.hostWaits ≠ [] ∨ d.beat < d.beatNear sl.holdUntil) : msSlotHoldExpiry k d = d := by
  unfold msSlotHoldExpiry
  split
  · rfl
  · rename_i sl hs
    refine if_neg fun hc => ?_
    simp only [Bool.and_eq_true, List.isEmpty_iff, decide_eq_true_iff] at hc
    obtain ⟨⟨ht, hw⟩, hb⟩ := hc
    rcases h sl hs with h | h | h
    · exact h ht
    · exact h hw
    · exact absurd hb (Int.not_le.2 h)

/-! ### The wait limit -/

theorem settleReady_ready (d : Dev) (k : Nat) (x : Task) (hx : d.task k = some x) (hst : x.st = St.waiting) (hp : d.predLive x = false)
    (hw : x.waitAt ≤ d.beat) : d.settleReady k = d.setTask k { x with st := St.ready } := by
  unfold Dev.settleReady
  rw [hx]
  exact if_pos ⟨hst, hp, .inr hw⟩

theorem settleReady_waits (d : Dev) (k : Nat) (h : ∀ x, d.task k = some x → x.st ≠ St.waiting ∨ d.predLive x = true ∨
    (d.beat < x.waitAt ∧ ∃ o ∈ x.ops, o.st = 0)) : d.settleReady k = d := by
  unfold Dev.settleReady
  split
  · rfl
  · rename_i x hx
    refine if_neg fun hc => ?_
    obtain ⟨hst, hp, hdone⟩ := hc
    rcases h x hx with h | h | ⟨hb, o, ho, hz⟩
    · exact h hst
    · exact absurd (h.symm.trans hp) (by decide)
    · rcases hdone with hall | hle
      · have := List.all_eq_true.1 hall o ho
        rw [hz] at this
        exact absurd this (by decide)
      · exact absurd hb (Nat.not_lt.2 hle)

/-! ### The statement -/

/-- Settles O16: a post by the class of its tag and the slot it finds, an expiry by what still needs the slot, the limit by what the task
waits for. -/
theorem slotsPostsAndWaitLimits : Obligations.SlotsPostsAndWaitLimits := by
  unfold Obligations.SlotsPostsAndWaitLimits
  refine ⟨?_, ?_, ?_, ?_, ?_, ?_, ?_⟩
  · intro s p v tag k hr htag hc hb hf hk hl
    obtain rfl : tag = s.dev.postTag p v := htag
    have ht := s.dev.posting_tsk p v
    have htodo : (s.dev.posting p v).tsk.todo = s.dev.tsk.todo := by rw [ht]
    have htasks : (s.dev.posting p v).tsk.tasks = s.dev.tsk.tasks := by rw [ht]
    refine Answers.of_eq (exec_tskPost p v s) (tskPost_taken s.dev p v k hc hb hf hk hl) hr htodo
      (s.dev.posting_parts p v .pci (by decide)) (s.dev.posting_parts p v .mode (by decide))
      ⟨(slotOf_setSlot ..).trans (if_pos rfl), fun j hj => ?_, htasks, s.dev.posting_heldLo p v, s.dev.posting_hi p v,
        s.dev.posting_reg p v, ?_, rfl, rfl, rfl⟩
    · rw [slotOf_setSlot, if_neg hj, slotOf_setSlot, if_neg hj]
      exact congrArg (fun t : Tsk => tabFind t.slots j) ht
    · exact ((s.dev.posting_parts p v).of.with_tsk (by decide) _).with_tsk (by decide) _
  · intro s p v hr hc
    have hrun := tskPost_otherClass s.dev p v hc
    have hp := postRefused_hwSet (s.dev.posting_tsk p v) (s.dev.posting_parts p v)
    refine Answers.of_eq (exec_tskPost p v s) hrun hr (by rw [hp.tsk]) (hp.parts .pci (by decide)) (hp.parts .mode (by decide))
      ⟨hp.stat, hp.tsk, fun o ho => ?_, hp.parts, rfl, rfl, rfl⟩
    simp only [List.mem_cons, List.not_mem_nil, or_false, not_or] at ho
    exact (hwSet_reg_ne _ _ ho.2.2).trans (s.dev.posting_reg p v o (by simp [ho.1, ho.2.1]))
  · intro s p v tag hr htag hc hb
    obtain rfl : tag = s.dev.postTag p v := htag
    have hrun := tskPost_arrives s.dev p v hc (arrive_barred (s.dev.posting p v) _ _ 0 ((s.dev.posting_barred p v _).trans hb))
    have hp := postRefused_hwSet (d := s.dev) (e := (s.dev.posting p v).tskCount 7 1) ((Dev.cnt_tsk ..).trans (s.dev.posting_tsk p v))
      ((s.dev.posting_parts p v).cnt (by decide) _ _ _)
    refine Answers.of_eq (exec_tskPost p v s) hrun hr (by rw [if_neg Bool.false_ne_true, hp.tsk]) (hp.parts .pci (by decide)) (hp.parts .mode (by decide))
      ⟨hp.stat, hp.tsk, ?_, hp.parts, rfl, rfl, rfl⟩
    have hcnt : (s.dev.posting p v).counted Reg.TSK_CNT_LO 7 1 ((s.dev.posting p v).tskCount 7 1) := Dev.cnt_counted ..
    refine (hcnt.before ?_ ?_).after ?_ ?_
    · exact s.dev.posting_reg p v _ (by decide)
    · exact s.dev.posting_reg p v _ (by decide)
    · exact hwSet_reg_ne _ _ (by decide)
    · exact hwSet_reg_ne _ _ (by decide)
  · intro s k sl hr hs ht hw hb
    have hrun := holdExpiry_frees s.dev k sl hs ht hw hb
    have hf := freeSlot_spec (s.dev.countUnclaimed sl) k
    have hct := countUnclaimed_tsk s.dev sl
    have hreg : ∀ o, ((s.dev.countUnclaimed sl).freeSlot k).reg o = (s.dev.countUnclaimed sl).reg o := fun o =>
      congrArg (tabGet regReset · o) hf.regs
    have hcp := countUnclaimed_parts s.dev sl
    refine Answers.of_eq (exec_msSlotHoldExpiry k s) hrun hr (by rw [hf.todo, hct]) ((hf.parts .pci (by decide)).trans (hcp .pci (by decide)))
      ((hf.parts .mode (by decide)).trans (hcp .mode (by decide)))
      ⟨hf.gone, fun j hj => (hf.others j hj).trans (congrArg (fun t : Tsk => tabFind t.slots j) hct), by rw [hf.tasks, hct], fun h => ?_,
        fun o ho => (hreg o).trans (countUnclaimed_regs s.dev sl o ho), rfl, rfl, rfl⟩
    exact (countUnclaimed_counted s.dev sl h.1 h.2).after (hreg _) (hreg _)
  · intro s k hr h
    exact exec_same (exec_msSlotHoldExpiry k s) (holdExpiry_keeps s.dev k h) hr
  · intro s k x hr hx hst hw hp
    refine Answers.of_eq (exec_taskWaitLimit k s) (settleReady_ready s.dev k x hx hst hp hw) hr rfl rfl rfl
      ⟨(task_setTask ..).trans (if_pos rfl), fun j hj => (task_setTask ..).trans (if_neg hj), rfl, rfl,
        s.dev.parts_tsk _, rfl, rfl, rfl⟩
  · intro s k hr h
    exact exec_same (exec_taskWaitLimit k s) (settleReady_waits s.dev k h) hr

end Sys2Proof.Machine
end

section
/-! O54. The clause of a RAW_PORT item lists what it changes without the open values drawn; the first burst-store cell of its payload
is one of them (`takeCell`). -/

namespace Sys2Proof.Machine
open Sys2Proof

/-! ### Open values drawn -/

@[simp] theorem Dev.mbxEnd_free (d : Dev) (status : Nat) (data : List Byte) : (d.mbxEnd status data).free = d.free := by
  unfold Dev.mbxEnd
  split
  · rfl
  · rfl
  · rw [Dev.raise_free, Dev.emit_free]
    rfl

/-- The end of a mailbox command draws nothing. -/
@[simp] theorem Dev.mailPoll_free (d : Dev) : d.mailPoll.free = d.free := by
  unfold Dev.mailPoll
  split
  · exact Dev.mbxEnd_free ..
  · split
    · exact Dev.mbxEnd_free ..
    · rfl

/-- A command whose own effect leaves no work and draws no value answers a state in which none is drawn. -/
theorem Does.free_eq {c : Instr} {s : State} {f : Dev → Dev} {P : Dev → Prop} (h : Does c s P) (hx : exec c s = onDev f s)
    (hP : ∀ d, P d → d.tsk.todo = [] ∧ d.free = s.dev.free) : (s.dev.settle f).free = s.dev.free := by
  obtain ⟨d, hd, hexec⟩ := h
  obtain ⟨htodo, hfree⟩ := hP d hd
  rw [hx, Dev.drain_idle d _ htodo] at hexec
  have hstate : s.commit (s.dev.settle f) = s.commit d.mailPoll := Host.Outcome.next.inj hexec
  have : (s.dev.settle f).free = d.mailPoll.free := congrArg (fun t : State => t.dev.free) hstate
  rw [this, Dev.mailPoll_free, hfree]

/-! ### The counterexample -/

/-- Inject ring 0 of a device in SERVICE, its window 16 enabled with two descriptors, one of them posted. -/
def injectDev : Dev :=
  ((({ mode := .service } : Dev).setFlag Reg.PCI_STATUS 31 true).setReg (Reg.RING_CFG + ringOfs 16) 0x80010000).setFld
    (Reg.RING_TAIL + ringOfs 16) 15 0 1

/-- In host memory, from address 0, the descriptor of a RAW_PORT item of 64 bytes: OWN, SOP and EOP are set. -/
def injectState : State := { pending := [], hostMem := [(8, 64), (10, 1), (11, 0xE0)], dram := [], dev := injectDev }

/-- That descriptor. -/
def injectedDesc : InjDesc := ⟨0, 64, 1, 0xE0, 0, 0, 0, 0⟩

theorem injectState_ready : injectState.ready = true := by decide +kernel

theorem injectDev_on : injectDev.ringOn 16 = true := by decide +kernel

theorem injectState_item : injItem (((List.range (injectDev.ringPosted 16 - (injectDev.ringRec 16).taken)).map (fun k =>
    injDesc injectState.hostMem (injectDev.ringSlot 16 ((injectDev.ringRec 16).taken + k)))).takeWhile
      (fun x => decide (128 ≤ x.flags))) [] = some ([injectedDesc], true) := by
  decide +kernel

/-- The payload of the item takes a cell of the burst store: one open value is drawn. -/
theorem injectRaw_draws : (injectState.dev.settle (injectItem injectState.hostMem 1 0)).free = 1 := by decide +kernel

/-- Refutes O54: a RAW_PORT item taken with status 0 draws an open value, the first cell of its payload, which the clause's list
`[.que, .pci, .egs]` of what changes leaves out. -/
theorem not_windowAndRings : ¬ Obligations.WindowAndRings := by
  intro h
  obtain ⟨-, -, -, -, -, hinject, -⟩ := h
  obtain ⟨-, htaken⟩ := hinject injectState 0 1 (.injectRawPort 0) injectState_ready (.inl ⟨rfl, rfl⟩)
  obtain ⟨-, hitem⟩ := htaken _ (by decide) injectDev_on rfl
  obtain ⟨-, hdoes⟩ := hitem injectedDesc [] true injectState_item
  have hd := hdoes _ _ 16 _ rfl rfl rfl (.inl rfl) rfl
  have hfree := hd.free_eq (exec_injectRawPort 0 injectState) fun d hP => by
    obtain ⟨-, -, hraw, -⟩ := hP
    obtain ⟨f, -, -, -, -, -, -, -, honly⟩ := hraw (by decide +kernel) rfl
    exact ⟨congrArg Tsk.todo (honly .tsk (by decide)), honly .free (by decide)⟩
  exact Nat.one_ne_zero (injectRaw_draws.symm.trans hfree)

end Sys2Proof.Machine
end
